-- ==== Sys2Proof/Word.lean ====
section
/-! DEFINITION. The words of the engine (R9, R88, R142) and the type of sparse data kept by key. -/

namespace Sys2Proof

/-- A byte. -/
abbrev W8 := BitVec 8
/-- A halfword: a status of R17. -/
abbrev W16 := BitVec 16
/-- A BAR0 register (R12), a lane of a vector register, a mask register (R142). -/
abbrev W32 := BitVec 32
/-- A scalar register or c-register (R91, R94); an FP64 bit pattern. -/
abbrev W64 := BitVec 64

/-- Sparse data by key, keys strictly rising: registers, cores, tiles, contexts. What an unlisted key reads as is
given at each read. -/
abbrev FMap (α : Type) := List (Nat × α)

end Sys2Proof
end

