-- ==== Sys2Proof/Config.lean ====
section
/-! DEFINITION. What one implementation fixes and the manual does not state: constants without a body, so that no
proof can see their value. Each is named in a log entry. -/

namespace Sys2Proof

/-- R48: the order in which the block sums of one output are added is unspecified and depends only on the
instruction, its shape and its mode. Pick `i` of the free order: which of the remaining block sums is added next.
Arguments: the immediate of the instruction (shape, formats), its modifiers, `i`. Log 7. -/
opaque Config.blockPick : W32 → BitVec 6 → Nat → Nat

/-- R51: beyond 32,768 block sums the engine promises no value. The FP32 word (or, for a compensated pair, the two words) that
the accumulator then holds, from its prior contents, the block sums and the instruction. Log 8. -/
opaque Config.foldedSum : W32 → BitVec 6 → List W32 → W32

/-- R155: the value `vfn` returns inside its error bound, by function code and input. Log 9. -/
opaque Config.vfnValue : Nat → W32 → W32

/-- R149: does the implementation detect tininess before rounding? IEEE 754 leaves this to it. Log 9. -/
opaque Config.tinyBefore : Bool

/-- R264: the FP64 power beta^u' whose internal roundings the manual does not state. Log 10. -/
opaque Config.powF64 : W32 → Nat → W64

/-- Has a relay module a working port group to a module (R293)? No message tells it to another module, so the value is free (log 67);
the first argument is the state's counter. -/
opaque Config.farGroup : Nat → Nat → Nat → Bool

/-- Weight of a tile among the four of its region when their energy is divided (R280: by powered state and activity counts, in a way
that the manual does not give), from its sleep tier, 0 = active to 3 = off, and its activity count (log 66). -/
opaque Config.energyWeight : Nat → Nat → Nat

/-- R330, R455, R456: the SHAKE256 digest of 64 bytes, a named standard that the manual does not restate. Log 11. -/
opaque Config.shake256 : List W8 → List W8

/-- R450: whether an Ed448 signature verifies under release key `k` (a key the manual does not give). Log 11. -/
opaque Config.ed448Verify : Nat → List W8 → List W8 → Bool

/-- R456: the 114-byte Ed448 signature under the identity private key. Log 11. -/
opaque Config.ed448Sign : List W8 → List W8 → List W8

/-- R455: the 64-byte measurement of the ROM stage, fixed for stepping A1 and not given. Log 11. -/
opaque Config.romMeasurement : List W8

/-- R166, R213: the byte that a read of a poisoned byte delivers, by free counter and address. Log 17. -/
opaque Config.poisonByte : Nat → Nat → W8

/-- R431: the bytes of a dump section whose layout the manual does not give, by section type and free counter. Log 12. -/
opaque Config.dumpSection : Nat → Nat → List W8

/-- R71: the bytes of a basting store whose layout, or whose content, the manual does not give, by free counter and place in the dump's
section 8. Log 65. -/
opaque Config.storeByte : Nat → Nat → W8

/-- R413: the level that boundary-scan cell `i` samples at a pin, by free counter. Log 12. -/
opaque Config.tapPins : Nat → Nat → Bool

/-- R443: the factory data of a configuration generation translated to another format. Log 12. -/
opaque Config.translateConfig : List W8 → Nat → List W8

/-- R449: can an image read the records of the firmware data area that another image wrote? The images, by their package
headers: the reader, then the writer. The version numbers are the images' own. Log 38. -/
opaque Config.readsData : List W8 → List W8 → Bool

/-- R223, R227: how a row maps to the device is the cistern's own: the bank, numbered as in CS_PPR_SEL, of a channel's row, and the row
of the raw layout that a bank and row address of CS_PPR_SEL name. Log 26. -/
opaque Config.rowBank : Nat → Nat → Nat

/-- The other direction of the same map, by channel, bank and row address. Log 26. -/
opaque Config.bankRow : Nat → Nat → Nat → Nat

/-- R393: what the endpoint answers to an MCTP control message, which the manual does not restate. Log 12. -/
opaque Config.mctpAnswer : List W8 → List W8

/-- R459: what the command processor writes to c.epoch and c.mb at the start of a serving batch. Log 13. -/
opaque Config.freeWord : Nat → W64

end Sys2Proof
end

