-- ==== Sys2Proof/Machine/Maps.lean ====
section
/-! DEFINITION. Sparse data by key and the byte helpers that every family uses (R9: little-endian). -/

namespace Sys2Proof.Machine

/-- The entry at a key. -/
def fget? {α : Type} (k : Nat) : FMap α → Option α
  | [] => none
  | e :: r => if k = e.1 then some e.2 else fget? k r

/-- The entry at a key, or what an unlisted key reads as. -/
def fget {α : Type} (d : α) (k : Nat) (m : FMap α) : α := (fget? k m).getD d

/-- Write one entry, keys kept rising. -/
def fset {α : Type} (k : Nat) (v : α) : FMap α → FMap α
  | [] => [(k, v)]
  | e :: r => if k = e.1 then (k, v) :: r else if k < e.1 then (k, v) :: e :: r else e :: fset k v r

/-- Drop one entry. -/
def ferase {α : Type} (k : Nat) : FMap α → FMap α
  | [] => []
  | e :: r => if k = e.1 then ferase k r else e :: ferase k r

/-- Change one entry. -/
def fmod {α : Type} (d : α) (k : Nat) (g : α → α) (m : FMap α) : FMap α := fset k (g (fget d k m)) m

/-- Change every listed entry. -/
def fmapAll {α : Type} (g : Nat → α → α) (m : FMap α) : FMap α := m.map fun e => (e.1, g e.1 e.2)

/-- A sorted set of numbers: insert. -/
def nins (k : Nat) : List Nat → List Nat
  | [] => [k]
  | a :: r => if k = a then a :: r else if k < a then k :: a :: r else a :: nins k r

/-- A set of numbers: remove. -/
def ndel (k : Nat) (l : List Nat) : List Nat := l.filter (· != k)

/-- Insert several numbers. -/
def ninsAll (ks l : List Nat) : List Nat := ks.foldl (fun a k => nins k a) l

/-- Remove several numbers. -/
def ndelAll (ks l : List Nat) : List Nat := l.filter fun a => !(ks.contains a)

/-- Remove one equal copy of `a`. -/
def eraseOne {α : Type} [DecidableEq α] (a : α) : List α → List α
  | [] => []
  | b :: r => if a = b then r else b :: eraseOne a r

/-- R9: `n` bytes of a number, least significant first. -/
def leBytes : Nat → Nat → List W8
  | 0, _ => []
  | n + 1, v => BitVec.ofNat 8 v :: leBytes n (v / 256)

/-- R9: the number that bytes spell, least significant first. -/
def leNat : List W8 → Nat
  | [] => 0
  | b :: r => b.toNat + 256 * leNat r

/-- The number at `off` of width `n` inside a byte list; bytes beyond the list read as zero. -/
def leAt (l : List W8) (off n : Nat) : Nat := leNat ((l.drop off).take n)

/-- Bits `[lo + w - 1 : lo]` of a number. -/
def bitsAt (v lo w : Nat) : Nat := v / 2 ^ lo % 2 ^ w

/-- One bit of a number. -/
def bitAt (v i : Nat) : Bool := v / 2 ^ i % 2 == 1

/-- A number with the field `[lo + w - 1 : lo]` replaced. -/
def putBits (v lo w x : Nat) : Nat := v - bitsAt v lo w * 2 ^ lo + x % 2 ^ w * 2 ^ lo

/-- Split a list into pieces of `n` (fuel: the list itself). -/
def chunksAux {α : Type} (n : Nat) : Nat → List α → List (List α)
  | 0, _ => []
  | k + 1, l => if l.isEmpty then [] else l.take n :: chunksAux n k (l.drop n)

/-- Split a list into pieces of `n` elements, the last perhaps shorter. -/
def chunks {α : Type} (n : Nat) (l : List α) : List (List α) := chunksAux n l.length l

/-- Smallest multiple count: the quotient rounded up. -/
def ceilDiv (a b : Nat) : Nat := (a + b - 1) / b

/-- Replace the element at an index of a list; nothing beyond its end. -/
def lset {α : Type} (l : List α) (i : Nat) (v : α) : List α := l.set i v

/-- Number of 1 bits of the `n` low bits. -/
def popCount : Nat → Nat → Nat
  | 0, _ => 0
  | n + 1, v => v % 2 + popCount n (v / 2)

/-- Saturating count of a 32-bit register (the counts of the register tables). -/
def satAdd32 (v n : Nat) : Nat := if v + n < 2 ^ 32 then v + n else 2 ^ 32 - 1

end Sys2Proof.Machine
end

