-- ==== Sys2Proof/Machine/Float.lean ====
section
/-! DEFINITION. Number formats, rounding and conversion (02: R29 to R47, R52) on exact dyadic values. -/

namespace Sys2Proof.Machine

/-- A floating-point format of Table 2.1 (and FP64): exponent and mantissa bits, bias, which encodings are Inf and NaN,
and whether a finite value beyond the range becomes Inf (class O of R42) or saturates (class S). -/
structure Fmt where
  eb : Nat
  mb : Nat
  bias : Nat
  /-- e all ones is Inf and NaN (FP32, BF16, FP16, E5M2, FP64) -/
  ieee : Bool
  /-- only the all-ones encodings are NaN (E4M3) -/
  nanTop : Bool
  /-- class O on overflow; otherwise class S -/
  ovf : Bool
  deriving DecidableEq, Repr

/-- Table 2.1. -/
def f64 : Fmt := ⟨11, 52, 1023, true, false, true⟩
/-- Table 2.1. -/
def f32 : Fmt := ⟨8, 23, 127, true, false, true⟩
/-- Table 2.1. -/
def bf16 : Fmt := ⟨8, 7, 127, true, false, true⟩
/-- Table 2.1. -/
def f16 : Fmt := ⟨5, 10, 15, true, false, true⟩
/-- Table 2.1. -/
def e4m3 : Fmt := ⟨4, 3, 7, false, true, false⟩
/-- Table 2.1. -/
def e5m2 : Fmt := ⟨5, 2, 15, true, false, false⟩
/-- Table 2.1. -/
def e3m2 : Fmt := ⟨3, 2, 3, false, false, false⟩
/-- Table 2.1. -/
def e2m3 : Fmt := ⟨2, 3, 1, false, false, false⟩
/-- Table 2.1. -/
def e2m1 : Fmt := ⟨2, 1, 1, false, false, false⟩

/-- A value: NaN, an infinity, or (−1)^neg × m × 2^e exactly. -/
inductive FV where
  | nan
  | inf (neg : Bool)
  | fin (neg : Bool) (m : Nat) (e : Int)
  deriving DecidableEq, Repr, Inhabited

/-- Sticky flags of R39 and R148. -/
structure FFlags where
  nv : Bool := false
  ov : Bool := false
  uf : Bool := false
  nx : Bool := false
  dz : Bool := false
  pix : Bool := false
  deriving DecidableEq, Repr, Inhabited

/-- Flags raised by either of two operations. -/
def FFlags.or (a b : FFlags) : FFlags :=
  ⟨a.nv || b.nv, a.ov || b.ov, a.uf || b.uf, a.nx || b.nx, a.dz || b.dz, a.pix || b.pix⟩

/-- Table 6.2: the flags as bits of c.vstat. -/
def FFlags.bits (a : FFlags) : Nat :=
  a.nv.toNat + 2 * a.ov.toNat + 4 * a.uf.toNat + 8 * a.nx.toNat + 16 * a.dz.toNat + 32 * a.pix.toNat

/-- Rounding of R38; stochastic rounding carries the drawn r_i of R40. -/
inductive RMode where
  | rne
  | rz
  | sr (r : Nat)
  deriving DecidableEq, Repr

/-- Width of a format's encoding. -/
def Fmt.width (f : Fmt) : Nat := 1 + f.eb + f.mb

/-- R31: the canonical NaN of a format. -/
def Fmt.nanBits (f : Fmt) : Nat :=
  if f.nanTop then 2 ^ (f.eb + f.mb) - 1 else (2 ^ f.eb - 1) * 2 ^ f.mb + 2 ^ (f.mb - 1)

/-- Infinity's encoding without sign. -/
def Fmt.infBits (f : Fmt) : Nat := (2 ^ f.eb - 1) * 2 ^ f.mb

/-- Encoding, without sign, of the largest finite value. -/
def Fmt.maxBits (f : Fmt) : Nat :=
  if f.ieee then f.infBits - 1 else if f.nanTop then 2 ^ (f.eb + f.mb) - 2 else 2 ^ (f.eb + f.mb) - 1

/-- Sign bit of an encoding. -/
def Fmt.signBit (f : Fmt) (neg : Bool) : Nat := neg.toNat * 2 ^ (f.eb + f.mb)

/-- R29: the value of an encoding. -/
def Fmt.decode (f : Fmt) (b : Nat) : FV :=
  let neg := bitAt b (f.eb + f.mb)
  let e := bitsAt b f.mb f.eb
  let m := bitsAt b 0 f.mb
  if f.ieee && e == 2 ^ f.eb - 1 then (if m == 0 then .inf neg else .nan)
  else if f.nanTop && e == 2 ^ f.eb - 1 && m == 2 ^ f.mb - 1 then .nan
  else if e == 0 then .fin neg m (1 - (f.bias : Int) - f.mb)
  else .fin neg (2 ^ f.mb + m) ((e : Int) - f.bias - f.mb)

/-- m × 2^e rounded to a multiple of 2^k: the multiple, and whether it is inexact. -/
def roundAt (mode : RMode) (m : Nat) (e k : Int) : Nat × Bool :=
  if k ≤ e then (m * 2 ^ (e - k).toNat, false)
  else
    let sh := (k - e).toNat
    let q := m / 2 ^ sh
    let rem := m % 2 ^ sh
    if rem == 0 then (q, false)
    else match mode with
      | .rz => (q, true)
      | .rne =>
        let half := 2 ^ (sh - 1)
        (if rem > half || (rem == half && q % 2 == 1) then q + 1 else q, true)
      | .sr r => (if r < rem * 2 ^ 32 / 2 ^ sh then q + 1 else q, true)

/-- Weight of the last place kept: of the value's own precision, or of the subnormals. -/
def Fmt.lastPlace (f : Fmt) (m : Nat) (e : Int) : Int :=
  max ((Nat.log2 m : Int) + e - f.mb) (1 - (f.bias : Int) - f.mb)

/-- Encoding, without sign, of q × 2^k, q at most 2^(mb+1), in range. -/
def Fmt.pack (f : Fmt) (q : Nat) (k : Int) : Nat :=
  if q < 2 ^ f.mb then q
  else if q < 2 ^ (f.mb + 1) then (k + f.mb + f.bias).toNat * 2 ^ f.mb + (q - 2 ^ f.mb)
  else (k + 1 + f.mb + f.bias).toNat * 2 ^ f.mb

/-- R38, R42: a finite value rounded into a format, with the flags of R39. -/
def Fmt.roundFin (f : Fmt) (mode : RMode) (neg : Bool) (m : Nat) (e : Int) : Nat × FFlags :=
  if m == 0 then (f.signBit neg, {})
  else
    let k := f.lastPlace m e
    let r := roundAt mode m e k
    let p := f.pack r.1 k
    let h := (match mode with | .sr _ => f.pack (roundAt .rne m e k).1 k | _ => p)
    if f.ovf && h > f.maxBits then
      (f.signBit neg + (match mode with | .rz => f.maxBits | _ => f.infBits), { ov := true, nx := true })
    else if f.ovf && p > f.maxBits then (f.signBit neg + f.maxBits, { nx := true })
    else if p > f.maxBits then (f.signBit neg + f.maxBits, { ov := true, nx := true })
    else (f.signBit neg + p, { nx := r.2, uf := r.2 && p < 2 ^ f.mb })

/-- R42, R43: any value converted to a floating-point format. -/
def Fmt.encode (f : Fmt) (mode : RMode) : FV → Nat × FFlags
  | .nan => if f.ieee || f.nanTop then (f.nanBits, {}) else (0, { nv := true })
  | .inf neg => if f.ieee then (f.signBit neg + f.infBits, {})
                else (f.signBit neg + f.maxBits, { ov := true, nx := true })
  | .fin neg m e => f.roundFin mode neg m e

/-- Two's complement of `w` bits. -/
def toTwos (w : Nat) (v : Int) : Nat := (v % (2 ^ w : Int)).toNat

/-- Signed value of `w` bits. -/
def fromTwos (w v : Nat) : Int := if v % 2 ^ w < 2 ^ (w - 1) then (v % 2 ^ w : Nat) else (v % 2 ^ w : Nat) - (2 ^ w : Int)

/-- R42, R43: any value converted to a two's-complement integer of `w` bits. -/
def encodeInt (w : Nat) (mode : RMode) : FV → Nat × FFlags
  | .nan => (0, { nv := true })
  | .inf neg => (if neg then 2 ^ (w - 1) else 2 ^ (w - 1) - 1, { ov := true, nx := true })
  | .fin neg m e =>
    let r := roundAt mode m e 0
    let v : Int := if neg then -(r.1 : Int) else r.1
    if v < -(2 ^ (w - 1) : Int) then (2 ^ (w - 1), { ov := true, nx := true })
    else if v > 2 ^ (w - 1) - 1 then (2 ^ (w - 1) - 1, { ov := true, nx := true })
    else (toTwos w v, { nx := r.2, uf := r.2 && r.1 == 0 })

/-- floor(log2) of a positive dyadic. -/
def floorLog2 (m : Nat) (e : Int) : Int := (Nat.log2 m : Int) + e

/-- Value × 2^k, exactly. -/
def FV.scale (v : FV) (k : Int) : FV :=
  match v with
  | .fin n m e => .fin n m (e + k)
  | x => x

/-- Signed dyadic as an integer multiple of 2^e. -/
def signed (neg : Bool) (m : Nat) : Int := if neg then -(m : Int) else m

/-- Value of an integer multiple of 2^e; a zero is +0. -/
def ofSigned (v : Int) (e : Int) : FV := .fin (v < 0) v.natAbs e

/-- Exact sum of two finite dyadics. Sum zero: −0 only when both are negative zeros (R30, R149). -/
def addFin (n1 : Bool) (m1 : Nat) (e1 : Int) (n2 : Bool) (m2 : Nat) (e2 : Int) : FV :=
  let e := min e1 e2
  let v := signed n1 m1 * (2 ^ (e1 - e).toNat : Nat) + signed n2 m2 * (2 ^ (e2 - e).toNat : Nat)
  if v == 0 then .fin (n1 && n2) 0 e else ofSigned v e

/-- Exact sum, before rounding; Inf − Inf is invalid. -/
def FV.add : FV → FV → FV × Bool
  | .nan, _ => (.nan, false)
  | _, .nan => (.nan, false)
  | .inf a, .inf b => if a == b then (.inf a, false) else (.nan, true)
  | .inf a, _ => (.inf a, false)
  | _, .inf b => (.inf b, false)
  | .fin n1 m1 e1, .fin n2 m2 e2 => (addFin n1 m1 e1 n2 m2 e2, false)

/-- Sign reversed. -/
def FV.neg : FV → FV
  | .nan => .nan
  | .inf a => .inf (!a)
  | .fin n m e => .fin (!n) m e

/-- Exact product; 0 × Inf is invalid. -/
def FV.mul : FV → FV → FV × Bool
  | .nan, _ => (.nan, false)
  | _, .nan => (.nan, false)
  | .inf a, .inf b => (.inf (a != b), false)
  | .inf a, .fin n m _ => if m == 0 then (.nan, true) else (.inf (a != n), false)
  | .fin n m _, .inf b => if m == 0 then (.nan, true) else (.inf (n != b), false)
  | .fin n1 m1 e1, .fin n2 m2 e2 => (.fin (n1 != n2) (m1 * m2) (e1 + e2), false)

/-- Is the value zero? -/
def FV.isZero : FV → Bool
  | .fin _ m _ => m == 0
  | _ => false

/-- Is the value finite? -/
def FV.isFin : FV → Bool
  | .fin _ _ _ => true
  | _ => false

/-- Numeric order of two values that are not NaN: less. Zeros are equal (R30). -/
def FV.lt : FV → FV → Bool
  | .nan, _ => false
  | _, .nan => false
  | .inf a, .inf b => a && !b
  | .inf a, _ => a
  | _, .inf b => !b
  | .fin n1 m1 e1, .fin n2 m2 e2 =>
    let e := min e1 e2
    signed n1 m1 * (2 ^ (e1 - e).toNat : Nat) < signed n2 m2 * (2 ^ (e2 - e).toNat : Nat)

/-- Numeric equality; NaN equals nothing. -/
def FV.eq (a b : FV) : Bool :=
  match a, b with
  | .nan, _ => false
  | _, .nan => false
  | a, b => !(a.lt b) && !(b.lt a)

/-- Magnitude. -/
def FV.abs : FV → FV
  | .inf _ => .inf false
  | .fin _ m e => .fin false m e
  | x => x

/-- Quotient with 80 bits below its leading bit and a last bit that records any remainder, so that one later
rounding is correct. -/
def divFin (n1 : Bool) (m1 : Nat) (e1 : Int) (n2 : Bool) (m2 : Nat) (e2 : Int) : FV :=
  let sh := 80 + Nat.log2 m2
  let q := m1 * 2 ^ sh / m2
  let r := m1 * 2 ^ sh % m2
  .fin (n1 != n2) (2 * q + (if r == 0 then 0 else 1)) (e1 - e2 - sh - 1)

/-- Quotient; 0/0 and Inf/Inf are invalid, x/0 is an infinity. -/
def FV.div : FV → FV → FV × FFlags
  | .nan, _ => (.nan, {})
  | _, .nan => (.nan, {})
  | .inf _, .inf _ => (.nan, { nv := true })
  | .inf a, .fin n _ _ => (.inf (a != n), {})
  | .fin n _ e, .inf b => (.fin (n != b) 0 e, {})
  | .fin n1 m1 e1, .fin n2 m2 e2 =>
    if m2 == 0 then (if m1 == 0 then (.nan, { nv := true }) else (.inf (n1 != n2), { dz := true }))
    else (divFin n1 m1 e1 n2 m2 e2, {})

/-- Integer square root by bits, from bit `k` downward. -/
def isqrtAux : Nat → Nat → Nat → Nat
  | 0, _, r => r
  | k + 1, n, r => if (r + 2 ^ k) * (r + 2 ^ k) ≤ n then isqrtAux k n (r + 2 ^ k) else isqrtAux k n r

/-- Largest r with r² ≤ n. -/
def isqrt (n : Nat) : Nat := isqrtAux (Nat.log2 n / 2 + 1) n 0

/-- Square root with enough bits and a last bit that records any remainder. -/
def FV.sqrt : FV → FV × Bool
  | .nan => (.nan, false)
  | .inf n => if n then (.nan, true) else (.inf false, false)
  | .fin n m e =>
    if m == 0 then (.fin n 0 e, false)
    else if n then (.nan, true)
    else
      let sh : Nat := 130 + (if (e - 130) % 2 == 0 then 0 else 1)
      let w := m * 2 ^ sh
      let r := isqrt w
      (.fin false (2 * r + (if r * r == w then 0 else 1)) ((e - sh) / 2 - 1), false)

/-! FP32 and FP64 operations on encodings. -/

/-- IEEE 754: is a finite result tiny: below the smallest normal value, before rounding or, where the implementation detects
it so, after rounding to the format's precision with an unbounded exponent? IEEE 754 leaves the choice (log 9). -/
def Fmt.tiny (f : Fmt) (mode : RMode) : FV → Bool
  | .fin _ m e =>
    let low : Int := 1 - f.bias
    let q := (roundAt mode m e (floorLog2 m e - f.mb)).1
    m != 0 && floorLog2 m e < low && (Config.tinyBefore || floorLog2 m e + 1 < low || q < 2 ^ (f.mb + 1))
  | _ => false

/-- R149: an exact result of arithmetic rounded into a format, with the invalid flag of the operation; UF as IEEE 754 signals
it: a tiny result that is inexact. -/
def Fmt.result (f : Fmt) (mode : RMode) (x : FV × Bool) : Nat × FFlags :=
  let r := f.encode mode x.1
  (r.1, { r.2 with nv := r.2.nv || x.2, uf := r.2.nx && f.tiny mode x.1 })

/-- R149: addition. -/
def Fmt.addB (f : Fmt) (mode : RMode) (a b : Nat) : Nat × FFlags := f.result mode ((f.decode a).add (f.decode b))
/-- R149: subtraction. -/
def Fmt.subB (f : Fmt) (mode : RMode) (a b : Nat) : Nat × FFlags := f.result mode ((f.decode a).add (f.decode b).neg)
/-- R149: multiplication. -/
def Fmt.mulB (f : Fmt) (mode : RMode) (a b : Nat) : Nat × FFlags := f.result mode ((f.decode a).mul (f.decode b))
/-- R149: a × b + c, one rounding. -/
def Fmt.fmaB (f : Fmt) (mode : RMode) (a b c : Nat) : Nat × FFlags :=
  let p := (f.decode a).mul (f.decode b)
  let t := p.1.add (f.decode c)
  f.result mode (t.1, p.2 || t.2)
/-- Division, rounded once. -/
def Fmt.divB (f : Fmt) (mode : RMode) (a b : Nat) : Nat × FFlags :=
  let q := (f.decode a).div (f.decode b)
  let r := f.encode mode q.1
  (r.1, r.2.or q.2)
/-- Square root, rounded once. -/
def Fmt.sqrtB (f : Fmt) (mode : RMode) (a : Nat) : Nat × FFlags := f.result mode ((f.decode a).sqrt)

/-- FP32 words. -/
def add32 (a b : W32) : W32 := BitVec.ofNat 32 (f32.addB .rne a.toNat b.toNat).1
/-- FP32 words. -/
def sub32 (a b : W32) : W32 := BitVec.ofNat 32 (f32.subB .rne a.toNat b.toNat).1
/-- FP32 words. -/
def mul32 (a b : W32) : W32 := BitVec.ofNat 32 (f32.mulB .rne a.toNat b.toNat).1
/-- FP32 words. -/
def div32 (a b : W32) : W32 := BitVec.ofNat 32 (f32.divB .rne a.toNat b.toNat).1
/-- FP32 words. -/
def sqrt32 (a : W32) : W32 := BitVec.ofNat 32 (f32.sqrtB .rne a.toNat).1
/-- FP32 words. -/
def fma32 (a b c : W32) : W32 := BitVec.ofNat 32 (f32.fmaB .rne a.toNat b.toNat c.toNat).1
/-- FP64 words. -/
def add64 (a b : W64) : W64 := BitVec.ofNat 64 (f64.addB .rne a.toNat b.toNat).1
/-- FP64 words. -/
def mul64 (a b : W64) : W64 := BitVec.ofNat 64 (f64.mulB .rne a.toNat b.toNat).1
/-- FP64 words. -/
def sub64 (a b : W64) : W64 := BitVec.ofNat 64 (f64.subB .rne a.toNat b.toNat).1
/-- FP64 words. -/
def div64 (a b : W64) : W64 := BitVec.ofNat 64 (f64.divB .rne a.toNat b.toNat).1
/-- FP64 words. -/
def sqrt64 (a : W64) : W64 := BitVec.ofNat 64 (f64.sqrtB .rne a.toNat).1
/-- FP32 widened to FP64, exactly. -/
def to64 (a : W32) : W64 := BitVec.ofNat 64 (f64.encode .rne (f32.decode a.toNat)).1
/-- FP64 rounded to FP32. -/
def to32 (a : W64) : W32 := BitVec.ofNat 32 (f32.encode .rne (f64.decode a.toNat)).1

/-! The stochastic rounding generator. -/

/-- R40: the mixing function. -/
def mix (x : W64) : W64 :=
  let x := x ^^^ (x >>> 33)
  let x := x * 0xFF51AFD7ED558CCD#64
  let x := x ^^^ (x >>> 33)
  let x := x * 0xC4CEB9FE1A85EC53#64
  x ^^^ (x >>> 33)

/-- R40: lane i's draw from key and counter. -/
def drawLane (key ctr : W64) (i : Nat) : Nat := (mix (key ^^^ (ctr * 32#64 + BitVec.ofNat 64 i))).toNat % 2 ^ 32

/-! Element formats by code. -/

/-- An element format of Tables 5.5, 6.1 and 8.6: a floating-point format or an integer; `frac` is the scale of the
MXINT8 element (R32). -/
inductive Elem where
  | fp (f : Fmt)
  | int (w : Nat)
  | mxi8
  deriving DecidableEq, Repr

/-- Value of an encoding of an element format. -/
def Elem.decode : Elem → Nat → FV
  | .fp f, b => f.decode b
  | .int w, b => ofSigned (fromTwos w b) 0
  | .mxi8, b => ofSigned (fromTwos 8 b) (-6)

/-- A value converted to an element format (R42, R43, R153). DEDUCED: Table 2.7 has no row for the MXINT8 element, and NaN and
infinite inputs toward it follow its INT8 row (log 48). -/
def Elem.encode : Elem → RMode → FV → Nat × FFlags
  | .fp f, mode, v => f.encode mode v
  | .int w, mode, v => encodeInt w mode v
  | .mxi8, mode, v => encodeInt 8 mode (v.scale 6)

/-- Table 2.3: unbiased exponent of the element format's largest normal value. -/
def Elem.emax : Elem → Int
  | .fp f => if f = e4m3 then 8 else if f = e5m2 then 15 else if f = e3m2 then 4 else if f = e2m3 then 2
             else if f = e2m1 then 2 else 0
  | _ => 0

/-- Does the element format have Inf (R36 case 2)? -/
def Elem.hasInf : Elem → Bool
  | .fp f => f.ieee
  | _ => false

/-- The largest magnitude over the finite values. -/
def amaxOf (vs : List FV) : FV :=
  vs.foldl (fun a v => if v.isFin && a.lt v.abs then v.abs else a) (.fin false 0 0)

/-- R36: scale byte of a block of values for an element format, and whether NV is set. -/
def scaleByte (el : Elem) (vs : List FV) : Nat × Bool :=
  if vs.any (fun v => v == .nan) then (0xFF, true)
  else if !el.hasInf && vs.any (fun v => !v.isFin) then (0xFF, true)
  else match amaxOf vs with
    | .fin _ m e => if m == 0 then (0, false)
        else ((max (-127) (min 127 (floorLog2 m e - el.emax)) + 127).toNat, false)
    | _ => (0, false)

/-- R37: value of an MX element under its scale byte. -/
def mxValue (el : Elem) (scale b : Nat) : FV :=
  if scale == 0xFF then .nan else (el.decode b).scale ((scale : Int) - 127)

/-! Tensor element packing (R33) and the check value (R205). -/

/-- R33: the k-th packed element of width `w` bits (4, 6, 8, 16 or 32) in a byte list. -/
def elemAt (w : Nat) (l : List W8) (k : Nat) : Nat := bitsAt (leAt l (k * w / 8) 5) (k * w % 8) w

/-- Pack numbers of `w` bits into bytes, least significant first; the last byte padded with zeros (R33, R204). -/
def packElems (w : Nat) (es : List Nat) : List W8 :=
  let groups := chunks (if w == 4 then 2 else if w == 6 then 4 else 1) es
  groups.flatMap fun g =>
    let v := g.reverse.foldl (fun a x => a * 2 ^ w + x % 2 ^ w) 0
    leBytes (if w == 4 then 1 else if w == 6 then 3 else w / 8) v

/-- R205: one step of the reflected CRC-32C. -/
def crcStep (c : Nat) : Nat := if c % 2 == 1 then (c / 2) ^^^ 0x82F63B78 else c / 2

/-- R205: one byte. -/
def crcByte (c : Nat) (b : W8) : Nat :=
  crcStep (crcStep (crcStep (crcStep (crcStep (crcStep (crcStep (crcStep (c ^^^ b.toNat))))))))

/-- R205: CRC-32C of a byte list. -/
def crc32c (l : List W8) : W32 := BitVec.ofNat 32 ((l.foldl crcByte 0xFFFFFFFF) ^^^ 0xFFFFFFFF)

end Sys2Proof.Machine
end

