-- ==== Sys2Proof/Syntax.lean ====
section
/-! DEFINITION. The commands of the block: one constructor for each row of spec/opcode_table.json, and the data that
commands carry. -/

namespace Sys2Proof

/-- One stream slot of one logical core (R57): slot 0 = F, 1 = B, 2 = U. -/
structure StreamId where
  lcid : Nat
  slot : Nat
  deriving DecidableEq, Repr, Inhabited

/-- The fields of a Luzel instruction word beside its opcode (R88, Table 4.1). -/
structure Fields where
  dst : BitVec 5 := 0
  src1 : BitVec 5 := 0
  src2 : BitVec 5 := 0
  mask : BitVec 3 := 0
  mod : BitVec 6 := 0
  imm : W32 := 0
  deriving DecidableEq, Repr, Inhabited

/-- The areas of an LPDDR channel (Table 9.2): mapped data, and the private ones. -/
inductive MemArea where
  | mapped | spare | journal | dump
  deriving DecidableEq, Repr, Inhabited

/-- A symbol error that an access meets in the codeword at `addr`: correctable, or uncorrectable when `ue`
(R166, R213). Errors come from the cells and so come with the access. In a private area of LPDDR `addr` is the number of the channel
in the module times 2^25 plus the offset in the channel's area. -/
structure SymErr where
  addr : Nat
  ue : Bool
  /-- the error lies in check bytes (LPDDR only) -/
  check : Bool := false
  area : MemArea := .mapped
  /-- not a codeword's error but a correction of the link code of LPDDR5X on the way (R208) -/
  link : Bool := false
  deriving DecidableEq, Repr, Inhabited

/-- An operand of a command, with the symbol errors that the command's reads meet. -/
structure Met (α : Type) where
  arg : α
  errs : List SymErr
  deriving DecidableEq, Repr

/-- The stamp of R323: context and generation; generation 0 is no binding. -/
structure Stamp where
  ctx : Nat
  gen : Nat
  deriving DecidableEq, Repr, Inhabited

/-- The four tags of R173. -/
structure Tags where
  lcid : Nat
  slot : Nat
  seq : Nat
  replay : Nat
  deriving DecidableEq, Repr, Inhabited

/-- A tensor block (R203, Table 8.7): header fields and payload bytes. -/
structure Block where
  crc : W32 := 0
  poison : Bool := false
  prov : Bool := false
  widened : Bool := false
  /-- header bytes 40–47: zero in every block that a unit builds, and under the check value as they are stored (R205) -/
  res : W64 := 0
  fmt : Nat := 0
  nblk : Nat := 0
  vbytes : Nat := 0
  gen : Nat := 0
  ctx : Nat := 0
  pslot : Nat := 0
  plcid : Nat := 0
  preplay : Nat := 0
  pseq : Nat := 0
  bidx : Nat := 0
  wgen : Nat := 0
  pord : Nat := 0
  payload : List W8 := []
  deriving DecidableEq, Repr, Inhabited

/-- Where a carried block goes: a ring of a logical core, or an address of LPDDR or of a well (R198 dkind). -/
inductive BlockDest where
  | ring (lcid ring : Nat)
  | range (addr : Nat)
  deriving DecidableEq, Repr, Inhabited

/-- How a block travels (R198 to R201): the sending pump and descriptor, the destination, the place of the block's
slot in the transfer and what the ingress does with it. -/
structure Carriage where
  unit : Nat
  job : Nat
  dest : BlockDest
  slotNo : Nat := 0
  first : Nat := 0
  count : Nat := 1
  draw : Bool := false
  skew : Bool := false
  sfmt : Nat := 0
  dfmt : Nat := 0
  prows : Nat := 0
  pcols : Nat := 0
  /-- MX blocks of the slot or area, and the number in the transfer of its first block -/
  mxk : Nat := 0
  base : Nat := 0
  st : Stamp
  deriving DecidableEq, Repr, Inhabited

/-- The element types of `amoadd` (Table 4.8). -/
inductive AmoType where
  | fp32 | int32 | int64
  deriving DecidableEq, Repr

/-- What `amoadd` adds (R105). -/
structure AmoAdd where
  ty : AmoType
  value : W64
  deriving DecidableEq, Repr

/-- A read of the host at an offset of BAR0, with its size in bytes (R12). -/
structure HostAccess where
  offset : Nat
  size : Nat
  deriving DecidableEq, Repr, Inhabited

/-- Where a message enters the mesh: a logical core, a tile's pumps (0 to 63) or a cistern's (64 on), the well-head. -/
inductive Site where
  | core (lcid : Nat)
  | unit (k : Nat)
  | head
  deriving DecidableEq, Repr, Inhabited

/-- Who sent a message: where it enters the mesh, and its stamp. -/
structure Sender where
  site : Site
  st : Stamp
  deriving DecidableEq, Repr, Inhabited

/-- A request that reaches a cistern (R218). -/
inductive MemReq where
  /-- an outstanding load of a slot, by its number -/
  | load (u : StreamId) (id : Nat) (st : Stamp)
  /-- one gated write of a logical core: contiguous pieces, by address, in one channel -/
  | store (src : Nat) (pieces : List (Nat × List W8)) (st : Stamp)
  /-- a tensor block stored by a pump -/
  | block (d : Carriage) (b : Block)
  deriving DecidableEq, Repr

/-- What releases a forming batch (R255). -/
inductive ReleaseCause where
  | fill | window | idle
  deriving DecidableEq, Repr

/-- What the converters report after a 10 µs period (R280), in units of 2^-40 J: the energy of each region, of the rim and of the standby
input; activity counts of the tiles; bytes that contexts moved through the cisterns. -/
structure EnergyReading where
  regions : List Nat
  rim : Nat
  standby : Nat
  activity : List Nat
  moved : List (Nat × Nat)
  deriving DecidableEq, Repr

/-- The three measured quantities of one layer and tap (R272). -/
structure Meas where
  s : W64 := 0
  a : W32 := 0
  f : Nat := 0
  deriving DecidableEq, Repr, Inhabited

/-- A measurement with its layer and tap, as XDONE and PREPARE carry it (R311). -/
structure LayerMeas where
  layer : Nat
  tap : Nat
  m : Meas
  deriving DecidableEq, Repr

/-- Slot states of a ring (R173). -/
inductive RState where
  | empty | filling | full | provFull | draining
  deriving DecidableEq, Repr

/-- Retired cursors and slot states of one ring, as an image or a START record holds them (R283, R344). -/
structure RingRec where
  lcid : Nat
  ring : Nat
  fill : Nat
  drain : Nat
  states : List (Nat × RState)
  deriving DecidableEq, Repr

/-- A part of a mirror image (Tables 11.2 and 11.8): its number, and the bytes of its active weights and of its moments. -/
structure PartImage where
  part : Nat
  w : List W8
  m : List W8
  v : List W8
  deriving DecidableEq, Repr, Inhabited

/-- A mirror image (Table 11.8): weights and moments of every part, and the captured items. -/
structure MirrorImage where
  epoch : Nat := 0
  u : Nat := 0
  count : Nat := 0
  areas : List PartImage := []
  sos : List (Nat × W64) := []
  rings : List RingRec := []
  gens : List (Nat × W64 × W64 × W64 × W64) := []
  hist : FMap (List W32) := []
  scale : List W8 := []
  meas : List W8 := []
  lossSum : W32 := 0
  lossN : Nat := 0
  trailCount : Nat := 0
  trailNmb : Nat := 0
  mbCrc : W32 := 0
  deriving DecidableEq, Repr, Inhabited

/-- A part of a mirror image at the partner: bytes of one of its items, with its check (R283). -/
structure MirrorPart where
  offset : Nat
  bytes : List W8
  crcOk : Bool
  last : Bool
  deriving DecidableEq, Repr

/-- An Akgon frame (R288, Table 12.2). `code`, `byte1`, `k`, `n`, `epoch` and `spec` are the control body. -/
structure Frame where
  dmod : Nat := 0
  smod : Nat := 0
  ty : Nat := 0
  hops : Nat := 4
  cgen : Nat := 0
  lseq : Nat := 0
  lack : Nat := 0
  dseq : Nat := 0
  term : Nat := 0
  win : Nat := 0
  wblk : Nat := 0
  fcrc : W32 := 0
  code : Nat := 0
  byte1 : Nat := 0
  k : Nat := 0
  n : Nat := 0
  epoch : Nat := 0
  spec : List W8 := []
  meas : List LayerMeas := []
  block : Option Block := none
  /-- mirror data: area at the partner and part (R283) -/
  mirror : Option (Nat × MirrorPart) := none
  /-- inside the module: how an own block of the exchange came to the hem unit (R308), and the port by which a frame was delivered -/
  via : Option Carriage := none
  port : Option Nat := none
  deriving DecidableEq, Repr, Inhabited

/-- The outcome of a frame's forward error correction (R289). -/
inductive FecResult where
  | clean | corrected (codewords : Nat) | uncorrectable (codewords : Nat)
  deriving DecidableEq, Repr

/-- A carrier link of Table 14.1 in the numbering of Table 18.4. -/
inductive CarrierLink where
  | mesh (plane x y dir : Nat)
  | edge (plane cistern link : Nat)
  | wellHead (cistern : Nat)
  | seam (plane y : Nat) (westToEast : Bool)
  | stack (stack chan : Nat)
  deriving DecidableEq, Repr

/-- A snoop that a BIRsp answers: a mirror window line or a staging line (R377, R379). -/
inductive SnoopTarget where
  | mirror (line : Nat)
  | staging (line : Nat)
  deriving DecidableEq, Repr

/-- The causes of protective slow mode (R404): a tile's temperature or a region's input voltage. -/
inductive SlowCause where
  | temp (tile : Nat)
  | volt (region : Nat)
  deriving DecidableEq, Repr

/-- Hottest tile and rim die as the sensors read (R410). -/
structure TempSample where
  tmax : Nat
  tile : Nat
  rmax : Nat
  rdie : Nat
  deriving DecidableEq, Repr

/-- The three PLLs of a tile (R400). -/
inductive Pll where
  | compute | base | akgon
  deriving DecidableEq, Repr

/-- What a region's converter does at step 5 (R421). -/
inductive RegionStart where
  | inRegulation | inputOut | noRegulation
  deriving DecidableEq, Repr

/-- The outcome of an Akgon port's lane training (R422): the failing lanes. -/
structure PortLanes where
  port : Nat
  failing : List Nat
  deriving DecidableEq, Repr

/-- A unit that fails its known-answer test (Table 17.4). -/
inductive KatUnit where
  | core (tile pcore : Nat)
  | well (tile pwell : Nat)
  | cistern (cn : Nat)
  | port (n : Nat)
  deriving DecidableEq, Repr

/-- The instructions of the TAP (R413). -/
inductive TapInstr where
  | bypass | samplePreload | extest | idcode
  deriving DecidableEq, Repr

/-- The commands of the block. Each docstring gives the row's mnemonic, its rule and the row's summary. -/
inductive Instr where
  /-- NOP (R89). The all-zero word issues and has no effect. -/
  | nop (u : StreamId) (f : Fields)
  /-- ADD (R96). Scalar add of A and B modulo 2^64 into s[dst]. -/
  | add (u : StreamId) (f : Fields)
  /-- SUB (R96). Scalar subtract A − B modulo 2^64. -/
  | sub (u : StreamId) (f : Fields)
  /-- AND (R96). Scalar bitwise AND. -/
  | and (u : StreamId) (f : Fields)
  /-- OR (R96). Scalar bitwise OR. -/
  | or (u : StreamId) (f : Fields)
  /-- XOR (R96). Scalar bitwise XOR. -/
  | xor (u : StreamId) (f : Fields)
  /-- SHL (R96). Scalar shift left by B[5:0]. -/
  | shl (u : StreamId) (f : Fields)
  /-- SHR (R96). Scalar logical shift right by B[5:0]. -/
  | shr (u : StreamId) (f : Fields)
  /-- SRA (R96). Scalar arithmetic shift right by B[5:0]. -/
  | sra (u : StreamId) (f : Fields)
  /-- SLT (R96). Writes 1 if A < B signed, else 0. -/
  | slt (u : StreamId) (f : Fields)
  /-- SLTU (R96). Writes 1 if A < B unsigned, else 0. -/
  | sltu (u : StreamId) (f : Fields)
  /-- MIN (R96). Signed minimum of A and B. -/
  | min (u : StreamId) (f : Fields)
  /-- MAX (R96). Signed maximum of A and B. -/
  | max (u : StreamId) (f : Fields)
  /-- MINU (R96). Unsigned minimum of A and B. -/
  | minu (u : StreamId) (f : Fields)
  /-- MAXU (R96). Unsigned maximum of A and B. -/
  | maxu (u : StreamId) (f : Fields)
  /-- MUL (R96). Low 64 bits of A × B. -/
  | mul (u : StreamId) (f : Fields)
  /-- MULH (R96). High 64 bits of the signed 128-bit product. -/
  | mulh (u : StreamId) (f : Fields)
  /-- MULHU (R96). High 64 bits of the unsigned 128-bit product. -/
  | mulhu (u : StreamId) (f : Fields)
  /-- DIV (R97). Signed quotient toward zero, with divide-by-zero giving all ones and setting c.sstat.dz. -/
  | div (u : StreamId) (f : Fields)
  /-- DIVU (R97). Unsigned quotient, with divide-by-zero giving all ones and setting dz. -/
  | divu (u : StreamId) (f : Fields)
  /-- REM (R97). Signed remainder with the sign of A; zero divisor gives A and sets dz. -/
  | rem (u : StreamId) (f : Fields)
  /-- REMU (R97). Unsigned remainder; zero divisor gives A and sets dz. -/
  | remu (u : StreamId) (f : Fields)
  /-- MOVHI (R96). Replaces the upper 32 bits of A with imm. -/
  | movhi (u : StreamId) (f : Fields)
  /-- POP (R96). Counts the 1 bits of A. -/
  | pop (u : StreamId) (f : Fields)
  /-- CLZ (R96). Counts the leading zero bits of A. -/
  | clz (u : StreamId) (f : Fields)
  /-- BR_COND (R98). Conditional PC-relative branch on a comparison of two s-registers. -/
  | brCond (u : StreamId) (f : Fields)
  /-- JAL (R98). Writes the link and jumps PC-relative. -/
  | jal (u : StreamId) (f : Fields)
  /-- JALR (R98). Writes the link and jumps to a register plus offset. -/
  | jalr (u : StreamId) (f : Fields)
  /-- LOOP (R99). Starts a hardware loop that runs the next imm instructions s[src1] times. -/
  | loop (u : StreamId) (f : Fields)
  /-- LOOP_VL (R99). Starts a hardware loop over n elements that sets VL at each iteration. -/
  | loopVl (u : StreamId) (f : Fields)
  /-- DONE (R100). Closes the OPEN stitch, ends active loops and ends the slot's part of the command. -/
  | done (u : StreamId) (f : Fields)
  /-- LD (R103). Scalar load of 1 to 8 bytes through a base/bound pair. -/
  | ld (u : StreamId) (f : Fields) (errs : List SymErr)
  /-- ST (R104). Scalar store, immediate to the own well or gated to LPDDR or host memory. -/
  | st (u : StreamId) (f : Fields) (errs : List SymErr)
  /-- VLD (R103). Vector load of 32-bit words into the active lanes. -/
  | vld (u : StreamId) (f : Fields) (errs : List SymErr)
  /-- VST (R103). Vector store of the active lanes. -/
  | vst (u : StreamId) (f : Fields) (errs : List SymErr)
  /-- AMOADD (R105). Gated atomic add at an LPDDR address. -/
  | amoadd (u : StreamId) (f : Fields)
  /-- FENCE (R107). Waits until the slot's earlier loads have returned, its earlier stores are visible, or both. -/
  | fence (u : StreamId) (f : Fields)
  /-- RACQ_W (R108). Acquires the next empty ring slot for filling and returns its offset. -/
  | racqW (u : StreamId) (f : Fields)
  /-- RACQ_R (R108). Acquires the next full or provisional-full ring slot for draining. -/
  | racqR (u : StreamId) (f : Fields)
  /-- RREL_W (R108). Turns the filling slot to provisional-full. -/
  | rrelW (u : StreamId) (f : Fields)
  /-- RREL_R (R108). Releases the drained slot, which becomes empty at retirement. -/
  | rrelR (u : StreamId) (f : Fields)
  /-- SOW (R109). Waits until a synchronisation object reaches a target and returns its value. -/
  | sow (u : StreamId) (f : Fields)
  /-- SOS (R109). Gated signal that adds an amount to a synchronisation object. -/
  | sos (u : StreamId) (f : Fields)
  /-- SORD (R109). Reads a synchronisation object without waiting. -/
  | sord (u : StreamId) (f : Fields)
  /-- SOW_C (R298). Waits on a cascade synchronisation object, answered by the master. -/
  | sowC (u : StreamId) (f : Fields)
  /-- SOS_C (R298). Gated signal of a cascade synchronisation object sent to the master and the deputy. -/
  | sosC (u : StreamId) (f : Fields)
  /-- SORD_C (R298). Reads a cascade synchronisation object by a round trip to the master. -/
  | sordC (u : StreamId) (f : Fields)
  /-- PPOST (R111). Hands a 64-byte pump descriptor from the own well to the tile's pump queue. -/
  | ppost (u : StreamId) (f : Fields)
  /-- STITCH (R72). Closes the OPEN stitch and writes its closing snapshot to the basting store. -/
  | stitch (u : StreamId) (f : Fields)
  /-- CGET (R94). Reads a c-register into an s-register. -/
  | cget (u : StreamId) (f : Fields)
  /-- CSET (R94). Writes an s-register into a writable c-register. -/
  | cset (u : StreamId) (f : Fields)
  /-- BNAR (R93). Narrows a base/bound pair. -/
  | bnar (u : StreamId) (f : Fields)
  /-- BGET (R93). Reads the base or length of a pair. -/
  | bget (u : StreamId) (f : Fields)
  /-- VADD_F32 (R149). FP32 lane-wise add. -/
  | vaddF32 (u : StreamId) (f : Fields)
  /-- VSUB_F32 (R149). FP32 lane-wise subtract. -/
  | vsubF32 (u : StreamId) (f : Fields)
  /-- VMUL_F32 (R149). FP32 lane-wise multiply. -/
  | vmulF32 (u : StreamId) (f : Fields)
  /-- VFMA_F32 (R149). FP32 fused multiply-add into the destination with one rounding. -/
  | vfmaF32 (u : StreamId) (f : Fields)
  /-- VMIN_F32 (R149). FP32 lane-wise minimum. -/
  | vminF32 (u : StreamId) (f : Fields)
  /-- VMAX_F32 (R149). FP32 lane-wise maximum. -/
  | vmaxF32 (u : StreamId) (f : Fields)
  /-- VABS (R161). Lane-wise absolute value. -/
  | vabs (u : StreamId) (f : Fields)
  /-- VNEG (R161). Lane-wise negation. -/
  | vneg (u : StreamId) (f : Fields)
  /-- VCSGN (R161). Magnitude of s1 with the sign of s2. -/
  | vcsgn (u : StreamId) (f : Fields)
  /-- VCMP_F32 (R149). FP32 lane comparison into a mask register. -/
  | vcmpF32 (u : StreamId) (f : Fields)
  /-- VADD_I32 (R161). INT32 lane-wise add modulo 2^32. -/
  | vaddI32 (u : StreamId) (f : Fields)
  /-- VSUB_I32 (R161). INT32 lane-wise subtract. -/
  | vsubI32 (u : StreamId) (f : Fields)
  /-- VMUL_I32 (R161). INT32 lane-wise multiply, low 32 bits. -/
  | vmulI32 (u : StreamId) (f : Fields)
  /-- VAND (R161). Lane-wise bitwise AND. -/
  | vand (u : StreamId) (f : Fields)
  /-- VOR (R161). Lane-wise bitwise OR. -/
  | vor (u : StreamId) (f : Fields)
  /-- VXOR (R161). Lane-wise bitwise XOR. -/
  | vxor (u : StreamId) (f : Fields)
  /-- VANDN (R161). Lane-wise s1 AND NOT s2. -/
  | vandn (u : StreamId) (f : Fields)
  /-- VSHL (R161). Lane-wise shift left. -/
  | vshl (u : StreamId) (f : Fields)
  /-- VSHR (R161). Lane-wise logical shift right. -/
  | vshr (u : StreamId) (f : Fields)
  /-- VSRA (R161). Lane-wise arithmetic shift right. -/
  | vsra (u : StreamId) (f : Fields)
  /-- VCMP_I32 (R161). INT32 lane comparison into a mask register. -/
  | vcmpI32 (u : StreamId) (f : Fields)
  /-- VMIN_I32 (R161). Signed lane-wise minimum. -/
  | vminI32 (u : StreamId) (f : Fields)
  /-- VMAX_I32 (R161). Signed lane-wise maximum. -/
  | vmaxI32 (u : StreamId) (f : Fields)
  /-- VMINU (R161). Unsigned lane-wise minimum. -/
  | vminu (u : StreamId) (f : Fields)
  /-- VMAXU (R161). Unsigned lane-wise maximum. -/
  | vmaxu (u : StreamId) (f : Fields)
  /-- VSEL (R161). Selects s1 or s2 per lane by the mask. -/
  | vsel (u : StreamId) (f : Fields)
  /-- VBCAST (R161). Broadcasts a scalar into the active lanes. -/
  | vbcast (u : StreamId) (f : Fields)
  /-- VEXT (R151). Extracts one lane into an s-register. -/
  | vext (u : StreamId) (f : Fields)
  /-- VINS (R161). Inserts a scalar into one lane. -/
  | vins (u : StreamId) (f : Fields)
  /-- VPERM (R150). Permutes lanes by indices from a vector register. -/
  | vperm (u : StreamId) (f : Fields)
  /-- VSHUF (R150). Permutes lanes by a fixed pattern. -/
  | vshuf (u : StreamId) (f : Fields)
  /-- VCOMPRESS (R152). Packs the mask-selected lanes to the bottom. -/
  | vcompress (u : StreamId) (f : Fields)
  /-- VEXPAND (R152). Spreads the low lanes to the mask-selected lanes. -/
  | vexpand (u : StreamId) (f : Fields)
  /-- VCVT (R153). Converts elements of one format part to another with rounding and flags. -/
  | vcvt (u : StreamId) (f : Fields)
  /-- VQUANT (R154). Quantises lanes to MX elements under a given scale byte. -/
  | vquant (u : StreamId) (f : Fields)
  /-- PAND (R161). Mask register AND. -/
  | pand (u : StreamId) (f : Fields)
  /-- POR (R161). Mask register OR. -/
  | por (u : StreamId) (f : Fields)
  /-- PXOR (R161). Mask register XOR. -/
  | pxor (u : StreamId) (f : Fields)
  /-- PANDN (R161). Mask register AND NOT. -/
  | pandn (u : StreamId) (f : Fields)
  /-- PMOV (R161). Moves between a mask register and an s-register. -/
  | pmov (u : StreamId) (f : Fields)
  /-- VGATHER (R162). Gathers 32-bit words from the own-well scratchpad by lane offsets. -/
  | vgather (u : StreamId) (f : Fields) (errs : List SymErr)
  /-- VSCATTER (R162). Scatters lanes to the own-well scratchpad by lane offsets. -/
  | vscatter (u : StreamId) (f : Fields) (errs : List SymErr)
  /-- SETVL (R145). Sets VL to min(32, s[s1]). -/
  | setvl (u : StreamId) (f : Fields)
  /-- VFN (R155). Computes an approximate function on each active lane. -/
  | vfn (u : StreamId) (f : Fields)
  /-- RSUM_F32 (R158). FP32 tree sum of the active lanes added to the running scalar. -/
  | rsumF32 (u : StreamId) (f : Fields)
  /-- RMAX_F32 (R159). Maximum of the active lanes and the running scalar. -/
  | rmaxF32 (u : StreamId) (f : Fields)
  /-- RMIN_F32 (R159). Minimum of the active lanes and the running scalar. -/
  | rminF32 (u : StreamId) (f : Fields)
  /-- RARGMAX_F32 (R159). Maximum with its index over the active lanes and the running value. -/
  | rargmaxF32 (u : StreamId) (f : Fields)
  /-- RSUM_I32 (R156). Integer sum of the active lanes into a 64-bit scalar. -/
  | rsumI32 (u : StreamId) (f : Fields)
  /-- RMCNT (R157). Counts lanes set in both a p-register and the mask. -/
  | rmcnt (u : StreamId) (f : Fields)
  /-- RMFIRST (R157). Finds the lowest lane set in both a p-register and the mask. -/
  | rmfirst (u : StreamId) (f : Fields)
  /-- RSCALE (R154). Computes the MX scale byte of the active lanes. -/
  | rscale (u : StreamId) (f : Fields)
  /-- MMA (R124). Adds A × W into accumulator tiles over passes of the four arrays. -/
  | mma (u : StreamId) (f : Fields) (errs : List SymErr)
  /-- MCLR (R133). Sets the masked accumulator tiles to +0. -/
  | mclr (u : StreamId) (f : Fields)
  /-- MLD (R133). Loads FP32 tile images from the own well into tiles. -/
  | mld (u : StreamId) (f : Fields) (errs : List SymErr)
  /-- MDRAIN (R133). Drains tiles as FP32 or BF16 images into a ring slot held for filling. -/
  | mdrain (u : StreamId) (f : Met Fields)
  /-- MDRAIN_G (R135). Drains tiles as FP32 gradient tensor blocks from slot B. -/
  | mdrainG (u : StreamId) (f : Met Fields)
  /-- WITNESS_VERDICT (R139). The witness verdict of a matrix instruction arrives and passes or fails the stitch. -/
  | witnessVerdict (lcid slot : Nat) (pass : Bool)
  /-- FAULT_REPORT (R79). A fault report reaches the command processor, which halts the context and retires the command. -/
  | faultReport (u : StreamId) (status : Nat) (st : Stamp)
  /-- HALT_ARRIVE (R79). A halt reaches a core, whose slots stop and discard their unretired stitches. -/
  | haltArrive (lcid : Nat) (st : Stamp)
  /-- STITCH_RETIRE (R66). A CLOSED stitch whose conditions all hold retires and releases its outputs. -/
  | stitchRetire (u : StreamId)
  /-- STITCH_TOO_LONG (R63). A stitch reaches 2^20 active cycles without closing and raises 0x2010. -/
  | stitchTooLong (u : StreamId)
  /-- LOAD_RETURN (R106). Data of a load from outside the own well returns. -/
  | loadReturn (u : StreamId) (id : Nat)
  /-- LOAD_WAIT_LIMIT (R106). A load outstanding for c.wlim cycles raises 0x8004. -/
  | loadWaitLimit (u : StreamId) (id : Nat)
  /-- RACQ_WAIT_LIMIT (R177). A racq waiting longer than the wait limit raises 0x8001. -/
  | racqWaitLimit (u : StreamId)
  /-- SO_WAIT_LIMIT (R110). A synchronisation object wait exceeding the wait limit raises 0x8002 or 0x8003. -/
  | soWaitLimit (u : StreamId)
  /-- SO_SIGNAL_ARRIVE (R110). A signal reaches a synchronisation object and is applied, completing satisfied waits. -/
  | soSignalArrive (so : Nat) (amount : W64) (sender : Sender)
  /-- VOUCH_SEND (R77). The forward-list engine sends a vouch once the verdicts and reads behind a block have passed. -/
  | vouchSend (tile entry : Nat)
  /-- VOUCH_ARRIVE (R173). A vouch marks its block, and the slot once all blocks are vouched. -/
  | vouchArrive (lcid : Nat) (tags : Tags) (ord : Nat) (st : Stamp)
  /-- CONFIRMATION_ARRIVE (R173). A confirmation turns matching provisional slots full or unmarks them. -/
  | confirmationArrive (lcid : Nat) (tags : Tags) (blocks : Nat) (st : Stamp)
  /-- RETRACTION_ARRIVE (R75). A retraction empties matching slots and discards consuming stitches transitively. -/
  | retractionArrive (lcid : Nat) (tags : Tags) (blocks : Nat) (st : Stamp)
  /-- VOUCH_TIMEOUT (R76). A provisional block without a vouch after 20 µs is treated as retracted with its tags. -/
  | vouchTimeout (lcid : Nat) (tags : Tags)
  /-- CORE_HANG (R80). A slot with a ready instruction issues nothing for 4,096 cycles and the core is declared failed. -/
  | coreHang (u : StreamId)
  /-- CORE_FAILURE (R81). A failed core is disconnected and a spare adopts its well and replays. -/
  | coreFailure (tile pcore cause : Nat)
  /-- QUARANTINE_RESULT (R82). The known-answer run of a quarantined core ends, returning it on probation or fencing it. -/
  | quarantineResult (tile pcore : Nat) (pass : Bool)
  /-- TL_PCORE_FENCE (R84). Writing TL_PCORE_n.fence fences the core with cause 0x05. -/
  | tlPcoreFence (tile pcore : Nat) (value : W32)
  /-- TL_WIT_INJ_ARM (R141). Writing arm injects a failing witness comparison on the next checked row of a core. -/
  | tlWitInjArm (tile : Nat) (value : W32)
  /-- WELL_PATROL (R167). A patrol period ends and each well's codewords are scrubbed in free bank cycles. -/
  | wellPatrol (tile : Nat) (errs : List SymErr) (missed : Bool)
  /-- GATHER_LINE_FLUSH (R178). A gather-buffer line idle for 64 cycles is written to the well. -/
  | gatherLineFlush (lcid line : Nat) (errs : List SymErr)
  /-- FLIT_RETRY (R183). A flit failing its link check is retried on its link. -/
  | flitRetry (tile : Nat)
  /-- PUMP_DESCRIPTOR_START (R199). A queued descriptor whose posting stitch has retired starts running on a pump. -/
  | pumpDescriptorStart (unit job : Nat) (errs : List SymErr)
  /-- PUMP_DESCRIPTOR_END (R202). A descriptor ends; the pump writes its status, sets done and may signal an object. -/
  | pumpDescriptorEnd (unit job status : Nat)
  /-- TENSOR_BLOCK_ARRIVE (R201). An ingress unit checks and writes an arriving tensor block into a ring slot. -/
  | tensorBlockArrive (d : Carriage) (b : Block)
  /-- RESEND_REQUEST (R206). A resend request reaches the sending pump, which sends the block again. -/
  | resendRequest (unit job : Nat) (bidx : Met Nat) (st : Stamp)
  /-- CISTERN_REQUEST (R218). A load, store or block write arrives at a cistern and is applied in arrival order. -/
  | cisternRequest (cn : Nat) (r : MemReq) (errs : List SymErr)
  /-- CISTERN_AMOADD (R219). A cistern performs a read-add-write of an amoadd. -/
  | cisternAmoadd (cn src : Nat) (addr : Nat) (add : AmoAdd) (st : Stamp) (errs : List SymErr)
  /-- BLOCK_ADD (R220). A block written to an accumulation range is added to its target under a lock. -/
  | blockAdd (cn : Nat) (d : Carriage) (b : Block) (errs : List SymErr)
  /-- ZERO_FILL (R222). A range of blocks is written with zero payload. -/
  | zeroFill (ctx addr blocks : Nat)
  /-- CISTERN_PATROL (R214). A cistern patrol period ends and its codewords are scrubbed. -/
  | cisternPatrol (cn : Nat) (errs : List SymErr) (missed : Bool)
  /-- CS_CHAN_RETIRE (R227). Writing CS_CHAN_n.retire fails the channel with cause 5. -/
  | csChanRetire (cn chan : Nat) (value : W32)
  /-- PPR_REPAIR (R228). Writing CS_PPR_CMD.repair repairs the selected row, or is refused. -/
  | pprRepair (cn : Nat)
  /-- PPR_QUERY (R233). Writing CS_PPR_CMD.query asks whether the selected bank has a repair resource left. -/
  | pprQuery (cn : Nat)
  /-- PPR_COMPLETE (R228). A host repair or query finishes and sets done, failed or avail. -/
  | pprComplete (cn : Nat) (deviceOk avail : Bool)
  /-- ENTRY_ACCEPTANCE (R384). The command processor reads, checks and accepts or refuses the next entry of a ring. -/
  | entryAcceptance (ring : Met Nat)
  /-- BIND (R329). Binds resources to a context, or tears it down, under a new generation. -/
  | bind (ring seq : Nat)
  /-- LOAD (R330). Loads a fitted pattern image into a bound context under a new generation. -/
  | load (ring : Nat) (seq : Met Nat)
  /-- STEP (R242). Runs one training step, or one serving request, on a context. -/
  | step (ring seq : Nat)
  /-- XFER (R390). Copies raw 64-byte lines between host memory and LPDDR. -/
  | xfer (ring seq : Nat) (errs : List SymErr)
  /-- SYNC_WAIT (R115). Waits until a synchronisation object meets a target, holding back its ring. -/
  | syncWait (ring seq : Nat)
  /-- SYNC_SIGNAL (R115). Adds a value to a synchronisation object when the entry retires. -/
  | syncSignal (ring seq : Nat)
  /-- FN_START (R337). Requests a function start with an optional settings block. -/
  | fnStart (ring seq : Nat)
  /-- FN_STOP (R337). Requests a function stop. -/
  | fnStop (ring seq : Nat)
  /-- QUERY (R391). Writes selected state to a host address and retires. -/
  | query (ring seq : Nat)
  /-- GENERATION_DRAIN_COMPLETE (R325). No item of the previous generation remains, so the bind, load or restart continues. -/
  | generationDrainComplete (ctx : Nat)
  /-- GOVERNOR_DECISION (R276). At the end of the backward pass the governor decides commit, skip or no update. -/
  | governorDecision (ctx : Met Nat)
  /-- LAYER_UPDATE (R269). Update engines start the optimiser update of a layer once its gradient is complete. -/
  | layerUpdate (ctx layer : Nat) (errs : List SymErr)
  /-- STEP_COMMIT (R270). A step commits: pointers flip, u rises, records are written and the step retires. -/
  | stepCommit (ctx : Nat)
  /-- SETTLE (R271). Pending moments of a committed step are copied into the moment areas layer by layer. -/
  | settle (ctx : Nat) (layer : Met Nat)
  /-- BATCH_RELEASE (R255). The request batcher releases a batch on fill, window expiry or an idle context. -/
  | batchRelease (ctx : Nat) (cause : ReleaseCause)
  /-- BATCH_COMPLETE (R256). A serving batch finishes and its requests retire in acceptance order. -/
  | batchComplete (ctx : Nat)
  /-- ENERGY_REPORT (R280). Converters report energy every 10 µs and it is attributed to contexts. -/
  | energyReport (r : EnergyReading)
  /-- MIRROR_IMAGE_COMPLETE (R283). An image becomes complete at the partner and replaces the older slot. -/
  | mirrorImageComplete (ctx : Nat)
  /-- MIRROR_RESTORE (R284). A mirror-stream fn entry with action restore writes the latest image into the context. -/
  | mirrorRestore (ctx : Nat) (image : Option MirrorImage)
  /-- MIRROR_DATA_FRAME (R283). A mirror data frame arrives at the partner and is stored in its image slot. -/
  | mirrorDataFrame (smod area : Nat) (part : MirrorPart)
  /-- LINK_FRAME (R289). An Akgon link frame acknowledges or requests resending from a missing lseq. -/
  | linkFrame (port lack : Nat) (resendFrom : Option Nat)
  /-- AKGON_FRAME_RECEIVE (R289). A port checks a received frame and delivers it once in lseq order. -/
  | akgonFrameReceive (port : Nat) (fr : Frame) (fec : FecResult)
  /-- LANE_FAIL (R290). An Akgon lane fails and the port retrains with the spare. -/
  | laneFail (port lane : Nat)
  /-- PORT_FAIL (R290). A port fails and its unacknowledged frames move to other ports or a relay. -/
  | portFail (port : Nat)
  /-- HELLO (R295). A HELLO arrives and is compared during cascade start. -/
  | hello (fr : Frame)
  /-- CASCADE_START_TIMEOUT (R295). A cascade start not complete in 10 s ends in OFF with 0x8401. -/
  | cascadeStartTimeout
  /-- BEAT_SEND (R297). Every 100 µs the firmware sends a beat on every working port. -/
  | beatSend
  /-- BEAT (R297). A beat arrives and refreshes the sender's liveness. -/
  | beat (fr : Frame)
  /-- MODULE_LOST (R297). A module silent for 5 ms is declared lost. -/
  | moduleLost (module_ : Nat)
  /-- DEPUTY_TAKEOVER (R297). 20 ms after the master's last frame the deputy becomes master with a higher term. -/
  | deputyTakeover
  /-- TAKEOVER (R297). A TAKEOVER message announces the new master and term. -/
  | takeover (fr : Frame)
  /-- CASCADE_SIGNAL (R298). A cascade object signal arrives at the master or deputy and is applied. -/
  | cascadeSignal (fr : Frame)
  /-- CASCADE_WAIT_READ (R298). A cascade object wait or read arrives at the master. -/
  | cascadeWaitRead (fr : Frame)
  /-- CASCADE_ANSWER (R298). The answer to a cascade wait or read arrives at the requester. -/
  | cascadeAnswer (fr : Frame)
  /-- AKGON_VOUCH (R305). A vouch frame arrives and is applied once its blocks are written. -/
  | akgonVouch (lcid : Nat) (fr : Frame)
  /-- AKGON_CONFIRMATION (R305). A confirmation frame arrives, is applied and acknowledged. -/
  | akgonConfirmation (lcid : Nat) (fr : Frame)
  /-- AKGON_RETRACTION (R307). A retraction frame arrives and discards data transitively. -/
  | akgonRetraction (lcid : Nat) (fr : Frame)
  /-- AKGON_RESEND (R306). A RESEND reaches the producer, which answers from its draining slot. -/
  | akgonResend (fr : Frame)
  /-- CONFIRMATION_ACK (R305). A confirmation acknowledgement frees the producer's draining slots and forward-list entries. -/
  | confirmationAck (fr : Frame)
  /-- DROP_NOTICE (R302). A drop notice reaches the sender of a dropped block. -/
  | dropNotice (fr : Frame)
  /-- AKGON_PROV_TIMEOUT (R306). A provisional block from another module has no vouch after 20 µs and a RESEND is sent. -/
  | akgonProvTimeout (lcid : Nat) (tags : Tags) (smod port : Nat)
  /-- WINDOW_DATA (R302). A window data frame is checked against cgen and wgen and written or dropped. -/
  | windowData (port : Option Nat) (fr : Frame) (lcid : Nat)
  /-- EXCHANGE_DATA (R309). An exchange frame reaches a hem unit, which adds and forwards the partial sum. -/
  | exchangeData (port : Nat) (fr : Frame) (gather : Bool)
  /-- FDONE (R310). A replica group reports its forward pass ended. -/
  | fdone (fr : Frame)
  /-- TURN (R310). The master starts the gradient exchange. -/
  | turn (fr : Frame)
  /-- LOSS (R300). A lost micro-batch is reported and relayed to the replica group. -/
  | loss (fr : Frame)
  /-- RESTART (R315). The master restarts the backward pass with a new restart count. -/
  | restart (fr : Frame)
  /-- XDONE (R312). A module reports its gradient areas stored and measured. -/
  | xdone (fr : Frame)
  /-- PREPARE (R312). The master sends the step outcome, norm and clip factor. -/
  | prepare (fr : Frame)
  /-- READY (R312). A module reports its updates of the step written. -/
  | ready (fr : Frame)
  /-- COMMIT (R312). A module receives COMMIT and performs the commit. -/
  | commit (fr : Frame)
  /-- CREC (R312). The deputy reports COMMIT recorded in its journal. -/
  | crec (fr : Frame)
  /-- ACK (R311). A module reports its pointers flipped and the step retired. -/
  | ack (fr : Frame)
  /-- RELEASE (R313). The master lets modules begin the settle. -/
  | release (fr : Frame)
  /-- REJOIN (R315). A module back from a reset reports its journal state. -/
  | rejoin (fr : Frame)
  /-- STRAGGLER_WINDOW_EXPIRY (R316). The straggler window expires and late replica groups contribute nothing to the step. -/
  | stragglerWindowExpiry
  /-- RWIN_EXPIRY (R315). The rejoin window expires and the lost module's group leaves the cascade. -/
  | rwinExpiry (module_ : Nat)
  /-- FN_CTRL_EN (R336). Writing FN_CTRL_f.en is a start request. -/
  | fnCtrlEn (f : Nat)
  /-- FN_CTRL_DIS (R336). Writing FN_CTRL_f.dis is a stop request. -/
  | fnCtrlDis (f : Nat)
  /-- FN_SET_WRITE (R335). A write to FN_SET_f takes effect only in OFF and otherwise sets rej. -/
  | fnSetWrite (f w : Nat) (value : W32)
  /-- FUNCTION_START_COMPLETE (R334). A function finishes starting and enters ON. -/
  | functionStartComplete (f : Nat)
  /-- FUNCTION_START_FAIL (R334). A function start fails and the function enters STOPPING. -/
  | functionStartFail (f status : Nat)
  /-- FUNCTION_STOP_COMPLETE (R334). A function finishes stopping and enters OFF, applying any pending start. -/
  | functionStopComplete (f : Nat)
  /-- PANEL_MODE_CHANGE (R405). A panel ramps its rail and switches clocks between full and slow mode. -/
  | panelModeChange (panel : Nat)
  /-- WELL_FAILURE (R351). A well fails and its logical core moves to a spare well or becomes a guest. -/
  | wellFailure (tile pwell : Nat)
  /-- TILE_FAILURE (R352). A tile fails and is fenced, powered off and detoured. -/
  | tileFailure (tile : Nat)
  /-- POWER_REGION_FAULT (R353). A region fuse opens and its tiles and ports are fenced for good. -/
  | powerRegionFault (region : Nat)
  /-- CISTERN_FAILURE (R368). A cistern fails and is fenced with its sixteen channels. -/
  | cisternFailure (cn : Nat)
  /-- CARRIER_LINK_FAILURE (R369). A carrier link is marked down and traffic is rerouted. -/
  | carrierLinkFailure (link : CarrierLink)
  /-- HOST_CORE_SWITCH (R357). A host core switches between its own logical core and its guest. -/
  | hostCoreSwitch (host : Nat)
  /-- STALLED_BURST (R363). A pump's source delivers no flit for 100 µs and the burst stalls. -/
  | stalledBurst (unit job : Nat)
  /-- STALLED_EVENT (R364). A stall outlasting the configured interval posts a STALLED event. -/
  | stalledEvent
  /-- STALL_RESUME (R364). Data resumes and the stalled burst completes. -/
  | stallResume (unit job : Nat)
  /-- TAIL_LINE_INVALIDATE (R383). A host write invalidates the tail line and the engine reads it again. -/
  | tailLineInvalidate (ring : Nat) (line : List W8) (host : List (Nat × W8))
  /-- CXL_LINK_DOWN (R375). The CXL link goes down and host memory accesses wait. -/
  | cxlLinkDown
  /-- CXL_LINK_UP (R375). The CXL link returns and waiting host accesses proceed. -/
  | cxlLinkUp
  /-- CXL_RESET (R375). A CXL, hot or secondary bus reset causes a warm reset. -/
  | cxlReset
  /-- STAGING_READ (R377). A host read of the staging window reads LPDDR and enters the snoop filter. -/
  | stagingRead (dpa len : Nat) (errs : List SymErr)
  /-- STAGING_WRITE (R377). A host write of the staging window writes raw bytes to LPDDR. -/
  | stagingWrite (dpa : Nat) (data : List W8) (errs : List SymErr)
  /-- MIRROR_READ (R378). A host read of the mirror window returns a line and sets its presence bit. -/
  | mirrorRead (line : Nat)
  /-- MIRROR_WRITE (R378). A host write to the mirror window is dropped and counted. -/
  | mirrorWrite (offset : Nat)
  /-- BIRSP (R379). A BIRsp clears a presence bit or completes a staging back-invalidation. -/
  | birsp (target : SnoopTarget)
  /-- HC_CPL_CONS_WRITE (R385). The host writes the completion consumer index, freeing slots and journal records. -/
  | hcCplConsWrite (ring : Nat) (high : Bool) (value : W32)
  /-- RING_ENABLE (R387). Writing en = 1 enables a ring and starts tail-line tracking. -/
  | ringEnable (ring : Nat) (value : W32)
  /-- RING_DISABLE (R387). Writing en = 0 moves a ring to draining. -/
  | ringDisable (ring : Nat) (value : W32)
  /-- HC_RING_CONFIG_WRITE (R387). A write of a ring address, z or next sequence number is accepted only while disabled. -/
  | hcRingConfigWrite (ring offset : Nat) (value : W32)
  /-- MCTP_HEALTH_READ (R393). An MCTP health read returns the query kind 0x00 data. -/
  | mctpHealthRead
  /-- REGION_UNDERVOLTAGE (R395). A region input below 38 V for 50 µs stops its converter and fences the region. -/
  | regionUndervoltage (region : Nat)
  /-- PROTECTIVE_SLOW_ENTER (R404). A hot tile or low region input puts its panel into protective slow mode. -/
  | protectiveSlowEnter (panel : Nat) (cause : SlowCause)
  /-- PROTECTIVE_SLOW_EXIT (R404). No cause for 100 ms returns the panel to its set mode. -/
  | protectiveSlowExit (panel : Nat)
  /-- RIM_LOSS (R396). Loss of the rim input stops the module. -/
  | rimLoss
  /-- STANDBY_LOSS (R396). Loss of standby moves the always-on domain onto the rim input. -/
  | standbyLoss
  /-- STANDBY_ARRIVE (R416). Standby power arrives with the always-on domain unpowered and causes a cold reset. -/
  | standbyArrive
  /-- RIM_RETURN (R416). The rim input returns after a loss and causes a cold reset. -/
  | rimReturn
  /-- POWER_CONTROLLER_SAMPLE (R398). Every 10 µs the power controller reads converters and withholds or releases issue. -/
  | powerControllerSample (watts : List Nat) (rimWatts : Nat) (temps : TempSample)
  /-- THERMAL_TRIP (R410). A die at 110 °C trips the module into a warm reset. -/
  | thermalTrip
  /-- CISTERN_THROTTLE (R410). A cistern at 100 °C halves its request acceptance until below 95 °C. -/
  | cisternThrottle (cn : Nat)
  /-- PLL_LOCK_LOSS (R352). A tile clock generator loses lock and must relock within 100 µs. -/
  | pllLockLoss (tile : Nat) (pll : Pll)
  /-- CLOCK_GATE (R408). An idle tile enters clock-gated after the configured time. -/
  | clockGate (tile : Nat)
  /-- PLL_OFF (R408). An idle tile enters PLL-off after the configured time. -/
  | pllOff (tile : Nat)
  /-- POWER_OFF (R408). An idle unbound tile powers off after the configured time. -/
  | powerOff (tile : Nat)
  /-- WAKE (R408). A wake event returns a tile to active from its tier. -/
  | wake (tile : Nat)
  /-- WH_BRING_CMD_WRITE (R419). Writing a target runs bring-up steps up to it, or is refused. -/
  | whBringCmdWrite (value : W32)
  /-- ALWAYS_ON_SELF_TEST (R420). Bring-up steps 1 and 2 bring up the always-on domain and read identity. -/
  | alwaysOnSelfTest (ok : Bool)
  /-- FIRMWARE_START (R452). Step 4 chooses a bank, verifies and starts firmware and arms the watchdog. -/
  | firmwareStart (startsA startsB : Bool)
  /-- REGION_POWER_UP (R421). Step 5 powers the regions one at a time with stagger. -/
  | regionPowerUp (regions : List RegionStart) (hottest : Nat)
  /-- LINK_TRAINING (R422). Step 6 trains carrier links and Akgon lanes with spares. -/
  | linkTraining (linksDown : List CarrierLink) (portLanes : List PortLanes)
  /-- LPDDR_TRAINING (R420). Step 7 trains LPDDR and restores redirections. -/
  | lpddrTraining (failed unrepaired : List Nat)
  /-- DEFECT_MAP (R423). Step 8 builds the defect map and assigns wells and cores. -/
  | defectMap
  /-- KNOWN_ANSWER_RUN (R424). Step 9 runs known-answer tests on every unit. -/
  | knownAnswerRun (fails : List KatUnit)
  /-- JOURNAL_REPLAY (R426). Step 10 replays the journal, restarts functions and sets READY. -/
  | journalReplay (unreadable : List Nat)
  /-- WARM_RESET_REQUEST (R416). Writing WH_RESET.warm starts a warm reset. -/
  | warmResetRequest
  /-- COLD_RESET_REQUEST (R416). Writing WH_RESET.cold starts a cold reset. -/
  | coldResetRequest (warmAlso : Bool)
  /-- FIRMWARE_RESET_REQUEST (R416). Firmware requests a warm reset after an internal error. -/
  | firmwareResetRequest
  /-- DUMP (R430). A reset cause stops the module and the dump engine writes the dump sections. -/
  | dump
  /-- WARM_RESET (R229). Cisterns finish acknowledged writes and enter self-refresh while logic resets. -/
  | warmReset
  /-- COLD_RESET (R230). The module resets without keeping LPDDR and zero-fills every codeword. -/
  | coldReset
  /-- HEARTBEAT (R428). The firmware increments the heartbeat count every 10 ms. -/
  | heartbeat
  /-- WATCHDOG_CHECK (R428). At the end of each 10 ms period the watchdog counts a missed beat. -/
  | watchdogCheck
  /-- DUMP_COPY (R434). Writing DG_COPY_CMD.go copies dump bytes to host memory. -/
  | dumpCopy (value : W32)
  /-- DUMP_COPY_COMPLETE (R434). A dump copy finishes and sets done with its status. -/
  | dumpCopyComplete
  /-- DUMP_RELEASE (R434). Writing 1 to DG_STAT.valid releases the dump. -/
  | dumpRelease (value : W32)
  /-- FW_APPLY (R451). Writing FW_CMD.apply checks a package and writes it to the other bank as TRIAL. -/
  | fwApply (value : W32)
  /-- FW_APPLY_COMPLETE (R451). A firmware apply finishes writing and verifying the image. -/
  | fwApplyComplete
  /-- FW_COMMIT (R453). Writing FW_CMD.commit advances the anti-rollback counters. -/
  | fwCommit (value : W32)
  /-- FW_MBOX_PUSH (R454). Writing push hands a firmware chunk to the ROM recovery mode. -/
  | fwMboxPush (value : W32)
  /-- MCTP_FIRMWARE_CHUNK (R454). A firmware chunk arrives over MCTP in recovery mode. -/
  | mctpFirmwareChunk (data : List W8) (last : Bool)
  /-- MAILBOX_IDLE_TIMEOUT (R454). A recovery transfer idle for 10 s is abandoned. -/
  | mailboxIdleTimeout
  /-- FW_ATT_GO (R456). Writing FW_ATT_CMD.go takes a signed attestation report. -/
  | fwAttGo (value : W32)
  /-- MCTP_ATTESTATION (R456). An MCTP attestation request returns a signed report. -/
  | mctpAttestation (nonce : List W8)
  /-- REGISTER_WRITE (R14). A write to a register without behaviour of its own sets or clears fields by access code. -/
  | registerWrite (offset size : Nat) (value : W64)
  /-- STANDBY_RETURN (R396). The standby input returns while the always-on domain runs on the rim, which moves it back to standby and clears PW_STAT.onrim. -/
  | standbyReturn
  /-- REGISTER_PAIR_READ (R12). A read of a word of a 64-bit register pair loads or empties that pair's shared read latch. -/
  | registerPairRead (access : HostAccess)
  /-- TAP_INSTRUCTION (R413). A JTAG TAP access runs BYPASS, SAMPLE/PRELOAD, EXTEST or IDCODE on the well-head pins. -/
  | tapInstruction (i : TapInstr) (data : List Bool)
  /-- MCTP_CONTROL_MESSAGE (R393). An MCTP control message arrives over SMBus or CXL.io and the endpoint answers it. -/
  | mctpControlMessage (data : List W8)
  /-- PLL_RELOCK (R352). A PLL that lost lock relocks within 100 µs, which increments CK_RELOCK and resumes its domain. -/
  | pllRelock (tile : Nat) (pll : Pll)
  /-- CISTERN_THROTTLE_RELEASE (R410). A throttled cistern's temperature falls below 95 °C and it returns to its full request acceptance rate. -/
  | cisternThrottleRelease (cn : Nat)
  /-- PROTECTIVE_CAUSE_CLEAR (R404). A tile temperature or region input voltage cause of protective slow mode stops holding, which clears CK_PANEL ctemp or cuv and starts the 100 ms release count. -/
  | protectiveCauseClear (panel : Nat) (cause : SlowCause)
  deriving DecidableEq, Repr

end Sys2Proof
end

