-- ==== Sys2Proof/Machine/State.lean ====
section
/-! DEFINITION. The state of the block: plain data, everything the spec gives the machine. -/

namespace Sys2Proof.Machine

/-! ## A stream slot -/

/-- A base/bound pair (R92). -/
structure BPair where
  base : W64 := 0
  len : W64 := 0
  r : Bool := false
  w : Bool := false
  x : Bool := false
  deriving DecidableEq, Repr, Inhabited

/-- An active hardware loop (R99): first instruction, offset just after the last, iterations left with the running
one, and the elements left of a `loop.vl`. -/
structure LoopRec where
  first : W64
  stop : W64
  left : W64
  elems : Option W64
  deriving DecidableEq, Repr, Inhabited

/-- The register image of a slot (R57, R71): everything a closing snapshot holds beside tiles and cursors. -/
structure Arch where
  pc : W64 := 0
  s : Vector W64 32 := Vector.replicate 32 0
  p : Vector W32 8 := Vector.replicate 8 0
  b : Vector BPair 4 := Vector.replicate 4 {}
  vl : Nat := 32
  v : Vector (Vector W32 32) 32 := Vector.replicate 32 (Vector.replicate 32 0)
  sstat : W64 := 0
  vstat : W64 := 0
  srctr : W64 := 0
  /-- inner loop first -/
  loops : List LoopRec := []
  epoch : W64 := 0
  mb : W64 := 0
  deriving DecidableEq, Repr, Inhabited

/-- A gated write (R68). -/
inductive Gated where
  /-- stores of one instruction: (engine address, bytes) -/
  | store (pieces : List (Nat × List W8))
  | amo (addr : Nat) (ty : AmoType) (v : W64)
  /-- object index of the context, or of its cascade objects -/
  | signal (so : Nat) (cascade : Bool) (v : W64)
  deriving DecidableEq, Repr

/-- A pending verdict of a matrix instruction (R139): on the aligned path; holding an injected failure (R141); the tile and the
physical core that produced the result (R82). -/
structure Verdict where
  aligned : Bool
  injected : Bool
  tile : Nat
  pcore : Nat
  deriving DecidableEq, Repr

/-- A stitch that is OPEN or CLOSED (R62 to R70). -/
structure Stitch where
  seq : Nat := 0
  /-- provisional input slots it read: (ring, slot index) (R65) -/
  inputs : List (Nat × Nat) := []
  /-- c.mb when it opened (R249) -/
  mb : W64 := 0
  /-- condition 4 of R65 is broken -/
  poison : Bool := false
  /-- ring slots filled and drained: (ring, slot index) -/
  filled : List (Nat × Nat) := []
  drained : List (Nat × Nat) := []
  /-- accumulator tiles written since the previous snapshot (R72) -/
  tilesW : List Nat := []
  verdicts : List Verdict := []
  /-- undo log, newest line first: engine address of the line and its old bytes -/
  undo : List (Nat × List W8) := []
  gates : List Gated := []
  deriving DecidableEq, Repr, Inhabited

/-- Cursor pair of one ring as an image holds it (R176). -/
structure CurPair where
  ring : Nat
  fill : Nat
  drain : Nat
  deriving DecidableEq, Repr

/-- An accumulator tile (R132): 1,024 FP32 words, row r, column c at 16r + c; how many block sums have entered each of them
since it was last cleared, and which began from a non-zero loaded value (R49, R51); an absent entry is 0 or false. -/
structure AccTile where
  w : List W32 := List.replicate 1024 0
  sums : List Nat := []
  loaded : List Bool := []
  deriving DecidableEq, Repr, Inhabited

/-- The CLOSED stitch with its closing snapshot (R72). -/
structure Closed where
  st : Stitch
  image : Arch
  tiles : FMap AccTile
  deriving DecidableEq, Repr, Inhabited

/-- Where an outstanding load writes (R103, R106). -/
inductive LoadDst where
  | sreg (d : BitVec 5) (width : Nat) (zext : Bool)
  | vreg (d : BitVec 5) (lanes : List (Nat × Nat))   -- (lane, engine address)
  deriving DecidableEq, Repr

/-- An outstanding load from outside the own well (R106). `known` holds the bytes already known when it issued: gated
bytes of its slot (R104) and cached lines (R170). -/
structure Load where
  id : Nat
  addr : Nat
  len : Nat
  dst : LoadDst
  seq : Nat
  known : FMap W8 := []
  data : Option (FMap W8) := none
  bad : Bool := false
  /-- cache lines to fill when it returns (R170), and those of them that hold poison -/
  lines : List Nat := []
  badLines : List Nat := []
  /-- pc of the load instruction (R106) -/
  pc : W64 := 0
  /-- bits of lanes that later instructions have written (R147) -/
  over_ : FMap W32 := []
  deriving DecidableEq, Repr

/-- What a slot waits on (R60, R63). -/
inductive Wait where
  | ring (ring : Nat) (read : Bool)
  | so (so : Nat) (cascade : Bool) (dst : BitVec 5) (target : W64)
  | soRead (so : Nat) (dst : BitVec 5)
  | operand
  | loadSlot
  | stitch
  | gate
  | pumpQueue
  | fence
  deriving DecidableEq, Repr

/-- What a stream slot is doing (R58, R78, R79, R100). -/
inductive Phase where
  | idle | running | faulted | halted | closing | partDone
  deriving DecidableEq, Repr, Inhabited

/-- A stream slot of a logical core (R57). -/
structure SlotSt where
  bound : Bool := false
  phase : Phase := .idle
  arch : Arch := {}
  wait : Option Wait := none
  acyc : Nat := 0
  wlim : W64 := 0x1000000#64
  fstat : W64 := 0
  fpc : W64 := 0
  fseq : W64 := 0
  amask : BitVec 16 := 0
  /-- bind values of b0–b3 from the task table (R179, R459) -/
  bbind : Vector BPair 4 := Vector.replicate 4 {}
  opn : Stitch := {}
  closed : Option Closed := none
  retired : Arch := {}
  retTiles : FMap AccTile := []
  retSeq : Nat := 0
  /-- replay count of each stitch sequence number (R173); the first stitch of the running command with the count that it began
  with (R362) -/
  replays : FMap Nat := []
  start : Nat × Nat := (0, 0)
  /-- which image buffer holds the retired state, and which the retired image of each accumulator tile (R71, R72) -/
  buf : Bool := false
  tileBuf : FMap Bool := []
  loads : List Load := []
  loadCtr : Nat := 0
  /-- verdicts passed (R77) -/
  mPass : Nat := 0
  deriving DecidableEq, Repr, Inhabited

/-! ## Rings, wells, cores -/

/-- A ring slot (R173). -/
structure RSlot where
  st : RState := .empty
  /-- provisional mark of a draining slot -/
  prov : Bool := false
  vouched : Bool := false
  tags : Option Tags := none
  ords : List Nat := []
  vords : List Nat := []
  /-- filled by an ingress unit and not by a stream of the core -/
  ingress : Bool := false
  /-- matrix instructions of the filling slot completed before the fill, and no poison met before it (R77) -/
  mAt : Nat := 0
  clean : Bool := true
  /-- the transfer that fills it: unit, job, slot number; blocks received -/
  carr : Option (Nat × Nat × Nat) := none
  got : List Nat := []
  need : Nat := 0
  /-- job of the pump that drains it: unit, job -/
  taker : Option (Nat × Nat) := none
  /-- filled by the forward stream of a keep layer (R258) -/
  kept : Bool := false
  /-- module that sent its data, and the window it came through (R306) -/
  smod : Nat := 0
  win : Nat := 0
  deriving DecidableEq, Repr, Inhabited

/-- A ring (R172, R176). Filler and drainer: 0 = F, 1 = B, 2 = U, 3 = pumps. -/
structure RingSt where
  base : Nat := 0
  size : Nat := 64
  count : Nat := 1
  fill : Nat := 0
  drain : Nat := 0
  slots : FMap RSlot := []
  fillRun : Nat := 0
  fillClosed : Nat := 0
  fillRet : Nat := 0
  drainRun : Nat := 0
  drainClosed : Nat := 0
  drainRet : Nat := 0
  /-- slot acquired and not yet released, in each direction (R108) -/
  acqW : Option Nat := none
  acqR : Option Nat := none
  /-- the same at the closing snapshot and in the retired state -/
  acqC : Option Nat × Option Nat := (none, none)
  acqT : Option Nat × Option Nat := (none, none)
  /-- next slot a draining pump takes -/
  take : Nat := 0
  deriving DecidableEq, Repr, Inhabited

/-- A cache line (R170). -/
structure CLine where
  addr : Nat
  bytes : List W8
  deriving DecidableEq, Repr

/-- A gather-buffer line (R178): well offset of the line and the bytes it holds by position. -/
structure GLine where
  off : Nat
  bytes : FMap W8
  deriving DecidableEq, Repr

/-- A logical core with its well's logic (R57, R163 to R180). -/
structure CoreSt where
  st : Stamp := ⟨0, 0⟩
  key : W64 := 0
  t0 : Nat := 0
  slots : Vector SlotSt 3 := Vector.replicate 3 {}
  /-- accumulator tiles by number; unlisted tiles are +0 (R132) -/
  tiles : FMap AccTile := []
  rings : FMap RingSt := []
  wcache : Nat := 0
  cache : List CLine := []   -- most recently used first
  gather : List GLine := []   -- oldest first
  /-- tags treated as retracted (R76) -/
  retracted : List Tags := []
  /-- messages held until their blocks are written, and the blocks written so far: tags, sending module, ordinal (R173) -/
  heldMsgs : List (Nat × Tags × Nat × List Nat) := []
  written : List (Tags × Nat × Nat) := []
  /-- doubled onto this logical core as a core guest (R356), or well-backed there -/
  guest : Option (Nat × Bool) := none
  /-- switched out by its host core; active cycles since it was switched in (R357) -/
  out : Bool := false
  ran : Nat := 0
  deriving DecidableEq, Repr, Inhabited

/-! ## Messages, pumps, tiles, objects -/

/-- A message the block has sent and that has not arrived (R185, R389, R393); the command that takes it carries an equal
content and removes it. -/
inductive Msg where
  | faultReport (u : StreamId) (status : Nat) (st : Stamp)
  | halt (lcid : Nat) (st : Stamp)
  | mem (cn : Nat) (r : MemReq)
  | amo (cn src addr : Nat) (ty : AmoType) (v : W64) (st : Stamp)
  | signal (src : Site) (so : Nat) (amount : W64) (st : Stamp)
  | vouch (lcid : Nat) (tags : Tags) (ord : Nat) (st : Stamp)
  | confirm (lcid : Nat) (tags : Tags) (blocks : Nat) (st : Stamp)
  | retract (lcid : Nat) (tags : Tags) (blocks : Nat) (st : Stamp)
  | block (d : Carriage) (b : Block)
  | resend (unit job bidx : Nat) (st : Stamp)
  | frame (port : Nat) (fr : Frame)
  | snoop (t : SnoopTarget)
  | msix (vec : Nat)
  | mctp (data : List W8)
  deriving DecidableEq, Repr

/-- The fields of a pump descriptor (Table 8.4). -/
structure PumpDesc where
  op : Nat := 0
  flags : Nat := 0
  skind : Nat := 0
  dkind : Nat := 0
  sref : Nat := 0
  dref : Nat := 0
  sfmt : Nat := 0
  dfmt : Nat := 0
  soff : Nat := 0
  dest : Nat := 0
  len : Nat := 0
  prows : Nat := 0
  pcols : Nat := 0
  sobj : Nat := 0
  sval : Nat := 0
  tag : Nat := 0
  soffs : Nat := 0
  rsv : Nat := 0
  deriving DecidableEq, Repr, Inhabited

/-- A descriptor waits for its posting stitch, is ready, or runs (R199, R321). -/
inductive JobPhase where
  | unretired | ready | running
  deriving DecidableEq, Repr

/-- Where the bytes of one tensor block come from: a stored block of 4,160 bytes at `addr`, or a run of raw elements
with its scale bytes. -/
structure Piece where
  addr : Nat
  len : Nat
  saddr : Nat := 0
  slen : Nat := 0
  deriving DecidableEq, Repr, Inhabited

/-- Producer fields that a pump writes (R203, R216). -/
structure Producer where
  slot : Nat
  lcid : Nat
  seq : Nat
  replay : Nat
  deriving DecidableEq, Repr, Inhabited

/-- A block sent and not yet accepted at its destination: its number in the transfer, how it travels, its source, and
its provisional marks. -/
structure Sent where
  place : Nat
  d : Carriage
  piece : Piece
  prod : Option Producer := none
  bidx : Nat := 0
  prov : Option Nat := none
  deriving DecidableEq, Repr, Inhabited

/-- A posted descriptor (R197 to R202). -/
structure PumpJob where
  id : Nat
  /-- posting core and slot; a schedule entry of the command processor has `sched` -/
  lcid : Nat := 0
  slot : Nat := 0
  sched : Bool := false
  addr : Nat := 0
  st : Stamp := ⟨0, 0⟩
  seq : Nat := 0
  replay : Nat := 0
  pairs : Vector BPair 4 := Vector.replicate 4 {}
  /-- schedule entry: source address, destination, epoch, layer, pass -/
  src : Nat := 0
  epoch : Nat := 0
  layer : Nat := 0
  pass : Nat := 0
  phase : JobPhase := .unretired
  desc : PumpDesc := {}
  /-- source slots or groups taken so far, next piece of a range source, bytes written to a range destination -/
  next : Nat := 0
  piece : Nat := 0
  off : Nat := 0
  /-- next block index of the transfer -/
  bidx : Nat := 0
  /-- source ring slots taken and not yet accepted: (number in the transfer, ring slot) -/
  took : List (Nat × Nat) := []
  /-- blocks sent and not yet accepted -/
  wait : List Sent := []
  /-- provisional slots sent and not yet confirmed (tags, number in the transfer, ring slot), and numbers that a discard
  made the pump drain again -/
  unconf : List (Tags × Nat × Nat) := []
  redo : List Nat := []
  stalled : Bool := false
  /-- dseq of the data frames sent (R302) -/
  dseqs : List Nat := []
  deriving DecidableEq, Repr, Inhabited

/-- A forward-list entry (R200): destination core, or module when `remote`, tags, ordinal, verdicts it waits for. -/
structure FwdEntry where
  lcid : Nat
  remote : Option Nat := none
  win : Nat := 0
  tags : Tags
  ord : Nat
  mAt : Nat
  clean : Bool
  st : Stamp
  vouched : Bool := false
  deriving DecidableEq, Repr

/-- Sleep tier of a tile (R407). -/
inductive Tier where
  | active | gated | pllOff | off
  deriving DecidableEq, Repr, Inhabited

/-- A tile (R197, R200, R352, R404, R407). -/
structure TileSt where
  fenced : Bool := false
  tier : Tier := .off
  jobs : List PumpJob := []
  jobCtr : Nat := 0
  fwd : List FwdEntry := []
  /-- resends asked for a block: (unit, job, block index, count) -/
  tries : List (Nat × Nat × Nat × Nat) := []
  pllLost : List Pll := []
  failedWells : List Nat := []
  /-- logical indices left without a well or a core (R423) -/
  badIdx : List Nat := []
  /-- physical well of a logical index, and physical core that serves a physical well; unlisted: the own index (R423, R81) -/
  wells : FMap Nat := []
  serv : FMap Nat := []
  /-- physical cores that failed a verdict, with the context whose binding they served (R82) -/
  probation : FMap Nat := []
  /-- patrol period in force (TL_WELL_PATROL) -/
  patrol : Nat := 20
  deriving DecidableEq, Repr, Inhabited

/-- Who waits on an object (R109, R115, R298). -/
inductive SoWait where
  | slot (u : StreamId) (target : W64)
  | entry (ring seq : Nat) (target : W64)
  | module (m id : Nat) (target : W64)
  deriving DecidableEq, Repr

/-- A synchronisation object (R109, R323, R327). -/
structure SoSt where
  v : W64 := 0
  st : Stamp := ⟨0, 0⟩
  waits : List SoWait := []
  deriving DecidableEq, Repr, Inhabited

/-! ## Cisterns and ports -/

/-- A cistern (R197, R215, R260, R410). -/
structure CistSt where
  fenced : Bool := false
  engFenced : Bool := false
  throttled : Bool := false
  jobs : List PumpJob := []
  jobCtr : Nat := 0
  tries : List (Nat × Nat × Nat × Nat) := []
  /-- a host repair (`true`) or query under way, with the CS_PPR_SEL value it took (R228) -/
  pprBusy : Option (Bool × Nat) := none
  /-- patrol period in force (CS_SCRUB) -/
  period : Nat := 24
  deriving DecidableEq, Repr, Inhabited

/-- Repair state of one LPDDR channel (R223 to R227). -/
structure ChanSt where
  /-- page of the stack to spare page number; permanent and temporary -/
  perm : FMap Nat := []
  temp : FMap Nat := []
  /-- codewords found correctable: twice the codeword number, plus 1 when a patrol period has ended since (R223) -/
  ceSeen : List Nat := []
  /-- rows with an uncorrectable codeword, and when (R227) -/
  ueRows : List (Nat × Nat) := []
  /-- rows queued for field repair, rows repaired, and banks without a repair resource (R223, R226) -/
  queue : List Nat := []
  repaired : List Nat := []
  noRes : List Nat := []
  deriving DecidableEq, Repr, Inhabited

/-- A half of the firmware data area (R449): header of the image that wrote it, the repair queue and the repaired rows of each
channel, and the overflow log. -/
structure DataHalf where
  writer : List W8 := []
  rows : FMap (List Nat × List Nat) := []
  log : List Nat := []
  deriving DecidableEq, Repr, Inhabited

/-- An Akgon port with its hem unit (R287 to R293, R309). -/
structure PortSt where
  txSeq : Nat := 0
  rxSeq : Nat := 0
  replay : List Frame := []
  /-- frames that wait for room in the replay buffer, in the order in which they leave (R291) -/
  queue : List Frame := []
  laneBad : List Nat := []
  spareUsed : Bool := false
  /-- blocks in the hem unit: own block or partial sum, gradient range, block index (R309) -/
  hem : List (Bool × Nat × Nat × Block) := []
  /-- blocks asked for again: (module, win byte, block index, count) (R206, R309) -/
  tries : List (Nat × Nat × Nat × Nat) := []
  deriving DecidableEq, Repr, Inhabited

/-! ## Contexts -/

/-- A range entry of Table 13.4. -/
structure RangeE where
  base : Nat := 0
  pages : Nat := 0
  mark : Nat := 0
  deriving DecidableEq, Repr, Inhabited

/-- A context's binding (R326, R327). -/
structure Binding where
  quarters : List Nat := []
  cists : List Nat := []
  ports : List Nat := []
  cso : Bool := false
  lpr : List RangeE := []
  hostr : List RangeE := []
  deriving DecidableEq, Repr, Inhabited

/-- What a loaded pattern leaves in the context (R330, R331): the header's fields and the bytes of its sections. -/
structure Pattern where
  addr : Nat := 0
  uplace : Nat := 0
  dctl : Nat := 0
  wcache : Nat := 0
  wlim : Nat := 24
  arb : Nat := 0
  ncore : Nat := 0
  seed : W64 := 0
  amask : List Nat := []
  cwin : List Nat := []
  nso : Nat := 0
  step : List W8 := []
  lmap : List W8 := []
  sched : List W8 := []
  upd : List W8 := []
  parts : List W8 := []
  casc : List W8 := []
  measure : List W8 := []
  deriving DecidableEq, Repr, Inhabited

/-- A lost micro-batch (R249, Table 10.7). -/
structure LostMb where
  mbi : Nat
  status : Nat
  layer : Nat
  pass : Nat
  deriving DecidableEq, Repr

/-- The running training step of a context (R242 to R252, R272 to R277). -/
structure StepRun where
  ring : Nat := 0
  seq : Nat := 0
  epoch : Nat := 0
  nmb : Nat := 0
  layer : Nat := 1
  /-- 0 = forward, 1 = backward -/
  pass : Nat := 0
  lost : List LostMb := []
  restarts : Nat := 0
  /-- addresses of the gradient blocks accepted, by layer -/
  gradBlocks : FMap (List Nat) := []
  /-- by layer, tap and cistern -/
  meas : FMap Meas := []
  /-- poison count of each layer, over its taps (R272); poisoned blocks of tap 0 -/
  poisons : FMap Nat := []
  poisonG : Nat := 0
  poisonW : Bool := false
  /-- layers whose accumulation range has been read for tap 0 (R272) -/
  areaRead : List Nat := []
  updated : List Nat := []
  gov : Bool := false
  govBits : Nat := 0
  clip : W32 := 0x3F800000#32
  norm : W64 := 0
  /-- row of Table 11.5: 0 to commit, else the status of the skip -/
  decision : Option Nat := none
  committed : Bool := false
  /-- on a cascade: XDONE and READY sent for the present restart, FDONE sent, and the cascade count (R311, R314) -/
  reported : Bool := false
  readySent : Bool := false
  fdoneSent : Bool := false
  /-- status with which the step retires once every block accepted through an open window has been written (R302) -/
  ending : Option Nat := none
  total : Option Nat := none
  /-- START record: ring records, object values, counters of the slots, histories -/
  startRings : List RingRec := []
  startSos : List (Nat × W64) := []
  startGens : List (Nat × W64 × W64 × W64 × W64) := []
  startHist : FMap (List W32) := []
  firstAfterRestore : Bool := false
  deriving DecidableEq, Repr, Inhabited

/-- A request in the batcher (R255). -/
structure BatchReq where
  ring : Nat
  seq : Nat
  stream : Nat
  rows : Nat
  deriving DecidableEq, Repr

/-- A context (R319). -/
structure CtxSt where
  bind : Option Binding := none
  /-- generation of the stamp that the resources of the binding hold: memory ranges, update engines and pumps (R323); 0 for none -/
  held : Nat := 0
  pat : Option Pattern := none
  epoch : Nat := 0
  comEpoch : Nat := 0
  u : Nat := 0
  count : Nat := 0
  /-- active copy of each layer; unlisted layers use copy 0 -/
  active : FMap Nat := []
  pos : FMap Nat := []
  lostStreams : List Nat := []
  run : Option StepRun := none
  forming : List BatchReq := []
  /-- released batches that wait for the one before them, oldest first -/
  released : List (List BatchReq) := []
  running : List BatchReq := []
  hist : FMap (List W32) := []
  /-- layers of the committed step still to settle (R271), and its epoch -/
  settle : List Nat := []
  settleEpoch : Nat := 0
  /-- restore pending verification; last verification failed; the next step is the first since the restore (R285) -/
  restored : Bool := false
  unverified : Bool := false
  verifyNext : Bool := false
  /-- mirror capture whose next step has not retired, and the captured items of the latest image with its trailer (R283) -/
  capture : Option MirrorImage := none
  image : Option MirrorImage := none
  trailer : MirrorImage := {}
  /-- later steps retire with this status (R348, R355, R356); that the guest space did not suffice holds until the next `bind` (R356) -/
  dead : Option Nat := none
  capLost : Bool := false
  /-- logical cores whose wells are to be rebuilt from the image after the drain of a restart (R354) -/
  lostWells : List Nat := []
  /-- energy since the last retirement record, in units of 2^-40 J (R281) -/
  energy : Nat := 0
  started : Bool := false
  /-- bind, load or restart waiting for the drain of R325, as the entry (ring, seq) -/
  drain : Option (Nat × Nat) := none
  /-- gradient areas still to zero-fill: (layer, address) (R246) -/
  zeroing : List (Nat × Nat) := []
  deriving DecidableEq, Repr, Inhabited

/-! ## Host rings, entries, journal, functions -/

/-- What stage an accepted entry has reached. -/
inductive EPhase where
  | queued | running | draining | waiting
  deriving DecidableEq, Repr

/-- An accepted entry (R113, R240, R344): its command word's operands and the blocks copied at acceptance. -/
structure Entry where
  ring : Nat
  seq : Nat
  raw : List W8 := []
  op : Nat := 0
  a : W64 := 0
  b : W64 := 0
  d : W64 := 0
  imm : Nat := 0
  mod : Nat := 0
  ctx : Nat := 0
  copy1 : List W8 := []
  copy2 : List W8 := []
  copy3 : List W8 := []
  /-- its accept record (R347) -/
  acc : List W8 := []
  epoch : Nat := 0
  phase : EPhase := .queued
  deriving DecidableEq, Repr, Inhabited

/-- A finished entry whose retirement record waits for an earlier one of its ring (R256, R340). -/
structure DoneRec where
  ring : Nat
  seq : Nat
  bytes : List W8
  status : Nat
  irq : Bool
  /-- context and epoch of a `step` (R301) -/
  step : Option (Nat × Nat) := none
  deriving DecidableEq, Repr

/-- A command ring as the engine sees it beside its HC_ registers (R382 to R387). -/
structure HRing where
  tail : Nat := 0
  retired : Nat := 0
  lastStatus : Nat := 0
  draining : Bool := false
  done : List DoneRec := []
  deriving DecidableEq, Repr, Inhabited

/-- A journal record (Table 14.2). -/
inductive JRec where
  | ring (r next last : Nat)
  | accept (e : Entry)
  | ctx (n state gen : Nat) (c : CtxSt)
  | start (n : Nat) (r : StepRun)
  | commit (n epoch u count : Nat) (active : FMap Nat)
  | settle (n epoch layer : Nat)
  | cascade (epoch k term phase : Nat)
  | so (n : Nat) (vals : List (Nat × W64))
  | retire (r seq : Nat) (bytes : List W8)
  deriving DecidableEq, Repr

/-- A request for a function that runs or is pending (R336). `entry` is the `fn` entry, none for a register write. -/
structure FnReq where
  entry : Option (Nat × Nat) := none
  settings : List W8 := []
  deriving DecidableEq, Repr, Inhabited

/-- Requests of one function (R334 to R337). -/
structure FnSt where
  /-- `fn` entries (ring, seq) that retire with the start and with the stop in progress -/
  startE : List (Nat × Nat) := []
  stopE : List (Nat × Nat) := []
  /-- a stop was requested, as against a start that failed -/
  asked : Bool := false
  pend : Option FnReq := none
  deriving DecidableEq, Repr, Inhabited

/-! ## Cascade, well-head, power -/

/-- What XDONE and PREPARE carry (R311): a count and the measurements by layer and tap. -/
structure CasMeas where
  count : Nat := 0
  total : Nat := 0
  status : Nat := 0
  norm : W64 := 0
  clip : W32 := 0x3F800000#32
  meas : List LayerMeas := []
  deriving DecidableEq, Repr, Inhabited

/-- A mirror sink (R283): the slot of the last complete image, none before the first; parts of the new image by offset with
their lengths; its end, once the last part has come. -/
structure Sink where
  good : Option Nat := none
  parts : FMap Nat := []
  stop : Option Nat := none
  deriving DecidableEq, Repr, Inhabited

/-- The cascade function's state (12). -/
structure Casc where
  /-- settings of Table 12.3 -/
  self : Nat := 0
  cgen : Nat := 0
  ctx : Nat := 0
  topo : Nat := 0
  w : Nat := 1
  d : Nat := 1
  m : Nat := 1
  succ : List Nat := []
  swin : Nat := 0
  rwin : Nat := 0
  pmap : List Nat := []
  rtab : List Nat := []
  rord : List (List Nat) := []
  digest : List W8 := []
  /-- members, roles, losses (R296, R297) -/
  active : Bool := false
  term : Nat := 0
  master : Nat := 0
  deputy : Nat := 0
  helloOk : List Nat := []
  /-- when the latest beat of each module arrived (R297) -/
  heard : FMap Nat := []
  lost : List Nat := []
  leftMods : List Nat := []
  /-- highest dseq sent to, and dseqs accepted from, each module (R290) -/
  dtx : FMap Nat := []
  drx : FMap (List Nat) := []
  /-- requests of this module's streams at the master: request tag, stream, destination register (R298) -/
  reqs : List (Nat × StreamId × BitVec 5) := []
  reqCtr : Nat := 0
  /-- running cascade step (R310 to R316) -/
  epoch : Nat := 0
  k : Nat := 0
  turned : Bool := false
  part : List Nat := []
  fdone : List (Nat × Nat) := []
  straggle : List Nat := []
  xdone : FMap CasMeas := []
  prepared : Option CasMeas := none
  ready : List (Nat × Nat) := []
  outcome : Nat := 0
  committing : Bool := false
  crec : Bool := false
  committed : Bool := false
  /-- step of the latest ACK of each module -/
  acks : FMap Nat := []
  relSent : Bool := false
  released : Bool := false
  waitRejoin : List Nat := []
  /-- back from a reset, and not yet part of a new step (R315) -/
  back : Bool := false
  /-- latest step committed here, and its outcome -/
  comEpoch : Nat := 0
  comOutcome : Nat := 0
  /-- image slots held for other modules, by area (R283) -/
  sinks : FMap Sink := []
  deriving DecidableEq, Repr, Inhabited

/-- A reset under way (R417). -/
inductive ResetKind where
  | warm | cold
  deriving DecidableEq, Repr

/-- Well-head, power and reset state beside the registers (16, 17, 18). -/
structure Boot where
  standby : Bool := true
  rim : Bool := true
  /-- bring-up step asked for (R419); boot source taken at step 3: host download -/
  target : Nat := 0
  src : Bool := false
  /-- ROM recovery mode (R454) -/
  recovery : Bool := false
  /-- reset on its way; step 7 passed since the last reset; this reset takes no dump; its dump is written (R416, R417) -/
  resetPending : Option ResetKind := none
  /-- when its first cause arose (R431), and when the running bring-up step began (R425) -/
  trigAt : Nat := 0
  stepAt : Nat := 0
  past7 : Bool := false
  noDump : Bool := false
  dumped : Bool := false
  /-- the last reset was warm; step 5 waits for the temperature after a trip (R410) -/
  lastWarm : Bool := false
  tripHold : Bool := false
  /-- functions that were ON, and STARTING, at the reset (R426) -/
  fnOn : List Nat := []
  fnStart : List Nat := []
  wdogArmed : Bool := false
  beatSeen : Bool := false
  linksDown : List CarrierLink := []
  cxlUp : Bool := true
  stalledEvents : Nat := 0
  /-- descriptors that have held a stalled burst, by unit and number, oldest stall first (R363) -/
  stalls : List (Nat × Nat) := []
  /-- value of PW_SLEEP_CFG in force for the present idle period of a tile, where the register has changed since (R415) -/
  idleCfg : FMap Nat := []
  /-- issue withheld in eighths: for the total, and by region (R398) -/
  capTotal : Nat := 0
  capRegion : FMap Nat := []
  /-- panels in the hold of a change to full mode, and panels whose rail ramps down after a change to slow mode (R405) -/
  hold : List Nat := []
  rampDown : List Nat := []
  /-- causes of protective slow mode that hold (R404), and the margins in force, West and East (R403) -/
  causes : List SlowCause := []
  margin : Nat × Nat := (0, 0)
  /-- dump copy under way: dump offset, destination, length (R434) -/
  copy : Nat × Nat × Nat := (0, 0, 0)
  /-- dumps since the last cold reset (R431) -/
  dumpSeq : Nat := 0
  /-- energy since the last cold reset in units of 2^-40 J: at all inputs, and of no context (R399) -/
  energy : Nat × Nat := (0, 0)
  /-- firmware: header of the running image, the image itself when it came from the host; its bank when it started as TRIAL;
  package whose image is being written to the other bank (R451) -/
  fwHdr : List W8 := []
  fwHost : Option (List W8) := none
  trialRun : Option Nat := none
  applyPkg : Option (List W8) := none
  /-- mailbox transfer: claimed by the window (`true`) or MCTP; bytes; the last chunk has come (R454) -/
  mboxBy : Option Bool := none
  mbox : List W8 := []
  mboxDone : Bool := false
  /-- well-backed guests placed in the dump region (R356) -/
  guests : List Nat := []
  /-- TAP: instruction and boundary-scan cells (R413) -/
  tapIr : TapInstr := .idcode
  tapCells : List Bool := []
  deriving DecidableEq, Repr, Inhabited

/-- What the block last answered on the host link, the sideband or the TAP. -/
structure Reply where
  bytes : List W8 := []
  poison : Bool := false
  deriving DecidableEq, Repr, Inhabited

/-! ## The whole block -/

/-- The state of the block. -/
structure State where
  /-- commands waiting, first in first out -/
  pending : List Instr := []
  /-- the model's own: counter applied to the free values -/
  freeCtr : Nat := 0
  /-- the model's own: nominal core cycles since standby power -/
  now : Nat := 0
  reply : Reply := {}
  out : List Msg := []
  /-- frames delivered to this module and not yet applied (R289) -/
  inbox : List Frame := []
  /-- LPDDR, wells by logical core and host memory, by engine address (R102) -/
  mem : List Host.Cell := []
  lpPoison : List Nat := []
  wellPoison : List Nat := []
  hostPoison : List Nat := []
  /-- writes to host memory that wait for the link, oldest first (R375) -/
  hostHeld : List (Nat × W8) := []
  dumpMem : List Host.Cell := []
  otp : List Host.Cell := []
  flash : List Host.Cell := []
  /-- overflow log of the defect journal (R445) -/
  djOver : List Nat := []
  /-- firmware data area (R449): header of the image that wrote the newest half, whose records stand in `chans` and `djOver`,
  and the half that is kept until commit -/
  dataWriter : List W8 := []
  dataOld : Option DataHalf := none
  aonLog : List W8 := []
  cores : FMap CoreSt := []
  tiles : FMap TileSt := []
  sos : FMap SoSt := []
  csos : FMap SoSt := []
  soStore : List Nat := []
  /-- detour entries in the mesh routers, by the fenced rectangle that they lead around: x0, y0, x1, y1 (R196) -/
  detours : List (Nat × Nat × Nat × Nat) := []
  cists : FMap CistSt := []
  chans : FMap ChanSt := []
  selfRefresh : Bool := false
  ports : FMap PortSt := []
  ctxs : FMap CtxSt := []
  hrings : FMap HRing := []
  accepted : List Entry := []
  journal : List JRec := []
  fns : FMap FnSt := []
  casc : Casc := {}
  boot : Boot := {}
  /-- BAR0 registers by offset, and the pair latches of R12 -/
  regs : FMap W32 := []
  rlatch : FMap W32 := []
  wlatch : FMap W32 := []
  /-- mirror window presence bits and outstanding snoops by line (R379); staging lines held (R377) -/
  presence : List Nat := []
  snoops : List Nat := []
  /-- staging lines that the host holds, oldest first -/
  snoopFilter : List Nat := []
  stagingSnoops : List Nat := []
  deriving DecidableEq, Repr

/-- Contents of OTP, which the spec leaves to each unit: part 0x6400, stepping 0xA1 and the check of the identity area;
generation 0 in format 1 with its check; every other field zero (log 6). -/
def factoryOtp : List Host.Cell := [(1, 0x64), (2, 0xA1), (252, 0x02), (253, 0xF7), (254, 0x5B), (255, 0x57), (256, 0x01),
  (764, 0x8B), (765, 0x68), (766, 0xD1), (767, 0x05)]

/-- The block right after reset: standby power has arrived with the always-on domain unpowered, which is a cold reset with
cause 6 (R416). Registers not listed in `regs` hold the reset values of their tables, memory lists nothing, no context is
bound and every tile is powered off (R418, R421). Values the spec does not state: logs 3 to 6. -/
def State.reset : State := { regs := [(0x114, 0x40#32)], otp := factoryOtp }

/-- No command of the block ends in a fault: what the spec calls a fault of a part or a program is an effect on State.
The type is closed and empty of reasons but one that no meaning raises. -/
inductive Fault where
  /-- raised by nobody; kept so that the type is inhabited; safe -/
  | none
  deriving DecidableEq, Repr

/-- Why a command is turned away. -/
inductive Refusal where
  /-- the dispatcher, for a row without a meaning yet; safe -/
  | notModelled (mnemonic : String)
  deriving DecidableEq, Repr

end Sys2Proof.Machine
end

