-- ==== Sys2Proof/Machine/Regs.lean ====
section
/-! DEFINITION. The registers of BAR0 (R11 to R16 and the register tables of every chapter): places, access codes, reset
values, and the one home of every register value, `State.regs`. -/

namespace Sys2Proof.Machine

/-- One row of a register table: where its words lie (block base, block count and stride, offset, count and stride inside
the block), which bits are RW, W1C, WO and readable, the reset value, and its half of a 64-bit pair (1 low, 2 high). -/
structure RegRow where
  base : Nat
  nblk : Nat
  bstr : Nat
  off : Nat
  n : Nat
  str : Nat
  rw : Nat
  w1c : Nat
  wo : Nat
  rd : Nat
  reset : Nat
  pair : Nat
  deriving DecidableEq, Repr, Inhabited

/-- Register tables, part 1. -/
def regRows1 : List RegRow := [
  ⟨0x1000000, 64, 0x10000, 0x2000, 1, 4, 0x0, 0x0, 0x0, 0xFFFF, 0x0, 0⟩ /- TL_CORE_SUMMARY -/,
  ⟨0x1000000, 64, 0x10000, 0x2004, 1, 4, 0x0, 0x0, 0x0, 0xFFFFFFFF, 0x0, 0⟩ /- TL_REPLAY_CNT -/,
  ⟨0x1000000, 64, 0x10000, 0x2100, 264, 4, 0x0, 0x0, 0x80000000, 0xFF1FFF, 0x0, 0⟩ /- TL_PCORE_n -/,
  ⟨0x1000000, 64, 0x10000, 0x2800, 1, 4, 0x0, 0x0, 0x0, 0xFFFFFFFF, 0x0, 0⟩ /- TL_WIT_FAIL -/,
  ⟨0x1000000, 64, 0x10000, 0x2804, 1, 4, 0x0, 0x0, 0x0, 0xFFFFFFFF, 0x0, 0⟩ /- TL_WIT_SKIP -/,
  ⟨0x1000000, 64, 0x10000, 0x2808, 1, 4, 0x0, 0x80000000, 0x0, 0x80000FFF, 0x0, 0⟩ /- TL_WIT_LAST -/,
  ⟨0x1000000, 64, 0x10000, 0x280C, 1, 4, 0x1FF, 0x0, 0x10000, 0x201FF, 0x0, 0⟩ /- TL_WIT_INJ -/,
  ⟨0x1000000, 64, 0x10000, 0x3000, 1, 4, 0x0, 0x0, 0x0, 0xFFFFFFFF, 0x0, 0⟩ /- TL_WELL_CE -/,
  ⟨0x1000000, 64, 0x10000, 0x3004, 1, 4, 0x0, 0x0, 0x0, 0xFFFFFFFF, 0x0, 0⟩ /- TL_WELL_UE -/,
  ⟨0x1000000, 64, 0x10000, 0x3008, 1, 4, 0x0, 0x80000000, 0x0, 0x87FFFFFF, 0x0, 0⟩ /- TL_WELL_LAST -/,
  ⟨0x1000000, 64, 0x10000, 0x300C, 1, 4, 0xFF, 0x10000, 0x0, 0x300FF, 0x14, 0⟩ /- TL_WELL_PATROL -/,
  ⟨0x1000000, 64, 0x10000, 0x3800, 1, 4, 0x0, 0x0, 0x0, 0xFFFFFFFF, 0x0, 0⟩ /- TL_MESH_RETRY -/,
  ⟨0x1000000, 64, 0x10000, 0x3804, 1, 4, 0x0, 0x0, 0x0, 0xFFFFFFFF, 0x0, 0⟩ /- TL_BLK_CRC -/,
  ⟨0x1000000, 64, 0x10000, 0x3808, 1, 4, 0x0, 0x80000000, 0x0, 0x80007FFF, 0x0, 0⟩ /- TL_BLK_LAST -/,
  ⟨0x1000000, 64, 0x10000, 0x3810, 1, 4, 0x0, 0x8000000, 0x0, 0x1FFFFFFF, 0x0, 0⟩ /- TL_PUMP_STAT -/,
  ⟨0x800000, 24, 0x10000, 0x100, 16, 4, 0x0, 0x0, 0x80000000, 0xFFFFFF3, 0x0, 0⟩ /- CS_CHAN_n -/,
  ⟨0x800000, 24, 0x10000, 0x200, 1, 4, 0x0, 0x0, 0x0, 0xFFFFFFFF, 0x0, 0⟩ /- CS_MEM_CE -/,
  ⟨0x800000, 24, 0x10000, 0x204, 1, 4, 0x0, 0x0, 0x0, 0xFFFFFFFF, 0x0, 0⟩ /- CS_MEM_UE -/,
  ⟨0x800000, 24, 0x10000, 0x208, 1, 4, 0x0, 0x80000000, 0x0, 0x87FFFFFF, 0x0, 0⟩ /- CS_MEM_LAST -/,
  ⟨0x800000, 24, 0x10000, 0x210, 1, 4, 0x0, 0x0, 0x0, 0xFFFFFFFF, 0x0, 0⟩ /- CS_MEM_DROP -/,
  ⟨0x800000, 24, 0x10000, 0x214, 1, 4, 0x0, 0x0, 0x0, 0xFFFFFFFF, 0x0, 0⟩ /- CS_BLK_CRC -/,
  ⟨0x800000, 24, 0x10000, 0x220, 1, 4, 0xFF, 0x100, 0x0, 0x1FF, 0x18, 0⟩ /- CS_SCRUB -/,
  ⟨0x800000, 24, 0x10000, 0x300, 1, 4, 0x3FFFFFF, 0x0, 0x0, 0x3FFFFFF, 0x0, 0⟩ /- CS_PPR_SEL -/,
  ⟨0x800000, 24, 0x10000, 0x304, 1, 4, 0x0, 0x0, 0x3, 0x0, 0x0, 0⟩ /- CS_PPR_CMD -/]

/-- Register tables, part 2. -/
def regRows2 : List RegRow := [
  ⟨0x800000, 24, 0x10000, 0x308, 1, 4, 0x0, 0xE, 0x0, 0x1F, 0x0, 0⟩ /- CS_PPR_STAT -/,
  ⟨0x800000, 24, 0x10000, 0x400, 1, 4, 0x0, 0x0, 0x0, 0xFFF, 0x0, 0⟩ /- CS_UPD_STAT -/,
  ⟨0x800000, 24, 0x10000, 0x404, 1, 4, 0x0, 0x0, 0x0, 0xFFFFFFFF, 0x0, 0⟩ /- CS_UPD_BLK -/,
  ⟨0x800000, 24, 0x10000, 0x408, 1, 4, 0x0, 0x0, 0x0, 0xFFFFFFFF, 0x0, 0⟩ /- CS_UPD_POISON -/,
  ⟨0x800000, 24, 0x10000, 0x40C, 1, 4, 0x0, 0x0, 0x0, 0xFFFFFFFF, 0x0, 0⟩ /- CS_UPD_SAT -/,
  ⟨0x2000000, 64, 0x4000, 0x0, 1, 4, 0x0, 0x0, 0x0, 0x7FFFFF, 0x0, 0⟩ /- AK_STAT -/,
  ⟨0x2000000, 64, 0x4000, 0x4, 1, 4, 0x0, 0x0, 0x0, 0xFFFFFFFF, 0x0, 0⟩ /- AK_FEC_CE -/,
  ⟨0x2000000, 64, 0x4000, 0x8, 1, 4, 0x0, 0x0, 0x0, 0xFFFFFFFF, 0x0, 0⟩ /- AK_FEC_UE -/,
  ⟨0x2000000, 64, 0x4000, 0xC, 1, 4, 0x0, 0x0, 0x0, 0xFFFFFFFF, 0x0, 0⟩ /- AK_REPLAY -/,
  ⟨0x2000000, 64, 0x4000, 0x10, 1, 4, 0x0, 0x0, 0x0, 0xFFFFFFFF, 0x0, 0⟩ /- AK_BLK_CRC -/,
  ⟨0x2000000, 64, 0x4000, 0x14, 1, 4, 0x0, 0x0, 0x0, 0xFFFFFFFF, 0x0, 0⟩ /- AK_PROV -/,
  ⟨0x2000000, 64, 0x4000, 0x18, 1, 4, 0x0, 0x0, 0x0, 0xFFFFFFFF, 0x0, 0⟩ /- AK_DROP -/,
  ⟨0x2000000, 64, 0x4000, 0x1C, 1, 4, 0x0, 0x0, 0x0, 0xFFFFFFFF, 0x0, 0⟩ /- AK_HEM -/,
  ⟨0x2000000, 1, 0x4000, 0x1000, 1, 4, 0x0, 0x0, 0x0, 0xFFFFFFF, 0x0, 0⟩ /- AK_CAS_STAT -/,
  ⟨0x2000000, 1, 0x4000, 0x1004, 1, 4, 0x0, 0x0, 0x0, 0xFFFFFFFF, 0x0, 0⟩ /- AK_CAS_LIVE -/,
  ⟨0x2000000, 1, 0x4000, 0x1008, 1, 4, 0x0, 0x0, 0x0, 0xFFFFFFFF, 0x0, 1⟩ /- AK_CAS_EPOCH_LO -/,
  ⟨0x2000000, 1, 0x4000, 0x100C, 1, 4, 0x0, 0x0, 0x0, 0xFFFFFFFF, 0x0, 2⟩ /- AK_CAS_EPOCH_HI -/,
  ⟨0x100000, 1, 0x100000, 0x0, 256, 4, 0x0, 0x18, 0x0, 0xFFFF001F, 0x0, 0⟩ /- FN_STAT_f -/,
  ⟨0x100000, 1, 0x100000, 0x400, 256, 4, 0x0, 0x0, 0x3, 0x0, 0x0, 0⟩ /- FN_CTRL_f -/,
  ⟨0x100000, 1, 0x100000, 0x800, 8, 4, 0x0, 0x0, 0x0, 0xFFFFFFFF, 0x0, 0⟩ /- FN_PENDING_k -/,
  ⟨0x100000, 1, 0x100000, 0x900, 64, 4, 0x0, 0x0, 0x0, 0xFFFF0007, 0x10000, 0⟩ /- FN_CTX_n -/,
  ⟨0x100000, 1, 0x100000, 0xA00, 1, 4, 0x0, 0x0, 0x0, 0xFFFFFFFF, 0x0, 0⟩ /- FN_GEN_DROP -/,
  ⟨0x100000, 1, 0x100000, 0x10000, 16384, 4, 0xFFFFFFFF, 0x0, 0x0, 0xFFFFFFFF, 0x0, 0⟩ /- FN_SET_f_w -/,
  ⟨0x0, 1, 0x100000, 0x8000, 1, 4, 0x0, 0x0, 0x0, 0x8000007F, 0x0, 0⟩ /- WH_RPL -/]

/-- Register tables, part 3. -/
def regRows3 : List RegRow := [
  ⟨0x0, 1, 0x100000, 0x8004, 1, 4, 0x0, 0x0, 0x0, 0xFFFFFF, 0x0, 0⟩ /- WH_HEALTH0 -/,
  ⟨0x0, 1, 0x100000, 0x8008, 1, 4, 0x0, 0x0, 0x0, 0x1FFFFFF, 0x0, 0⟩ /- WH_HEALTH1 -/,
  ⟨0x0, 1, 0x100000, 0x800C, 1, 4, 0x0, 0x0, 0x0, 0xFFFF, 0x0, 0⟩ /- WH_PR_LOST -/,
  ⟨0x0, 1, 0x100000, 0x8010, 1, 4, 0x0, 0x0, 0x0, 0x7FFFFF, 0x0, 0⟩ /- WH_DJ -/,
  ⟨0x0, 1, 0x100000, 0x8014, 1, 4, 0x0, 0x4, 0x0, 0xF, 0x0, 0⟩ /- WH_JRN -/,
  ⟨0x0, 1, 0x100000, 0x8020, 1, 4, 0xFFFF, 0x0, 0x0, 0xFFFF, 0x64, 0⟩ /- WH_STALL_CFG -/,
  ⟨0x0, 1, 0x100000, 0x8024, 1, 4, 0x0, 0x800000, 0x0, 0xFFFFFF, 0x7F0000, 0⟩ /- WH_STALL -/,
  ⟨0x200000, 64, 0x40, 0x0, 1, 4, 0xFFFFFFFF, 0x0, 0x0, 0xFFFFFFFF, 0x0, 1⟩ /- HC_RING_BASE -/,
  ⟨0x200000, 64, 0x40, 0x4, 1, 4, 0xFFFFFFFF, 0x0, 0x0, 0xFFFFFFFF, 0x0, 2⟩ /- HC_RING_BASE high -/,
  ⟨0x200000, 64, 0x40, 0x8, 1, 4, 0xFFFFFFFF, 0x0, 0x0, 0xFFFFFFFF, 0x0, 1⟩ /- HC_RING_TAILA -/,
  ⟨0x200000, 64, 0x40, 0xC, 1, 4, 0xFFFFFFFF, 0x0, 0x0, 0xFFFFFFFF, 0x0, 2⟩ /- HC_RING_TAILA high -/,
  ⟨0x200000, 64, 0x40, 0x10, 1, 4, 0xFFFFFFFF, 0x0, 0x0, 0xFFFFFFFF, 0x0, 1⟩ /- HC_CPL_BASE -/,
  ⟨0x200000, 64, 0x40, 0x14, 1, 4, 0xFFFFFFFF, 0x0, 0x0, 0xFFFFFFFF, 0x0, 2⟩ /- HC_CPL_BASE high -/,
  ⟨0x200000, 64, 0x40, 0x18, 1, 4, 0xFFFFFFFF, 0x0, 0x0, 0xFFFFFFFF, 0x0, 1⟩ /- HC_CPL_CONS -/,
  ⟨0x200000, 64, 0x40, 0x1C, 1, 4, 0xFFFFFFFF, 0x0, 0x0, 0xFFFFFFFF, 0x0, 2⟩ /- HC_CPL_CONS high -/,
  ⟨0x200000, 64, 0x40, 0x20, 1, 4, 0xFFE1, 0x0, 0x0, 0xFFE1, 0x80, 0⟩ /- HC_RING_CFG -/,
  ⟨0x200000, 64, 0x40, 0x24, 1, 4, 0x0, 0x4, 0x0, 0x7, 0x0, 0⟩ /- HC_RING_STAT -/,
  ⟨0x200000, 64, 0x40, 0x28, 1, 4, 0xFFFFFFFF, 0x0, 0x0, 0xFFFFFFFF, 0x0, 1⟩ /- HC_RING_ACC -/,
  ⟨0x200000, 64, 0x40, 0x2C, 1, 4, 0xFFFFFFFF, 0x0, 0x0, 0xFFFFFFFF, 0x0, 2⟩ /- HC_RING_ACC high -/,
  ⟨0x200000, 1, 0x200000, 0x1000, 1, 4, 0x7F, 0x0, 0x0, 0x7F, 0x3F, 0⟩ /- HC_EVT_CFG -/,
  ⟨0x200000, 1, 0x200000, 0x1004, 1, 4, 0x0, 0xF, 0x0, 0xF, 0x0, 0⟩ /- HC_ERR -/,
  ⟨0x200000, 1, 0x200000, 0x2000, 4096, 4, 0x8001FFFF, 0x0, 0x0, 0x8001FFFF, 0x0, 0⟩ /- HC_SOMIR_k -/,
  ⟨0x400000, 1, 0x400000, 0x0, 1, 4, 0x0, 0x10, 0x0, 0x1F, 0x0, 0⟩ /- PW_STAT -/,
  ⟨0x400000, 1, 0x400000, 0x100, 16, 4, 0x0, 0x0, 0x0, 0x7FF000F, 0x0, 0⟩ /- PW_PR_n -/]

/-- Register tables, part 4. -/
def regRows4 : List RegRow := [
  ⟨0x400000, 1, 0x400000, 0x200, 1, 4, 0xFF, 0x0, 0x0, 0xFF, 0xB4, 0⟩ /- PW_CAP -/,
  ⟨0x400000, 1, 0x400000, 0x210, 1, 4, 0x0, 0x0, 0x0, 0xFFFFFFFF, 0x0, 1⟩ /- PW_ENERGY_LO -/,
  ⟨0x400000, 1, 0x400000, 0x214, 1, 4, 0x0, 0x0, 0x0, 0xFFFFFFFF, 0x0, 2⟩ /- PW_ENERGY_HI -/,
  ⟨0x400000, 1, 0x400000, 0x218, 1, 4, 0x0, 0x0, 0x0, 0xFFFFFFFF, 0x0, 1⟩ /- PW_UNATTR_LO -/,
  ⟨0x400000, 1, 0x400000, 0x21C, 1, 4, 0x0, 0x0, 0x0, 0xFFFFFFFF, 0x0, 2⟩ /- PW_UNATTR_HI -/,
  ⟨0x400000, 1, 0x400000, 0x300, 1, 4, 0xFFFFFF, 0x0, 0x0, 0xFFFFFF, 0xA0A32, 0⟩ /- PW_SLEEP_CFG -/,
  ⟨0x400000, 1, 0x400000, 0x400, 1, 4, 0x0, 0x0, 0x0, 0x7FFFFFF, 0x0, 0⟩ /- PW_TEMP -/,
  ⟨0x400000, 1, 0x400000, 0x8000, 2, 4, 0x0, 0x0, 0x0, 0x3FF003F, 0x0, 0⟩ /- CK_PANEL_p -/,
  ⟨0x400000, 1, 0x400000, 0x8010, 1, 4, 0x0, 0x0, 0x0, 0xFFFFFFFF, 0x0, 1⟩ /- CK_TICK_LO -/,
  ⟨0x400000, 1, 0x400000, 0x8014, 1, 4, 0x0, 0x0, 0x0, 0xFFFFFFFF, 0x0, 2⟩ /- CK_TICK_HI -/,
  ⟨0x400000, 1, 0x400000, 0x8020, 1, 4, 0x0, 0x0, 0x0, 0xFFFFFFFF, 0x0, 0⟩ /- CK_RELOCK -/,
  ⟨0x0, 1, 0x100000, 0x0, 1, 4, 0x0, 0x0, 0x0, 0x3FFFFFF, 0xA16400, 0⟩ /- WH_ID -/,
  ⟨0x0, 1, 0x100000, 0x4, 1, 4, 0x0, 0x0, 0x0, 0xFFFFFFFF, 0x16400567, 0⟩ /- WH_IDCODE -/,
  ⟨0x0, 1, 0x100000, 0x8, 1, 4, 0x0, 0x0, 0x0, 0xFFFFFFFF, 0x0, 1⟩ /- WH_SERIAL_LO -/,
  ⟨0x0, 1, 0x100000, 0xC, 1, 4, 0x0, 0x0, 0x0, 0xFFFFFFFF, 0x0, 2⟩ /- WH_SERIAL_HI -/,
  ⟨0x0, 1, 0x100000, 0x100, 1, 4, 0x1, 0x0, 0x0, 0x1, 0x0, 0⟩ /- WH_BOOT_CTRL -/,
  ⟨0x0, 1, 0x100000, 0x104, 1, 4, 0x0, 0x0, 0xF, 0x0, 0x0, 0⟩ /- WH_BRING_CMD -/,
  ⟨0x0, 1, 0x100000, 0x108, 1, 4, 0x0, 0x80, 0x0, 0xFFFF00FF, 0x0, 0⟩ /- WH_BRING_STAT -/,
  ⟨0x0, 1, 0x100000, 0x10C, 1, 4, 0x7F, 0x0, 0x0, 0x7F, 0x19, 0⟩ /- WH_BRING_CFG -/,
  ⟨0x0, 1, 0x100000, 0x110, 1, 4, 0x0, 0x0, 0x3, 0x0, 0x0, 0⟩ /- WH_RESET -/,
  ⟨0x0, 1, 0x100000, 0x114, 1, 4, 0x0, 0xFF, 0x0, 0xFFFF00FF, 0x0, 0⟩ /- WH_RST_CAUSE -/,
  ⟨0x0, 1, 0x100000, 0x120, 1, 4, 0xF, 0x0, 0x0, 0xFF, 0x3, 0⟩ /- WH_WDOG -/,
  ⟨0x0, 1, 0x100000, 0x124, 1, 4, 0x0, 0x0, 0x0, 0xFFFFFFFF, 0x0, 1⟩ /- WH_HB_LO -/,
  ⟨0x0, 1, 0x100000, 0x128, 1, 4, 0x0, 0x0, 0x0, 0xFFFFFFFF, 0x0, 2⟩ /- WH_HB_HI -/]

/-- Register tables, part 5. -/
def regRows5 : List RegRow := [
  ⟨0x3800000, 1, 0x100000, 0x0, 1, 4, 0x0, 0x5, 0x0, 0xFFFF0007, 0x0, 0⟩ /- DG_STAT -/,
  ⟨0x3800000, 1, 0x100000, 0x4, 1, 4, 0x7, 0x0, 0x0, 0x7, 0x6, 0⟩ /- DG_CFG -/,
  ⟨0x3800000, 1, 0x100000, 0x10, 1, 4, 0xFFFFFFFF, 0x0, 0x0, 0xFFFFFFFF, 0x0, 1⟩ /- DG_COPY_SRC -/,
  ⟨0x3800000, 1, 0x100000, 0x14, 1, 4, 0xFFFFFFFF, 0x0, 0x0, 0xFFFFFFFF, 0x0, 2⟩ /- DG_COPY_SRC high -/,
  ⟨0x3800000, 1, 0x100000, 0x18, 1, 4, 0xFFFFFFFF, 0x0, 0x0, 0xFFFFFFFF, 0x0, 1⟩ /- DG_COPY_DST -/,
  ⟨0x3800000, 1, 0x100000, 0x1C, 1, 4, 0xFFFFFFFF, 0x0, 0x0, 0xFFFFFFFF, 0x0, 2⟩ /- DG_COPY_DST high -/,
  ⟨0x3800000, 1, 0x100000, 0x20, 1, 4, 0xFFFFFFFF, 0x0, 0x0, 0xFFFFFFFF, 0x0, 0⟩ /- DG_COPY_LEN -/,
  ⟨0x3800000, 1, 0x100000, 0x24, 1, 4, 0x0, 0x0, 0x1, 0x0, 0x0, 0⟩ /- DG_COPY_CMD -/,
  ⟨0x3800000, 1, 0x100000, 0x28, 1, 4, 0x0, 0x6, 0x0, 0xFFFF0007, 0x0, 0⟩ /- DG_COPY_STAT -/,
  ⟨0x3000000, 1, 0x10000, 0x0, 1, 4, 0x0, 0x0, 0x0, 0x3FFFF, 0x0, 0⟩ /- OT_CFG -/,
  ⟨0x3000000, 1, 0x10000, 0x4, 1, 4, 0x0, 0x0, 0x0, 0x3FFFF, 0x0, 0⟩ /- OT_ARB -/,
  ⟨0x3000000, 1, 0x10000, 0x8, 1, 4, 0xFFF, 0x0, 0x0, 0xFFF, 0x0, 0⟩ /- OT_ADDR -/,
  ⟨0x3000000, 1, 0x10000, 0xC, 1, 4, 0x0, 0x0, 0x0, 0xFFFFFFFF, 0x0, 0⟩ /- OT_DATA -/,
  ⟨0x3010000, 1, 0x10000, 0x0, 1, 4, 0x0, 0x0, 0x0, 0xFF, 0x0, 0⟩ /- FW_BANK -/,
  ⟨0x3010000, 1, 0x10000, 0x4, 1, 4, 0x0, 0x0, 0x0, 0xFFFFFFFF, 0x0, 0⟩ /- FW_VER -/,
  ⟨0x3010000, 1, 0x10000, 0x10, 1, 4, 0xFFFFFFFF, 0x0, 0x0, 0xFFFFFFFF, 0x0, 1⟩ /- FW_PKG -/,
  ⟨0x3010000, 1, 0x10000, 0x14, 1, 4, 0xFFFFFFFF, 0x0, 0x0, 0xFFFFFFFF, 0x0, 2⟩ /- FW_PKG high -/,
  ⟨0x3010000, 1, 0x10000, 0x1C, 1, 4, 0x0, 0x0, 0x3, 0x0, 0x0, 0⟩ /- FW_CMD -/,
  ⟨0x3010000, 1, 0x10000, 0x20, 1, 4, 0x0, 0x6, 0x0, 0xFFFF0007, 0x0, 0⟩ /- FW_STAT -/,
  ⟨0x3010000, 1, 0x10000, 0x100, 1, 4, 0x1FFF, 0x0, 0x6000, 0xFFFF9FFF, 0x8000, 0⟩ /- FW_MBOX_CTL -/,
  ⟨0x3010000, 1, 0x10000, 0x1000, 1024, 4, 0xFFFFFFFF, 0x0, 0x0, 0xFFFFFFFF, 0x0, 0⟩ /- FW_MBOX data -/,
  ⟨0x3010000, 1, 0x10000, 0x200, 8, 4, 0xFFFFFFFF, 0x0, 0x0, 0xFFFFFFFF, 0x0, 0⟩ /- FW_ATT_NONCE_i -/,
  ⟨0x3010000, 1, 0x10000, 0x220, 1, 4, 0xFFFFFFFF, 0x0, 0x0, 0xFFFFFFFF, 0x0, 1⟩ /- FW_ATT_DST -/,
  ⟨0x3010000, 1, 0x10000, 0x224, 1, 4, 0xFFFFFFFF, 0x0, 0x0, 0xFFFFFFFF, 0x0, 2⟩ /- FW_ATT_DST high -/]

/-- Register tables, part 6. -/
def regRows6 : List RegRow := [
  ⟨0x3010000, 1, 0x10000, 0x228, 1, 4, 0x0, 0x0, 0x1, 0x0, 0x0, 0⟩ /- FW_ATT_CMD -/,
  ⟨0x3010000, 1, 0x10000, 0x22C, 1, 4, 0x0, 0x0, 0x0, 0xFFFFFFFF, 0x0, 0⟩ /- FW_ATT_STAT -/]

/-- All register rows. -/
def regRows : List RegRow := regRows1 ++ regRows2 ++ regRows3 ++ regRows4 ++ regRows5 ++ regRows6

/-- Does an offset of BAR0 name a word of the row? -/
def RegRow.has (r : RegRow) (o : Nat) : Bool :=
  r.base ≤ o && (o - r.base) / r.bstr < r.nblk &&
  (let y := (o - r.base) % r.bstr
   r.off ≤ y && (y - r.off) % r.str == 0 && (y - r.off) / r.str < r.n)

/-- The row of an offset, none where no register lies (R13). -/
def regRow? (o : Nat) : Option RegRow := regRows.find? (·.has o)

/-- Reset value of TL_PCORE_n and TL_CORE_SUMMARY by their place in a tile's block, as an empty defect map gives them: well n
and active, cores 256 to 263 spare (log 4). -/
def coreReset (y : Nat) : Nat :=
  if y == 0x2000 then 8 else let n := (y - 0x2100) / 4; if n < 256 then n else 0x1FF + 2 ^ 9

/-- Reset value of a register: that of its row, but FN_STAT of functions 1, 2 and 3, which are ON (Table 13.8), and the core
registers that the defect map fills. -/
def regReset (o : Nat) : Nat :=
  if o == 0x100004 || o == 0x100008 || o == 0x10000C then 2
  else if 0x1000000 ≤ o && o < 0x1400000 && o % 4 == 0 &&
      (o % 0x10000 == 0x2000 || 0x2100 ≤ o % 0x10000 && o % 0x10000 < 0x2100 + 4 * 264) then coreReset (o % 0x10000)
  else match regRow? o with
    | some r => r.reset
    | none => 0

/-- Offset in a tile's block. -/
def rTL (t o : Nat) : Nat := 0x1000000 + t * 0x10000 + o
/-- Offset in a cistern's block. -/
def rCS (c o : Nat) : Nat := 0x800000 + c * 0x10000 + o
/-- Offset in a port's block. -/
def rAK (n o : Nat) : Nat := 0x2000000 + n * 0x4000 + o
/-- Offset in the function block. -/
def rFN (o : Nat) : Nat := 0x100000 + o
/-- Offset in a host ring's registers. -/
def rHC (ring o : Nat) : Nat := 0x200000 + ring * 0x40 + o
/-- Offset in the power and clock block. -/
def rPW (o : Nat) : Nat := 0x400000 + o
/-- Offset in the OTP block. -/
def rOT (o : Nat) : Nat := 0x3000000 + o
/-- Offset in the firmware block. -/
def rFW (o : Nat) : Nat := 0x3010000 + o
/-- Offset in the dump block. -/
def rDG (o : Nat) : Nat := 0x3800000 + o
/-- FN_STAT_f (Table 13.11). -/
def rFnStat (f : Nat) : Nat := rFN (4 * f)
/-- FN_CTX_n (Table 13.11). -/
def rFnCtx (n : Nat) : Nat := rFN (0x900 + 4 * n)
/-- TL_PCORE_n (Table 3.7). -/
def rPcore (t n : Nat) : Nat := rTL t (0x2100 + 4 * n)
/-- CS_CHAN_n (Table 9.5) of channel `c` of the module, counted 4 × stack + channel. -/
def rChan (c : Nat) : Nat := rCS (c / 16) (0x100 + 4 * (c % 16))

/-- The stored value of a register. -/
def rget (s : State) (o : Nat) : Nat :=
  match fget? o s.regs with
  | some v => v.toNat
  | none => regReset o

/-- Store a register value. -/
def rput (s : State) (o v : Nat) : State := { s with regs := fset o (BitVec.ofNat 32 v) s.regs }

/-- A field `[lo + w - 1 : lo]` of a register. -/
def rfld (s : State) (o lo w : Nat) : Nat := bitsAt (rget s o) lo w

/-- Replace a field of a register. -/
def rsetf (s : State) (o lo w v : Nat) : State := rput s o (putBits (rget s o) lo w v)

/-- A saturating 32-bit count rises by `n`. -/
def rcount (s : State) (o n : Nat) : State := if n == 0 then s else rput s o (satAdd32 (rget s o) n)

/-- A field that counts and saturates at its width. -/
def rcountF (s : State) (o lo w n : Nat) : State := rsetf s o lo w (min (2 ^ w - 1) (rfld s o lo w + n))

/-- A 64-bit quantity in two registers. -/
def rget64 (s : State) (o : Nat) : Nat := rget s o + 2 ^ 32 * rget s (o + 4)

/-- Store a 64-bit quantity. -/
def rput64 (s : State) (o v : Nat) : State := rput (rput s o (v % 2 ^ 32)) (o + 4) (v / 2 ^ 32 % 2 ^ 32)

end Sys2Proof.Machine
end

