-- ==== Sys2Proof/Machine/Ops.lean ====
section
/-! DEFINITION. Named operations over memory, cores, slots and messages. -/

namespace Sys2Proof.Machine

/-! ## Memory in canonical form -/

/-- Read one byte; an unlisted address reads as `d`. -/
def cellGet (d : W8) (a : Nat) (m : List Host.Cell) : W8 := fget d a m

/-- Write one byte; writing what an unlisted address reads as removes the entry. -/
def cellSet (d : W8) (a : Nat) (v : W8) (m : List Host.Cell) : List Host.Cell :=
  if v = d then ferase a m else fset a v m

/-- Write several bytes, in list order. -/
def cellSets (d : W8) (bs : List (Nat × W8)) (m : List Host.Cell) : List Host.Cell :=
  bs.foldl (fun m e => cellSet d e.1 e.2 m) m

/-- Addresses strictly rising. -/
def keysRise : List Host.Cell → Bool
  | [] => true
  | [_] => true
  | a :: b :: r => a.1 < b.1 && keysRise (b :: r)

/-- The canonical form: addresses strictly rising, no entry equal to what an unlisted address reads as. -/
def Memory.wf (d : W8) (m : List Host.Cell) : Bool := keysRise m && m.all fun e => e.2 != d

/-- What an unlisted engine address reads as: LPDDR (R230) and wells (R180) hold zero; host memory: DESIGN CHOICE zero
(log 5). -/
def memDefault : W8 := 0

/-- Consecutive addresses of a byte list. -/
def atAddr : Nat → List W8 → List (Nat × W8)
  | _, [] => []
  | a, b :: r => (a, b) :: atAddr (a + 1) r

/-- Addresses `a`, …, `a + n − 1`. -/
def span (a n : Nat) : List Nat := (List.range n).map (a + ·)

/-! ## Regions of the engine address space (R102, R163, R209, R374) -/

/-- Where an engine address lies (Table 4.7). -/
inductive Region where
  | lpddr (chan : Nat)
  | well (lcid off : Nat)
  | host
  | none
  deriving DecidableEq, Repr

/-- R163: engine address of a well's first byte. -/
def wellBase (lcid : Nat) : Nat := 0x100000000000 + lcid * 0x400000

/-- CS_CHAN state of a channel of the module: 0 active, 1 failed, 2 retired. -/
def chanState (s : State) (c : Nat) : Nat := rfld s (rChan c) 0 2

/-- R209: channel number 4 × stack + channel of an LPDDR address. -/
def chanOf (a : Nat) : Nat := 4 * (a / 0x800000000) + a % 0x800000000 / 0x1E0000000

/-- Table 4.7; a retired channel's quarter lies in no region (R227). -/
def regionOf (s : State) (a : Nat) : Region :=
  if a < 96 * 0x800000000 then
    if a % 0x800000000 < 0x780000000 && chanState s (chanOf a) != 2 then .lpddr (chanOf a) else .none
  else if 0x100000000000 ≤ a && a < wellBase 16384 then
    .well ((a - 0x100000000000) / 0x400000) ((a - 0x100000000000) % 0x400000)
  else if 0x400000000000 ≤ a && a < 0x800000000000 then .host
  else .none

/-- The cistern of a channel (Table 0.2). -/
def cistOfChan (c : Nat) : Nat := c / 16

/-! ## Cores and slots -/

/-- A logical core. -/
def coreOf (s : State) (l : Nat) : CoreSt := fget {} l s.cores

/-- Replace a logical core. -/
def putCore (s : State) (l : Nat) (c : CoreSt) : State := { s with cores := fset l c s.cores }

/-- A slot of a core. -/
def CoreSt.slot (c : CoreSt) (i : Nat) : SlotSt := c.slots[i]?.getD {}

/-- Replace a slot of a core. -/
def CoreSt.putSlot (c : CoreSt) (i : Nat) (x : SlotSt) : CoreSt := { c with slots := c.slots.setIfInBounds i x }

/-- A stream slot. -/
def slotOf (s : State) (u : StreamId) : SlotSt := (coreOf s u.lcid).slot u.slot

/-- Replace a stream slot. -/
def putSlot (s : State) (u : StreamId) (x : SlotSt) : State :=
  putCore s u.lcid ((coreOf s u.lcid).putSlot u.slot x)

/-- A tile. -/
def tileOf (s : State) (t : Nat) : TileSt := fget {} t s.tiles

/-- Replace a tile. -/
def putTile (s : State) (t : Nat) (x : TileSt) : State := { s with tiles := fset t x s.tiles }

/-- A cistern. -/
def cistOf (s : State) (j : Nat) : CistSt := fget {} j s.cists

/-- Replace a cistern. -/
def putCist (s : State) (j : Nat) (x : CistSt) : State := { s with cists := fset j x s.cists }

/-- A channel's repair state. -/
def chanSt (s : State) (c : Nat) : ChanSt := fget {} c s.chans

/-- Replace a channel's repair state. -/
def putChan (s : State) (c : Nat) (x : ChanSt) : State := { s with chans := fset c x s.chans }

/-- A context. -/
def ctxOf (s : State) (n : Nat) : CtxSt := fget {} n s.ctxs

/-- Replace a context. -/
def putCtx (s : State) (n : Nat) (x : CtxSt) : State := { s with ctxs := fset n x s.ctxs }

/-- An Akgon port. -/
def portOf (s : State) (n : Nat) : PortSt := fget {} n s.ports

/-- Replace a port. -/
def putPort (s : State) (n : Nat) (x : PortSt) : State := { s with ports := fset n x s.ports }

/-- A synchronisation object. -/
def soOf (s : State) (n : Nat) : SoSt := fget {} n s.sos

/-- A ring of a core, none when undeclared (R172). -/
def CoreSt.ring? (c : CoreSt) (r : Nat) : Option RingSt := fget? r c.rings

/-- Replace a ring. -/
def CoreSt.putRing (c : CoreSt) (r : Nat) (x : RingSt) : CoreSt := { c with rings := fset r x c.rings }

/-- A slot of a ring. -/
def RingSt.slot (r : RingSt) (i : Nat) : RSlot := fget {} i r.slots

/-- Replace a slot of a ring. -/
def RingSt.putSlot (r : RingSt) (i : Nat) (x : RSlot) : RingSt := { r with slots := fset i x r.slots }

/-- R57: does the stream exist? -/
def validStream (u : StreamId) : Bool := u.lcid < 16384 && u.slot < 3

/-- Tile of a logical core (Table 0.2). -/
def tileOfCore (l : Nat) : Nat := l / 256

/-! ## Contexts -/

/-- State of a context: 0 EMPTY, 1 BOUND, 2 LOADED, 3 HALTED (FN_CTX_n). -/
def ctxState (s : State) (n : Nat) : Nat := rfld s (rFnCtx n) 0 2

/-- Binding generation of a context. -/
def ctxGen (s : State) (n : Nat) : Nat := rfld s (rFnCtx n) 16 16

/-- The present stamp of a context's binding (R323). -/
def ctxStamp (s : State) (n : Nat) : Stamp := ⟨n, ctxGen s n⟩

/-- The stamp that the resources bound to a context hold, until a bind or load stamps them anew (R323, R329, R330). -/
def heldStamp (s : State) (n : Nat) : Stamp := ⟨n, (ctxOf s n).held⟩

/-- Logical cores of a binding in ascending order (R327). -/
def Binding.cores (b : Binding) : List Nat := b.quarters.flatMap fun q => span (q / 4 * 256 + q % 4 * 64) 64

/-- Synchronisation objects of a binding in ascending order (R327). -/
def Binding.soCount (b : Binding) : Nat := b.quarters.length * 256

/-- R327: the physical object of a context-relative index. -/
def Binding.so? (b : Binding) (i : Nat) : Option Nat :=
  match b.quarters[i / 256]? with
  | some q => some (q / 4 * 1024 + q % 4 * 256 + i % 256)
  | none => none

/-- Bound logical cores of a context. -/
def ctxCores (s : State) (n : Nat) : List Nat :=
  match (ctxOf s n).bind with
  | some b => b.cores
  | none => []

/-- Does a range entry cover `[a, a + n)`? -/
def RangeE.covers (r : RangeE) (a n : Nat) : Bool := r.base ≤ a && a + n ≤ r.base + r.pages * 4096

/-- Does an address span lie in one LPDDR or host range of a binding? -/
def Binding.inRange (b : Binding) (a n : Nat) : Bool := b.lpr.any (·.covers a n) || b.hostr.any (·.covers a n)

/-- The LPDDR range of a binding that holds an address. -/
def Binding.lpRange? (b : Binding) (a : Nat) : Option RangeE := b.lpr.find? (·.covers a 1)

/-- The context that binds an LPDDR address, with its range. -/
def rangeOwner (s : State) (a : Nat) : Option (Nat × RangeE) :=
  s.ctxs.findSome? fun e => match e.2.bind with
    | some b => (b.lpRange? a).map fun r => (e.1, r)
    | none => none

/-! ## Messages and counts -/

/-- Send a message. -/
def emit (s : State) (m : Msg) : State := { s with out := s.out ++ [m] }

/-- Send several messages. -/
def emits (s : State) (ms : List Msg) : State := { s with out := s.out ++ ms }

/-- A message arrives: one equal copy leaves the messages in flight. -/
def arrive (s : State) (m : Msg) : State := { s with out := eraseOne m s.out }

/-- R323: an item is dropped, and FN_GEN_DROP counts it. -/
def dropItem (s : State) : State := rcount s (rFN 0xA00) 1

/-- The next free value counter. -/
def useFree (s : State) : State := { s with freeCtr := s.freeCtr + 1 }

/-! ## Poison and bytes -/

/-- R164: codeword of a well byte. -/
def wellCw (lcid off : Nat) : Nat := lcid * 131072 + off / 1024 * 32 + off / 8 % 32

/-- R178: the byte a gather buffer holds for a well offset. -/
def gatherByte (c : CoreSt) (off : Nat) : Option W8 :=
  c.gather.findSome? fun g => if g.off == off / 64 * 64 then fget? (off % 64) g.bytes else none

/-- Is the byte at an engine address poisoned (R166, R213, R227, R390)? A byte that the gather buffer holds over a poisoned
codeword is: every read of that codeword returns an uncorrectable error (DEDUCED, log 52). -/
def badAt (s : State) (a : Nat) : Bool :=
  match regionOf s a with
  | .lpddr c => chanState s c != 0 || s.lpPoison.contains (a / 64)
  | .well l off => s.wellPoison.contains (wellCw l off)
  | .host => s.hostPoison.contains (a / 64)
  | .none => false

/-- The byte that a read of an engine address sees: the gather buffer's (R178), the memory's, or, where it is poisoned, a
free value (log 17). -/
def byteAt (s : State) (a : Nat) : W8 :=
  if badAt s a then Config.poisonByte s.freeCtr a
  else match regionOf s a with
    | .well l off => (gatherByte (coreOf s l) off).getD (cellGet memDefault a s.mem)
    | _ => cellGet memDefault a s.mem

/-- A run of bytes. -/
def bytesAt (s : State) (a n : Nat) : List W8 := (span a n).map (byteAt s)

/-- Is any byte of a run poisoned? -/
def anyBad (s : State) (a n : Nat) : Bool := (span a n).any (badAt s)

/-- The bytes of a write that take effect and the marks it clears: a write of a whole codeword clears its mark, a
partial write to a marked codeword is discarded (R166, R213). `cw` gives an address's codeword and `n` its bytes. -/
def overPoison (cw : Nat → Nat) (n : Nat) (marks : List Nat) (bs : List (Nat × W8)) : List (Nat × W8) × List Nat :=
  let hit := marks.filter fun k => bs.any fun e => cw e.1 == k
  let whole := hit.filter fun k => (bs.filter fun e => cw e.1 == k).length == n
  (bs.filter fun e => !(marks.contains (cw e.1)) || whole.contains (cw e.1), marks.filter fun k => !(whole.contains k))

/-! ## Errors met in well codewords -/

/-- Tile-local number of the physical well that serves a logical core. -/
def pwellOf (s : State) (l : Nat) : Nat := fget (l % 256) (l % 256) (tileOf s (tileOfCore l)).wells

/-- Tile-local number of the physical core that serves a logical core. -/
def pcoreOf (s : State) (l : Nat) : Nat := fget (pwellOf s l) (pwellOf s l) (tileOf s (tileOfCore l)).serv

/-- TL_WELL_LAST (Table 7.4): tile, physical well, block, bank. -/
def wellLast (s : State) (t pwell block bank : Nat) (ue : Bool) : State :=
  rput s (rTL t 0x3008) (pwell % 512 + block % 4096 * 2 ^ 9 + bank % 32 * 2 ^ 21 + ue.toNat * 2 ^ 26 + 2 ^ 31)

/-- Does a well error count: a corrected one, or a codeword that becomes poisoned? -/
def wellErrNew (s : State) (e : SymErr) : Bool :=
  match regionOf s e.addr with
  | .well l off => !e.ue || !(s.wellPoison.contains (wellCw l off))
  | _ => false

/-- R166: one codeword error of a well; a marked codeword stays marked and counts no more. -/
def wellErr (s : State) (e : SymErr) : State :=
  match regionOf s e.addr with
  | .well l off =>
    if !(wellErrNew s e) then s
    else if e.ue then rcount { s with wellPoison := nins (wellCw l off) s.wellPoison } (rTL (tileOfCore l) 0x3004) 1
    else rcount s (rTL (tileOfCore l) 0x3000) 1
  | _ => s

/-- R181: which of several errors TL_WELL_LAST records: an uncorrectable one, then the highest physical well, then the highest
block. -/
def wellRank (s : State) (e : SymErr) : Nat :=
  match regionOf s e.addr with
  | .well l off => e.ue.toNat * 2 ^ 32 + pwellOf s l * 2 ^ 20 + off / 1024 * 2 ^ 5 + off / 8 % 32
  | _ => 0

/-- An error is put into a list that rises in rank. -/
def rankIn (s : State) (e : SymErr) : List SymErr → List SymErr
  | [] => [e]
  | x :: r => if wellRank s e < wellRank s x then e :: x :: r else x :: rankIn s e r

/-- The codeword errors of an access, restricted to the addresses that the access reads; TL_WELL_LAST keeps the highest in
rank (R181). -/
def wellErrs (s : State) (errs : List SymErr) (touch : Nat → Bool) : State :=
  let es := errs.filter fun e => touch e.addr
  let show1 (t : State) (e : SymErr) : State := match regionOf s e.addr with
    | .well l off => wellLast t (tileOfCore l) (pwellOf s l) (off / 1024) (off / 8 % 32) e.ue
    | _ => t
  ((es.filter (wellErrNew s)).foldl (fun a e => rankIn s e a) []).foldl show1 (es.foldl wellErr s)

/-- R166: errors that the merge reads of partly written codewords meet. -/
def mergeErrs (s : State) (errs : List SymErr) (bs : List (Nat × W8)) : State :=
  let cw (a : Nat) : Option Nat := match regionOf s a with | .well l off => some (wellCw l off) | _ => none
  wellErrs s errs fun e => match cw e with
    | some k => let n := (bs.filter fun x => cw x.1 == some k).length
                0 < n && n < 32
    | none => false

/-- Store bytes in a well past its gather buffer (R164, R166), with the errors that the merge reads meet; gathered bytes at
those places are replaced (R107). -/
def wellStore (s0 : State) (l : Nat) (bs : List (Nat × W8)) (errs : List SymErr := []) : State :=
  let s := mergeErrs s0 errs bs
  let r := overPoison (fun a => wellCw l (a - wellBase l)) 32 s.wellPoison bs
  let c := coreOf s l
  let g := c.gather.map fun g => { g with bytes := g.bytes.filter fun e =>
    !(bs.any fun x => x.1 == wellBase l + g.off + e.1) }
  { s with mem := cellSets memDefault r.1 s.mem, wellPoison := r.2,
           cores := fset l { c with gather := g.filter fun g => !g.bytes.isEmpty } s.cores }

/-- Write one gather-buffer line to the well (R178). -/
def gatherWrite (s : State) (l : Nat) (g : GLine) (errs : List SymErr := []) : State :=
  let c := coreOf s l
  let s1 := putCore s l { c with gather := c.gather.filter fun x => x.off != g.off }
  wellStore s1 l (g.bytes.map fun e => (wellBase l + g.off + e.1, e.2)) errs

/-- R178: the buffer writes all its lines, oldest first. -/
def gatherFlush (s : State) (l : Nat) : State :=
  (coreOf s l).gather.foldl (fun s g => gatherWrite s l g) s

/-- R178: bytes of one line merge into the buffer; a full buffer writes its oldest line, a complete line is written. -/
def gatherPut (s : State) (l off : Nat) (bs : List (Nat × W8)) (errs : List SymErr := []) : State :=
  let c := coreOf s l
  let old := c.gather.find? fun g => g.off == off
  let s1 := match old with
    | some _ => s
    | none => if c.gather.length < 16 then s else match c.gather with
        | g :: _ => gatherWrite s l g errs
        | [] => s
  let c1 := coreOf s1 l
  let b0 := match old with | some g => g.bytes | none => []
  let g : GLine := ⟨off, bs.foldl (fun m e => fset e.1 e.2 m) b0⟩
  let lines := if old.isSome then c1.gather.map (fun x => if x.off == off then g else x) else c1.gather ++ [g]
  let s2 := putCore s1 l { c1 with gather := lines }
  if g.bytes.length == 64 then gatherWrite s2 l g errs else s2

/-- Distinct 64-byte line offsets of a write. -/
def linesOf (bs : List (Nat × W8)) : List Nat := bs.foldl (fun a e => nins (e.1 / 64 * 64) a) []

/-- R178: a pump, `vst` or `vscatter` write to a well: whole aligned lines bypass the gather buffer, the rest merges into
it. Addresses are engine addresses of the well. -/
def wellPut (s : State) (l : Nat) (bs : List (Nat × W8)) (errs : List SymErr := []) : State :=
  let base := wellBase l
  let whole := (linesOf bs).filter fun ln => (bs.filter fun e => e.1 / 64 * 64 == ln).length == 64
  let s1 := wellStore s l (bs.filter fun e => whole.contains (e.1 / 64 * 64)) errs
  ((linesOf bs).filter fun ln => !(whole.contains ln)).foldl (fun s ln =>
    gatherPut s l (ln - base) ((bs.filter fun e => e.1 / 64 * 64 == ln).map fun e => (e.1 - ln, e.2)) errs) s1

/-- R166, R201 step 5: mark the codewords that well addresses touch; TL_WELL_UE counts those that become poisoned. -/
def wellMark (s : State) (l : Nat) (as : List Nat) : State :=
  let m := ninsAll (as.map fun a => wellCw l (a - wellBase l)) s.wellPoison
  rcount { s with wellPoison := m } (rTL (tileOfCore l) 0x3004) (m.length - s.wellPoison.length)

/-- R377: lines of a write that the staging snoop filter holds. -/
def heldLines (s : State) (as : List Nat) : List Nat := s.snoopFilter.filter fun k => as.any fun a => a / 64 == k

/-- R377: a snoop for every held line that has none outstanding. -/
def snoopLines (s : State) (as : List Nat) : State :=
  let l := (heldLines s as).filter fun k => !(s.stagingSnoops.contains k)
  emits { s with stagingSnoops := s.stagingSnoops ++ l } (l.map fun k => .snoop (.staging k))

/-- R230: does an address lie in a page that reads zero, whose row waits for its repair after its temporary spare was lost? What is
written there meanwhile is not kept (DEDUCED, log 63). -/
def zeroPage (s : State) (c a : Nat) : Bool :=
  let x := chanSt s c
  let page := a % 0x800000000 / 4096
  let rows (q : Nat) : Bool := if q < 15728640 then q / 2 == page else q < 16711680 && q - 15728640 == page / 8
  x.queue.any rows && (fget? page x.perm).isNone && (fget? page x.temp).isNone

/-- R213: a write request to LPDDR; a failed channel drops it and counts one (R227). Lines that the host holds are snooped
(R377). -/
def lpStore (s : State) (bs : List (Nat × W8)) : State :=
  match bs with
  | [] => s
  | b :: _ =>
    let c := chanOf b.1
    if chanState s c != 0 then rcount s (rCS (cistOfChan c) 0x210) 1
    else
      let r := overPoison (· / 64) 64 s.lpPoison (if zeroPage s c b.1 then [] else bs)
      snoopLines { s with mem := cellSets memDefault r.1 s.mem, lpPoison := r.2 } (bs.map (·.1))

/-- R213: mark the codewords that a poisoned block covers. -/
def lpMark (s : State) (as : List Nat) : State := { s with lpPoison := ninsAll (as.map (· / 64)) s.lpPoison }

/-- A write to host memory; a line written without the poison indication holds none. Without the link it waits (R375). -/
def hostStore (s : State) (bs : List (Nat × W8)) : State :=
  if !s.boot.cxlUp then { s with hostHeld := s.hostHeld ++ bs }
  else
    { s with mem := cellSets memDefault bs s.mem,
             hostPoison := s.hostPoison.filter fun k => !(bs.any fun e => e.1 / 64 == k) }

/-- Split a write into its 64-byte pieces and store each where its address lies. -/
def anyStore (s : State) (bs : List (Nat × W8)) : State :=
  (linesOf bs).foldl (fun s ln =>
    let piece := bs.filter fun e => e.1 / 64 * 64 == ln
    match regionOf s ln with
    | .lpddr _ => lpStore s piece
    | .well l _ => wellStore s l piece
    | .host => hostStore s piece
    | .none => s) s

/-! ## Where a logical core runs -/

/-- The logical core whose physical core runs a logical core: its host for a guest (R356). -/
def runHost (s : State) (l : Nat) : Nat := match (coreOf s l).guest with | some (h, _) => h | none => l

/-- Tile whose core runs a logical core. -/
def runTile (s : State) (l : Nat) : Nat := tileOfCore (runHost s l)

/-- Tile-local number of the physical core that runs a logical core. -/
def runCore (s : State) (l : Nat) : Nat := pcoreOf s (runHost s l)

/-- R141: an armed injection is dropped when its core stops being bound. -/
def dropInjection (s : State) (t p : Nat) : State :=
  if rfld s (rTL t 0x280C) 17 1 == 1 && rfld s (rTL t 0x280C) 0 9 == p then rsetf s (rTL t 0x280C) 17 1 0 else s

/-! ## Functions and panels (R334, R403 to R405) -/

/-- FN_SET_f as bytes. -/
def fnSet (s : State) (f : Nat) : List W8 := (List.range 64).flatMap fun w => leBytes 4 (rget s (rFN (0x10000 + 0x100 * f + 4 * w)))

/-- State of a function: 0 OFF, 1 STARTING, 2 ON, 3 STOPPING. -/
def fnState (s : State) (f : Nat) : Nat := rfld s (rFnStat f) 0 2

/-- Panel of a tile: 0 West, 1 East (Table 0.2). -/
def panelOf (t : Nat) : Nat := t % 8 / 4

/-- CK_PANEL_p. -/
def rPanel (p : Nat) : Nat := rPW (0x8000 + 4 * p)

/-- Mode that the clock-plan settings give a panel. -/
def panelReq (s : State) (p : Nat) : Nat := leAt (fnSet s 2) p 1 % 2

/-- R403, R404: the mode a panel goes to: slow while protective slow mode holds; the settings' mode while the clock plan starts
or is ON; else its present mode. -/
def panelGoal (s : State) (p : Nat) : Nat :=
  if rfld s (rPanel p) 2 1 == 1 then 1
  else if fnState s 2 == 1 || fnState s 2 == 2 then panelReq s p
  else rfld s (rPanel p) 0 1

/-- R405: is a change of the panel running? -/
def panelChanging (s : State) (p : Nat) : Bool :=
  panelGoal s p != rfld s (rPanel p) 0 1 || s.boot.hold.contains p || s.boot.rampDown.contains p

/-- R193, R405 step 2: is the panel in the hold of a change? Towards slow mode the change begins with it. -/
def panelHolds (s : State) (p : Nat) : Bool :=
  s.boot.hold.contains p || (panelGoal s p == 1 && rfld s (rPanel p) 0 1 == 0 && !(s.boot.rampDown.contains p))

/-! ## Time -/

/-- R65 condition 3: a provisional input slot has lost its mark. -/
def inputOk (c : CoreSt) (e : Nat × Nat) : Bool :=
  match c.ring? e.1 with
  | some r => let x := r.slot e.2; !x.prov && x.st != .provFull
  | none => true

/-- R177: the ring slot that a waiting `racq` needs is available. -/
def racqReady (c : CoreSt) (ring : Nat) (read : Bool) : Bool :=
  match c.ring? ring with
  | none => false
  | some r =>
    let x := r.slot ((if read then r.drainRun else r.fillRun) % r.count)
    if read then x.st == .full || x.st == .provFull else x.st == .empty

/-- The CLOSED stitch awaits the confirmation of a provisional input. -/
def SlotSt.unconfirmed (c : CoreSt) (x : SlotSt) : Bool := x.closed.any fun cl => !(cl.st.inputs.all (inputOk c))

/-- R63: does the slot's next instruction wait on something outside the core: a ring slot, an object, the return of a load, or, for
an instruction that waits for the CLOSED stitch, a provisional input of it? -/
def SlotSt.outside (c : CoreSt) (x : SlotSt) : Bool :=
  match x.wait with
  | none => false
  | some (.ring k read) => !(racqReady c k read)
  | some (.so _ _ _ _) => true
  | some (.soRead _ _) => true
  | some .operand => !x.loads.isEmpty
  | some .loadSlot => 16 ≤ x.loads.length
  | some .fence => !x.loads.isEmpty
  | some .stitch => !x.loads.isEmpty || x.unconfirmed c
  | some .gate => x.unconfirmed c
  | some .pumpQueue => false

/-- R80: does the slot's next instruction wait, inside the core or outside, so that it is not ready? -/
def SlotSt.blocked (c : CoreSt) (x : SlotSt) : Bool :=
  x.outside c || match x.wait with
    | some .stitch => x.closed.isSome
    | some .gate => x.closed.isSome
    | some .pumpQueue => true
    | _ => false

/-- R63: a bound slot runs and waits on nothing outside its core. -/
def SlotSt.active (c : CoreSt) (x : SlotSt) : Bool := x.bound && x.phase == .running && !(x.outside c)

/-- R78: the slot stops on a fault of the instruction at `pc`, in the stitch `seq`. -/
def SlotSt.fail (x : SlotSt) (status : Nat) (pc : W64) (seq : Nat) : SlotSt :=
  { x with phase := .faulted, wait := none, fstat := BitVec.ofNat 64 status, fpc := pc, fseq := BitVec.ofNat 64 seq }

/-- R63: does the slot's present cycle complete 2^20 active cycles of its OPEN stitch? -/
def SlotSt.overlong (c : CoreSt) (x : SlotSt) : Bool := x.active c && 2 ^ 20 ≤ x.acyc + 1

/-- R63: one active cycle of a slot; the stitch that reaches 2^20 of them faults. -/
def SlotSt.tick (c : CoreSt) (x : SlotSt) : SlotSt :=
  let y := { x with acyc := x.acyc + 1 }
  if x.overlong c then y.fail 0x2010 x.arch.pc x.opn.seq else if x.active c then y else x

/-- R404 to R408, R430: does the tile's compute die run: active, its compute PLL in lock, its panel in no hold, no reset under way? -/
def clocked (s : State) (t : Nat) : Bool :=
  (tileOf s t).tier == .active && !(panelHolds s (panelOf t)) && !(tileOf s t).fenced && !((tileOf s t).pllLost.contains .compute) &&
  s.boot.resetPending.isNone && s.boot.rim

/-- Do the cycles of a logical core count: not switched out, on a tile that runs (R63, R357, R408)? -/
def counting (s : State) (l : Nat) : Bool := !(coreOf s l).out && clocked s (runTile s l)

/-- R63, R79: the fault reports of the stitches of a core that reach 2^20 active cycles. -/
def overlongReports (s : State) (l : Nat) (c : CoreSt) : List Msg :=
  if !(counting s l) then []
  else ([0, 1, 2].filter fun i => (c.slot i).overlong c).map fun i => .faultReport ⟨l, i⟩ 0x2010 c.st

/-- R357: does a core run: has a slot an active cycle? -/
def CoreSt.runs (c : CoreSt) : Bool := c.slots.toList.any (SlotSt.active c)

/-- One cycle of a logical core. -/
def CoreSt.tick (c : CoreSt) : CoreSt := { c with slots := c.slots.map (SlotSt.tick c), ran := c.ran + c.runs.toNat }

/-- R408: has a slot of the tile's cores an instruction ready, or a pump of the tile a descriptor that runs? -/
def tileBusy (s : State) (t : Nat) : Bool :=
  (s.cores.any fun e => runTile s e.1 == t && !e.2.out && e.2.runs) || (tileOf s t).jobs.any fun j => j.phase == .running && !j.stalled

/-- One nominal core cycle of the cores and tiles. -/
def coreTick (s : State) : State :=
  { s with
    now := s.now + 1,
    cores := fmapAll (fun l c => if counting s l then c.tick else c) s.cores,
    out := s.out ++ s.cores.flatMap fun e => overlongReports s e.1 e.2,
    boot := { s.boot with idleCfg := s.boot.idleCfg.filter fun e => !(tileBusy s e.1) } }

end Sys2Proof.Machine
end

