-- ==== Sys2Proof/Machine/Mesh.lean ====
section
/-! DEFINITION. The two mesh planes: routers, routes with their detours, order of arrival, the seam and tiles that sleep (R182 to R196).
Choices: log 61. -/

namespace Sys2Proof.Machine

/-! ## Routers (R182, R187) -/

/-- R182: router of a logical core, as (x, y). -/
def coreRouter (l : Nat) : Nat × Nat := (l / 256 % 8 * 16 + l % 16, l / 2048 * 16 + l % 256 / 16)

/-- R187: router at an edge link of a cistern. -/
def edgeRouter (cn link : Nat) : Nat × Nat :=
  if cn < 6 then (4 + 20 * cn + link, 0)
  else if cn < 12 then (127, 4 + 20 * (cn - 6) + link)
  else if cn < 18 then (123 - 20 * (cn - 12) - link, 127)
  else (0, 123 - 20 * (cn - 18) - link)

/-- Panel of a router: 0 West, 1 East. -/
def routerPanel (r : Nat × Nat) : Nat := r.1 / 64

/-- R187, R369: links of a cistern on a plane that its pumps use in rotation. -/
def rotation (s : State) (cn plane : Nat) : List Nat :=
  (List.range 20).filter fun k => !(s.boot.linksDown.contains (.edge plane cn k))

/-- R187: the link by which a cistern pump sends the block of an index. -/
def blockLink (s : State) (cn i : Nat) : Nat :=
  let l := rotation s cn (i % 2)
  l[i / 2 % l.length]?.getD 0

/-- R187, R369: router at which the well-head's traffic enters the mesh: by CN0, by CN23 where the link to CN0 is down. -/
def headRouter (s : State) : Nat × Nat := edgeRouter (if s.boot.linksDown.contains (.wellHead 0) then 23 else 0) 0

/-- Router at which a pump's block enters the mesh: that of the posting core, or that of the cistern's link. -/
def pumpRouter (s : State) (unit job i : Nat) : Nat × Nat :=
  if unit < 64 then match (tileOf s unit).jobs.find? fun j => j.id == job with
    | some j => coreRouter j.lcid
    | none => coreRouter (256 * unit)
  else edgeRouter (unit - 64) (blockLink s (unit - 64) i)

/-- Router of a sender. -/
def siteRouter (s : State) : Site → Nat × Nat
  | .core l => coreRouter l
  | .unit k => if k < 64 then coreRouter (256 * k) else edgeRouter (k - 64) 0
  | .head => headRouter s

/-! ## Routes (R184, R196, R369) -/

/-- What a hop meets: the rectangle to go around, and the row on its far side, in the coordinates of the travel. -/
structure Obstacle where
  a0 : Nat
  b0 : Nat
  a1 : Nat
  b1 : Nat
  far : Nat
  deriving DecidableEq, Repr

/-- Exchange the coordinates on plane B, where a packet travels along y first. -/
def turned (plane : Nat) (p : Nat × Nat) : Nat × Nat := if plane == 0 then p else (p.2, p.1)

/-- R369, Table 18.4: is the link of a hop marked down? -/
def hopDown (s : State) (plane : Nat) (p q : Nat × Nat) : Bool :=
  let dir := if q.2 < p.2 then 0 else if p.1 < q.1 then 1 else if p.2 < q.2 then 2 else 3
  s.boot.linksDown.contains (.mesh plane p.1 p.2 dir) ||
  (p.1 == 63 && q.1 == 64 && s.boot.linksDown.contains (.seam plane p.2 true)) ||
  (p.1 == 64 && q.1 == 63 && s.boot.linksDown.contains (.seam plane p.2 false))

/-- R196, R369: the obstacle of a hop, by the detour entries and the links that are down. -/
def obstacle (s : State) (plane : Nat) (p q : Nat × Nat) : Option Obstacle :=
  let p1 := turned plane p
  let q1 := turned plane q
  match s.detours.find? fun r => r.1 ≤ q1.1 && q1.1 ≤ r.2.2.1 && r.2.1 ≤ q1.2 && q1.2 ≤ r.2.2.2 with
  | some r =>
    let lo := turned plane (r.1, r.2.1)
    let hi := turned plane (r.2.2.1, r.2.2.2)
    some ⟨lo.1, lo.2, hi.1, hi.2, if p.2 < q.2 then hi.2 + 1 else lo.2 - 1⟩
  | none => if hopDown s plane p1 q1 then some ⟨q.1, q.2, q.1, q.2, q.2⟩ else none

/-- One step of `a` towards `b`. -/
def toward (a b : Nat) : Nat := if a < b then a + 1 else if b < a then a - 1 else a

/-- Positions of a straight run, without its start. -/
def straight : Nat → Nat × Nat → Nat × Nat → List (Nat × Nat)
  | 0, _, _ => []
  | n + 1, p, q =>
    if p == q then []
    else
      let r := if p.1 != q.1 then (toward p.1 q.1, p.2) else (p.1, toward p.2 q.2)
      r :: straight n r q

/-- The side of a rectangle that a detour takes: the lower one, unless that lies beyond the edge or the seam (log 61). -/
def detourSide (lo hi : Nat) : Nat := if lo % 64 != 0 then lo - 1 else hi + 1

/-- R184, R196: the routers that a packet passes, first along the first coordinate; around what it meets it follows the perimeter and
then resumes its order. -/
def travel (obs : Nat × Nat → Nat × Nat → Option Obstacle) : Nat → Nat × Nat → Nat × Nat → List (Nat × Nat)
  | 0, _, _ => []
  | n + 1, p, d =>
    if p.1 != d.1 then
      let q := (toward p.1 d.1, p.2)
      match obs p q with
      | none => q :: travel obs n q d
      | some o =>
        let b := if d.2 < o.b0 then o.b0 - 1 else if o.b1 < d.2 then o.b1 + 1 else detourSide o.b0 o.b1
        straight 128 p (p.1, b) ++ travel obs n (p.1, b) d
    else if p.2 != d.2 then
      let q := (p.1, toward p.2 d.2)
      match obs p q with
      | none => q :: travel obs n q d
      | some o =>
        let a := detourSide o.a0 o.a1
        straight 128 p (a, p.2) ++ straight 128 (a, p.2) (a, o.far) ++ straight 128 (a, o.far) (p.1, o.far) ++
          travel obs n (p.1, o.far) d
    else []

/-- R184: the routers that a packet passes on a plane, after its first. -/
def route (s : State) (plane : Nat) (p d : Nat × Nat) : List (Nat × Nat) :=
  (travel (obstacle s plane) 1024 (turned plane p) (turned plane d)).map (turned plane)

/-- R192: the row of routers at which a route crosses the seam. -/
def seamRow (p : Nat × Nat) : List (Nat × Nat) → Option Nat
  | [] => none
  | q :: r => if routerPanel p != routerPanel q then some q.2 else seamRow q r

/-- R196: the rectangles that the well-head's detour entries lead around: lost regions whole, other fenced tiles singly. -/
def fencedRects (s : State) : List (Nat × Nat × Nat × Nat) :=
  let out (t : Nat) : Bool := (tileOf s t).fenced
  let region (t : Nat) : Nat := t / 16 * 16 + t % 8 / 2 * 2
  let whole (k : Nat) : Bool := out k && out (k + 1) && out (k + 8) && out (k + 9)
  (List.range 64).filterMap fun t =>
    let k := region t
    if whole k then (if t == k then some (t % 8 * 16, t / 8 * 16, t % 8 * 16 + 31, t / 8 * 16 + 31) else none)
    else if out t then some (t % 8 * 16, t / 8 * 16, t % 8 * 16 + 15, t / 8 * 16 + 15)
    else none

/-- R196: the well-head writes detour entries around the tiles that are fenced. -/
def writeDetours (s : State) : State := { s with detours := fencedRects s }

/-! ## Messages on their way (R184, R185, R192, R193) -/

/-- The plane and the two ends of a message's way; none where a message does not use the mesh, or does not name its sender. -/
def Msg.way (s : State) : Msg → Option (Nat × (Nat × Nat) × (Nat × Nat))
  | .faultReport u _ _ => some (0, coreRouter u.lcid, headRouter s)
  | .halt l _ => some (0, headRouter s, coreRouter l)
  | .mem cn (.load u _ _) => some (0, coreRouter u.lcid, edgeRouter cn 0)
  | .mem cn (.store src _ _) => some (0, coreRouter src, edgeRouter cn 0)
  | .mem cn (.block d b) => some (b.bidx % 2, pumpRouter s d.unit d.job b.bidx, edgeRouter cn 0)
  | .amo cn src _ _ _ _ => some (0, coreRouter src, edgeRouter cn 0)
  | .signal src so _ _ => some (0, siteRouter s src, if s.soStore.contains so then headRouter s else coreRouter (so / 1024 * 256))
  | .vouch l t _ _ => some (0, coreRouter (t.lcid / 256 * 256), coreRouter l)
  | .confirm l t _ _ => some (0, coreRouter (t.lcid / 256 * 256), coreRouter l)
  | .retract l t _ _ => some (0, coreRouter (t.lcid / 256 * 256), coreRouter l)
  | .block d b => some (b.bidx % 2, pumpRouter s d.unit d.job b.bidx, match d.dest with
    | .ring l _ => coreRouter l
    | .range a => coreRouter ((a - 0x100000000000) / 0x400000))
  | _ => none

/-- R184: messages whose two routers and virtual channel the spec fixes, by channel: those of the forward-list engine on CTRL, and
blocks to wells on BULK. -/
def Msg.ordered : Msg → Option Nat
  | .vouch _ _ _ _ => some 0
  | .confirm _ _ _ _ => some 0
  | .retract _ _ _ _ => some 0
  | .block _ _ => some 3
  | _ => none

/-- R184: would a message overtake another of its plane and channel between the same two routers? -/
def overtakes (s : State) (m : Msg) : Bool :=
  m.ordered.isSome && s.out.contains m &&
  (s.out.takeWhile (· != m)).any fun x => x.ordered == m.ordered && x.way s == m.way s

/-- R193, R405: the crossings of the seam pass no flit while a panel holds. -/
def seamHolds (s : State) (p q : Nat × Nat) : Bool :=
  routerPanel p != routerPanel q && (panelHolds s 0 || panelHolds s 1)

/-- R184, R193: a message that may not arrive yet. -/
def meshHolds (s : State) (m : Msg) : Bool :=
  overtakes s m || match m.way s with
    | some w => seamHolds s w.2.1 w.2.2
    | none => false

/-- R207: do the crossings of a tile's rows hold traffic for a clock-plan change? -/
def crossingHolds (s : State) (t : Nat) : Bool :=
  (panelHolds s 0 || panelHolds s 1) && s.out.any fun m => match m.way s with
    | some w => (seamRow w.2.1 (route s w.1 w.2.1 w.2.2)).any fun y => y / 16 == t / 8
    | none => false

/-- A message that the mesh lets through arrives, and `g` is what it does. -/
def taken (m : Msg) (g : State → State) (s : State) : State := if meshHolds s m then s else g (arrive s m)

/-! ## Tiles that sleep (R194, R195, R408) -/

/-- R408: a tile returns to active, which ends its idle period. -/
def activate (s : State) (t : Nat) : State :=
  putTile { s with boot := { s.boot with idleCfg := ferase t s.boot.idleCfg } } t { tileOf s t with tier := .active }

/-- R408: a wake event at a tile that sleeps with its wells retained. -/
def rouse (s : State) (t : Nat) : State :=
  let x := tileOf s t
  if !x.fenced && (x.tier == .gated || x.tier == .pllOff) then activate s t else s

/-- R194: an access to a well in the PLL-off tier waits, and wakes the tile. -/
def atWell (t : Nat) (g : State → State) (s : State) : State := if (tileOf s t).tier == .pllOff then rouse s t else g s

/-- R194: what is for a core that sleeps waits, and wakes the tile. -/
def atCore (t : Nat) (g : State → State) (s : State) : State :=
  if (tileOf s t).tier == .pllOff || (tileOf s t).tier == .gated then rouse s t else g s

/-- R408: a ring slot that completes the wait of a slot wakes the tile. -/
def rouseReady (s : State) (l : Nat) : State :=
  let c := coreOf s l
  if c.slots.toList.any fun x => match x.wait with | some (.ring k read) => racqReady c k read | _ => false
  then rouse s (runTile s l) else s

end Sys2Proof.Machine
end

