-- ==== Sys2Proof/Machine/Operands.lean ====
section
/-! DEFINITION. Operands of Luzel instructions: registers, immediates, base/bound pairs and addresses
(R91 to R93, R96, R101, R142 to R145). -/

namespace Sys2Proof.Machine

/-- R91: a scalar register; s0 reads as zero. -/
def Arch.sget (a : Arch) (r : BitVec 5) : W64 := if r = 0 then 0 else a.s[r.toNat]'(r.isLt)

/-- R91: write a scalar register; writes to s0 are discarded. -/
def Arch.sput (a : Arch) (r : BitVec 5) (v : W64) : Arch :=
  if r = 0 then a else { a with s := a.s.set r.toNat v r.isLt }

/-- R91, R142: a mask register; p0 reads as all ones. -/
def Arch.pget (a : Arch) (r : BitVec 3) : W32 := if r = 0 then BitVec.allOnes 32 else a.p[r.toNat]'(r.isLt)

/-- R142: write a mask register; writes to p0 are discarded. -/
def Arch.pput (a : Arch) (r : BitVec 3) (v : W32) : Arch :=
  if r = 0 then a else { a with p := a.p.set r.toNat v r.isLt }

/-- A vector register. -/
def Arch.vget (a : Arch) (r : BitVec 5) : Vector W32 32 := a.v[r.toNat]'(r.isLt)

/-- Write a vector register. -/
def Arch.vput (a : Arch) (r : BitVec 5) (x : Vector W32 32) : Arch := { a with v := a.v.set r.toNat x r.isLt }

/-- A base/bound pair. -/
def Arch.bget (a : Arch) (k : BitVec 2) : BPair := a.b[k.toNat]'(k.isLt)

/-- Replace a base/bound pair. -/
def Arch.bput (a : Arch) (k : BitVec 2) (x : BPair) : Arch := { a with b := a.b.set k.toNat x k.isLt }

/-! ## The instruction word (R88 to R90) -/

/-- Table 4.1: opcode of a word. -/
def wordOp (w : Nat) : Nat := bitsAt w 56 8

/-- Table 4.1: the other fields. -/
def wordFields (w : Nat) : Fields :=
  { dst := BitVec.ofNat 5 (bitsAt w 51 5), src1 := BitVec.ofNat 5 (bitsAt w 46 5), src2 := BitVec.ofNat 5 (bitsAt w 41 5),
    mask := BitVec.ofNat 3 (bitsAt w 38 3), mod := BitVec.ofNat 6 (bitsAt w 32 6), imm := BitVec.ofNat 32 w }

/-- Tables 4.2, 5.8 and 6.7: an opcode that core streams may hold; the others are unknown there (R89, R90, R161). -/
def streamOpcode (op : Nat) : Bool :=
  op ≤ 0x18 || (0x20 ≤ op && op ≤ 0x24) || (0x30 ≤ op && op ≤ 0x35) || (0x40 ≤ op && op ≤ 0x45) || op == 0x48 ||
  (0x50 ≤ op && op ≤ 0x53) || (0x80 ≤ op && op ≤ 0x9E && op != 0x97) || op == 0xA0 || (0xB0 ≤ op && op ≤ 0xB7) ||
  (0xC0 ≤ op && op ≤ 0xC3)

/-- R88: the immediate, sign-extended. -/
def immSx (f : Fields) : W64 := f.imm.signExtend 64

/-- R96: operand B. -/
def opB (a : Arch) (f : Fields) : W64 := a.sget f.src2 + immSx f

/-- R101: offset of a memory instruction. -/
def memOff (a : Arch) (f : Fields) : W64 := a.sget f.src1 + immSx f

/-- R101: the pair that mod[1:0] names. -/
def memPair (f : Fields) : BitVec 2 := f.mod.extractLsb' 0 2

/-- R101: engine address of an offset in a pair. -/
def pairAddr (b : BPair) (off : Nat) : Nat := (b.base.toNat + off) % 2 ^ 64

/-- R144: is lane i active? -/
def laneOn (a : Arch) (m : BitVec 3) (i : Nat) : Bool := i < a.vl && (a.pget m).getLsbD i

/-- R144: active lanes in order. -/
def activeLanes (a : Arch) (m : BitVec 3) : List Nat := (List.range 32).filter (laneOn a m)

/-- R101, R102, R104, R169: may a slot of core `lcid` access `[off, off + w)` of a pair? `write` asks for W and for the
own well, LPDDR or host memory; a load may also read another core's well outside its cache partition. -/
def accessOk (s : State) (lcid : Nat) (b : BPair) (off w : Nat) (write : Bool) : Bool :=
  off + w ≤ b.len.toNat && (if write then b.w else b.r) &&
  match regionOf s (pairAddr b off) with
  | .lpddr _ => true
  | .host => true
  | .well l o => (!write || l == lcid) && o + w ≤ 0x400000 - (coreOf s l).wcache * 0x40000
  | .none => false

/-- Is an engine address in a core's own well? -/
def ownWell (lcid a : Nat) : Bool := wellBase lcid ≤ a && a < wellBase (lcid + 1)

/-- Scratchpad bytes of a core's well (R168). -/
def scratch (c : CoreSt) : Nat := 0x400000 - c.wcache * 0x40000

/-- Sign- or zero-extension of a loaded value of `w` bytes (R103). -/
def extendLoad (w : Nat) (zext : Bool) (v : Nat) : W64 :=
  if zext then BitVec.ofNat 64 v else BitVec.ofInt 64 (fromTwos (8 * w) v)

end Sys2Proof.Machine
end

