-- ==== Sys2Proof/Decode.lean ====
section
/-! DEFINITION. Words: those of the opcode table, whose rows are commands and give no bits, and the 64-bit instruction words of a
core stream (R88 to R90), each of which names a row. -/

namespace Sys2Proof

open Machine

/-- The command that a word spells by the table's bits: none, for no row of spec/opcode_table.json gives bits. -/
def decodeTableWord (_nbits _w : Nat) : Option Instr := none

/-- What an opcode of a core stream, with the modifiers that tell rows apart, names: a row that takes a slot and the fields. -/
def slotRow (op m : Nat) : Option (StreamId → Fields → Instr) :=
  match op with
  | 0x00 => some .nop
  | 0x01 => some .add
  | 0x02 => some .sub
  | 0x03 => some .and
  | 0x04 => some .or
  | 0x05 => some .xor
  | 0x06 => some .shl
  | 0x07 => some .shr
  | 0x08 => some .sra
  | 0x09 => some .slt
  | 0x0A => some .sltu
  | 0x0B => some .min
  | 0x0C => some .max
  | 0x0D => some .minu
  | 0x0E => some .maxu
  | 0x0F => some .mul
  | 0x10 => some .mulh
  | 0x11 => some .mulhu
  | 0x12 => some .div
  | 0x13 => some .divu
  | 0x14 => some .rem
  | 0x15 => some .remu
  | 0x16 => some .movhi
  | 0x17 => some .pop
  | 0x18 => some .clz
  | 0x20 => some .brCond
  | 0x21 => some .jal
  | 0x22 => some .jalr
  | 0x23 => some (if m % 2 == 1 then .loopVl else .loop)
  | 0x24 => some .done
  | 0x34 => some .amoadd
  | 0x35 => some .fence
  | 0x40 => some (if m % 2 == 1 then .racqR else .racqW)
  | 0x41 => some (if m % 2 == 1 then .rrelR else .rrelW)
  | 0x42 => some (if m % 2 == 1 then .sowC else .sow)
  | 0x43 => some (if m % 2 == 1 then .sosC else .sos)
  | 0x44 => some (if m % 2 == 1 then .sordC else .sord)
  | 0x45 => some .ppost
  | 0x48 => some .stitch
  | 0x50 => some .cget
  | 0x51 => some .cset
  | 0x52 => some .bnar
  | 0x53 => some .bget
  | 0xC1 => some .mclr
  | _ => none

/-- The same for the vector and reduction group (R161, Table 6.7). A modifier that no row takes goes to the group's first row, which
answers it with 0x2002. -/
def vectorRow (op m : Nat) : Option (StreamId → Fields → Instr) :=
  match op with
  | 0x80 => some .vaddF32
  | 0x81 => some .vsubF32
  | 0x82 => some .vmulF32
  | 0x83 => some .vfmaF32
  | 0x84 => some .vminF32
  | 0x85 => some .vmaxF32
  | 0x86 => some (match m with | 1 => .vneg | 2 => .vcsgn | _ => .vabs)
  | 0x87 => some .vcmpF32
  | 0x88 => some .vaddI32
  | 0x89 => some .vsubI32
  | 0x8A => some .vmulI32
  | 0x8B => some (match m with | 1 => .vor | 2 => .vxor | 3 => .vandn | _ => .vand)
  | 0x8C => some (match m with | 1 => .vshr | 2 => .vsra | _ => .vshl)
  | 0x8D => some .vcmpI32
  | 0x8E => some (match m with | 1 => .vmaxI32 | 2 => .vminu | 3 => .vmaxu | _ => .vminI32)
  | 0x8F => some .vsel
  | 0x90 => some .vbcast
  | 0x91 => some .vext
  | 0x92 => some .vins
  | 0x93 => some .vperm
  | 0x94 => some .vshuf
  | 0x95 => some .vcompress
  | 0x96 => some .vexpand
  | 0x98 => some .vcvt
  | 0x99 => some .vquant
  | 0x9A => some (match m with | 1 => .por | 2 => .pxor | 3 => .pandn | _ => .pand)
  | 0x9B => some .pmov
  | 0x9E => some .setvl
  | 0xA0 => some .vfn
  | 0xB0 => some .rsumF32
  | 0xB1 => some .rmaxF32
  | 0xB2 => some .rminF32
  | 0xB3 => some .rargmaxF32
  | 0xB4 => some .rsumI32
  | 0xB5 => some .rmcnt
  | 0xB6 => some .rmfirst
  | 0xB7 => some .rscale
  | _ => none

/-- The rows that read or write memory beside registers, and can meet errors there. -/
def memoryRow (op m : Nat) : Option (StreamId → Fields → List SymErr → Instr) :=
  match op with
  | 0x30 => some .ld
  | 0x31 => some .st
  | 0x32 => some .vld
  | 0x33 => some .vst
  | 0x9C => some .vgather
  | 0x9D => some .vscatter
  | 0xC0 => some .mma
  | 0xC2 => some .mld
  | 0xC3 => some fun u f errs => if m.testBit 2 then .mdrainG u ⟨f, errs⟩ else .mdrain u ⟨f, errs⟩
  | _ => none

/-- R88 to R90: the row that a 64-bit word of a core stream names for slot `u`, with its fields; none where its opcode is unknown there
(reserved, or a command's), which `issue` answers with 0x2001. -/
def streamWord (u : StreamId) (w : Nat) (errs : List SymErr) : Option Instr :=
  let f := wordFields w
  let m := f.mod.toNat
  match memoryRow (wordOp w) m with
  | some row => some (row u f errs)
  | none => ((slotRow (wordOp w) m).orElse fun _ => vectorRow (wordOp w) m).map fun row => row u f

end Sys2Proof
end

