-- ==== Sys2Proof/Machine/Blocks.lean ====
section
/-! DEFINITION. Tensor blocks as bytes (R33, R35, R203 to R205, Tables 2.4, 8.6, 8.7). -/

namespace Sys2Proof.Machine

/-- Bytes of a tensor block (R203). -/
def blockLen : Nat := 4160

/-- Header bytes 8–47: the bytes the check value covers beside the payload (Table 8.7). -/
def Block.covered (b : Block) : List W8 :=
  leBytes 1 b.fmt ++ leBytes 1 b.nblk ++ leBytes 2 b.vbytes ++ leBytes 2 b.gen ++ leBytes 1 b.ctx ++ leBytes 1 b.pslot ++
  leBytes 4 b.plcid ++ leBytes 4 b.preplay ++ leBytes 8 b.pseq ++ leBytes 8 b.bidx ++ leBytes 8 b.res.toNat

/-- Payload padded or cut to 4,096 bytes. -/
def Block.body (b : Block) : List W8 := (b.payload ++ List.replicate (4096 - b.payload.length) 0).take 4096

/-- R205: the check value of a block's contents. -/
def Block.check (b : Block) : W32 := crc32c (Block.covered b ++ Block.body b)

/-- R205: a block sealed with its check value. -/
def Block.seal (b : Block) : Block := { b with crc := Block.check b }

/-- R206: does the stored check value hold? -/
def Block.good (b : Block) : Bool := b.crc == Block.check b

/-- R203: the 4,160 bytes of a block. -/
def Block.bytes (b : Block) : List W8 :=
  leBytes 4 b.crc.toNat ++ leBytes 1 1 ++ leBytes 1 (b.poison.toNat + 2 * b.prov.toNat + 4 * b.widened.toNat) ++ leBytes 2 0 ++
  Block.covered b ++ leBytes 2 b.wgen ++ leBytes 2 0 ++ leBytes 4 b.pord ++ leBytes 8 0 ++ Block.body b

/-- Table 8.7: the block that 4,160 bytes hold. -/
def blockOf (l : List W8) : Block :=
  let fl := leAt l 5 1
  { crc := BitVec.ofNat 32 (leAt l 0 4), poison := bitAt fl 0, prov := bitAt fl 1, widened := bitAt fl 2,
    fmt := leAt l 8 1, nblk := leAt l 9 1, vbytes := leAt l 10 2, gen := leAt l 12 2, ctx := leAt l 14 1,
    pslot := leAt l 15 1, plcid := leAt l 16 4, preplay := leAt l 20 4, pseq := leAt l 24 8, bidx := leAt l 32 8,
    res := BitVec.ofNat 64 (leAt l 40 8), wgen := leAt l 48 2, pord := leAt l 52 4, payload := (l.drop 64).take 4096 }

/-- Tables 5.5 and 8.6: element format of a tag, its packed width in bits (R33), and whether it is MX; none for a reserved
tag and for raw bytes. -/
def tagFmt (tag : Nat) : Option (Elem × Nat × Bool) :=
  match tag with
  | 0x0 => some (.fp e4m3, 8, false)
  | 0x1 => some (.fp e5m2, 8, false)
  | 0x2 => some (.fp e3m2, 6, false)
  | 0x3 => some (.fp e2m3, 6, false)
  | 0x4 => some (.fp e2m1, 4, false)
  | 0x5 => some (.int 8, 8, false)
  | 0x6 => some (.fp bf16, 16, false)
  | 0x7 => some (.fp f16, 16, false)
  | 0x8 => some (.fp e4m3, 8, true)
  | 0x9 => some (.fp e5m2, 8, true)
  | 0xA => some (.fp e3m2, 6, true)
  | 0xB => some (.fp e2m3, 6, true)
  | 0xC => some (.fp e2m1, 4, true)
  | 0xD => some (.mxi8, 8, true)
  | 0x10 => some (.fp f32, 32, false)
  | 0x11 => some (.int 16, 16, false)
  | 0x12 => some (.int 32, 32, false)
  | _ => none

/-- Table 8.6: is a tag defined? -/
def tagOk (tag : Nat) : Bool := (tagFmt tag).isSome || tag == 0x13

/-- R35, Table 2.4: MX blocks of a full payload. -/
def mxPerBlock (w : Nat) : Nat := if w == 4 then 240 else if w == 6 then 163 else 124

/-- R204: packed element bytes of one MX block of width `w`. -/
def mxBytes (w : Nat) : Nat := 4 * w

/-- FP32 words of a payload. -/
def words32 (l : List W8) : List W32 := (List.range (l.length / 4)).map fun i => BitVec.ofNat 32 (leAt l (4 * i) 4)

/-- Payload of FP32 words. -/
def wordBytes (l : List W32) : List W8 := l.flatMap fun w => leBytes 4 w.toNat

end Sys2Proof.Machine
end

