-- ==== Sys2Proof/Machine/Flags.lean ====
section
/-! DEFINITION. The status registers of a slot: c.sstat (R95) and c.vstat (R148), sticky, and the c-registers (R94). -/

namespace Sys2Proof.Machine

/-- R95, R97: a divisor was zero. -/
def Arch.setDz (a : Arch) (b : Bool) : Arch := if b then { a with sstat := a.sstat ||| 1 } else a

/-- R95, R108: an `rrel` found no slot acquired. -/
def Arch.setRrx (a : Arch) : Arch := { a with sstat := a.sstat ||| 2 }

/-- R148: the flags an instruction raises join c.vstat. -/
def Arch.raiseV (a : Arch) (fl : FFlags) : Arch := { a with vstat := a.vstat ||| BitVec.ofNat 64 fl.bits }

/-- R39, R148: flags of several lanes. -/
def orFlags (l : List FFlags) : FFlags := l.foldl FFlags.or {}

/-- R94: iterations left in the outer and the inner active loop; one active loop is the outer one. -/
def Arch.lc (a : Arch) (inner : Bool) : W64 :=
  match a.loops, inner with
  | [o], false => o.left
  | _ :: o :: _, false => o.left
  | i :: _ :: _, true => i.left
  | _, _ => 0

/-- R94, Table 4.3: the value of a c-register, none for an unlisted number. -/
def cregGet (s : State) (u : StreamId) (n : Nat) : Option W64 :=
  let c := coreOf s u.lcid
  let x := c.slot u.slot
  match n with
  | 0 => some (BitVec.ofNat 64 u.slot)
  | 1 => some (BitVec.ofNat 64 u.lcid)
  | 2 => some (BitVec.ofNat 64 c.st.ctx)
  | 3 => some (BitVec.ofNat 64 c.st.gen)
  | 4 => some (BitVec.ofNat 64 x.opn.seq)
  | 5 => some (BitVec.ofNat 64 x.acyc)
  | 6 => some (BitVec.ofNat 64 (s.now - c.t0))
  | 7 => some x.wlim
  | 8 => some x.fstat
  | 9 => some x.fpc
  | 10 => some x.fseq
  | 11 => some x.arch.sstat
  | 12 => some x.arch.vstat
  | 13 => some x.arch.srctr
  | 14 => some (x.arch.lc false)
  | 15 => some (x.arch.lc true)
  | 16 => some x.arch.epoch
  | 17 => some x.arch.mb
  | _ => none

end Sys2Proof.Machine
end

