-- ==== Sys2Proof/Machine/Issue.lean ====
section
/-! DEFINITION. How a stream slot issues an instruction (R60, R78, R89, R92), moves its program counter (R98, R99) and
stops on a fault (R78, R79). -/

namespace Sys2Proof.Machine

/-- What an instruction's own action gives: it completes and the pc advances; it completes with the pc placed; it
raises a program fault; it waits and is presented again; it waits with an effect. -/
inductive Res where
  | ok (s : State)
  | jump (s : State)
  | fault (status : Nat)
  | wait (w : Wait)
  | park (s : State) (w : Wait)

/-- How the mask field acts (R89, R144, Table 5.3): lane 0 decides; it must name p0; it selects lanes. -/
inductive MaskUse where
  | lane0 | needP0 | lanes
  deriving DecidableEq

/-- A register an instruction names, for the presence rule of R60; `w`: a vector register that it writes and does not read. -/
inductive RegRef where
  | s (r : BitVec 5)
  | v (r : BitVec 5)
  | w (r : BitVec 5)

/-- R60: does an outstanding load still write a register the instruction names? -/
def loadPending (x : SlotSt) (r : RegRef) : Bool :=
  x.loads.any fun l => match r, l.dst with
    | .s a, .sreg d _ _ => a == d && a != 0
    | .v a, .vreg d _ => a == d
    | .w a, .vreg d _ => a == d
    | _, _ => false

/-- The register is one that the instruction reads or is a scalar register. -/
def RegRef.read : RegRef → Bool
  | .w _ => false
  | _ => true

/-- R99: after the instruction before offset `nxt`, the pc goes there or back to the first instruction of a loop that
ends there with iterations left. -/
def loopBack (a : Arch) (nxt : W64) : List LoopRec → Arch
  | [] => { a with pc := nxt, loops := [] }
  | l :: r =>
    if l.stop = nxt then
      if 1 < l.left.toNat then
        match l.elems with
        | none => { a with pc := l.first, loops := { l with left := l.left - 1 } :: r }
        | some n =>
          { a with pc := l.first, vl := min 32 (n.toNat - 32),
                   loops := { l with left := l.left - 1, elems := some (n - 32) } :: r }
      else loopBack a nxt r
    else { a with pc := nxt, loops := l :: r }

/-- The pc moves past the instruction at it. -/
def Arch.advance (a : Arch) : Arch := loopBack a (a.pc + 8) a.loops

/-- R99: a taken branch ends the loops whose body its target leaves. -/
def Arch.branch (a : Arch) (t : W64) : Arch :=
  { a with pc := t, loops := a.loops.filter fun l => l.first ≤ t && t < l.stop }

/-- R88: the word at an offset of b0, as the memory there holds it (log 49). -/
def codeWord (s : State) (a : Arch) (t : W64) : Nat :=
  leNat ((span ((a.bget 0).base.toNat + t.toNat) 8).map fun x => cellGet memDefault x s.mem)

/-- R92: does the word at an offset lie in b0, with X? -/
def inCode (a : Arch) (t : W64) : Bool := t.toNat + 8 ≤ (a.bget 0).len.toNat && (a.bget 0).x

/-- Change the register image of a slot. -/
def setArch (s : State) (u : StreamId) (a : Arch) : State := putSlot s u { slotOf s u with arch := a }

/-- R78, R79 steps 1 and 2: the slot stops, records a fault of the instruction at `pc` in the stitch `seq`, and reports it. -/
def raiseAt (s : State) (u : StreamId) (status : Nat) (pc : W64) (seq : Nat) : State :=
  emit (putSlot s u ((slotOf s u).fail status pc seq)) (.faultReport u status (coreOf s u.lcid).st)

/-- R78, R79: the slot stops at the instruction that it would issue next. -/
def raiseFault (s : State) (u : StreamId) (status : Nat) : State :=
  raiseAt s u status (slotOf s u).arch.pc (slotOf s u).opn.seq

/-- The slot has issued an instruction. -/
def finish (s : State) (u : StreamId) : State :=
  let x := slotOf s u
  putSlot s u { x with wait := none, arch := x.arch.advance }

/-- The slot has issued an instruction that placed the pc itself. -/
def finishJump (s : State) (u : StreamId) : State := putSlot s u { slotOf s u with wait := none }

/-- The slot waits. -/
def park (s : State) (u : StreamId) (w : Wait) : State := putSlot s u { slotOf s u with wait := some w }

/-- Carry out what an instruction's action gave. -/
def settleRes (s : State) (u : StreamId) : Res → State
  | .ok s' => finish s' u
  | .jump s' => finishJump s' u
  | .fault st => raiseFault s u st
  | .wait w => park s u w
  | .park s' w => park s' u w

/-- Is the slot bound and running, its core not switched out by its host core (R58, R78, R357)? -/
def slotLive (s : State) (u : StreamId) : Bool :=
  validStream u && (slotOf s u).bound && (slotOf s u).phase == .running && !(coreOf s u.lcid).out

/-- May the slot issue: live, on a tile whose compute die runs (R408)? -/
def canIssue (s : State) (u : StreamId) : Bool := slotLive s u && clocked s (runTile s u.lcid)

/-- R60, R89, R90: slot `u` issues an instruction at its pc. Nothing happens where no slot runs. The command gives the
instruction and its fields; of the word in memory only an unknown opcode counts (log 49). -/
def issue (u : StreamId) (mu : MaskUse) (f : Fields) (refs : List RegRef) (body : State → Res) (s : State) : State :=
  let x := slotOf s u
  if !(canIssue s u) then s
  else if !(inCode x.arch x.arch.pc) then raiseFault s u 0x2003
  else if !(streamOpcode (wordOp (codeWord s x.arch x.arch.pc))) then raiseFault s u 0x2001
  else if mu == .needP0 && f.mask != 0 then raiseFault s u 0x2002
  else if mu == .lane0 && !((x.arch.pget f.mask).getLsbD 0) then finish s u
  else if refs.any (loadPending x) then park s u .operand
  else settleRes s u (body s)

/-! ## Writes over an outstanding vector load (R147) -/

/-- The bits of v[d] that an action writes: those that come out the same whatever v[d] held. -/
def writtenBits (g : Arch → Arch) (a : Arch) (d : BitVec 5) : Vector W32 32 :=
  let out (w : W32) : Vector W32 32 := (g (a.vput d (Vector.replicate 32 w))).vget d
  (out 0).zipWith (fun p q => ~~~(p ^^^ q)) (out (BitVec.allOnes 32))

/-- Every bit of the register is written. -/
def wholeReg (m : Vector W32 32) : Bool := m.all (· == BitVec.allOnes 32)

/-- R147: loads of v[d] numbered below `n` leave the bits `m`, which a later instruction has written. -/
def overlayLoads (s : State) (u : StreamId) (d : BitVec 5) (n : Nat) (m : Vector W32 32) : State :=
  let x := slotOf s u
  let hit (l : Load) : Bool := match l.dst with | .vreg q _ => q == d && l.id < n | _ => false
  let add (o : FMap W32) : FMap W32 := m.toList.zipIdx.foldl (fun o e => fset e.2 (fget 0 e.2 o ||| e.1) o) o
  putSlot s u { x with loads := x.loads.map fun l => if hit l then { l with over_ := add l.over_ } else l }

/-- R147: an instruction that writes only some bits of v[d], which an outstanding load still writes, does not wait for it. -/
def issueOver (u : StreamId) (mu : MaskUse) (f : Fields) (refs : List RegRef) (m : Vector W32 32) (body : State → Res) (s : State) :
    State :=
  if loadPending (slotOf s u) (.w f.dst) && !(wholeReg m) then
    issue u mu f (refs.filter RegRef.read) (fun s => match body s with
      | .ok t => .ok (overlayLoads t u f.dst (slotOf s u).loadCtr m)
      | r => r) s
  else issue u mu f refs body s

/-- An instruction whose action is a function of the slot's register image. -/
def issueArch (u : StreamId) (mu : MaskUse) (f : Fields) (refs : List RegRef) (ok : Bool) (g : Arch → Arch)
    (s : State) : State :=
  let body (s : State) : Res := if ok then .ok (setArch s u (g (slotOf s u).arch)) else .fault 0x2002
  if refs.all RegRef.read then issue u mu f refs body s
  else issueOver u mu f refs (writtenBits g (slotOf s u).arch f.dst) body s

/-! ## Gated writes and the undo log -/

/-- R68: bytes a gated write takes of the gate buffer. -/
def Gated.size : Gated → Nat
  | .store ps => (ps.map fun p => p.2.length).sum
  | .amo _ ty _ => if ty = .int64 then 8 else 4
  | .signal _ _ _ => 8

/-- Bytes of a stitch's gated writes. -/
def Stitch.gateBytes (t : Stitch) : Nat := (t.gates.map Gated.size).sum

/-- R68: hold a gated write; a stitch that needs more than 16 KiB faults, a full buffer waits for the CLOSED stitch. -/
def gate (s : State) (u : StreamId) (g : Gated) : Res :=
  let x := slotOf s u
  let mine := x.opn.gateBytes + g.size
  if mine > 16384 then .fault 0x2008
  else if mine + (match x.closed with | some c => c.st.gateBytes | none => 0) > 16384 then .wait .gate
  else .ok (putSlot s u { x with opn := { x.opn with gates := x.opn.gates ++ [g] } })

/-- R162, R173: does a well offset lie in a ring slot that the stream holds for filling? -/
def inHeldFill (c : CoreSt) (slot off : Nat) : Bool :=
  c.rings.any fun e => e.2.fill == slot && match e.2.acqW with
    | some i => e.2.base + i * e.2.size ≤ off && off < e.2.base + (i + 1) * e.2.size
    | none => false

/-- R70: log the lines of a plain well store; none when a 129th line is needed. -/
def undoLog (s : State) (u : StreamId) (bs : List (Nat × W8)) : Option State :=
  let c := coreOf s u.lcid
  let x := c.slot u.slot
  let plain := bs.filter fun e => !(inHeldFill c u.slot (e.1 - wellBase u.lcid))
  let new := (linesOf plain).filter fun l => !(x.opn.undo.any fun e => e.1 == l)
  if x.opn.undo.length + new.length > 128 then none
  else
    let old (l : Nat) : List W8 := (span l 64).map fun a =>
      (gatherByte c (a - wellBase u.lcid)).getD (cellGet memDefault a s.mem)
    some (putSlot s u { x with opn := { x.opn with undo := (new.map fun l => (l, old l)).reverse ++ x.opn.undo } })

/-- R70, R178: a store to the own well; a scalar store bypasses the gather buffer. -/
def ownStore (s : State) (u : StreamId) (bs : List (Nat × W8)) (scalar : Bool) (errs : List SymErr := []) : Res :=
  match undoLog s u bs with
  | none => .fault 0x2007
  | some s1 => .ok (if scalar then wellStore s1 u.lcid bs errs else wellPut s1 u.lcid bs errs)

/-- R65 condition 3: a stitch that reads a provisional slot depends on it. -/
def Stitch.read (t : Stitch) (ring i : Nat) (prov : Bool) : Stitch :=
  if prov && !(t.inputs.contains (ring, i)) then { t with inputs := t.inputs ++ [(ring, i)] } else t

/-- R65 condition 4: the OPEN stitch consumed poison. -/
def markPoison (s : State) (u : StreamId) : State :=
  let x := slotOf s u
  putSlot s u { x with opn := { x.opn with poison := true } }

end Sys2Proof.Machine
end

