-- ==== Sys2Proof/Machine/Scalar.lean ====
section
/-! DEFINITION. Scalar arithmetic (R89, R96, R97, Table 4.5). -/

namespace Sys2Proof.Machine

/-- R96, Table 4.5: result in s[dst] of operand A = s[src1] and operand B = s[src2] + sext(imm); mod must be zero. -/
def alu (u : StreamId) (f : Fields) (g : W64 → W64 → W64) (s : State) : State :=
  issueArch u .lane0 f [.s f.src1, .s f.src2, .s f.dst] (f.mod == 0)
    (fun a => a.sput f.dst (g (a.sget f.src1) (opB a f))) s

/-- R97: as `alu`, and a divisor of zero sets c.sstat.dz. -/
def aluDiv (u : StreamId) (f : Fields) (g : W64 → W64 → W64) (s : State) : State :=
  issueArch u .lane0 f [.s f.src1, .s f.src2, .s f.dst] (f.mod == 0)
    (fun a => (a.sput f.dst (g (a.sget f.src1) (opB a f))).setDz (opB a f == 0)) s

/-- Table 4.5: one operand; src2 and imm must be zero. -/
def alu1 (u : StreamId) (f : Fields) (g : W64 → W64) (s : State) : State :=
  issueArch u .lane0 f [.s f.src1, .s f.dst] (f.mod == 0 && f.src2 == 0 && f.imm == 0)
    (fun a => a.sput f.dst (g (a.sget f.src1))) s

/-- 1 or 0. -/
def ofBool (b : Bool) : W64 := if b then 1 else 0

/-- High 64 bits of the signed product. -/
def mulHigh (a b : W64) : W64 := BitVec.ofInt 64 (a.toInt * b.toInt / 2 ^ 64)

/-- High 64 bits of the unsigned product. -/
def mulHighU (a b : W64) : W64 := BitVec.ofNat 64 (a.toNat * b.toNat / 2 ^ 64)

/-- R97: signed quotient toward zero; all ones for a zero divisor; −2^63 by −1 gives −2^63. -/
def divS (a b : W64) : W64 := if b = 0 then BitVec.allOnes 64 else a.sdiv b
/-- R97: unsigned quotient. -/
def divU (a b : W64) : W64 := if b = 0 then BitVec.allOnes 64 else a / b
/-- R97: remainder with the sign of A; A for a zero divisor. -/
def remS (a b : W64) : W64 := if b = 0 then a else a.srem b
/-- R97: unsigned remainder. -/
def remU (a b : W64) : W64 := if b = 0 then a else a % b

/-- Table 4.5: number of 1 bits. -/
def popW (a : W64) : W64 := BitVec.ofNat 64 (popCount 64 a.toNat)

/-- Table 4.5: leading zero bits, 0 to 64. -/
def clzW (a : W64) : W64 := BitVec.ofNat 64 (if a = 0 then 64 else 63 - Nat.log2 a.toNat)

/-- Table 4.5: the shift amount B[5:0]. -/
def shAmt (b : W64) : Nat := b.toNat % 64

/-- R89: the all-zero word; a field that is not zero raises 0x2002. -/
def execNop (u : StreamId) (f : Fields) (s : State) : Host.Outcome State Fault Refusal :=
  .next (issueArch u .lanes f [] (f == {}) id s)

/-- Table 4.5: A + B. -/
def execAdd (u : StreamId) (f : Fields) (s : State) : Host.Outcome State Fault Refusal :=
  .next (alu u f (fun a b => a + b) s)

/-- Table 4.5: A − B. -/
def execSub (u : StreamId) (f : Fields) (s : State) : Host.Outcome State Fault Refusal :=
  .next (alu u f (fun a b => a - b) s)

/-- Table 4.5: bitwise and. -/
def execAnd (u : StreamId) (f : Fields) (s : State) : Host.Outcome State Fault Refusal :=
  .next (alu u f (fun a b => a &&& b) s)

/-- Table 4.5: bitwise or. -/
def execOr (u : StreamId) (f : Fields) (s : State) : Host.Outcome State Fault Refusal :=
  .next (alu u f (fun a b => a ||| b) s)

/-- Table 4.5: bitwise exclusive or. -/
def execXor (u : StreamId) (f : Fields) (s : State) : Host.Outcome State Fault Refusal :=
  .next (alu u f (fun a b => a ^^^ b) s)

/-- Table 4.5: shift left by B[5:0]. -/
def execShl (u : StreamId) (f : Fields) (s : State) : Host.Outcome State Fault Refusal :=
  .next (alu u f (fun a b => a <<< shAmt b) s)

/-- Table 4.5: logical shift right by B[5:0]. -/
def execShr (u : StreamId) (f : Fields) (s : State) : Host.Outcome State Fault Refusal :=
  .next (alu u f (fun a b => a >>> shAmt b) s)

/-- Table 4.5: arithmetic shift right by B[5:0]. -/
def execSra (u : StreamId) (f : Fields) (s : State) : Host.Outcome State Fault Refusal :=
  .next (alu u f (fun a b => a.sshiftRight (shAmt b)) s)

/-- Table 4.5: 1 if A < B signed. -/
def execSlt (u : StreamId) (f : Fields) (s : State) : Host.Outcome State Fault Refusal :=
  .next (alu u f (fun a b => ofBool (a.slt b)) s)

/-- Table 4.5: 1 if A < B unsigned. -/
def execSltu (u : StreamId) (f : Fields) (s : State) : Host.Outcome State Fault Refusal :=
  .next (alu u f (fun a b => ofBool (a.ult b)) s)

/-- Table 4.5: signed minimum. -/
def execMin (u : StreamId) (f : Fields) (s : State) : Host.Outcome State Fault Refusal :=
  .next (alu u f (fun a b => if a.slt b then a else b) s)

/-- Table 4.5: signed maximum. -/
def execMax (u : StreamId) (f : Fields) (s : State) : Host.Outcome State Fault Refusal :=
  .next (alu u f (fun a b => if a.slt b then b else a) s)

/-- Table 4.5: unsigned minimum. -/
def execMinu (u : StreamId) (f : Fields) (s : State) : Host.Outcome State Fault Refusal :=
  .next (alu u f (fun a b => if a.ult b then a else b) s)

/-- Table 4.5: unsigned maximum. -/
def execMaxu (u : StreamId) (f : Fields) (s : State) : Host.Outcome State Fault Refusal :=
  .next (alu u f (fun a b => if a.ult b then b else a) s)

/-- Table 4.5: low 64 bits of A × B. -/
def execMul (u : StreamId) (f : Fields) (s : State) : Host.Outcome State Fault Refusal :=
  .next (alu u f (fun a b => a * b) s)

/-- Table 4.5: high 64 bits of the signed product. -/
def execMulh (u : StreamId) (f : Fields) (s : State) : Host.Outcome State Fault Refusal :=
  .next (alu u f (mulHigh) s)

/-- Table 4.5: high 64 bits of the unsigned product. -/
def execMulhu (u : StreamId) (f : Fields) (s : State) : Host.Outcome State Fault Refusal :=
  .next (alu u f (mulHighU) s)

/-- Table 4.5, R97: signed quotient. -/
def execDiv (u : StreamId) (f : Fields) (s : State) : Host.Outcome State Fault Refusal :=
  .next (aluDiv u f divS s)

/-- Table 4.5, R97: unsigned quotient. -/
def execDivu (u : StreamId) (f : Fields) (s : State) : Host.Outcome State Fault Refusal :=
  .next (aluDiv u f divU s)

/-- Table 4.5, R97: signed remainder. -/
def execRem (u : StreamId) (f : Fields) (s : State) : Host.Outcome State Fault Refusal :=
  .next (aluDiv u f remS s)

/-- Table 4.5, R97: unsigned remainder. -/
def execRemu (u : StreamId) (f : Fields) (s : State) : Host.Outcome State Fault Refusal :=
  .next (aluDiv u f remU s)

/-- Table 4.5: (A & 0xFFFF_FFFF) | (imm << 32); src2 must be zero. -/
def execMovhi (u : StreamId) (f : Fields) (s : State) : Host.Outcome State Fault Refusal :=
  .next (issueArch u .lane0 f [.s f.src1, .s f.dst] (f.mod == 0 && f.src2 == 0)
    (fun a => a.sput f.dst ((a.sget f.src1 &&& 0xFFFFFFFF#64) ||| (f.imm.zeroExtend 64 <<< 32))) s)

/-- Table 4.5: number of 1 bits in A. -/
def execPop (u : StreamId) (f : Fields) (s : State) : Host.Outcome State Fault Refusal :=
  .next (alu1 u f popW s)

/-- Table 4.5: leading zero bits of A. -/
def execClz (u : StreamId) (f : Fields) (s : State) : Host.Outcome State Fault Refusal :=
  .next (alu1 u f clzW s)

end Sys2Proof.Machine
end

