-- ==== Sys2Proof/Machine/Records.lean ====
section
/-! DEFINITION. What a loaded pattern says of its layers and parts, and the records at the end of a step: measurements, scale table
(R274, R278) and mirror image (R283). -/

namespace Sys2Proof.Machine

/-! ## What a loaded pattern says -/

/-- Table 10.1: training pattern? -/
def Pattern.training (p : Pattern) : Bool := leAt p.step 0 1 == 0
/-- Layers. -/
def Pattern.nlayer (p : Pattern) : Nat := leAt p.step 2 2
/-- Residency entry byte `i` of layer `l`. -/
def Pattern.plan (p : Pattern) (l i : Nat) : Nat := leAt p.step (64 + 8 * (l - 1) + i) 1
/-- Range that holds a layer's gradient area. -/
def Pattern.gidx (p : Pattern) (l : Nat) : Nat := leAt p.step (64 + 8 * (l - 1) + 4) 2
/-- Is a layer's forward copy kept? -/
def Pattern.keep (p : Pattern) (l : Nat) : Bool := bitAt (p.plan l 3) 0
/-- Is a layer's gradient area an accumulation range? -/
def Pattern.gacc (p : Pattern) (l : Nat) : Bool := bitAt (p.plan l 3) 2
/-- Home mask of a micro-batch. -/
def Pattern.home (p : Pattern) (i : Nat) : Nat := leAt p.step (64 + 8 * p.nlayer + 2 * i) 2
/-- Layer map: forward and backward ring of a layer. -/
def Pattern.fring (p : Pattern) (l : Nat) : Nat := leAt p.lmap (16 * l) 1
/-- Backward ring of a layer. -/
def Pattern.bring (p : Pattern) (l : Nat) : Nat := leAt p.lmap (16 * l + 1) 1
/-- Layers in order. -/
def Pattern.layers (p : Pattern) : List Nat := span 1 p.nlayer

/-! ## Parts of the update section -/

/-- Numbers of the 1 bits below `n`. -/
def bitList (n v : Nat) : List Nat := (List.range n).filter (bitAt v)

/-- Part entry `i`. -/
def Pattern.part (p : Pattern) (i : Nat) : List W8 := (p.parts.drop (64 * i)).take 64

/-- Parts of a layer, in order: index and entry. -/
def Pattern.layerParts (p : Pattern) (l : Nat) : List (List W8) :=
  ((List.range (leAt p.upd 40 4)).map p.part).filter fun e => leAt e 0 2 == l

/-! ## Measurements -/

/-- Taps in use. -/
def Pattern.taps (p : Pattern) : List Nat := bitList 4 (leAt p.upd 13 1)

/-- Where the partial measurement of a layer and tap at a cistern is kept. -/
def measKey (l tap cn : Nat) : Nat := (4 * l + tap) * 32 + cn

/-- The measurement of a layer and tap: the well-head adds the partial sums of the cisterns in their order. -/
def StepRun.layerMeas (r : StepRun) (l t : Nat) : Meas :=
  ((List.range 24).filterMap fun j => fget? (measKey l t j) r.meas).foldl
    (fun a m => { s := add64 a.s m.s, a := if a.a.toNat < m.a.toNat then m.a else a.a, f := a.f + m.f }) {}

/-- The gov bits in force for a step: none while the governor is OFF (R275). -/
def StepRun.bits (r : StepRun) : Nat := if r.gov then r.govBits else 0

/-! ## Records written at the end of a step (R274, R278) -/

/-- R278: key of the amax history of a layer and tap. -/
def histKey (l t : Nat) : Nat := 4 * l + t

/-- R278: floor(log2) of a positive FP32 word. -/
def log2F (w : W32) : Int := match f32.decode w.toNat with | .fin _ m e => floorLog2 m e | _ => 0

/-- R278: one scale table entry: the new history, and the new byte where it changes. -/
def scaleEntry (p : Pattern) (t : Nat) (m : Meas) (old : Nat) (hist : List W32) : List W32 × Option Nat :=
  if m.f == 0 then
    let h := (hist ++ [m.a]).drop (hist.length + 1 - leAt p.upd 2 1)
    let top := h.foldl (fun a b => if a.toNat < b.toNat then b else a) 0
    if top == 0 then (h, none)
    else
      let fm : Int := if bitAt (leAt p.upd 12 1) t then 15 else 8
      (h, some (max 0 (min 254 (127 + fm - log2F top - (leAt p.upd 3 1 : Int)))).toNat)
  else (hist, some (old - 1))

/-- R278: the scale table and the histories, with scale set and the governor ON. -/
def writeScales (s : State) (n : Nat) (p : Pattern) (r : StepRun) : State :=
  if !(bitAt r.bits 2) then s
  else (p.layers.flatMap fun l => p.taps.map fun t => (l, t)).foldl (fun s e =>
    let x := ctxOf s n
    let a := leAt p.upd 24 8 + (e.1 - 1) * 4 + e.2
    let h := fget [] (histKey e.1 e.2) x.hist
    let (h1, v) := scaleEntry p e.2 (r.layerMeas e.1 e.2) (byteAt s a).toNat h
    let s1 := putCtx s n { x with hist := fset (histKey e.1 e.2) h1 x.hist }
    match v with
    | some b => anyStore s1 [(a, BitVec.ofNat 8 b)]
    | none => s1) s

/-- R274: the measurement record. -/
def measRecord (p : Pattern) (r : StepRun) (status : Nat) : List W8 :=
  leBytes 8 r.epoch ++ leBytes 8 r.norm.toNat ++ leBytes 4 r.clip.toNat ++ leBytes 2 status ++ leBytes 10 0 ++
  p.layers.flatMap fun l => p.taps.flatMap fun t =>
    let m := r.layerMeas l t
    leBytes 8 m.s.toNat ++ leBytes 4 m.a.toNat ++ leBytes 4 (min m.f (2 ^ 32 - 1))

/-- R270 step 3: scale table and measurement record. -/
def writeTables (s : State) (n : Nat) (p : Pattern) (r : StepRun) (status : Nat) : State :=
  let s1 := writeScales s n p r
  anyStore s1 (atAddr (leAt p.upd 56 8) (measRecord p r status))

/-! ## The mirror image (R283) -/

/-- The three fields of a loss cell (R285): FP32 sum, FP32 sum of magnitudes, INT64 count (log 27). -/
def lossCell (s : State) (p : Pattern) : W32 × W32 × Nat :=
  let c := bytesAt s (leAt p.upd 32 8) 16
  (BitVec.ofNat 32 (leAt c 0 4), BitVec.ofNat 32 (leAt c 4 4), leAt c 8 8)

/-- Table 11.8: the active weights and the moments of every part, once the settle of the image's epoch has ended: they stay as they are
until the next step commits. -/
def imageAreas (s : State) (p : Pattern) (active : FMap Nat) : List PartImage :=
  (List.range (leAt p.upd 40 4)).map fun i =>
    let e := p.part i
    let n := 4160 * ceilDiv (leAt e 8 4) 3968
    { part := i, w := bytesAt s (leAt e (16 + 8 * fget 0 (leAt e 0 2) active) 8) n, m := bytesAt s (leAt e 32 8) n,
      v := if leAt p.upd 0 1 == 1 then [] else bytesAt s (leAt e 40 8) n }

/-- Bytes that the cursors and slot states of one core's rings take in an image: 17 MiB for the 16,384 cores of Table 11.8 (log 20). -/
def ringImage : Nat := 1088

/-- Table 11.8: the bytes of an image, its items in the table's order; those of ring cursors and slot states, whose layout the manual does
not give, are free (log 33). -/
def mirrorBytesOf (s : State) (b : Binding) (m : MirrorImage) : List W8 :=
  (m.areas.flatMap fun a => a.w) ++ (m.areas.flatMap fun a => a.m ++ a.v) ++
  leBytes 8 m.epoch ++ leBytes 8 m.u ++ leBytes 8 m.count ++ (m.sos.flatMap fun e => leBytes 8 e.2.toNat) ++
  ((List.range (ringImage * b.cores.length)).map (Config.storeByte s.freeCtr)) ++
  (m.gens.flatMap fun g => leBytes 8 g.2.1.toNat ++ leBytes 8 g.2.2.1.toNat ++ leBytes 8 g.2.2.2.1.toNat ++ leBytes 8 g.2.2.2.2.toNat) ++
  (m.hist.flatMap fun h => h.2.flatMap fun w => leBytes 4 w.toNat) ++ m.scale ++ m.meas ++
  leBytes 4 m.lossSum.toNat ++ leBytes 4 0 ++ leBytes 8 m.lossN ++ leBytes 4 m.trailCount ++ leBytes 4 m.trailNmb ++
  leBytes 4 m.mbCrc.toNat ++ leBytes 4 0

end Sys2Proof.Machine
end

