-- ==== Sys2Proof/Machine/Stitching.lean ====
section
/-! DEFINITION. Closing, retiring and discarding stitches (R62 to R77, R100, R174 to R176, R459). -/

namespace Sys2Proof.Machine

/-! ## Closing -/

/-- R72, R176: at the closing snapshot the running cursors and acquisitions of the slot's ring ends are copied. -/
def ringClose (slot : Nat) (r : RingSt) : RingSt :=
  let r1 := if r.fill == slot then { r with fillClosed := r.fillRun, acqC := (r.acqW, r.acqC.2) } else r
  if r1.drain == slot then { r1 with drainClosed := r1.drainRun, acqC := (r1.acqC.1, r1.acqR) } else r1

/-- R242: index of the first micro-batch that is not lost, all ones without one. -/
def firstMb (nmb : Nat) (lost : List LostMb) : W64 :=
  match (List.range nmb).find? fun i => !(lost.any fun m => m.mbi == i) with
  | some i => BitVec.ofNat 64 i
  | none => 0xFFFFFFFF#64

/-- R242: the micro-batch after `i` in index order, or the first again, as in the next phase or layer. -/
def nextMb (nmb : Nat) (lost : List LostMb) (i : Nat) : W64 :=
  match (List.range nmb).find? fun j => i < j && !(lost.any fun m => m.mbi == j) with
  | some j => BitVec.ofNat 64 j
  | none => firstMb nmb lost

/-- R242: values that the command processor may have given c.mb when the next stitch opens: the running micro-batch goes on, the next
one has started, or, in a slot that need not be in the forward pass, the weight-gradient phase. -/
def mbChoices (r : StepRun) (slot : Nat) (mb : W64) : List W64 :=
  [mb, nextMb r.nmb r.lost mb.toNat] ++ if slot == 0 then [] else [0xFFFFFFFF#64]

/-- R242: c.mb of the stitch that opens: in a training step one of the values of `mbChoices`. When a micro-batch or a phase starts, the
manual says by no event that this block is shown, so which of them it is is a free value (log 19). -/
def mbStart (s : State) (u : StreamId) (mb : W64) : W64 :=
  match (ctxOf s (coreOf s u.lcid).st.ctx).run with
  | none => mb
  | some r =>
    let l := mbChoices r u.slot mb
    l[(Config.freeWord s.freeCtr).toNat % l.length]?.getD mb

/-- R72: the closing snapshot of the OPEN stitch, with the given register image, and the next stitch opens. -/
def closeNow (s : State) (u : StreamId) (a0 : Arch) (isDone : Bool) : State :=
  let s1 := gatherFlush (useFree s) u.lcid
  let a := { a0 with mb := mbStart s u a0.mb }
  let c := coreOf s1 u.lcid
  let x := c.slot u.slot
  let cl : Closed := ⟨x.opn, a, x.opn.tilesW.map fun k => (k, fget {} k c.tiles)⟩
  let x1 := { x with arch := a, closed := some cl, acyc := 0, wait := none,
                     opn := { seq := x.opn.seq + 1, mb := a.mb },
                     phase := if isDone then .closing else x.phase }
  putCore s1 u.lcid ({ c with rings := fmapAll (fun _ r => ringClose u.slot r) c.rings }.putSlot u.slot x1)

/-- R64, R72, R100: `stitch` and `done` wait for outstanding loads and for the CLOSED stitch; then the OPEN stitch closes
with the pc past the instruction. -/
def closeBody (u : StreamId) (isDone : Bool) (s : State) : Res :=
  let x := slotOf s u
  if x.closed.isSome || !x.loads.isEmpty then .wait .stitch
  else
    let a := if isDone then { x.arch with pc := x.arch.pc + 8, loops := [] } else x.arch.advance
    .jump (closeNow s u a isDone)

/-! ## Retirement -/

/-- R65: may the CLOSED stitch retire? Condition 1 holds because at most one stitch is CLOSED. -/
def canRetire (c : CoreSt) (cl : Closed) : Bool :=
  cl.st.verdicts.isEmpty && cl.st.inputs.all (inputOk c) && !cl.st.poison

/-- R66 step 2: a slot the stitch filled becomes full, or loses its provisional mark when it drains. -/
def confirmSlot (x : RSlot) : RSlot :=
  match x.st with
  | .provFull => { x with st := .full, vouched := false }
  | .draining => { x with prov := false, vouched := false }
  | _ => x

/-- R66 step 3: a drained slot becomes empty. -/
def emptySlot (x : RSlot) : RSlot := match x.st with | .draining => {} | _ => x

/-- Apply a change to listed ring slots of a core. -/
def modSlots (g : RSlot → RSlot) (l : List (Nat × Nat)) (c : CoreSt) : CoreSt :=
  l.foldl (fun c e => match c.ring? e.1 with
    | some r => c.putRing e.1 (r.putSlot e.2 (g (r.slot e.2)))
    | none => c) c

/-- R176: retirement copies the closed cursors to the retired ones. -/
def ringRetire (slot : Nat) (r : RingSt) : RingSt :=
  let r1 := if r.fill == slot then { r with fillRet := r.fillClosed, acqT := (r.acqC.1, r.acqT.2) } else r
  if r1.drain == slot then { r1 with drainRet := r1.drainClosed, acqT := (r1.acqT.1, r1.acqC.2) } else r1

/-- R171: the bytes of stores that lie in a cached line replace its bytes. -/
def lineUpdate (ps : List (Nat × List W8)) (l : CLine) : CLine :=
  let put (bs : List W8) (e : Nat × W8) : List W8 :=
    if l.addr ≤ e.1 && e.1 < l.addr + 64 then bs.set (e.1 - l.addr) e.2 else bs
  { l with bytes := (ps.flatMap fun p => atAddr p.1 p.2).foldl put l.bytes }

/-- R171: a retiring gated store updates cached lines, a retiring `amoadd` invalidates its line. -/
def cacheWrite (c : CoreSt) : Gated → CoreSt
  | .store ps => { c with cache := c.cache.map (lineUpdate ps) }
  | .amo a _ _ => { c with cache := c.cache.filter fun l => l.addr != a / 64 * 64 }
  | .signal _ _ _ => c

/-- Cistern of an LPDDR address. -/
def cistOfAddr (a : Nat) : Nat := cistOfChan (chanOf a)

/-- R293: working ports of the group towards a module, in port-number order. -/
def groupPorts (s : State) (q : Nat) : List Nat :=
  (List.range 64).filter fun n => s.casc.pmap[n]? == some q && rfld s (rAK n 0) 0 2 == 2

/-- R293, R294: the next hop towards a module; where its group has no working port, the lowest-numbered module with working groups to
both ends. Whether that module's group to the far end works is a free value (log 67). -/
def nextHop (s : State) (m : Nat) : Option Nat :=
  let hop := if s.casc.topo == 1 then s.casc.rtab[m]?.getD m else m
  if !(groupPorts s hop).isEmpty then some hop
  else (List.range (s.casc.w * s.casc.d * s.casc.m)).find? fun q =>
    q != s.casc.self && q != hop && !(s.casc.lost.contains q) && !(groupPorts s q).isEmpty && Config.farGroup s.freeCtr q hop

/-- R293: the lowest-numbered working port towards a module. -/
def portTo (s : State) (m : Nat) : Option Nat := (nextHop s m).bind fun q => (groupPorts s q).head?

/-- R293: the port by which a frame leaves: a data frame by the member that its block index picks. -/
def framePort (s : State) (f : Frame) : Option Nat :=
  let j := match f.mirror with | some (_, p) => p.offset / 4096 | none => f.wblk
  if 3 ≤ f.ty && f.ty ≤ 5 then (nextHop s f.dmod).bind fun q => let g := groupPorts s q; g[j % g.length]? else portTo s f.dmod

/-- Table 12.2: the 28 header bytes that fcrc covers. -/
def frameHead (f : Frame) : List W8 :=
  leBytes 2 f.dmod ++ leBytes 2 f.smod ++ leBytes 1 f.ty ++ leBytes 1 f.hops ++ leBytes 2 f.cgen ++ leBytes 4 f.lseq ++
  leBytes 4 f.lack ++ leBytes 4 f.dseq ++ leBytes 2 f.term ++ leBytes 1 f.win ++ leBytes 1 0 ++ leBytes 4 f.wblk

/-- R288: the 32-byte body of a control or beat frame. -/
def frameBody (f : Frame) : List W8 :=
  leBytes 1 f.code ++ leBytes 1 f.byte1 ++ leBytes 2 f.k ++ leBytes 4 f.n ++ leBytes 8 f.epoch ++
  (f.spec ++ List.replicate 16 0).take 16

/-- R288: the frame check. -/
def frameCheck (f : Frame) : W32 := crc32c (frameHead f ++ (if f.ty == 1 || f.ty == 2 then frameBody f else []))

/-- R288: bytes of a frame; those of control data and mirror data, whose bodies the manual does not lay out, are counted as their
contents (log 28). -/
def frameSize (f : Frame) : Nat :=
  match f.block, f.mirror with
  | some _, _ => 4192
  | none, some (_, p) => 32 + p.bytes.length
  | none, none => max 64 (48 + f.spec.length + 20 * f.meas.length)

/-- R291: the class of a frame at a port of module `self`. -/
def frameClass (self : Nat) (f : Frame) : Nat :=
  if f.ty ≤ 1 then 0 else if f.smod != self then 3 else if f.ty == 2 then 1 else if f.ty == 3 || f.ty == 4 then 2
  else if f.ty == 6 then 4 else 5

/-- R291: a frame joins those that wait, behind the ones of its class and of those before it. -/
def enqueue (self : Nat) (f : Frame) (l : List Frame) : List Frame :=
  let before (g : Frame) : Bool := frameClass self g ≤ frameClass self f
  l.filter before ++ f :: l.filter fun g => !(before g)

/-- R289: bytes of the replay buffer of a port. -/
def replayBytes : Nat := 524288

/-- R288, R289, R291: waiting frames leave while the replay buffer has room: link sequence number, acknowledgement, frame check; the port
holds them until they are acknowledged. -/
def flushPort : Nat → State → Nat → State
  | 0, s, _ => s
  | k + 1, s, n =>
    let p := portOf s n
    match p.queue with
    | [] => s
    | f :: rest =>
      if replayBytes < (p.replay.map frameSize).sum + frameSize f then s
      else
        let q := (p.txSeq + 1) % 2 ^ 32
        let f1 := { f with lseq := q, lack := p.rxSeq }
        let f2 := { f1 with fcrc := frameCheck f1 }
        flushPort k (emit (putPort s n { p with txSeq := q, replay := p.replay ++ [f2], queue := rest }) (.frame n f2)) n

/-- R291: a frame is given to a port. -/
def portSend (s : State) (n : Nat) (f : Frame) : State :=
  let q := enqueue s.casc.self f (portOf s n).queue
  flushPort q.length (putPort s n { portOf s n with queue := q }) n

/-- Send a frame to a module: header fields, next dseq of the pair, through the port of R293. A frame of a module to itself is
handed over inside the module, and one that no route leads to is lost (log 28). -/
def sendFrame (s : State) (m : Nat) (fr : Frame) : State :=
  let f := { fr with dmod := m, smod := s.casc.self, hops := 4, cgen := s.casc.cgen, term := s.casc.term }
  if m == s.casc.self then { s with inbox := s.inbox ++ [f] }
  else
    let d := fget 0 m s.casc.dtx + 1
    let s1 := { s with casc := { s.casc with dtx := fset m d s.casc.dtx } }
    match framePort s f with
    | some q => portSend s1 q { f with dseq := d }
    | none => s1

/-- Send one frame to every module of a list. -/
def sendAll (s : State) (ms : List Nat) (fr : Frame) : State := ms.foldl (fun s m => sendFrame s m fr) s

/-- Does a context run the active cascade? -/
def onCascade (s : State) (n : Nat) : Bool := s.casc.active && s.casc.ctx == n

/-- Master and deputy, each once. -/
def leads (s : State) : List Nat := ([s.casc.master, s.casc.deputy]).eraseDups

/-- R311: send a message of a cascade step to master and deputy. -/
def toLeads (s : State) (fr : Frame) : State := sendAll s (leads s) { fr with k := s.casc.k, epoch := s.casc.epoch }

/-- Table 12.4: tags in bytes 16–31 of a control body. -/
def tagBytes (t : Tags) : List W8 := leBytes 4 (t.lcid + t.slot * 2 ^ 16) ++ leBytes 4 t.replay ++ leBytes 8 t.seq

/-- R68, R185, R227: what the release of one gated write sends: a store, one request for each channel it writes, or an
`amoadd` to the cistern, host bytes to the host, signals to the object, cascade signals to master and deputy (R298). Host stores are posted writes on the link. -/
def releaseGate (s : State) (u : StreamId) (g : Gated) : State :=
  let st := (coreOf s u.lcid).st
  match g with
  | .store ps =>
    let host (p : Nat × List W8) : Bool := regionOf s p.1 == .host
    let lp := ps.filter fun p => !(host p)
    let s1 := (ps.filter host).foldl (fun s p => hostStore s (atAddr p.1 p.2)) s
    (lp.foldl (fun l p => nins (chanOf p.1) l) []).foldl (fun s c =>
      emit s (.mem (cistOfChan c) (.store u.lcid (lp.filter fun p => chanOf p.1 == c) st))) s1
  | .amo a ty v => emit s (.amo (cistOfAddr a) u.lcid a ty v st)
  | .signal so cas v =>
    if cas then if !s.casc.active then s else
      sendAll s ([s.casc.master] ++ (if s.casc.deputy == s.casc.master then [] else [s.casc.deputy]))
        { ty := 2, code := 3, spec := leBytes 8 so ++ leBytes 8 v.toNat }
    else match (ctxOf s st.ctx).bind with
      | some b => match b.so? so with
        | some n => emit s (.signal (.core u.lcid) n v st)
        | none => s
      | none => s

/-- Forward-list entries of a stitch with the current replay count. -/
def stitchEntries (t : TileSt) (u : StreamId) (seq : Nat) : List FwdEntry :=
  t.fwd.filter fun e => e.tags.lcid == u.lcid && e.tags.slot == u.slot && e.tags.seq == seq

/-- Distinct destinations of forward-list entries: core and module. -/
def fwdDests (es : List FwdEntry) : List (Nat × Option Nat × Nat) :=
  es.foldl (fun a e => if a.contains (e.lcid, e.remote, e.win) then a else a ++ [(e.lcid, e.remote, e.win)]) []

/-- R66 step 5, R74, R77: one confirmation (code 6) or retraction (code 7) for each distinct destination. -/
def sendVerdicts (s : State) (tile : Nat) (es : List FwdEntry) (confirm : Bool) : State :=
  (fwdDests es).foldl (fun s d =>
    let mine := es.filter fun e => (e.lcid, e.remote, e.win) == d
    match mine with
    | [] => s
    | e :: _ => match e.remote with
      | none => emit s (if confirm then .confirm e.lcid e.tags mine.length e.st
                        else .retract e.lcid e.tags mine.length e.st)
      | some m => sendFrame s m { ty := 2, code := if confirm then 6 else 7, byte1 := e.win, n := mine.length,
                                  spec := tagBytes e.tags })
    (putTile s tile { tileOf s tile with fwd := (tileOf s tile).fwd.filter fun e =>
      !(es.contains e) || (confirm && e.remote.isSome) })

/-- Do the tags name a stitch of a slot? -/
def ofStitch (t : Tags) (u : StreamId) (seq : Nat) : Bool := t.lcid == u.lcid && t.slot == u.slot && t.seq == seq

/-- R199: descriptors that a retired stitch posted may start; provisional data sent for the stitch is confirmed. -/
def readyJobs (t : TileSt) (u : StreamId) (seq : Nat) : TileSt :=
  { t with jobs := t.jobs.map fun j =>
      let j1 := { j with unconf := j.unconf.filter fun e => !(ofStitch e.1 u seq) }
      if j.phase == .unretired && j.lcid == u.lcid && j.slot == u.slot && j.seq == seq then { j1 with phase := .ready }
      else j1 }

/-- R74, R176: a running descriptor drains again the slots whose filling stitch was discarded (log 24). -/
def rewindJob (u : StreamId) (seqs : List Nat) (j : PumpJob) : PumpJob :=
  let hit := (j.unconf.filter fun e => seqs.any (ofStitch e.1 u)).map fun e => e.2.1
  { j with unconf := j.unconf.filter (fun e => !(hit.contains e.2.1)), redo := ninsAll hit j.redo,
           took := j.took.filter (fun e => !(hit.contains e.1)),
           wait := j.wait.filter fun w => !(hit.contains w.d.slotNo) }

/-- R176: the slot that a draining pump takes next goes back to the first slot to drain again. -/
def rewindTake (u : StreamId) (seqs : List Nat) (jobs : List PumpJob) (c : CoreSt) : CoreSt :=
  jobs.foldl (fun c j =>
    match j.unconf.find? fun e => seqs.any (ofStitch e.1 u) with
    | some e => (match c.ring? j.desc.sref with
      | some r => if j.lcid == u.lcid then c.putRing j.desc.sref { r with take := e.2.2 } else c
      | none => c)
    | none => c) c

/-- Ring slots of a list that still hold what the stitch filled. -/
def filledBy (c : CoreSt) (u : StreamId) (seq : Nat) (l : List (Nat × Nat)) : List (Nat × Nat) :=
  l.filter fun e => match c.ring? e.1 with
    | some r => (r.slot e.2).tags.any fun t => ofStitch t u seq
    | none => false

/-- R66: the CLOSED stitch retires, as one step. -/
def retireStitch (s : State) (u : StreamId) (cl : Closed) : State :=
  let t := tileOfCore u.lcid
  let c0 := coreOf s u.lcid
  let c1 := modSlots emptySlot cl.st.drained (modSlots confirmSlot (filledBy c0 u cl.st.seq cl.st.filled)
    { c0 with rings := fmapAll (fun _ r => ringRetire u.slot r) c0.rings })
  let x := c1.slot u.slot
  let x1 := { x with retired := cl.image, retSeq := cl.st.seq + 1,
                     retTiles := cl.tiles.foldl (fun m e => fset e.1 e.2 m) x.retTiles,
                     closed := none, buf := !x.buf, tileBuf := cl.tiles.foldl (fun m e => fset e.1 (!x.buf) m) x.tileBuf,
                     phase := if x.phase == .closing then .partDone else x.phase }
  let c2 := cl.st.gates.foldl cacheWrite (c1.putSlot u.slot x1)
  let s1 := cl.st.gates.foldl (fun s g => releaseGate s u g) (putCore s u.lcid c2)
  let s2 := putTile s1 t (readyJobs (tileOf s1 t) u cl.st.seq)
  sendVerdicts s2 t (stitchEntries (tileOf s2 t) u cl.st.seq) true

/-! ## Discard -/

/-- R176: the running cursors and acquisitions take the copies of the restart image. -/
def ringRestart (slot : Nat) (keep : Bool) (r : RingSt) : RingSt :=
  let r1 := if r.fill == slot then
      (if keep then { r with fillRun := r.fillClosed, acqW := r.acqC.1 }
       else { r with fillRun := r.fillRet, fillClosed := r.fillRet, acqW := r.acqT.1, acqC := (r.acqT.1, r.acqC.2) })
    else r
  if r1.drain == slot then
    (if keep then { r1 with drainRun := r1.drainClosed, acqR := r1.acqC.2 }
     else { r1 with drainRun := r1.drainRet, drainClosed := r1.drainRet, acqR := r1.acqT.2, acqC := (r1.acqC.1, r1.acqT.2) })
  else r1

/-- R74, Table 7.2: a slot the discarded stitch filled returns to empty. -/
def unfill (_ : RSlot) : RSlot := {}

/-- R74, Table 7.2: a slot the discarded stitch drained returns to full or provisional-full. -/
def undrain (x : RSlot) : RSlot :=
  match x.st with
  | .draining => { x with st := if x.prov then .provFull else .full, prov := false }
  | _ => x

/-- Table 7.2: `racq.w` or `racq.r` takes a slot in the state that it needs; another slot stays. -/
def RSlot.acquire (x : RSlot) (read : Bool) : RSlot :=
  match read, x.st with
  | false, .empty => { x with st := .filling }
  | true, .full => { x with st := .draining, prov := false }
  | true, .provFull => { x with st := .draining, prov := true }
  | _, _ => x

/-- R74, R108: acquisitions that stand in the restart image, made before it and not yet released there, are made again at once, so
that the replay finds them (DEDUCED, log 53). -/
def reacquire (slot : Nat) (r : RingSt) : RingSt :=
  let again (read : Bool) (r : RingSt) : Option Nat → RingSt
    | some i => r.putSlot i ((r.slot i).acquire read)
    | none => r
  let r1 := if r.fill == slot then again false r r.acqW else r
  if r1.drain == slot then again true r1 r1.acqR else r1

/-- Slots (ring, index) that a discard returns: filled or drained by the stitches, and acquired but not released. -/
def touched (c : CoreSt) (slot : Nat) (ts : List Stitch) : List (Nat × Nat) × List (Nat × Nat) :=
  (ts.flatMap (·.filled) ++ c.rings.filterMap (fun e => if e.2.fill == slot then e.2.acqW.map (e.1, ·) else none),
   ts.flatMap (·.drained) ++ c.rings.filterMap (fun e => if e.2.drain == slot then e.2.acqR.map (e.1, ·) else none))

/-- Does a stitch of a slot read one of the ring slots? -/
def readsAny (t : Stitch) (l : List (Nat × Nat)) : Bool :=
  l.any fun e => t.inputs.contains e || t.drained.contains e

/-- R74, Table 7.2: the other slots of the core whose unretired stitches read a provisional slot that became empty, and
whether the CLOSED stitch is spared. A slot acquired and not yet released belongs to the OPEN stitch. -/
def consumers (c : CoreSt) (l : List (Nat × Nat)) : List (Nat × Bool) :=
  [0, 1, 2].filterMap fun i =>
    let x := c.slot i
    let inClosed := match x.closed with | some cl => readsAny cl.st l | none => false
    let held := c.rings.any fun e => e.2.drain == i && match e.2.acqR with
      | some k => l.contains (e.1, k)
      | none => false
    if inClosed || readsAny x.opn l || held then some (i, !inClosed) else none

/-- Does a wait mark belong to a slot? -/
def SoWait.isOf (u : StreamId) : SoWait → Bool
  | .slot v _ => v == u
  | _ => false

/-- A slot's wait on an object of the module is withdrawn. -/
def dropWait (s : State) (n : Nat) (u : StreamId) : State :=
  let o := soOf s n
  { s with sos := fset n { o with waits := o.waits.filter fun w => !(w.isOf u) } s.sos }

/-- R74: the waits of a slot that a discard ends are withdrawn, and its requests to the cascade's master. -/
def dropWaits (s : State) (u : StreamId) : State :=
  match (slotOf s u).wait with
  | some (.so n false _ _) => dropWait s n u
  | some (.so _ true _ _) => { s with casc := { s.casc with reqs := s.casc.reqs.filter fun r => r.2.1 != u } }
  | some (.soRead _ _) => { s with casc := { s.casc with reqs := s.casc.reqs.filter fun r => r.2.1 != u } }
  | _ => s

/-- R74: discard the OPEN stitch of a slot, and the CLOSED one unless `keep`; `replay`: a running slot runs again from the restart
image, and so does one whose `done` is discarded; slots that wait for a start, have halted, faulted or completed their part stay so
(R79, R321, R459). Answers the ring slots that became empty while a stream of the core drained them. An OPEN stitch that has run no
instruction, as where a slot has halted or completed its part, is no stitch discarded. -/
def discardOne (s : State) (u : StreamId) (keep replay : Bool) : State × List (Nat × Nat) :=
  let t := tileOfCore u.lcid
  let s0 := gatherFlush (dropWaits s u) u.lcid
  let x := slotOf s0 u
  let keepC := keep && x.closed.isSome
  let shut : List Stitch := if keepC then [] else match x.closed with | some cl => [cl.st] | none => []
  let gone : List Stitch := x.opn :: shut
  let real : List Stitch := if x.phase == .running || x.phase == .faulted then gone else shut
  let s1 := (gone.flatMap (·.undo)).foldl (fun s e => wellStore s u.lcid (atAddr e.1 e.2)) s0
  let c := coreOf s1 u.lcid
  let tc := touched c u.slot gone
  let c1 := { c with rings := fmapAll (fun _ r => ringRestart u.slot keepC r) c.rings }
  let lostSlots := tc.1.filter fun e => match c.ring? e.1 with
    | some r => let y := r.slot e.2; (y.st == .draining && y.prov) || y.st == .provFull
    | none => false
  let c2 := modSlots undrain tc.2 (modSlots unfill tc.1 c1)
  let c3 := { c2 with rings := fmapAll (fun _ r => reacquire u.slot r) c2.rings }
  let image := match x.closed with | some cl => if keepC then cl.image else x.retired | none => x.retired
  let kept : FMap AccTile := match x.closed with | some cl => if keepC then cl.tiles else [] | none => []
  let tiles := (List.range 16).foldl (fun m k =>
    if x.amask.getLsbD k then
      match fget? k kept with
      | some v => fset k v m
      | none => match fget? k x.retTiles with
        | some v => fset k v m
        | none => ferase k m
    else m) c3.tiles
  let base := match x.closed with | some cl => if keepC then cl.st.seq + 1 else x.retSeq | none => x.retSeq
  let x1 := { x with
    arch := image, wait := none, acyc := 0,
    closed := if keepC then x.closed else none,
    opn := { seq := base, mb := image.mb },
    loads := x.loads.filter fun l => !(gone.any fun g => g.seq == l.seq),
    replays := real.foldl (fun m g => fmod 0 g.seq (· + 1) m) x.replays,
    phase := if replay && x.phase == .closing && !keepC then .running else x.phase }
  let seqs := gone.map (·.seq)
  let s2 := putCore s1 u.lcid (rewindTake u seqs (tileOf s1 t).jobs ({ c3 with tiles := tiles }.putSlot u.slot x1))
  let jobs := (tileOf s2 t).jobs.filter fun j => !(j.phase == .unretired && j.lcid == u.lcid && j.slot == u.slot &&
    seqs.contains j.seq)
  let s3 := putTile s2 t { tileOf s2 t with jobs := jobs.map (rewindJob u seqs) }
  let s4 := gone.reverse.foldl (fun s g => sendVerdicts s t (stitchEntries (tileOf s t) u g.seq) false) s3
  (rcount s4 (rTL t 0x2004) (if replay then real.length else 0), lostSlots)

/-- R73 to R75: discards follow from slot to slot of one core until no unretired stitch read a lost input. -/
def discardChain : Nat → State → Nat → List (Nat × Bool) → Bool → State
  | 0, s, _, _, _ => s
  | _ + 1, s, _, [], _ => s
  | n + 1, s, l, (i, keep) :: rest, replay =>
    let r := discardOne s ⟨l, i⟩ keep replay
    let more := consumers (coreOf r.1 l) r.2
    discardChain n r.1 l (rest ++ more.filter fun e => e.1 != i) replay

/-- R74 with what follows from it: discard stitches of one slot. -/
def discardSlot (s : State) (u : StreamId) (keep replay : Bool) : State :=
  discardChain 9 s u.lcid [(u.slot, keep)] replay

/-- R79, R81: discard every unretired stitch of the three slots. -/
def discardCore (s : State) (l : Nat) (replay : Bool) : State :=
  [0, 1, 2].foldl (fun s i => if (slotOf s ⟨l, i⟩).bound then (discardOne s ⟨l, i⟩ false replay).1 else s) s

/-- R75, Table 7.2: ring slots of a core are retracted: provisional-full ones become empty, marked draining ones become
empty and the stitches that read them are discarded and replayed. -/
def retractSlots (s : State) (l : Nat) (es : List (Nat × Nat)) : State :=
  let c := coreOf s l
  let cons := consumers c es
  let c1 := modSlots (fun _ => {}) es c
  discardChain 9 (putCore s l c1) l cons true

/-! ## Start of a command -/

/-- R459: every bound slot starts afresh: pc 0, bind values, no loop, owned tiles +0; sequence number, replay counts, c.tick,
counters and cursors continue. A new command, not the restart of a step, notes the count that its first stitch begins with
(R362). -/
def startSlot (x : SlotSt) (epoch mb : W64) (fresh : Bool) : SlotSt :=
  let a : Arch := { b := x.bbind, srctr := x.arch.srctr, epoch := epoch, mb := mb }
  { x with arch := a, retired := a, retTiles := [], tileBuf := [], retSeq := x.opn.seq, closed := none, loads := [], wait := none,
           opn := { seq := x.opn.seq, mb := mb }, acyc := 0, phase := .running,
           start := if fresh then (x.opn.seq, fget 0 x.opn.seq x.replays) else x.start }

/-- R459, R171: start the bound slots of a core; owned tiles become +0 and the cache partition is invalidated. -/
def startCore (c : CoreSt) (epoch mb : W64) (fresh : Bool) : CoreSt :=
  let own := c.slots.toList.foldl (fun m x => m ||| x.amask) 0#16
  { c with slots := c.slots.map fun x => if x.bound then startSlot x epoch mb fresh else x,
           tiles := c.tiles.filter fun e => !(own.getLsbD e.1),
           cache := [] }

end Sys2Proof.Machine
end

