-- ==== Sys2Proof/Machine/Entries.lean ====
section
/-! DEFINITION. The command processor's shared operations: mirror window (R378 to R381), journal (R344), completion
records (R386), retirement (R340), halts (R79, R321) and the end of a training step (R252). -/

namespace Sys2Proof.Machine

/-! ## Status of the module -/

/-- R426: has bring-up step 10 set READY? -/
def ready (s : State) : Bool := rfld s 0x108 0 4 == 10

/-- R366, Table 14.6: the replacement reasons raised. -/
def reasons (s : State) : Nat := rfld s 0x8000 0 7

/-- R366: raise one replacement reason. -/
def raiseReason (s : State) (n : Nat) : State := rsetf (rsetf s 0x8000 n 1 1) 0x8000 31 1 1

/-- Channels whose state is not active. -/
def badChans (s : State) : List Nat := (List.range 384).filter fun c => chanState s c != 0

/-- Ports in state failed. -/
def failedPorts (s : State) : List Nat := (List.range 64).filter fun n => rfld s (rAK n 0) 0 2 == 3

/-- Channels that a range of LPDDR touches. -/
def RangeE.chans (r : RangeE) : List Nat :=
  let a := chanOf r.base
  let b := chanOf (r.base + r.pages * 4096 - 1)
  span a (b + 1 - a)

/-- Is a cistern without its update engines? -/
def cistBad (s : State) (j : Nat) : Bool := (cistOf s j).fenced || (cistOf s j).engFenced

/-- R367: does DEGRADED hold for a context? -/
def degraded (s : State) (n : Nat) : Bool :=
  match (ctxOf s n).bind with
  | none => false
  | some b =>
    s.cores.any (fun e => e.2.guest.isSome && b.cores.contains e.1) ||
    b.lpr.any (fun r => r.chans.any fun c => chanState s c != 0) ||
    b.ports.any (fun p => rfld s (rAK p 0) 0 2 == 3) || b.cists.any (cistBad s)

/-- The unit numbers of pumps: tiles 0 to 63, cisterns 64 to 87. -/
def jobsOf (s : State) (unit : Nat) : List PumpJob := if unit < 64 then (tileOf s unit).jobs else (cistOf s (unit - 64)).jobs

/-- A unit's descriptor by number. -/
def jobOf (s : State) (unit id : Nat) : Option PumpJob := (jobsOf s unit).find? fun j => j.id == id

/-- R363: descriptors that now hold a stalled burst, oldest stall first. -/
def stalledJobs (s : State) : List (Nat × Nat) :=
  s.boot.stalls.filter fun e => match jobOf s e.1 e.2 with | some j => j.stalled | none => false

/-- WH_STALL.count and WH_STALL.unit (Table 14.8). -/
def stallCount (s : State) : Nat := min 65535 (stalledJobs s).length

/-- Unit of the oldest stall. -/
def stallUnit (s : State) : Nat := match stalledJobs s with | e :: _ => e.1 | [] => 0x7F

/-! ## The mirror window (R380) -/

/-- A byte of flags, lowest first. -/
def flagByte (l : List Bool) : Nat := l.foldr (fun b n => b.toNat + 2 * n) 0

/-- Table 15.3. -/
def moduleLine (s : State) : List W8 :=
  leBytes 4 (flagByte [ready s, rfld s 0x8000 31 1 == 1, (List.range 64).any (degraded s), rfld s 0x8014 3 1 == 1,
    rfld s 0x8024 23 1 == 1]) ++
  leBytes 4 (reasons s) ++ leBytes 8 (rget64 s 0x124) ++ leBytes 8 s.boot.stalledEvents ++ leBytes 2 (stallCount s) ++
  leBytes 1 (stallUnit s) ++ leBytes 5 0 ++
  leBytes 8 (flagByte ((List.range 64).map (degraded s))) ++
  leBytes 8 (flagByte ((List.range 64).map fun n => ctxState s n == 3)) ++ leBytes 16 0

/-- Table 15.4. -/
def ringLine (s : State) (n : Nat) : List W8 :=
  let h := fget {} n s.hrings
  leBytes 8 (rget64 s (rHC n 0x28)) ++ leBytes 8 h.retired ++ leBytes 8 (rget64 s (rHC n 0x18)) ++
  leBytes 2 h.lastStatus ++ leBytes 1 (rfld s (rHC n 0x24) 0 2) ++ leBytes 37 0

/-- Table 15.5. -/
def ctxLine (s : State) (n : Nat) : List W8 :=
  let x := ctxOf s n
  leBytes 1 (ctxState s n) ++
  leBytes 1 (flagByte [rfld s (rFnCtx n) 2 1 == 1, degraded s n, x.restored, x.unverified]) ++
  leBytes 2 (ctxGen s n) ++ leBytes 4 0 ++ leBytes 8 x.epoch ++ leBytes 8 x.comEpoch ++ leBytes 8 x.u ++ leBytes 32 0

/-- Table 15.2: the byte of a function. -/
def fnByte (s : State) (f : Nat) : W8 := BitVec.ofNat 8 (rfld s (rFnStat f) 0 3)

/-- R380: value that mirror slot `k` shows. -/
def somirWord (s : State) (k : Nat) : W64 :=
  let r := 0x202000 + 4 * k
  let o := rfld s r 0 16
  if rfld s r 31 1 == 0 then 0
  else if rfld s r 16 1 == 0 then (soOf s o).v
  else if s.casc.active && (s.casc.self == s.casc.master || s.casc.self == s.casc.deputy) && o < 4096 then
    (fget {} o s.csos).v
  else 0

/-- Table 15.2: line `k` of the mirror window. -/
def mirrorLine (s : State) (k : Nat) : List W8 :=
  if k == 0 then moduleLine s
  else if 16 ≤ k && k < 80 then ringLine s (k - 16)
  else if 80 ≤ k && k < 144 then ctxLine s (k - 80)
  else if 144 ≤ k && k < 148 then (span (64 * (k - 144)) 64).map (fnByte s)
  else if 256 ≤ k && k < 768 then (span (8 * (k - 256)) 8).flatMap fun i => leBytes 8 (somirWord s i).toNat
  else List.replicate 64 0

/-- R379, R389, R393: what a change of state shows: snoops of cached mirror lines that changed, module events and the
sideband alert. -/
def publish (s0 s1 : State) : State :=
  let chg := s1.presence.filter fun k => !(s1.snoops.contains k) && mirrorLine s0 k != mirrorLine s1 k
  let ev := reasons s0 != reasons s1 || ready s0 != ready s1
  let alert := reasons s0 != reasons s1 || (!(ready s0) && ready s1)
  { s1 with snoops := ninsAll chg s1.snoops,
            out := s1.out ++ chg.map (fun k => .snoop (.mirror k)) ++
              (if ev && rfld s1 0x201000 6 1 == 1 then [.msix (rfld s1 0x201000 0 6)] else []) ++
              (if alert then [.mctp (moduleLine s1)] else []) }

/-- A command's effect together with what it shows. -/
def shown (f : State → State) (s : State) : Host.Outcome State Fault Refusal := .next (publish s (f s))

/-! ## The journal (R344) -/

/-- Replace the records that `same` names by a new one. -/
def jput (s : State) (same : JRec → Bool) (r : JRec) : State :=
  { s with journal := s.journal.filter (fun x => !(same x)) ++ [r] }

/-- R346: bytes of a record whose size the manual states: entry, copies and retirement records. -/
def JRec.size : JRec → Nat
  | .accept e => 128 + e.copy1.length + e.copy2.length + e.copy3.length
  | .retire _ _ b => b.length
  | _ => 0

/-- R346: room for an entry with `n` bytes of copies beside its retirement record; a copy of the region is 768 MiB. -/
def journalRoom (s : State) (n : Nat) : Bool := (s.journal.map JRec.size).sum + 192 + n ≤ 805306368

/-- CTX record of a context; it supersedes the records of what ran before. -/
def jctx (s : State) (n : Nat) : State :=
  jput s (fun r => match r with
    | .ctx m _ _ _ => m == n
    | .start m _ => m == n
    | .commit m _ _ _ _ => m == n
    | .settle m _ _ => m == n
    | _ => false) (.ctx n (ctxState s n) (ctxGen s n) (ctxOf s n))

/-- R344: a context changes state. -/
def setCtxState (s : State) (n v : Nat) : State := jctx (rsetf s (rFnCtx n) 0 2 v) n

/-- Values of a context's objects. -/
def ctxSos (s : State) (n : Nat) : List (Nat × W64) :=
  (s.sos.filter fun e => e.2.st == heldStamp s n).map fun e => (e.1, e.2.v)

/-- SO record of a context. -/
def jso (s : State) (n : Nat) : State :=
  jput s (fun r => match r with | .so m _ => m == n | _ => false) (.so n (ctxSos s n))

/-! ## Completion records (R386) -/

/-- The fields of a record that depend on the command. -/
structure RecInfo where
  status : Nat := 0
  epoch : Nat := 0
  count : Nat := 0
  energy : Nat := 0
  detail : Nat := 0
  deriving DecidableEq, Repr, Inhabited

/-- Table 15.6. -/
def recordBytes (s : State) (seq phase ctx : Nat) (i : RecInfo) : List W8 :=
  leBytes 8 seq ++ leBytes 2 i.status ++ leBytes 1 phase ++ leBytes 1 ctx ++
  leBytes 4 (flagByte [rfld s 0x8000 31 1 == 1, decide (ctx < 64) && degraded s ctx]) ++ leBytes 8 i.epoch ++
  leBytes 4 i.count ++ leBytes 4 (min i.energy (2 ^ 32 - 1)) ++ leBytes 4 (reasons s) ++ leBytes 8 i.detail ++
  leBytes 20 0

/-- Entries of a ring. -/
def ringSize (s : State) (r : Nat) : Nat := 2 ^ rfld s (rHC r 0x20) 5 5

/-- R382: write a record into its slot. -/
def putRecord (s : State) (r seq : Nat) (b : List W8) : State :=
  hostStore s (atAddr (rget64 s (rHC r 0x10) + seq % ringSize s r * 64) b)

/-- R389: send a ring's vector. -/
def ringIrq (s : State) (r : Nat) (on : Bool) : State := if on then emit s (.msix (rfld s (rHC r 0x20) 10 6)) else s

/-- A host ring's state beside its registers. -/
def hringOf (s : State) (r : Nat) : HRing := fget {} r s.hrings

/-- Replace it. -/
def putHring (s : State) (r : Nat) (h : HRing) : State := { s with hrings := fset r h s.hrings }

/-- R387: a draining ring with nothing accepted and nothing held becomes disabled. -/
def drainRing (s : State) (r : Nat) : State :=
  let h := hringOf s r
  if h.draining && h.done.isEmpty && !(s.accepted.any fun e => e.ring == r) then
    rsetf (putHring s r { h with draining := false }) (rHC r 0x24) 0 2 0
  else s

/-- R256, R340, R375: retirement records leave in the order of their ring, once the host link is up. -/
def flushRing : Nat → State → Nat → State
  | 0, s, r => drainRing s r
  | n + 1, s, r =>
    let h := hringOf s r
    match h.done.find? fun d => !(s.accepted.any fun e => e.ring == r && e.seq < d.seq) &&
        !(h.done.any fun e => e.seq < d.seq) with
    | none => drainRing s r
    | some d =>
      if !s.boot.cxlUp then s
      else
        let s1 := putRecord s r d.seq d.bytes
        let s2 := putHring s1 r { h with done := h.done.filter fun e => e.seq != d.seq, retired := d.seq + 1,
                                         lastStatus := d.status }
        flushRing n (ringIrq s2 r d.irq) r

/-- R340, R345: an entry retires: its SO and RETIRE records, then its retirement record in its ring's order. -/
def retire (s : State) (e : Entry) (i : RecInfo) : State :=
  let b := recordBytes s e.seq 2 e.ctx i
  let s1 := if e.ctx < 64 then jso s e.ctx else s
  let s2 := { s1 with accepted := s1.accepted.filter (fun x => !(x.ring == e.ring && x.seq == e.seq)),
                      journal := s1.journal ++ [.retire e.ring e.seq b] }
  let h := hringOf s2 e.ring
  let s3 := putHring s2 e.ring { h with done := h.done ++ [⟨e.ring, e.seq, b, i.status, bitAt (leAt e.raw 8 1) 1, if e.op == 0xE2 then some (e.ctx, e.epoch) else none⟩] }
  flushRing (h.done.length + 1) s3 e.ring

/-- An accepted entry that has not retired. -/
def entryOf (s : State) (r seq : Nat) : Option Entry := s.accepted.find? fun e => e.ring == r && e.seq == seq

/-- Change an accepted entry. -/
def putEntry (s : State) (e : Entry) : State :=
  { s with accepted := s.accepted.map fun x => if x.ring == e.ring && x.seq == e.seq then e else x }

/-! ## Halts -/

/-- Replace the descriptors of a unit. -/
def putJobs (s : State) (unit : Nat) (l : List PumpJob) : State :=
  if unit < 64 then putTile s unit { tileOf s unit with jobs := l }
  else putCist s (unit - 64) { cistOf s (unit - 64) with jobs := l }

/-- Replace one descriptor. -/
def putJob (s : State) (unit : Nat) (j : PumpJob) : State :=
  putJobs s unit ((jobsOf s unit).map fun x => if x.id == j.id then j else x)

/-- Units that hold descriptors. -/
def pumpUnits (s : State) : List Nat := s.tiles.map (·.1) ++ s.cists.map fun e => e.1 + 64

/-- R202: the pump writes status and done into a descriptor of a well; a schedule entry of the command processor has
none. -/
def writeDone (s : State) (j : PumpJob) (status : Nat) : State :=
  if j.sched then s else wellStore s j.lcid (atAddr (wellBase j.lcid + j.addr + 60) (leBytes 2 status ++ [1]))

/-- R321, R329: end the descriptors of a context that `which` selects, with 0x5151. -/
def cancelJobs (s : State) (n : Nat) (which : PumpJob → Bool) : State :=
  (pumpUnits s).foldl (fun s u =>
    let hit (j : PumpJob) : Bool := j.st.ctx == n && which j
    ((jobsOf s u).filter hit).foldl (fun s j => if j.phase == .unretired then s else writeDone s j 0x5151)
      (putJobs s u ((jobsOf s u).filter fun j => !(hit j)))) s

/-- R79 step 3: a halt to every core of a context. -/
def sendHalts (s : State) (n : Nat) : State := emits s ((ctxCores s n).map fun l => .halt l (heldStamp s n))

/-- Is a halt of the context still on its way? -/
def haltsPending (s : State) (n : Nat) : Bool :=
  s.out.any fun m => match m with | .halt _ st => st == heldStamp s n | _ => false

/-- R321: steps of a context accepted and not started retire with 0x5150, in acceptance order. -/
def withdrawSteps (s : State) (n : Nat) : State :=
  let l := s.accepted.filter fun e => e.op == 0xE2 && e.ctx == n && (e.phase == .queued || e.phase == .waiting)
  let s1 := putCtx s n { ctxOf s n with forming := [], released := [] }
  l.foldl (fun s e => retire s e { status := 0x5150, epoch := e.epoch }) s1

/-- R258: the slots that a keep layer's forward stream filled return to empty, and are no longer acquired. -/
def freeKept (s : State) (n : Nat) : State :=
  match (ctxOf s n).pat with
  | none => s
  | some p =>
    let rings := (p.layers.filter p.keep).map p.fring
    if rings.isEmpty then s
    else (ctxCores s n).foldl (fun s l =>
      let c := coreOf s l
      putCore s l (rings.foldl (fun c k => match c.ring? k with
        | some r =>
          let left (a : Option Nat) : Option Nat := a.filter fun i => !((r.slot i).kept)
          c.putRing k { r with slots := r.slots.filter (fun e => !e.2.kept), acqR := left r.acqR,
                               acqC := (r.acqC.1, left r.acqC.2), acqT := (r.acqT.1, left r.acqT.2) }
        | none => c) c)) s

/-! ## The end of a training step -/

/-- Table 10.7: a retry entry of micro-batch `m`, with the fields of its micro-batch table entry. -/
def retryBytes (tab : List W8) (m : LostMb) : List W8 :=
  leBytes 2 m.mbi ++ leBytes 2 m.status ++ leBytes 2 m.layer ++ leBytes 1 m.pass ++ leBytes 1 0 ++
  (tab.drop (32 * m.mbi + 16)).take 12 ++ (tab.drop (32 * m.mbi + 8)).take 4 ++ leBytes 8 0

/-- R252: the retry entries, in micro-batch order. -/
def writeRetries (s : State) (e : Entry) (r : StepRun) : State :=
  let l := (List.range r.nmb).filterMap fun i => r.lost.find? fun m => m.mbi == i
  anyStore s (atAddr (leAt e.copy1 16 8) (l.flatMap (retryBytes e.copy2)))

/-- R281: energy in units of 2^-4 J, rounded down. -/
def energyUnits (e : Nat) : Nat := e / 2 ^ 36

/-- R252: contributing micro-batches. -/
def StepRun.contrib (r : StepRun) : Nat := r.nmb - r.lost.length

/-- R252: the status of a step that commits or had no contribution. -/
def StepRun.status (r : StepRun) : Nat :=
  if r.contrib == 0 then 0x5001 else if r.lost.isEmpty then 0 else 1

/-- R282: partner and area of a running mirror stream of a context. -/
def mirrorPartner (s : State) (n : Nat) : Option (Nat × Nat) :=
  if fnState s (128 + n) == 2 then some (leAt (fnSet s (128 + n)) 4 4, leAt (fnSet s (128 + n)) 8 8) else none

/-- R283: the image goes to the partner in frames of mirror data (log 33). -/
def sendImage (s : State) (n : Nat) (m : MirrorImage) : State :=
  match mirrorPartner s n, (ctxOf s n).bind with
  | some (to_, area), some b =>
    let ps := chunks 4096 (mirrorBytesOf s b m)
    ps.zipIdx.foldl (fun s e => sendFrame s to_ { ty := 5, mirror := some (area,
      { offset := 4096 * e.2, bytes := e.1, crcOk := true, last := e.2 + 1 == ps.length }) }) (useFree s)
  | _, _ => s

/-- Table 11.8: the trailer of the image under way is taken when the next step retires. -/
def mirrorTrailer (s : State) (x : CtxSt) (e : Entry) (r : StepRun) : CtxSt :=
  match x.capture, x.pat with
  | some m, some p =>
    if m.epoch + 1 != r.epoch then x
    else
      let c := lossCell s p
      { x with capture := none, image := some { m with lossSum := c.1, lossN := c.2.2, trailCount := r.contrib,
                                                       trailNmb := r.nmb, mbCrc := crc32c e.copy2 } }
  | _, _ => x

/-- R283, Table 11.8: once the settle of the image's epoch has ended, weights and moments are taken and the image is sent. -/
def imageGo (s : State) (n : Nat) : State :=
  let x := ctxOf s n
  match x.image, x.pat with
  | some m, some p =>
    if !(x.settle.isEmpty && m.areas.isEmpty) then s
    else
      let m1 := { m with areas := imageAreas s p x.active }
      sendImage (putCtx s n { x with image := some m1 }) n m1
  | _, _ => s

/-- R283: the image in progress is abandoned. -/
def dropImage (s : State) (n : Nat) : State := putCtx s n { ctxOf s n with capture := none, image := none }

/-- R270, R274: a step that does not commit writes its scale table and its measurement record, as one that commits does. -/
def leaveTables (s : State) (n : Nat) (r : StepRun) (status : Nat) : State :=
  match (ctxOf s n).pat with
  | some p => if r.committed || p.uplace != 1 then s else writeTables s n p r status
  | none => s

/-- R302: blocks that a port has accepted through an open window for the running step of a context, and that are not yet written. -/
def windowBlocks (s : State) (n : Nat) (r : StepRun) : Bool :=
  onCascade s n && s.inbox.any fun f => (f.ty == 3 || f.ty == 4) && match f.block with
    | some b => b.wgen == r.epoch % 2 ^ 16
    | none => false

/-- A running training step retires with a status (R252, R270, R281), once every block accepted through a window is written (R302): its
tables, retry entries, the record, the kept areas of R258. -/
def finishStep (s0 : State) (n status : Nat) : State :=
  let x := ctxOf s0 n
  match x.run with
  | none => s0
  | some r =>
    if windowBlocks s0 n r then putCtx s0 n { x with run := some { r with ending := some status } }
    else match entryOf s0 r.ring r.seq with
    | none => putCtx s0 n { x with run := none }
    | some e =>
      let s := leaveTables s0 n r status
      let s1 := writeRetries s e r
      let y := mirrorTrailer s1 (ctxOf s1 n) e r
      let s2 := freeKept (imageGo (putCtx s1 n { y with run := none, energy := 0 }) n) n
      retire (rsetf s2 (rFnCtx n) 2 1 0) e
        { status := status, epoch := r.epoch, count := r.total.getD r.contrib, energy := energyUnits x.energy }

/-- Rows of a list of requests. -/
def batchRows (l : List BatchReq) : Nat := (l.map (·.rows)).sum

/-- R256, R281: the requests of the running batch retire with a status; its energy is divided in proportion to rows. -/
def finishBatch (s : State) (n status : Nat) : State :=
  let x := ctxOf s n
  let rows := batchRows x.running
  let s1 := rsetf (putCtx s n { x with running := [], energy := 0 }) (rFnCtx n) 2 1 0
  x.running.foldl (fun s b => match entryOf s b.ring b.seq with
    | some e => retire s e { status := status, energy := energyUnits (x.energy * b.rows / rows) }
    | none => s) s1

/-- R79 step 5: the running command of a context retires with a status. -/
def endCommand (s : State) (n status : Nat) : State :=
  if (ctxOf s n).run.isSome then finishStep s n status
  else if (ctxOf s n).running.isEmpty then s else finishBatch s n status

/-- R321: a status of class 0x2, 0x6 or 0x8 halts the context. -/
def haltClass (status : Nat) : Bool := status / 4096 == 2 || status / 4096 == 6 || status / 4096 == 8

/-- R79, R321, R362: a fault of a context reaches the command processor. -/
def contextFault (s : State) (n status : Nat) : State :=
  let s1 := endCommand (sendHalts s n) n status
  if haltClass status then withdrawSteps (setCtxState (cancelJobs s1 n fun j => j.phase == .ready) n 3) n else s1

end Sys2Proof.Machine
end

