-- ==== Sys2Proof/Machine/Fit.lean ====
section
/-! DEFINITION. What the command processor reads and checks before it accepts `bind` and `load` (R326 to R332, R172, R179,
R234 to R237, R258, R259, R261, R262, R301). -/

namespace Sys2Proof.Machine

/-- The status of the first condition that holds. -/
def firstBad (l : List (Bool × Nat)) : Option Nat := (l.find? (·.1)).map (·.2)

/-- Are all bytes of a slice zero? -/
def zeroAt (l : List W8) (off n : Nat) : Bool := ((l.drop off).take n).all (· == 0)

/-- Do `n` bytes at an engine address lie wholly in LPDDR or wholly in host memory (Table 4.7)? -/
def inMem (s : State) (a n : Nat) : Bool :=
  (0x400000000000 ≤ a && a + n ≤ 0x800000000000) ||
  (a / 0x800000000 < 96 && a % 0x800000000 + n ≤ 0x780000000 &&
    (List.range 4).all fun c => chanState s (4 * (a / 0x800000000) + c) != 2 ||
      a % 0x800000000 + n ≤ c * 0x1E0000000 || (c + 1) * 0x1E0000000 ≤ a % 0x800000000)

/-! ## Binding (R326 to R328) -/

/-- Table 13.4: `k` range entries from an offset of the descriptor. -/
def parseRanges (d : List W8) (off k : Nat) : List RangeE :=
  (List.range k).map fun i => ⟨leAt d (off + 16 * i) 8, leAt d (off + 16 * i + 8) 4, leAt d (off + 16 * i + 12) 1⟩

/-- Table 13.3. -/
def parseBind (d : List W8) : Binding :=
  let nl := leAt d 2 2
  { quarters := bitList 256 (leAt d 8 32), cists := bitList 24 (leAt d 40 3), ports := bitList 64 (leAt d 48 8),
    cso := leAt d 7 1 == 1, lpr := parseRanges d 64 nl, hostr := parseRanges d (64 + 16 * nl) (leAt d 4 2) }

/-- Bytes of a resource descriptor with its range entries. -/
def bindSize (d : List W8) : Nat := 64 + 16 * (leAt d 2 2 + leAt d 4 2)

/-- Table 13.5, 0x1150: is the form right? -/
def bindForm (d : List W8) : Bool :=
  let b := parseBind d
  leAt d 0 1 == 1 && zeroAt d 1 1 && leAt d 2 2 ≤ 64 && leAt d 4 2 ≤ 64 && zeroAt d 6 1 && leAt d 7 1 ≤ 1 &&
  zeroAt d 43 5 && zeroAt d 56 8 && (b.lpr ++ b.hostr).all (fun r => r.base % 4096 == 0 && 1 ≤ r.pages) &&
  b.lpr.all (fun r => r.mark ≤ 4) && b.hostr.all (fun r => r.mark == 0) &&
  (List.range (leAt d 2 2 + leAt d 4 2)).all fun i => zeroAt d (64 + 16 * i + 13) 3

/-- The binding that the latest accepted and unretired `bind` of a context will establish. -/
def plannedBind (s : State) (n : Nat) : Option Binding :=
  match (s.accepted.filter fun e => e.op == 0xE0 && e.ctx == n).getLast? with
  | some e => if e.b == 0 then none else some (parseBind e.copy1)
  | none => (ctxOf s n).bind

/-- State the context will be in once its accepted `bind` and `load` entries have run (Table 13.1). -/
def plannedState (s : State) (n : Nat) : Nat :=
  match (s.accepted.filter fun e => (e.op == 0xE0 || e.op == 0xE1) && e.ctx == n).getLast? with
  | some e => if e.op == 0xE1 then 2 else if e.b == 0 then 0 else 1
  | none => ctxState s n

/-- R328: bindings of the other contexts: the present one and that of every accepted `bind` that has not retired. -/
def otherBinds (s : State) (n : Nat) : List Binding :=
  (ndel n (List.range 64)).flatMap fun m =>
    (match (ctxOf s m).bind with | some b => [b] | none => []) ++
    (s.accepted.filter fun e => e.op == 0xE0 && e.ctx == m && e.b != 0).map fun e => parseBind e.copy1

/-- R328, R359, R423: may a quarter be bound? -/
def quarterOk (s : State) (q : Nat) : Bool :=
  let t := tileOf s (q / 4)
  !t.fenced && !(t.badIdx.any fun i => i / 64 == q % 4) &&
  !(s.cores.any fun e => e.2.guest.isSome && e.1 / 64 == q)

/-- Do two ranges overlap? -/
def RangeE.meets (r x : RangeE) : Bool := r.base < x.base + x.pages * 4096 && x.base < r.base + r.pages * 4096

/-- Does a range meet a later one of its list? -/
def anyMeets : List RangeE → Bool
  | [] => false
  | r :: l => l.any (RangeE.meets r) || anyMeets l

/-- R328: refusal of a `bind`. -/
def bindRefusal (s : State) (n : Nat) (addr : W64) : Option Nat :=
  let a := addr.toNat
  let d0 := bytesAt s a 64
  let k := min (bindSize d0) 0x300000
  let d := bytesAt s a k
  let b := parseBind d
  let td := addr == 0
  let os := otherBinds s n
  let rs := b.lpr ++ b.hostr
  firstBad [
    (!td && !(inMem s a 64 && inMem s a k), 0x1154),
    (63 < n || (!td && !(bindForm d)), 0x1150),
    (!td && (b.quarters.any (fun q => !(quarterOk s q) || os.any fun o => o.quarters.contains q) ||
      b.cists.any (fun j => cistBad s j || os.any fun o => o.cists.contains j) ||
      b.ports.any (fun p => rfld s (rAK p 0) 0 2 == 3 || os.any fun o => o.ports.contains p) ||
      (b.cso && os.any fun o => o.cso)), 0x1151),
    (!td && (b.lpr.any (fun r => !(0x800000000 * 96 > r.base && inMem s r.base (r.pages * 4096)) ||
        r.chans.any fun c => chanState s c != 0) ||
      b.hostr.any (fun r => !(0x400000000000 ≤ r.base && inMem s r.base (r.pages * 4096))) ||
      anyMeets rs || rs.any fun r => os.any fun o => (o.lpr ++ o.hostr).any r.meets), 0x1152),
    ((rfld s (rFnStat 0) 0 2 != 0 && s.casc.ctx == n) || rfld s (rFnStat (128 + n)) 0 2 != 0, 0x1153)]

/-! ## The pattern image (R331) -/

/-- Offset and length of section `i` of a header. -/
def secOf (h : List W8) (i : Nat) : Nat × Nat := (leAt h (64 + 8 * i) 4, leAt h (68 + 8 * i) 4)

/-- The used sections. -/
def secsOf (h : List W8) : List (Nat × Nat) := ((List.range 8).map (secOf h)).filter fun e => e.2 != 0

/-- R331: length of an image. -/
def imageLen (h : List W8) : Nat := (secsOf h).foldl (fun m e => max m (e.1 + e.2)) 128

/-- Bytes of a section. -/
def sectionAt (img : List W8) (i : Nat) : List W8 := let e := secOf img i; (img.drop e.1).take e.2

/-- Do two byte ranges of a list overlap? -/
def spansMeet : List (Nat × Nat) → Bool
  | [] => false
  | a :: l => l.any (fun b => a.1 < b.1 + b.2 && b.1 < a.1 + a.2) || spansMeet l

/-- Table 13.6: is the arbitration byte defined? -/
def arbOk (a : Nat) : Bool :=
  !(bitAt a 7) && (if bitAt a 0 then
    [0, 1, 2].all fun x => [1, 3, 5].any fun p => bitsAt a p 2 == x
  else bitsAt a 1 6 == 0)

/-- What the context keeps of an image. -/
def patternOf (addr : Nat) (img measure : List W8) : Pattern :=
  let u := sectionAt img 5
  { addr := addr, uplace := leAt img 1 1, dctl := leAt img 2 1, wcache := leAt img 3 1, wlim := leAt img 4 1,
    arb := leAt img 5 1, ncore := leAt img 6 2, seed := BitVec.ofNat 64 (leAt img 8 8),
    amask := [leAt img 16 2, leAt img 18 2, leAt img 20 2], cwin := [leAt img 24 1, leAt img 25 1, leAt img 26 1, leAt img 27 1],
    nso := leAt img 28 4, step := sectionAt img 4, lmap := sectionAt img 3, sched := sectionAt img 7, upd := u,
    parts := (img.drop (leAt u 44 4)).take (64 * leAt u 40 4), casc := sectionAt img 6, measure := measure }

/-- Table 13.7, 0x1158: header and sections. -/
def headerOk (h : List W8) : Bool :=
  (List.range 8).all (fun i => let e := secOf h i; e.1 % 64 == 0 && (e.2 != 0 || e.1 == 0)) && !(spansMeet (secsOf h)) &&
  leAt h 0 1 == 1 && leAt h 1 1 ≤ 1 && leAt h 2 1 ≤ 1 && leAt h 3 1 ≤ 4 && 16 ≤ leAt h 4 1 && leAt h 4 1 ≤ 40 &&
  arbOk (leAt h 5 1) && zeroAt h 22 2 && zeroAt h 32 32

/-- R59: ownership masks disjoint and no pair split. -/
def masksOk (m : List Nat) : Bool :=
  (List.range 16).all (fun k => (m.filter fun x => bitAt x k).length ≤ 1) &&
  (List.range 8).all fun k => [(0, 1), (0, 2), (1, 2)].all fun ij =>
    let a := m[ij.1]?.getD 0
    let b := m[ij.2]?.getD 0
    !(bitAt a (2 * k) && bitAt b (2 * k + 1)) && !(bitAt b (2 * k) && bitAt a (2 * k + 1))

/-! ### Task table (R179, Table 7.3): 12 entries for each core index, slot by slot, pair by pair (log 18) -/

/-- A task table entry of logical core `l`: the pair it binds, none where it breaks R92 or R179. -/
def taskPair (b : Binding) (l k : Nat) (e : List W8) : Option BPair :=
  let kind := leAt e 0 1
  let idx := leAt e 1 1
  let perm := leAt e 2 1
  let off := leAt e 8 8
  let len := leAt e 16 8
  let rw (x : Bool) (base : Nat) : BPair :=
    { base := BitVec.ofNat 64 (base + off), len := BitVec.ofNat 64 len, r := bitAt perm 0, w := bitAt perm 1,
      x := x && bitAt perm 2 && k == 0 }
  let range (l : List RangeE) : Option BPair := match l[idx]? with
    | some r => if off + len ≤ r.pages * 4096 then some (rw true r.base) else none
    | none => none
  if 7 < perm || !(zeroAt e 3 5) then none
  else match kind with
    | 0 => if idx == 0 && off + len ≤ 0x400000 then some (rw true (wellBase l)) else none
    | 1 => range b.lpr
    | 2 => range b.hostr
    | 3 => if idx == 0 && off == 0 && len == 0 && perm == 0 then some {} else none
    | _ => none

/-- The four pairs of slot `i` of the core with index `c`. -/
def taskPairs (b : Binding) (task : List W8) (c l i : Nat) : List (Option BPair) :=
  let row := (task.drop (24 * (12 * c + 4 * i))).take 96
  (List.range 4).map fun k => taskPair b l k ((row.drop (24 * k)).take 24)

/-- The same as a vector, once checked. -/
def taskVec (b : Binding) (task : List W8) (c l i : Nat) : Vector BPair 4 :=
  let p := taskPairs b task c l i
  Vector.ofFn fun k : Fin 4 => (p[k.val]?.getD none).getD {}

/-- R179: is the whole table right? -/
def taskOk (b : Binding) (task : List W8) : Bool :=
  288 * b.cores.length ≤ task.length &&
  (b.cores.zipIdx).all fun e => [0, 1, 2].all fun i => (taskPairs b task e.2 e.1 i).all Option.isSome

/-! ### Ring table (R172, Table 7.1): for each core index a 16-byte head with the count, then its descriptors (log 18) -/

/-- Table 7.1. -/
def ringOf (e : List W8) : Nat × RingSt :=
  (leAt e 12 1, { base := leAt e 0 4, size := leAt e 4 4, count := leAt e 8 2, fill := leAt e 10 1, drain := leAt e 11 1 })

/-- R172: is a descriptor right, inside the scratchpad? -/
def ringOk (scr : Nat) (e : List W8) : Bool :=
  let r := (ringOf e).2
  r.base % 64 == 0 && r.size % 64 == 0 && 64 ≤ r.size && r.size ≤ 0x100000 && 1 ≤ r.count && r.count ≤ 4096 &&
  r.fill ≤ 3 && r.drain ≤ 3 && leAt e 12 1 < 64 && zeroAt e 13 3 && r.base + r.size * r.count ≤ scr &&
  !(r.fill == r.drain && r.fill != 3)

/-- Rings of the remaining cores, none where the table breaks R172. -/
def parseRings (scr : Nat) : List Nat → List W8 → Option (FMap (FMap RingSt))
  | [], _ => some []
  | l :: ls, t =>
    let k := leAt t 0 4
    let ds := chunks 16 ((t.drop 16).take (16 * k))
    if t.length < 16 || 64 < k || !(zeroAt t 4 12) || t.length < 16 + 16 * k || !(ds.all (ringOk scr)) ||
      spansMeet (ds.map fun d => ((ringOf d).2.base, (ringOf d).2.size * (ringOf d).2.count)) ||
      !((ds.map fun d => (ringOf d).1).Nodup) then none
    else match parseRings scr ls (t.drop (16 + 16 * k)) with
      | none => none
      | some m => some ((l, ds.foldl (fun m d => fset (ringOf d).1 (ringOf d).2 m) []) :: m)

/-! ### Step section (R234 to R237) -/

/-- R236: logical cores of a power region, by quarter. -/
def regionQuarters (r : Nat) : List Nat :=
  [0, 1, 8, 9].flatMap fun k => span (4 * (16 * (r / 4) + 2 * (r % 4) + k)) 4

/-- R235: is a residency entry right? -/
def planOk (p : Pattern) (l : Nat) : Bool :=
  let wf := p.plan l 0
  let ff := p.plan l 1
  let bf := p.plan l 2
  let fl := p.plan l 3
  8 ≤ wf && wf ≤ 0xD && (ff == wf || ff == 6 || ff == 0 || ff == 1) && (bf == 6 || bf == 0 || bf == 1) && fl < 8 &&
  p.plan l 6 == 0 && p.plan l 7 == 0 && (fl % 4 == 0 || ff == bf)

/-- Table 10.3. -/
def stepRefusal (b : Binding) (p : Pattern) : Option Nat :=
  let st := p.step
  let mbmax := leAt st 4 2
  let tok := leAt st 8 4
  let bmax := leAt st 16 2
  let brel := leAt st 18 2
  let bwin := leAt st 20 4
  let outsz := leAt st 24 4
  if leAt st 0 1 == 0 then
    firstBad [
      (!(zeroAt st 1 1) || !(zeroAt st 6 2) || !(zeroAt st 12 52) || !(1 ≤ p.nlayer && p.nlayer ≤ 4096) ||
        !(1 ≤ mbmax && mbmax ≤ 1024) || !(1 ≤ tok && tok ≤ 65536), 0x1120),
      (2 ^ 20 < mbmax * tok, 0x1121),
      (!(p.layers.all (planOk p)), 0x1122),
      (!((List.range mbmax).all fun i => p.home i != 0 &&
        (bitList 16 (p.home i)).all fun r => (regionQuarters r).all b.quarters.contains), 0x1123),
      (!(p.layers.all fun l => match b.lpr[p.gidx l]? with
        | some r => p.gacc l == (r.mark == 1 || r.mark == 2)
        | none => false), 0x1124)]
  else
    firstBad [
      (leAt st 0 1 != 1 || !(zeroAt st 1 5) || !(zeroAt st 28 36) ||
        !(1 ≤ leAt st 6 2 && leAt st 6 2 ≤ 1024) || !(1 ≤ tok) || !(1 ≤ leAt st 12 4 && leAt st 12 4 ≤ 2 ^ 20) ||
        !(4 ≤ bmax && bmax ≤ 256) || !(bwin == 0 || (1000 ≤ bwin && bwin ≤ 1000000)) ||
        !(64 ≤ outsz && outsz ≤ 4096 && outsz % 64 == 0), 0x1120),
      (bmax < tok || bmax < brel, 0x1125)]

/-! ### Layer map and stream schedule (R258, R259) -/

/-- Entry `i` of the schedule. -/
def Pattern.schedE (p : Pattern) (i : Nat) : List W8 := (p.sched.drop (16 + 64 * i)).take 64

/-- Entries of the schedule. -/
def Pattern.scheds (p : Pattern) : List (List W8) := (List.range (leAt p.sched 0 4)).map p.schedE

/-- R182: the logical core that a router position serves. -/
def routerCore (x y : Nat) : Nat := (y / 16 * 8 + x / 16) * 256 + y % 16 * 16 + x % 16

/-- Table 8.4: logical cores of a rectangle word. -/
def rectCores (d : Nat) : List Nat :=
  let x0 := bitsAt d 0 7
  let y0 := bitsAt d 8 7
  (span y0 (bitsAt d 24 7 + 1 - y0)).flatMap fun y => (span x0 (bitsAt d 16 7 + 1 - x0)).map fun x => routerCore x y

/-- Logical cores that a schedule entry reaches. -/
def schedCores (b : Binding) (e : List W8) : List Nat :=
  if leAt e 4 1 == 1 then (match b.cores[leAt e 28 4]? with | some l => [l] | none => []) else rectCores (leAt e 28 4)

/-- Cores that the streams of a layer reach. -/
def layerCores (b : Binding) (p : Pattern) (l : Nat) : List Nat :=
  ((p.scheds.filter fun e => leAt e 0 2 == l).flatMap (schedCores b)).eraseDups

/-- R258: is the layer map right? -/
def lmapOk (b : Binding) (p : Pattern) (rings : FMap (FMap RingSt)) : Bool :=
  16 + 16 * p.nlayer ≤ p.lmap.length && leAt p.lmap 0 2 == p.nlayer && zeroAt p.lmap 2 14 &&
  p.layers.all fun l =>
    let f := p.fring l
    let g := p.bring l
    let kb := leAt p.lmap (16 * l + 4) 4
    zeroAt p.lmap (16 * l + 2) 2 && zeroAt p.lmap (16 * l + 8) 8 && ((g == 0xFF) == p.keep l) &&
    (layerCores b p l).all fun c =>
      let decl (k : Nat) : Bool := match fget? k (fget [] c rings) with
        | some r => r.fill == 3 && r.drain != 3
        | none => false
      decl f && (g == 0xFF || decl g) && (if p.keep l then
        (match fget? f (fget [] c rings) with | some r => kb ≤ r.count * r.size | none => false) else kb == 0)

/-- R259: is a schedule entry right? -/
def schedOk (s : State) (b : Binding) (p : Pattern) (e : List W8) : Bool :=
  let l := leAt e 0 2
  let pass := leAt e 2 1
  let res := p.plan l (1 + pass)
  let srcOk (a : Nat) : Bool := (match b.lpRange? a with
    | some r => (a - r.base) % 4160 == 0 && r.covers a (4160 * leAt e 24 4)
    | none => false) && cistOfChan (chanOf a) == leAt e 3 1 && inMem s a 1
  pass ≤ 1 && 1 ≤ l && l ≤ p.nlayer && leAt e 3 1 < 24 && (leAt e 4 1 == 1 || leAt e 4 1 == 2) && leAt e 5 1 < 8 &&
  zeroAt e 6 2 && zeroAt e 40 24 && 1 ≤ leAt e 24 4 && srcOk (leAt e 8 8) && srcOk (leAt e 16 8) &&
  (if leAt e 4 1 == 1 then leAt e 28 4 < 2 ^ 14 && leAt e 28 4 < b.cores.length
   else bitsAt (leAt e 28 4) 7 1 == 0 && bitsAt (leAt e 28 4) 15 1 == 0 && bitsAt (leAt e 28 4) 23 1 == 0 &&
     bitsAt (leAt e 28 4) 31 1 == 0 && bitsAt (leAt e 28 4) 0 7 ≤ bitsAt (leAt e 28 4) 16 7 &&
     bitsAt (leAt e 28 4) 8 7 ≤ bitsAt (leAt e 28 4) 24 7 && (rectCores (leAt e 28 4)).all b.cores.contains) &&
  (bitAt (leAt e 5 1) 1 == (res != p.plan l 0)) && (!(bitAt (leAt e 5 1) 2) || leAt e 36 4 % 32 == 0)

/-- R259: is the schedule right? -/
def schedsOk (s : State) (b : Binding) (p : Pattern) : Bool :=
  zeroAt p.sched 4 12 && 16 + 64 * leAt p.sched 0 4 ≤ p.sched.length && p.scheds.all (schedOk s b p) &&
  p.layers.all fun l =>
    let has (pass : Nat) : Bool := p.scheds.any fun e => leAt e 0 2 == l && leAt e 2 1 == pass
    has 0 && has 1 == !(p.keep l)

/-! ### Update section (R261, R262) -/

/-- FP32 word finite? -/
def finiteW (v : Nat) : Bool := v / 2 ^ 23 % 256 != 255

/-- R262: the parts of a layer cover its elements from 0 upward. -/
def partsRun : Nat → List (List W8) → Bool
  | _, [] => true
  | n, e :: r => leAt e 4 4 == n && leAt e 8 4 != 0 && (r.isEmpty || leAt e 8 4 % 31744 == 0) && partsRun (n + leAt e 8 4) r

/-- R262: is a part right? -/
def partOk (b : Binding) (p : Pattern) (e : List W8) : Bool :=
  let wb := 4160 * ceilDiv (leAt e 8 4) 3968
  let gb := 4160 * ceilDiv (leAt e 8 4) 1024
  let cist := cistOfChan (chanOf (leAt e 16 8))
  let area (a n : Nat) : Bool := (match b.lpRange? a with
    | some r => (a - r.base) % 4160 == 0
    | none => true) && cistOfChan (chanOf a) == cist && cistOfChan (chanOf (a + n - 1)) == cist
  area (leAt e 16 8) wb && area (leAt e 24 8) wb && area (leAt e 32 8) wb &&
  (leAt p.upd 0 1 == 1 || area (leAt e 40 8) wb) && area (leAt e 48 8) gb &&
  (match b.lpr[p.gidx (leAt e 0 2)]? with | some r => r.covers (leAt e 48 8) gb | none => false)

/-- Table 11.2: are a part's fields in their ranges, and its reserved ones zero? -/
def partFields (p : Pattern) (e : List W8) : Bool :=
  1 ≤ leAt e 0 2 && leAt e 0 2 ≤ p.nlayer && zeroAt e 2 2 && zeroAt e 12 4 && zeroAt e 56 8 && (leAt p.upd 0 1 == 0 || leAt e 40 8 == 0)

/-- Table 11.3, 0x1132: do a part's areas lie in ranges of the context, at multiples of 64? -/
def partInside (b : Binding) (p : Pattern) (e : List W8) : Bool :=
  let wb := 4160 * ceilDiv (leAt e 8 4) 3968
  let area (a n : Nat) : Bool := a % 64 == 0 && (match b.lpRange? a with | some r => r.covers a n | none => false)
  area (leAt e 16 8) wb && area (leAt e 24 8) wb && area (leAt e 32 8) wb &&
  (leAt p.upd 0 1 == 1 || area (leAt e 40 8) wb) && area (leAt e 48 8) (4160 * ceilDiv (leAt e 8 4) 1024)

/-- Table 11.3. -/
def updRefusal (b : Binding) (p : Pattern) (imgLen : Nat) : Option Nat :=
  let u := p.upd
  let gov := leAt u 1 1
  let np := leAt u 40 4
  let at64 (a n : Nat) : Bool := a % 64 == 0 && b.inRange a n
  let taps := leAt u 13 1
  if p.uplace == 0 then (if u.isEmpty then none else some 0x1130)
  else firstBad [
    (u.length < 64 || 1 < leAt u 0 1 || 7 < gov || !(1 ≤ leAt u 2 1 && leAt u 2 1 ≤ 16) || 7 < leAt u 3 1 ||
      !(if bitAt gov 1 then finiteW (leAt u 4 4) && leAt u 4 4 < 2 ^ 31 && leAt u 4 4 != 0 else leAt u 4 4 == 0) ||
      !(0x3F800000 ≤ leAt u 8 4 && leAt u 8 4 < 0x7F800000) || 15 < leAt u 12 1 || 15 < taps || taps % 2 == 0 ||
      !(zeroAt u 14 2) || !(1 ≤ np && np ≤ 1048576) || leAt u 44 4 % 64 != 0 || imgLen < leAt u 44 4 + 64 * np ||
      (taps == 1 && leAt u 48 8 != 0) || !((List.range np).all fun i => partFields p (p.part i)), 0x1130),
    (!(p.layers.all fun l => !(p.layerParts l).isEmpty && partsRun 0 (p.layerParts l)) ||
      !((List.range np).all fun i => partOk b p (p.part i)), 0x1131),
    (!(at64 (leAt u 16 8) 64) || !(at64 (leAt u 24 8) (4 * p.nlayer)) || !(at64 (leAt u 32 8) 16) ||
      !(at64 (leAt u 56 8) (32 + 16 * p.nlayer * popCount 4 taps)) ||
      !((List.range np).all fun i => partInside b p (p.part i)) ||
      !(taps == 1 || (at64 (leAt u 48 8) (4160 * 3 * p.nlayer) &&
        (match b.lpRange? (leAt u 48 8) with | some r => r.mark == 3 | none => false))), 0x1132)]

/-! ### Cascade section (R301) and the whole check (R332) -/

/-- R301: is the cascade section right? -/
def cascOk (b : Binding) (l : List W8) : Bool :=
  let es := chunks 8 l
  l.length % 8 == 0 && es.length ≤ 63 && ((es.map fun e => leAt e 0 1).Nodup) && es.all fun e =>
    1 ≤ leAt e 0 1 && leAt e 0 1 ≤ 63 && leAt e 1 1 ≤ 1 && leAt e 3 1 ≤ 1 && zeroAt e 4 4 &&
    (if leAt e 1 1 == 0 then leAt e 2 1 < 64 else leAt e 3 1 == 0 && leAt e 2 1 < b.lpr.length)

/-- R109, R298, R332: does the code use cascade objects: a word of `sow`, `sos` or `sord` with mod[0] = 1 (DEDUCED, log 60)? -/
def usesCascade (code : List W8) : Bool :=
  (List.range (code.length / 8)).any fun i =>
    let w := leAt code (8 * i) 8
    0x42 ≤ wordOp w && wordOp w ≤ 0x44 && (wordFields w).mod.getLsbD 0

/-- R332: refusal of a `load` of the image at an address. -/
def fitRefusal (s : State) (b : Binding) (addr : Nat) : Option Nat :=
  let h := bytesAt s addr 128
  let n := imageLen h
  if addr % 64 != 0 || !(b.inRange addr 128) || !(inMem s addr 128) || !(b.inRange addr n) || !(headerOk h) then some 0x1158
  else
    let img := bytesAt s addr n
    let p := patternOf addr img []
    let rings := parseRings (0x400000 - p.wcache * 0x40000) b.cores (sectionAt img 2)
    let rs := rings.getD []
    firstBad [
      (p.ncore * 64 != b.cores.length || (p.uplace == 0 && 16 < (b.quarters.map (· / 4)).eraseDups.length) ||
        (p.uplace == 1 && b.cists.isEmpty), 0x1159),
      (!(masksOk p.amask), 0x115A),
      (!(taskOk b (sectionAt img 1)), 0x115B),
      (rings.isNone, 0x115C),
      (b.soCount < p.nso || (usesCascade (sectionAt img 0) && !b.cso), 0x115D),
      (!(p.cwin.all fun w => w == 0xFF || match b.lpr[w]? with | some r => r.mark == 0 | none => false), 0x115E)]
    |>.orElse fun _ => stepRefusal b p
    |>.orElse fun _ => if p.training then
        firstBad [(!(lmapOk b p rs), 0x1126), (!(schedsOk s b p), 0x1127)]
      else firstBad [(!p.lmap.isEmpty, 0x1126), (!p.sched.isEmpty, 0x1127)]
    |>.orElse fun _ => if p.training then updRefusal b p n else if p.upd.isEmpty then none else some 0x1130
    |>.orElse fun _ => firstBad [(!(cascOk b p.casc), 0x115F)]

end Sys2Proof.Machine
end

