-- ==== Sys2Proof/Machine/Contexts.lean ====
section
/-! DEFINITION. Binding, loading, draining and starting contexts (R320 to R330, R41, R179, R180, R242 to R246, R354, R459). -/

namespace Sys2Proof.Machine

/-! ## Order of entries (R115, R320, R333) -/

/-- R115: does an earlier `sync` wait of the same ring hold an entry back? -/
def syncHeld (s : State) (e : Entry) : Bool :=
  s.accepted.any fun x => x.ring == e.ring && x.seq < e.seq && x.op == 0xE4 && x.mod % 2 == 0

/-- Entries accepted before `e`. -/
def acceptedBefore (s : State) (e : Entry) : List Entry :=
  s.accepted.takeWhile fun x => !(x.ring == e.ring && x.seq == e.seq)

/-- R320: earlier-accepted entries of the same context, of the kinds that run in order. -/
def ctxBefore (s : State) (e : Entry) : List Entry :=
  (acceptedBefore s e).filter fun x => x.ctx == e.ctx && 0xE0 ≤ x.op && x.op ≤ 0xE2

/-- The entry `(ring, seq)` when it is queued, of the right kind, and may begin. -/
def mayBegin (s : State) (ring seq op : Nat) : Option Entry :=
  match entryOf s ring seq with
  | some e => if e.op == op && e.phase == .queued && !(syncHeld s e) then some e else none
  | none => none

/-- The same for a command of a context: the memory map is ON and earlier entries of the context have retired. -/
def mayBeginCtx (s : State) (ring seq op : Nat) : Option Entry :=
  match mayBegin s ring seq op with
  | some e => if (ctxBefore s e).isEmpty && rfld s (rFnStat 1) 0 2 == 2 then some e else none
  | none => none

/-! ## Generations and drains (R322, R323, R325) -/

/-- R322: the next generation. -/
def nextGen (g : Nat) : Nat := if 0xFFFF ≤ g then 1 else g + 1

/-- The stamp an item on its way carries. -/
def Msg.stamp : Msg → Option Stamp
  | .faultReport _ _ st => some st
  | .halt _ st => some st
  | .mem _ (.load _ _ st) => some st
  | .mem _ (.store _ _ st) => some st
  | .mem _ (.block d _) => some d.st
  | .amo _ _ _ _ _ st => some st
  | .signal _ _ _ st => some st
  | .vouch _ _ _ st => some st
  | .confirm _ _ _ st => some st
  | .retract _ _ _ st => some st
  | .block d _ => some d.st
  | .resend _ _ _ st => some st
  | _ => none

/-- R325, R354: does an item of the context that `old` selects by generation remain in the module? -/
def itemsLeft (s : State) (n : Nat) (old : Nat → Bool) : Bool :=
  (s.out.any fun m => match m.stamp with | some st => st.ctx == n && old st.gen | none => false) ||
  ((pumpUnits s).any fun u => (jobsOf s u).any fun j => j.st.ctx == n && old j.st.gen) ||
  s.tiles.any fun e => e.2.fwd.any fun w => w.remote.isNone && w.st.ctx == n && old w.st.gen

/-- R323, R325: work that the update engines of the context still hold for it: layers to settle and areas to zero-fill. -/
def engineItems (s : State) (n : Nat) : Bool := !(ctxOf s n).settle.isEmpty || !(ctxOf s n).zeroing.isEmpty

/-! ## Wells and objects of a binding (R180, R327) -/

/-- R180: the well of a logical core and its marks are scrubbed. -/
def scrubWell (s : State) (l : Nat) : State :=
  { s with mem := s.mem.filter fun e => !(ownWell l e.1),
           wellPoison := s.wellPoison.filter fun k => k / 131072 != l }

/-- R327: an object takes a stamp; it holds 0 and its waits are dropped. -/
def stampSo (s : State) (st : Stamp) (i : Nat) : State := { s with sos := fset i ⟨0, st, []⟩ s.sos }

/-- Physical objects of a binding. -/
def Binding.objects (b : Binding) : List Nat := b.quarters.flatMap fun q => span (q / 4 * 1024 + q % 4 * 256) 256

/-- R323, R327: the objects of a binding take a stamp; bound cascade objects hold 0 again. -/
def stampObjects (s : State) (b : Binding) (st : Stamp) : State :=
  let s1 := b.objects.foldl (fun s i => stampSo s st i) s
  if b.cso then { s1 with csos := s1.csos.map fun e => (e.1, { e.2 with v := 0, st := st, waits := [] }) } else s1

/-- R82, R286: the update engines of a binding show its context or none. -/
def showEngines (s : State) (b : Binding) (n : Option Nat) : State :=
  b.cists.foldl (fun s j => match n with
    | some k => rsetf (rsetf s (rCS j 0x400) 5 6 k) (rCS j 0x400) 11 1 1
    | none => rsetf s (rCS j 0x400) 5 7 0) s

/-- R82: the probation of cores that failed in the binding of a context ends with it. -/
def endProbation (s : State) (n : Nat) : State :=
  s.tiles.foldl (fun s e =>
    let x := tileOf s e.1
    (x.probation.filter fun q => q.2 == n).foldl (fun s q => rsetf s (rPcore e.1 q.1) 12 1 0)
      (putTile s e.1 { x with probation := x.probation.filter fun q => q.2 != n })) s

/-! ## Teardown (R329 step 2) -/

/-- R329: every slot of the context halts and its unretired stitches are discarded. -/
def haltSlots (s : State) (n : Nat) (replay : Bool) : State :=
  (ctxCores s n).foldl (fun s l =>
    let s1 := discardCore s l replay
    let c := coreOf s1 l
    putCore s1 l { c with slots := c.slots.map fun x => if x.bound then { x with phase := .halted, wait := none } else x }) s

/-- R329, R364: queued and running descriptors stop; stalls of the context end. -/
def stopJobs (s : State) (n : Nat) : State := cancelJobs s n fun _ => true

/-! ## `bind` (R329) -/

/-- Tiles of a context's quarters. -/
def Binding.tiles (b : Binding) : List Nat := (b.quarters.map (· / 4)).eraseDups

/-- Tiles of a context. -/
def ctxTiles (s : State) (n : Nat) : List Nat := match (ctxOf s n).bind with | some b => b.tiles | none => []

/-- R408: tiles that are not fenced return to active. -/
def wakeTiles (s : State) (ts : List Nat) : State :=
  ts.foldl (fun s t => if (tileOf s t).fenced then s else activate s t) s

/-- WH_HEALTH1.guests. -/
def countGuests (s : State) : State :=
  rsetf s 0x8008 9 15 ((s.cores.filter fun e => e.2.guest.isSome).map (·.1)).length

/-- R329 steps 4 and 5: released resources lose their stamps, the new ones take them, tiles are powered (R408), wells are
scrubbed. -/
def finishBind (s : State) (e : Entry) : State :=
  let n := e.ctx
  let st := ctxStamp s n
  let s1 := match (ctxOf s n).bind with
    | some b =>
      let s1 := b.cores.foldl (fun s l =>
        let s1 := dropInjection s (tileOfCore l) (pcoreOf s l)
        { s1 with cores := ferase l s1.cores }) s
      let s1 := countGuests { s1 with boot := { s1.boot with guests := ndelAll b.cores s1.boot.guests } }
      showEngines (stampObjects (endProbation s1 n) b ⟨0, 0⟩) b none
    | none => s
  let s2 := match e.b == 0 with
    | true => setCtxState (putCtx s1 n {}) n 0
    | false =>
      let b := parseBind e.copy1
      let s2 := b.cores.foldl (fun s l => putCore (scrubWell s l) l { st := st, t0 := s.now }) (putCtx s1 n { bind := some b, held := st.gen })
      setCtxState (showEngines (stampObjects (wakeTiles s2 b.tiles) b st) b (some n)) n 1
  retire (rsetf s2 (rFnCtx n) 2 1 0) e {}

/-- R329 steps 1 and 2; the rest follows at once or after the drain of step 3. -/
def startBind (s : State) (e : Entry) : State :=
  let n := e.ctx
  let old := ctxGen s n
  let s1 := rsetf (rsetf s (rFnCtx n) 16 16 (nextGen old)) (rFnCtx n) 2 1 1
  let s2 := stopJobs (haltSlots s1 n false) n
  if itemsLeft s2 n (· != ctxGen s2 n) || engineItems s2 n then
    putEntry (putCtx s2 n { ctxOf s2 n with drain := some (e.ring, e.seq) }) { e with phase := .draining }
  else finishBind s2 e

/-! ## `load` (R330) -/

/-- R41, R91, R94, R179: a stream slot of a loaded pattern; a program is bound to it when its b0 grants execution (log 18). Its fault
registers read 0 again, since Table 4.3 keeps them until the next bind, read as the next `load` too (DEDUCED, log 59). -/
def loadSlot (p : Pattern) (b : Vector BPair 4) (i : Nat) : SlotSt :=
  { bound := b[0].x && b[0].len != 0, arch := { b := b }, retired := { b := b }, bbind := b,
    amask := BitVec.ofNat 16 (p.amask[i]?.getD 0), wlim := BitVec.ofNat 64 (2 ^ p.wlim) }

/-- R41, R172, R179: a logical core of a loaded pattern. Its slots are set anew: stitch numbers begin at 0, and c.fstat, c.fpc and
c.fseq are clear, as "bind" of R62 and of R94 is read to take in the load that binds a program to the slot; c.tick counts on from
the `bind` (DEDUCED, log 59). -/
def loadCore (s : State) (b : Binding) (p : Pattern) (task : List W8) (rings : FMap (FMap RingSt)) (st : Stamp)
    (k l : Nat) : CoreSt :=
  { st := st, key := mix (p.seed + BitVec.ofNat 64 l), t0 := (coreOf s l).t0, wcache := p.wcache,
    guest := (coreOf s l).guest, out := (coreOf s l).out,
    slots := Vector.ofFn fun i : Fin 3 => loadSlot p (taskVec b task k l i.val) i.val,
    rings := fget [] l rings }

/-- R330 step 3: the pattern's code in a well, from offset 0 of each b0 that grants execution there, where R459 starts the
slot, and as far as that pair reaches (log 18). -/
def writeCode (s : State) (code : List W8) (l : Nat) (c : CoreSt) : State :=
  let at1 (b : BPair) : Bool := b.x && wellBase l ≤ b.base.toNat && b.base.toNat < wellBase l + 0x400000
  let put (m : List Host.Cell) (x : SlotSt) : List Host.Cell :=
    if at1 x.bbind[0] then cellSets memDefault (atAddr x.bbind[0].base.toNat (code.take x.bbind[0].len.toNat)) m else m
  { s with mem := c.slots.toList.foldl put s.mem }

/-- The wells and cores of a context as a load of the image at `addr` leaves them (R330 steps 2 and 3, R348). -/
def placePattern (s : State) (b : Binding) (p : Pattern) (st : Stamp) (ls : List Nat) : State :=
  let img := bytesAt s p.addr (imageLen (bytesAt s p.addr 128))
  let rings := (parseRings (0x400000 - p.wcache * 0x40000) b.cores (sectionAt img 2)).getD []
  let code := sectionAt img 0
  let task := sectionAt img 1
  (b.cores.zipIdx).foldl (fun s e => if ls.contains e.1 then
      let c := loadCore s b p task rings st e.2 e.1
      putCore (writeCode (scrubWell s e.1) code e.1 c) e.1 c
    else s) s

/-- Wells of a context rebuilt from its image for the given cores (R348, R354); where the image has changed, later steps
retire with 0x7503; without a pattern they are scrubbed. -/
def rebuild (s : State) (n : Nat) (ls : List Nat) : State :=
  match (ctxOf s n).bind, (ctxOf s n).pat with
  | some b, some p =>
    let s1 := placePattern s b p (heldStamp s n) ls
    if Config.shake256 (bytesAt s p.addr (imageLen (bytesAt s p.addr 128))) == p.measure then s1
    else putCtx s1 n { ctxOf s1 n with dead := some 0x7503 }
  | some _, none => ls.foldl scrubWell s
  | none, _ => s

/-- R354 step 4: guest wells, and wells that a fault has replaced, are rebuilt. -/
def rebuildLost (s : State) (n : Nat) : State :=
  let guests := (ctxCores s n).filter fun l => match (coreOf s l).guest with | some g => g.2 | none => false
  let x := ctxOf s n
  rebuild (putCtx s n { x with lostWells := [] }) n (ninsAll x.lostWells guests)

/-- R330 steps 2 to 5. -/
def finishLoad (s : State) (e : Entry) : State :=
  let n := e.ctx
  match (ctxOf s n).bind with
  | none => retire s e {}
  | some b =>
    let addr := e.b.toNat
    let img := bytesAt s addr (imageLen (bytesAt s addr 128))
    let p := patternOf addr img (Config.shake256 img)
    let s1 := stampObjects (placePattern s b p (ctxStamp s n) b.cores) b (ctxStamp s n)
    let later := (s1.accepted.filter fun x => x.op == 0xE2 && x.ctx == n).foldl (fun m x => max m x.epoch) 0
    let lost := (ctxOf s n).capLost
    let x : CtxSt := { bind := some b, held := ctxGen s1 n, pat := some p, epoch := later, capLost := lost }
    let s2 := setCtxState (putCtx s1 n { x with dead := if lost then some 0x7502 else none }) n 2
    retire (rsetf s2 (rFnCtx n) 2 1 0) e {}

/-- R330 step 1; the rest follows at once or after the drain. -/
def startLoad (s : State) (e : Entry) : State :=
  let n := e.ctx
  let s1 := rsetf (rsetf s (rFnCtx n) 16 16 (nextGen (ctxGen s n))) (rFnCtx n) 2 1 1
  if itemsLeft s1 n (· != ctxGen s1 n) || engineItems s1 n then
    putEntry (putCtx s1 n { ctxOf s1 n with drain := some (e.ring, e.seq) }) { e with phase := .draining }
  else finishLoad s1 e

/-! ## Steps -/

/-- R171, R459: every bound slot of a context starts afresh. -/
def startCores (s : State) (n : Nat) (epoch mb : W64) (fresh : Bool) : State :=
  (ctxCores s n).foldl (fun s l => putCore s l (startCore (coreOf s l) epoch mb fresh)) (wakeTiles s (ctxTiles s n))

/-- R259: the descriptor of a schedule entry of the present active copy. -/
def schedJob (s : State) (n id : Nat) (x : CtxSt) (b : Binding) (p : Pattern) (epoch : Nat) (e : List W8) : PumpJob :=
  let l := leAt e 0 2
  let pass := leAt e 2 1
  let fl := leAt e 5 1
  let widen := bitAt fl 1
  let copy := fget 0 l x.active
  { id := id, sched := true, st := ctxStamp s n, phase := .ready, epoch := epoch, layer := l, pass := pass,
    src := leAt e (8 + 8 * copy) 8,
    desc := { op := if leAt e 4 1 == 2 then 2 else if widen then 1 else 0,
              flags := fl % 2 + (bitAt fl 2).toNat * 2 + 8,
              dkind := leAt e 4 1, dref := if pass == 0 then p.fring l else p.bring l, sfmt := p.plan l 0,
              dfmt := if widen then p.plan l (1 + pass) else p.plan l 0,
              dest := if leAt e 4 1 == 1 then (b.cores[leAt e 28 4]?.getD 0) else leAt e 28 4,
              len := leAt e 24 4 * 4160, prows := leAt e 32 4, pcols := leAt e 36 4 } }

/-- R243, R244, R259: the command processor posts the schedule entries of a pass. -/
def postPass (s : State) (n epoch pass : Nat) : State :=
  let x := ctxOf s n
  match x.pat, x.bind with
  | some p, some b =>
    (p.scheds.filter fun e => leAt e 2 1 == pass).foldl (fun s e =>
      let j := leAt e 3 1
      let c := cistOf s j
      putCist s j { c with jobs := c.jobs ++ [schedJob s n c.jobCtr x b p epoch e], jobCtr := c.jobCtr + 1 }) s
  | _, _ => s

/-- R176: the slot at which the pumps that drain a ring go on after a restart. A pump end keeps no cursor, so this is the first slot in
ring order whose data no destination has accepted: the first that drains, else the next to be taken (DEDUCED, log 58). -/
def RingSt.pumpNext (r : RingSt) : Nat :=
  let back := (List.range r.count).takeWhile fun k => (r.slot ((r.take + r.count - 1 - k) % r.count)).st == .draining
  (r.take + r.count - back.length) % r.count

/-- A slot's state in a record: what drains or fills unretired is as it was before. -/
def RSlot.recState (x : RSlot) : RState :=
  match x.st with
  | .draining => if x.prov then .provFull else .full
  | .filling => .empty
  | st => st

/-- Retired ring records of a context's cores (R344 START, Table 11.8). -/
def ringRecs (s : State) (n : Nat) : List RingRec :=
  (ctxCores s n).flatMap fun l => (coreOf s l).rings.map fun e =>
    ⟨l, e.1, e.2.fillRet, if e.2.drain == 3 then e.2.pumpNext else e.2.drainRet, e.2.slots.map fun x => (x.1, x.2.recState)⟩

/-- Generator states of a context's cores: key and the three counters (R40). -/
def genRecs (s : State) (n : Nat) : List (Nat × W64 × W64 × W64 × W64) :=
  (ctxCores s n).map fun l =>
    let c := coreOf s l
    (l, c.key, (c.slot 0).retired.srctr, (c.slot 1).retired.srctr, (c.slot 2).retired.srctr)

/-- Ring cursors and slot states taken back from records; the pumps that drain a ring go on at the recorded slot (log 58). -/
def setRings (s : State) (rs : List RingRec) : State :=
  rs.foldl (fun s r =>
    let c := coreOf s r.lcid
    match c.ring? r.ring with
    | none => s
    | some x =>
      let slots := r.states.foldl (fun m e => if e.2 == .empty then m else
        fset e.1 { fget {} e.1 x.slots with st := e.2, prov := false, vouched := false } m) []
      putCore s r.lcid (c.putRing r.ring { x with
        slots := slots, fillRun := r.fill, fillClosed := r.fill, fillRet := r.fill, drainRun := r.drain,
        drainClosed := r.drain, drainRet := r.drain, acqW := none, acqR := none, acqC := (none, none),
        acqT := (none, none), take := r.drain })) s

/-- Generator states taken back from records. -/
def setGens (s : State) (gs : List (Nat × W64 × W64 × W64 × W64)) : State :=
  gs.foldl (fun s g =>
    let c := coreOf s g.1
    let put (x : SlotSt) (v : W64) : SlotSt := { x with arch := { x.arch with srctr := v },
                                                        retired := { x.retired with srctr := v } }
    let c1 := ((c.putSlot 0 (put (c.slot 0) g.2.2.1)).putSlot 1 (put (c.slot 1) g.2.2.2.1)).putSlot 2
      (put (c.slot 2) g.2.2.2.2)
    putCore s g.1 { c1 with key := g.2.1 }) s

/-- Object values taken back from records. -/
def setSos (s : State) (vs : List (Nat × W64)) : State :=
  vs.foldl (fun s e => { s with sos := fset e.1 { soOf s e.1 with v := e.2 } s.sos }) s

/-- Gradient areas of a layer: address and bytes; with placement at the cores, its whole range (R262, Table 10.2). -/
def gradAreas (x : CtxSt) (l : Nat) : List (Nat × Nat) :=
  match x.pat, x.bind with
  | some p, some b =>
    if p.uplace == 1 then (p.layerParts l).map fun e => (leAt e 48 8, 4160 * ceilDiv (leAt e 8 4) 1024)
    else match b.lpr[p.gidx l]? with
      | some r => [(r.base, r.pages * 4096 / 4160 * 4160)]
      | none => []
  | _, _ => []

/-- Layers of the loaded pattern. -/
def CtxSt.layers (x : CtxSt) : List Nat := match x.pat with | some p => p.layers | none => []

/-- Does an address lie in a layer's gradient area? -/
def inGrad (x : CtxSt) (l a : Nat) : Bool := (gradAreas x l).any fun e => e.1 ≤ a && a < e.1 + e.2

/-- R246: gradient areas that must be zero-filled. -/
def zeroAreas (x : CtxSt) : List (Nat × Nat) :=
  match x.pat with
  | some p => (p.layers.filter p.gacc).flatMap fun l => (gradAreas x l).map fun e => (l, e.1)
  | none => []

/-- The base of a carriage's destination. -/
def BlockDest.addr : BlockDest → Nat
  | .ring _ _ => 0
  | .range a => a

/-- Where a block of a transfer is stored: a whole block at its own 4,160 bytes. -/
def blockAt (d : Carriage) (b : Block) : Nat := BlockDest.addr d.dest + (if d.draw then 0 else 4160 * (b.bidx - d.first))

/-- Addresses of the blocks of an area. -/
def areaBlocks (e : Nat × Nat) : List Nat := (List.range (e.2 / 4160)).map fun i => e.1 + 4160 * i

/-- R245: every gradient block of a layer has been accepted at its area, and none is on its way. -/
def gradComplete (s : State) (n : Nat) (r : StepRun) (l : Nat) : Bool :=
  let x := ctxOf s n
  (gradAreas x l).all (fun e => (areaBlocks e).all (fget [] l r.gradBlocks).contains) &&
  !(s.out.any fun m => match m with
    | .mem _ (.block d b) => d.st.ctx == n && inGrad x l (blockAt d b)
    | _ => false)

/-- R251: the backward pass of a running step is over, and from then on no micro-batch can be lost: every gradient block of
layer 1 has been accepted at its area, or the governor has decided (log 47). -/
def backwardOver (s : State) (n : Nat) (r : StepRun) : Bool :=
  r.committed || r.decision.isSome || (r.pass == 1 && !(gradAreas (ctxOf s n) 1).isEmpty && gradComplete s n r 1)

/-- R242 to R246: the running step's passes begin, at its start (`fresh`) or at a restart: schedule posted, cores started. -/
def beginPasses (s : State) (n : Nat) (r : StepRun) (fresh : Bool) : State :=
  let x := ctxOf s n
  let s1 := putCtx s n { x with run := some r, zeroing := zeroAreas x }
  let s2 := postPass (postPass s1 n r.epoch 0) n r.epoch 1
  startCores s2 n (BitVec.ofNat 64 r.epoch) (firstMb r.nmb r.lost) fresh

/-- R344: the START record of a context's running step. -/
def jstart (s : State) (n : Nat) (r : StepRun) : State :=
  jput s (fun x => match x with | .start m _ => m == n | _ => false) (.start n r)

/-- R311: the state of a cascade step begins anew at an epoch, with the replica groups whose modules have not left. -/
def Casc.begin (c : Casc) (e : Nat) : Casc :=
  { c with epoch := e, k := 0, back := false, turned := false, fdone := [], straggle := [], xdone := [], prepared := none, ready := [],
           outcome := 0, committing := false, crec := false, committed := false,
           part := (List.range c.m).filter fun g => !(c.leftMods.any fun m => m / (c.w * c.d) == g) }

/-- R242, R344: a training step begins running: its START record, then its passes. -/
def startStep (s : State) (e : Entry) (p : Pattern) : State :=
  let n := e.ctx
  let x := ctxOf s n
  let fin (st : Nat) : State := retire s e { status := st, epoch := e.epoch }
  match x.dead with
  | some st => fin st
  | none =>
    let r : StepRun := {
      ring := e.ring, seq := e.seq, epoch := e.epoch, nmb := leAt e.copy1 2 2, startRings := ringRecs s n,
      startSos := ctxSos s n, startGens := genRecs s n, startHist := x.hist, firstAfterRestore := x.verifyNext,
      gov := e.imm == 1, govBits := leAt p.upd 1 1 }
    let s00 := putCtx s n { x with verifyNext := false }
    let s0 := if onCascade s n && s.casc.epoch < e.epoch then { s00 with casc := s00.casc.begin e.epoch } else s00
    let s1 := putEntry (rsetf (jstart s0 n r) (rFnCtx n) 2 1 1) { e with phase := .running }
    beginPasses s1 n r true

/-- R255: a request's rows; the accepted request joins the forming batch of its context. -/
def joinBatch (s : State) (e : Entry) : State :=
  let x := ctxOf s e.ctx
  match x.dead with
  | some st => retire s e { status := st }
  | none =>
  let s1 := putCtx s e.ctx { x with forming := x.forming ++ [⟨e.ring, e.seq, leAt e.copy1 2 2, leAt e.copy1 8 4⟩] }
  putEntry s1 { e with phase := .waiting }

/-! ## Step restart (R354) and the drain (R325) -/

/-- R251, R272, R279: gradients, measurements and updates of a run begin anew. -/
def StepRun.again (r : StepRun) : StepRun :=
  { r with gradBlocks := [], meas := [], poisons := [], poisonG := 0, poisonW := false, updated := [], norm := 0,
           clip := 0x3F800000#32, decision := none, restarts := r.restarts + 1, areaRead := [], reported := false, readySent := false }

/-- R354 steps 3 to 5, after the drain: wells are rebuilt, the context is reset to its START record and the step runs again with the
micro-batches not lost. -/
def finishRestart (s0 : State) (n : Nat) : State :=
  let s := rebuildLost s0 n
  let x := ctxOf s n
  match x.run with
  | none => putCtx s n { x with drain := none }
  | some r => match x.dead with
    | some st => finishStep (putCtx s n { x with drain := none }) n st
    | none =>
    let r1 := { r.again with layer := 1, pass := 0 }
    let s1 := setGens (setSos (setRings (putCtx s n { x with drain := none, hist := r.startHist, run := some r1 })
      r.startRings) r.startSos) r.startGens
    if r1.contrib == 0 then finishStep s1 n 0x5001
    else beginPasses s1 n r1 false

/-- R354 step 1: slots halt, queued and running descriptors stop. -/
def stopForRestart (s : State) (n : Nat) : State := stopJobs (haltSlots s n false) n

/-- R354: a step restart; it goes on at once where no item remains, else after the drain. -/
def restartStep (s : State) (n : Nat) : State :=
  match (ctxOf s n).run with
  | none => s
  | some r =>
    let s1 := stopForRestart s n
    if itemsLeft s1 n (fun _ => true) then putCtx s1 n { ctxOf s1 n with drain := some (r.ring, r.seq) }
    else finishRestart s1 n

/-- R325, R354: the drain of a context is over. -/
def drainDone (s : State) (n : Nat) : State :=
  let x := ctxOf s n
  match x.drain with
  | none => s
  | some (ring, seq) =>
    match entryOf s ring seq with
    | none => s
    | some e =>
      if e.op == 0xE2 then (if itemsLeft s n (fun _ => true) then s else finishRestart s n)
      else if itemsLeft s n (· != ctxGen s n) || engineItems s n then s
      else
        let s1 := putCtx s n { x with drain := none }
        if e.op == 0xE0 then finishBind s1 e else finishLoad s1 e

/-! ## The commands -/

/-- R329: `bind` begins once every earlier-accepted entry of its context has retired. -/
def execBind (ring seq : Nat) (s : State) : Host.Outcome State Fault Refusal :=
  shown (fun s => match mayBeginCtx s ring seq 0xE0 with | some e => startBind s e | none => s) s

/-- R330: `load` begins. -/
def loadBody (ring seq : Nat) (s : State) : State :=
  match mayBeginCtx s ring seq 0xE1 with | some e => startLoad s e | none => s

/-- R242, R255, R320: `step`: a training step begins once earlier entries of its context have retired and no halt of it is
on its way; a serving request joins its batch once every earlier-accepted `bind` and `load` has retired and earlier
requests have joined. -/
def stepBody (ring seq : Nat) (s : State) : State :=
  match mayBegin s ring seq 0xE2 with
  | none => s
  | some e =>
    match (ctxOf s e.ctx).pat with
    | none => s
    | some p =>
      if rfld s (rFnStat 1) 0 2 != 2 then s
      else if p.training then
        if (ctxBefore s e).isEmpty && !(haltsPending s e.ctx) then startStep s e p else s
      else if (ctxBefore s e).all fun x => x.op == 0xE2 && x.phase != .queued then joinBatch s e
      else s

/-- R242, R253: `step`. -/
def execStep (ring seq : Nat) (s : State) : Host.Outcome State Fault Refusal := shown (stepBody ring seq) s

/-- R325: no item of the previous generation remains, so the `bind`, `load` or restart goes on. -/
def execGenerationDrainComplete (ctx : Nat) (s : State) : Host.Outcome State Fault Refusal :=
  shown (fun s => drainDone s ctx) s

end Sys2Proof.Machine
end

