-- ==== Sys2Proof/Machine/Accept.lean ====
section
/-! DEFINITION. Acceptance of ring entries (R113, R114, R238 to R241, R253, R254, R263, R319, R328, R332, R337, R355,
R384 to R386, R390, R391). -/

namespace Sys2Proof.Machine

/-! ## Luzel words of an entry (R88, R113, R114) -/

/-- R114: fields of a setup word: mask p0, mod zero, unused fields zero. -/
def setupOk (op : Nat) (f : Fields) : Bool :=
  if op == 0 then f == {}
  else f.mask == 0 && f.mod == 0 && (op != 0x16 || f.src2 == 0) && (op < 0x17 || (f.src2 == 0 && f.imm == 0))

/-- Table 4.5 by opcode. -/
def setupAlu (op : Nat) (a b imm : W64) : W64 :=
  match op with
  | 0x01 => a + b
  | 0x02 => a - b
  | 0x03 => a &&& b
  | 0x04 => a ||| b
  | 0x05 => a ^^^ b
  | 0x06 => a <<< shAmt b
  | 0x07 => a >>> shAmt b
  | 0x08 => a.sshiftRight (shAmt b)
  | 0x09 => ofBool (a.slt b)
  | 0x0A => ofBool (a.ult b)
  | 0x0B => if a.slt b then a else b
  | 0x0C => if a.slt b then b else a
  | 0x0D => if a.ult b then a else b
  | 0x0E => if a.ult b then b else a
  | 0x0F => a * b
  | 0x10 => mulHigh a b
  | 0x11 => mulHighU a b
  | 0x12 => divS a b
  | 0x13 => divU a b
  | 0x14 => remS a b
  | 0x15 => remU a b
  | 0x16 => (a &&& 0xFFFFFFFF#64) ||| (imm <<< 32)
  | 0x17 => popW a
  | _ => clzW a

/-- R113: a setup word acts on the entry's registers. -/
def setupRun (op : Nat) (f : Fields) (a : Arch) : Arch :=
  if op == 0 then a else a.sput f.dst (setupAlu op (a.sget f.src1) (opB a f) (f.imm.zeroExtend 64))

/-- Table 4.12: reserved fields of a command word. -/
def cmdOk (op : Nat) (f : Fields) : Bool :=
  f.mask == 0 && (op == 0xE3 || f.dst == 0) && (if op == 0xE4 then f.mod.toNat < 4 else f.mod == 0) &&
  (op == 0xE4 || op == 0xE5 || f.imm == 0)

/-- What the words of an entry say: a refusal, or the command with its operands. -/
inductive FormRes where
  | refuse (status : Nat)
  | cmd (op : Nat) (a b d : W64) (f : Fields)
  deriving DecidableEq, Repr

/-- R113, R114: the words are examined in order. -/
def formRun : List Nat → Arch → FormRes
  | [], _ => .refuse 0x1002
  | w :: rest, a =>
    let op := wordOp w
    let f := wordFields w
    if 0xE0 ≤ op && op ≤ 0xE6 then
      if !(cmdOk op f) then .refuse 0x1004
      else if rest.any (· != 0) then .refuse 0x1003
      else .cmd op (a.sget f.src1) (a.sget f.src2) (a.sget f.dst) f
    else if op ≤ 0x18 then (if setupOk op f then formRun rest (setupRun op f a) else .refuse 0x1004)
    else .refuse 0x1001

/-- The 14 words of an entry. -/
def entryWords (raw : List W8) : List Nat := (List.range 14).map fun i => leAt raw (16 + 8 * i) 8

/-! ## Functions' settings (R333, R339) -/

/-- Bytes of a function's settings block (Table 13.8, Table 16.4). -/
def fnBytes (f : Nat) : Nat := if f == 0 || (128 ≤ f && f < 192) then 64 else if f == 3 then 8 else if f == 2 then 8 else 0

/-- Is the function number defined? -/
def fnKnown (f : Nat) : Bool := f < 4 || (64 ≤ f && f < 192)

/-- R333: the context of the cascade settings, where a cascade has been set. -/
def cascadeCtx (s : State) : Option Nat :=
  let d := fnSet s 0
  if leAt d 2 2 == 0 then none else some (leAt d 4 1)

/-! ## `step` entries -/

/-- R238: do `n` bytes lie in the context's ranges, at a multiple of 64? -/
def inCtx (b : Binding) (a n : Nat) : Bool := a % 64 == 0 && b.inRange a n

/-- R263: is the update parameter block right? -/
def paramsOk (sgd : Bool) (d : List W8) : Bool :=
  let v (i : Nat) : Nat := leAt d (4 * i) 4
  let nonneg (x : Nat) : Bool := finiteW x && (x < 2 ^ 31 || x == 2 ^ 31)
  let beta (x : Nat) : Bool := x < 0x3F800000 || x == 2 ^ 31
  zeroAt d 20 44 && nonneg (v 0) && nonneg (v 4) && beta (v 1) &&
  (if sgd then v 2 == 0 && v 3 == 0 else beta (v 2) && 0 < v 3 && v 3 < 0x7F800000)

/-- R239, R263: refusal of a training step. -/
def trainRefusal (s : State) (n : Nat) (b : Binding) (p : Pattern) (addr : Nat) : Option Nat :=
  let d := bytesAt s addr 64
  let nmb := leAt d 2 2
  let tab := bytesAt s (leAt d 8 8) (32 * nmb)
  let es := chunks 32 tab
  let eexp := leAt d 24 8
  firstBad [
    (leAt d 1 1 == 1, 0x1101),
    (leAt d 0 1 != 1 || 1 < leAt d 1 1 || !(zeroAt d 4 4) || !(zeroAt d 32 32) || es.any fun e => !(zeroAt e 28 4), 0x1102),
    (!(inCtx b addr 64) || !(inCtx b (leAt d 8 8) (32 * nmb)) || !(inCtx b (leAt d 16 8) (32 * nmb)) ||
      es.any fun e => !(inCtx b (leAt e 0 8) (4160 * leAt e 12 4)), 0x1103),
    (nmb == 0 || leAt p.step 4 2 < nmb, 0x1104),
    (es.any fun e => leAt e 8 4 == 0 || leAt p.step 8 4 < leAt e 8 4, 0x1105),
    (eexp != 0 && eexp != (ctxOf s n).epoch + 1, 0x1106),
    (p.uplace == 1 && !(paramsOk (leAt p.upd 0 1 == 1) (bytesAt s (leAt p.upd 16 8) 64)), 0x1134)]

/-- R239, R253, R254, R355: refusal of a serving request. -/
def serveRefusal (s : State) (n : Nat) (b : Binding) (p : Pattern) (addr : Nat) : Option Nat :=
  let d := bytesAt s addr 64
  let st := leAt d 2 2
  let ntok := leAt d 8 4
  let reset := bitAt (leAt d 4 1) 0
  let pos := if reset then 0 else fget 0 st (ctxOf s n).pos
  firstBad [
    (leAt d 1 1 == 0, 0x1101),
    (leAt d 0 1 != 1 || 1 < leAt d 1 1 || 1 < leAt d 4 1 || !(zeroAt d 5 3) || !(zeroAt d 12 4) || !(zeroAt d 32 32), 0x1102),
    (!(inCtx b addr 64) || !(inCtx b (leAt d 16 8) 1) || !(inCtx b (leAt d 24 8) (leAt p.step 24 4)), 0x1103),
    (ntok == 0 || leAt p.step 8 4 < ntok, 0x1105),
    (leAt p.step 6 2 ≤ st, 0x1107),
    (leAt p.step 12 4 < pos + ntok, 0x1108),
    ((ctxOf s n).lostStreams.contains st && !reset, 0x1501)]

/-- R319, R333, R239: refusal of a `step` entry. -/
def stepEntryRefusal (s : State) (n : Nat) (addr : Nat) : Option Nat :=
  let x := ctxOf s n
  if 63 < n || plannedState s n != 2 then some 0x1160
  else if cascadeCtx s == some n && rfld s (rFnStat 0) 0 2 != 2 then some 0x1161
  else match x.bind, x.pat with
    | some b, some p => if p.training then trainRefusal s n b p addr else serveRefusal s n b p addr
    | _, _ => some 0x1101

/-! ## `fn` entries (R337, R282, R284) -/

/-- A training context with update placement at the cisterns? -/
def cistTraining (s : State) (n : Nat) : Bool :=
  match (ctxOf s n).pat with | some p => p.training && p.uplace == 1 | none => false

/-- R337: would the request break a dependency? -/
def fnDepends (s : State) (f : Nat) (start : Bool) : Bool :=
  if start then
    (f == 0 && fnState s 3 != 2) || (128 ≤ f && f < 192 && fnState s 0 != 2) ||
    (64 ≤ f && f < 128 && !(cistTraining s (f - 64)))
  else (f == 3 && fnState s 0 != 0) || (f == 0 && (List.range 64).any fun n => fnState s (128 + n) != 0)

/-- Table 11.8: bytes of a context's mirror image, as far as the manual gives sizes (log 20). -/
def mirrorBytes (x : CtxSt) : Nat :=
  match x.pat, x.bind with
  | some p, some b =>
    let np := leAt p.upd 40 4
    let blocks := ((List.range np).map fun i => ceilDiv (leAt (p.part i) 8 4) 3968).sum
    let areas := if leAt p.upd 0 1 == 1 then 2 else 3
    blocks * 4160 * areas + 24 + 8 * b.soCount + 32 * b.cores.length + 4 * p.nlayer +
      4 * leAt p.upd 2 1 * p.nlayer * popCount 4 (leAt p.upd 13 1) + 64 + 32 + ringImage * b.cores.length
  | _, _ => 0

/-- R282, R284: refusal of mirror stream settings. -/
def mirrorRefusal (s : State) (n : Nat) (d : List W8) : Option Nat :=
  let partner := leAt d 4 4
  let act := leAt d 0 1
  firstBad [
    (1 < act || (if act == 0 then leAt d 2 2 == 0 else leAt d 2 2 != 0) || !(zeroAt d 24 40) || !(cistTraining s n) ||
      s.casc.w * s.casc.d * s.casc.m ≤ partner || partner == s.casc.self || (portTo s partner).isNone, 0x1135),
    (leAt d 16 8 < 2 * mirrorBytes (ctxOf s n), 0x1136),
    (act == 1 && (ctxState s n != 2 || s.accepted.any fun e => e.op == 0xE2 && e.ctx == n), 0x1137)]

/-- R292, Table 12.3: a cascade setting is reserved or out of range. -/
def cascFields (s : State) (d : List W8) : Bool :=
  let total := leAt d 8 2 * leAt d 10 2 * leAt d 12 2
  let succ := ((List.range 8).map fun i => leAt d (16 + 2 * i) 2).takeWhile (· != 0xFFFF)
  leAt d 2 2 == 0 || 63 < leAt d 4 1 || 1 < leAt d 5 1 || leAt d 6 1 == 0 || 16 < leAt d 6 1 || !(zeroAt d 7 1) || !(zeroAt d 14 2) ||
  total == 0 || 1024 < total || (leAt d 5 1 == 0 && 65 < total) || total ≤ leAt d 0 2 || succ.isEmpty ||
  succ.any (fun m => total ≤ m) || succ.eraseDups.length != succ.length || !(inMem s (leAt d 40 8) 128) ||
  (if leAt d 5 1 == 0 then leAt d 48 8 != 0 else !(inMem s (leAt d 48 8) 2048)) ||
  !(inMem s (leAt d 56 8) (leAt d 6 1 * leAt d 12 2 * 2))

/-- R292, R308: the context does not qualify. -/
def cascContext (s : State) (d : List W8) : Bool :=
  !(cistTraining s (leAt d 4 1)) || (1 < leAt d 12 2 && match (ctxOf s (leAt d 4 1)).pat with
    | some p => p.layers.any p.gacc
    | none => false)

/-- R295: hops of the part of a route that this module's table shows: next hops until a port peer, at most five. -/
def routeHops (rtab : Nat → Nat) (peer : Nat → Bool) : Nat → Nat → Nat
  | 0, _ => 0
  | k + 1, m => if peer m then 1 else 1 + routeHops rtab peer k (rtab m)

/-- R295: the port map, route table or ring orders are invalid (log 31). -/
def cascRoutes (s : State) (d : List W8) : Bool :=
  let wd := leAt d 8 2 * leAt d 10 2
  let m := leAt d 12 2
  let total := wd * m
  let self := leAt d 0 2
  let pmap := (List.range 64).map fun i => leAt (bytesAt s (leAt d 40 8) 128) (2 * i) 2
  let rb := bytesAt s (leAt d 48 8) 2048
  let rtab (q : Nat) : Nat := leAt rb (2 * q) 2
  let ro := bytesAt s (leAt d 56 8) (leAt d 6 1 * m * 2)
  let others := (List.range total).filter (· != self)
  pmap.any (fun q => q != 0xFFFF && total ≤ q) ||
  (leAt d 5 1 == 1 && others.any fun q => total ≤ rtab q || 4 < routeHops rtab pmap.contains 5 q) ||
  (List.range (leAt d 6 1)).any fun r =>
    let o := (List.range m).map fun i => leAt ro (2 * (r * m + i)) 2
    o.any (fun g => m ≤ g) || o.eraseDups.length != m || (List.range m).any fun i =>
      let a := o[i]?.getD 0
      let b := o[(i + 1) % m]?.getD 0
      a != b && ((a == self / wd && !(pmap.contains (b * wd + self % wd))) || (b == self / wd && !(pmap.contains (a * wd + self % wd))))

/-- R295: refusal of cascade settings. -/
def cascRefusal (s : State) (d : List W8) : Option Nat :=
  if cascFields s d then some 0x1140 else if cascContext s d then some 0x1141 else if cascRoutes s d then some 0x1142 else none

/-- Refusal of a function's settings (R282, R284, R295, R403). -/
def settingsRefusal (s : State) (f : Nat) (d : List W8) : Option Nat :=
  if f == 0 then cascRefusal s d
  else if f == 2 then
    if leAt d 0 1 ≤ 1 && leAt d 1 1 ≤ 1 && leAt d 2 1 ≤ 6 && leAt d 3 1 ≤ 6 && zeroAt d 4 4 then none else some 0x1162
  else if 128 ≤ f && f < 192 then (if leAt d 1 1 != f - 128 then some 0x1162 else mirrorRefusal s (f - 128) d)
  else none

/-- R337: refusal of a `fn` entry. -/
def fnRefusal (s : State) (f addr act : Nat) : Option Nat :=
  let d := if addr == 0 then fnSet s f else bytesAt s addr (fnBytes f)
  let st := if act == 1 then settingsRefusal s f d else none
  firstBad [
    (!(fnKnown f) || 1 < act || st == some 0x1162, 0x1162),
    (fnDepends s f (act == 1), 0x1163)]
  |>.orElse fun _ => st

/-! ## `xfer` and `query` (R390, R391) -/

/-- R390: refusal of an `xfer`. -/
def xferRefusal (s : State) (src dst len : Nat) : Option Nat :=
  let bad := len == 0 || len % 64 != 0 || 2 ^ 40 < len || src % 64 != 0 || dst % 64 != 0 || !(inMem s src len) ||
    !(inMem s dst len) || (0x400000000000 ≤ src && 0x400000000000 ≤ dst) || (src < dst + len && dst < src + len)
  if bad then some 0x1702 else none

/-- Table 15.8: bytes of a query result. -/
def queryLen (kind : Nat) : Nat := match kind with | 0 => 128 | 1 => 128 | 2 => 256 | 3 => 128 | 4 => 4096 | _ => 640

/-- R391: refusal of a `query` (log 21 for the address). -/
def queryRefusal (sel addr : Nat) : Option Nat :=
  let kind := sel % 256
  let idx := sel / 256
  if 5 < kind || (if kind == 1 || kind == 3 then 63 < idx else idx != 0) || addr % 64 != 0 || addr < 0x400000000000 ||
    0x800000000000 < addr + queryLen kind then some 0x1703 else none

/-! ## Acceptance (R384) -/

/-- Table 15.6: the context byte of a record. -/
def ctxByte (op : Nat) (a : W64) : Nat := if op == 0xE3 || op == 0xE6 || 63 < a.toNat then 0xFF else a.toNat

/-- Why an entry of a known command is refused. -/
def cmdRefusal (s : State) (op : Nat) (a b d : W64) (imm : Nat) : Option Nat :=
  let n := a.toNat
  match op with
  | 0xE0 => bindRefusal s n b
  | 0xE1 =>
    if 63 < n || plannedState s n == 0 then some 0x1160
    else match plannedBind s n with
      | none => some 0x1160
      | some bd => fitRefusal s bd b.toNat
  | 0xE2 => stepEntryRefusal s n b.toNat
  | 0xE3 => xferRefusal s n b.toNat d.toNat
  | 0xE4 => if 63 < n then some 0x1160 else none
  | 0xE5 => fnRefusal s n b.toNat imm
  | _ => queryRefusal n b.toNat

/-- R240, R263, R326: the blocks that the engine copies at acceptance. -/
def acceptCopies (s : State) (op n : Nat) (b : W64) : List W8 × List W8 × List W8 :=
  match op with
  | 0xE0 => if b == 0 then ([], [], []) else (bytesAt s b.toNat (bindSize (bytesAt s b.toNat 64)), [], [])
  | 0xE2 =>
    let d := bytesAt s b.toNat 64
    match (ctxOf s n).pat with
    | some p => if p.training then
        (d, bytesAt s (leAt d 8 8) (32 * leAt d 2 2), if p.uplace == 1 then bytesAt s (leAt p.upd 16 8) 64 else [])
      else (d, [], [])
    | none => (d, [], [])
  | 0xE5 => if b == 0 then ([], [], []) else (bytesAt s b.toNat (fnBytes n), [], [])
  | _ => ([], [], [])

/-- R254, R281, R355: what acceptance of a step changes in its context: epoch, or position and lost mark of its stream. -/
def acceptStep (s : State) (n : Nat) (copy : List W8) : State :=
  let x := ctxOf s n
  let x1 := if x.started then x else { x with started := true, energy := 0 }
  match x.pat with
  | none => s
  | some p =>
    if p.training then putCtx s n { x1 with epoch := x.epoch + 1 }
    else
      let st := leAt copy 2 2
      let reset := bitAt (leAt copy 4 1) 0
      let pos := if reset then 0 else fget 0 st x.pos
      putCtx s n { x1 with pos := fset st (pos + leAt copy 8 4) x.pos,
                           lostStreams := if reset then ndel st x.lostStreams else x.lostStreams }

/-- R344: the RING record. -/
def jring (s : State) (r : Nat) : State :=
  jput s (fun x => match x with | .ring q _ _ => q == r | _ => false)
    (.ring r (rget64 s (rHC r 0x28)) (hringOf s r).retired)

/-- R384, R386: entry `seq` of a ring is refused. -/
def refuseEntry (s : State) (r seq ctx status : Nat) : State :=
  let s1 := putRecord s r seq (recordBytes s seq 3 ctx { status := status })
  rput64 (rsetf s1 (rHC r 0x24) 2 1 1) (rHC r 0x28) (seq + 1)

/-- R384, R386, R389: an entry is accepted: ACCEPT and RING records, the accept record, the ring line, the vector. -/
def acceptEntry (s : State) (e : Entry) : State :=
  let s0 := if e.op == 0xE2 then acceptStep s e.ctx e.copy1 else s
  let b := recordBytes s0 e.seq 1 e.ctx {}
  let s1 := { s0 with accepted := s0.accepted ++ [{ e with acc := b }], journal := s0.journal ++ [.accept { e with acc := b }] }
  let s2 := jring (rput64 s1 (rHC e.ring 0x28) (e.seq + 1)) e.ring
  ringIrq (putRecord s2 e.ring e.seq b) e.ring (bitAt (leAt e.raw 8 1) 0)

/-- An entry of a known command is accepted or refused. A `step` waits for the accepted `bind` and `load` entries of its
context (log 22). -/
def considerCmd (s : State) (r seq : Nat) (raw : List W8) (op : Nat) (a b d : W64) (f : Fields) : State :=
  let n := a.toNat
  if op == 0xE2 && s.accepted.any (fun e => (e.op == 0xE0 || e.op == 0xE1) && e.ctx == n) then s
  else match cmdRefusal s op a b d f.imm.toNat with
    | some st => refuseEntry s r seq (ctxByte op a) st
    | none =>
      let c := acceptCopies s op n b
      if !(journalRoom s (c.1.length + c.2.1.length + c.2.2.length)) then rsetf (rsetf s 0x8014 3 1 1) (rHC r 0x24) 0 2 3
      else
        let gov := (fnState s (64 + n) == 2).toNat
        acceptEntry (rsetf (rsetf s 0x8014 3 1 0) (rHC r 0x24) 0 2 1)
          { ring := r, seq := seq, raw := raw, op := op, a := a, b := b, d := d,
            imm := if op == 0xE2 then gov else f.imm.toNat, mod := f.mod.toNat, ctx := ctxByte op a, copy1 := c.1,
            copy2 := c.2.1, copy3 := c.2.2, epoch := if op == 0xE2 then (match (ctxOf s n).pat with
              | some p => if p.training then (ctxOf s n).epoch + 1 else 0
              | none => 0) else 0 }

/-- R384: may the next entry of a ring be considered? -/
def ringTakes (s : State) (r : Nat) : Bool :=
  let seq := rget64 s (rHC r 0x28)
  r < 64 && (rfld s (rHC r 0x24) 0 2 == 1 || rfld s (rHC r 0x24) 0 2 == 3) && ready s && s.boot.cxlUp && s.boot.resetPending.isNone &&
  seq < (hringOf s r).tail && seq < rget64 s (rHC r 0x18) + ringSize s r

/-- R384: the next entry of a ring is read, checked and accepted or refused. -/
def acceptNext (r : Nat) (s : State) : State :=
  if !(ringTakes s r) then s
  else
    let seq := rget64 s (rHC r 0x28)
    let raw := bytesAt s (rget64 s (rHC r 0) + seq % ringSize s r * 128) 128
    if leAt raw 0 8 != seq || 3 < leAt raw 8 1 || !(zeroAt raw 9 7) then refuseEntry s r seq 0xFF 0x1701
    else match formRun (entryWords raw) {} with
      | .refuse st => refuseEntry s r seq 0xFF st
      | .cmd op a b d f => considerCmd s r seq raw op a b d f

/-- What the acceptance of a ring's next entry reads beside the entry: blocks and tables that its command names (R213, R240, R295, R326). -/
def acceptReads (s : State) (r : Nat) : List (Nat × Nat) :=
  let seq := rget64 s (rHC r 0x28)
  let raw := bytesAt s (rget64 s (rHC r 0) + seq % ringSize s r * 128) 128
  let n (a : W64) : Nat := a.toNat
  match formRun (entryWords raw) {} with
  | .refuse _ => []
  | .cmd op a b _ _ =>
    let d := bytesAt s (n b) 64
    if op == 0xE0 then [(n b, bindSize d)]
    else if op == 0xE1 then [(n b, imageLen (bytesAt s (n b) 128))]
    else if op == 0xE2 then (n b, 64) :: (match (ctxOf s (n a)).pat with
      | some p => if p.training then [(leAt d 8 8, 32 * leAt d 2 2), (leAt p.upd 16 8, 64)] else []
      | none => [])
    else if op == 0xE5 then (n b, fnBytes (n a)) :: (if n a == 0 then
      [(leAt d 40 8, 128), (leAt d 48 8, 2048), (leAt d 56 8, leAt d 6 1 * leAt d 12 2 * 2)] else [])
    else []

end Sys2Proof.Machine
end

