-- ==== Sys2Proof/Machine/Defects.lean ====
section
/-! DEFINITION. The defect journal (R365, R444, R445), micro-batch loss (R249 to R251, R360, R362) and core failure with
adoption and doubling (R80 to R83, R356). -/

namespace Sys2Proof.Machine

/-! ## OTP and the defect journal -/

/-- R438: a word of OTP; an unprogrammed bit reads 0. -/
def otpWord (s : State) (i : Nat) : Nat := leNat ((span (4 * i) 4).map fun a => cellGet 0 a s.otp)

/-- R438: program the 1 bits of a word. -/
def otpProgram (s : State) (i v : Nat) : State :=
  { s with otp := cellSets 0 (atAddr (4 * i) (leBytes 4 (otpWord s i ||| v))) s.otp }

/-- Word of the first journal entry (Table 18.1). -/
def djBase : Nat := 0x900 / 4

/-- The defect journal's entries as stored. -/
def djWords (s : State) : List Nat := (List.range 1024).map fun i => otpWord s (djBase + i)

/-- R439: used entries; torn words are skipped. -/
def djUsed (s : State) : List Nat := (djWords s).filter fun w => bitAt w 31

/-- Table 18.4: the part an entry names, without its cause. -/
def djPart (w : Nat) : Nat :=
  let v := w % 2 ^ 31
  match bitsAt v 27 4 with
  | 0 => v - bitsAt v 4 8 * 16
  | 3 => v - bitsAt v 22 1 * 2 ^ 22
  | 5 => v - bitsAt v 14 4 * 2 ^ 14
  | _ => v

/-- Table 18.4: an entry of a kind with its fields. -/
def djEntry (kind fields : Nat) : Nat := 2 ^ 31 + kind * 2 ^ 27 + fields

/-- R365, R366, R444, R445: append one entry, unless the part is recorded. -/
def defectAppend (s : State) (kind fields : Nat) : State :=
  let w := djEntry kind fields
  if ((djUsed s) ++ s.djOver).any fun x => djPart x == djPart w then s
  else
    let next := 1024 - ((djWords s).reverse.takeWhile (· == 0)).length
    if next < 1024 then
      let s1 := otpProgram s (djBase + next) w
      let s2 := rsetf s1 0x8010 0 11 (djUsed s1).length
      if 922 ≤ (djUsed s1).length then raiseReason s2 0 else s2
    else if s.djOver.length < 4096 then { s with djOver := s.djOver ++ [w] } else s

/-! ## Lost micro-batches -/

/-- R251: a gradient block of the context still on its way. -/
def gradBound (x : CtxSt) (n : Nat) : Msg → Bool
  | .mem _ (.block d _) => d.st.ctx == n && (match d.dest with
    | .range a => x.layers.any fun l => inGrad x l a
    | _ => false)
  | _ => false

/-- R242, R252: has the forward pass ended: has every bound slot F of the context completed its part (log 28)? -/
def forwardOver (s : State) (n : Nat) : Bool :=
  (ctxCores s n).all fun l =>
    let f := (coreOf s l).slot 0
    !f.bound || f.phase == .partDone

/-- R85, R249: the pass in which a loss arises: slot F runs the forward pass and slot B the backward pass; elsewhere the one that the
context is in. -/
def passOf (s : State) (n : Nat) (slot : Option Nat) : Nat :=
  match slot with
  | some 0 => 0
  | some 1 => 1
  | _ => (forwardOver s n).toNat

/-- R252: the layers in which a loss of a pass can have arisen: weight streams run ahead of the arithmetic (R244), gradient blocks
behind it. -/
def lossLayers (r : StepRun) (nlayer pass : Nat) : Nat × Nat :=
  if pass == 0 then (1, if r.pass == 0 then r.layer else nlayer)
  else
    let lo := if r.pass == 1 then r.layer else nlayer
    (lo, max lo (r.gradBlocks.foldl (fun m e => if e.2.isEmpty then m else min m e.1) nlayer))

/-- R252: the layer in which a loss arose: one of `lossLayers`. The manual shows no event that places a core's arithmetic more closely,
so which of them is a free value (log 19). -/
def lossLayer (s : State) (n : Nat) (r : StepRun) (pass : Nat) : Nat :=
  let e := lossLayers r (match (ctxOf s n).pat with | some p => p.nlayer | none => 1) pass
  e.1 + (Config.freeWord s.freeCtr).toNat % (e.2 - e.1 + 1)

/-- R251: a core starts its backward pass again: slot B, as at a command's start (R459). The ring slots that its own end or a pump filled
return to empty; what slot F filled and what a keep layer's stream filled stays (log 19). -/
def backAgain (c : CoreSt) (epoch mb : W64) : CoreSt :=
  let own := (c.slot 1).amask
  let ring (r : RingSt) : RingSt :=
    let keep := { r with slots := r.slots.filter fun e => e.2.kept }
    if r.fill == 1 then
      (let k := { keep with fillClosed := r.fillRun, fillRet := r.fillRun, acqW := none, acqC := (none, r.acqC.2), acqT := (none, r.acqT.2) }
       if r.drain == 3 then { k with take := r.fillRun }
       else { k with drainRun := r.fillRun, drainClosed := r.fillRun, drainRet := r.fillRun, acqR := none, acqC := (none, none),
                     acqT := (none, none) })
    else if r.fill == 3 && r.drain == 1 then
      { keep with drainClosed := r.drainRun, drainRet := r.drainRun, acqR := none, acqC := (none, none), acqT := (none, none) }
    else r
  if !(c.slot 1).bound then c
  else { c.putSlot 1 (startSlot (c.slot 1) epoch mb false) with
           rings := fmapAll (fun _ r => ring r) c.rings, tiles := c.tiles.filter fun e => !(own.getLsbD e.1) }

/-- R251: the backward pass runs again from layer nlayer with the surviving micro-batches: the stitches of slot B are discarded, the
gradient blocks on their way dropped, with the descriptors that slot B posted and those of the pass's streams. -/
def restartBackward (s : State) (n : Nat) : State :=
  let x := ctxOf s n
  match x.run, x.pat with
  | some r, some p =>
    let s0 := (ctxCores s n).foldl (fun s l => if (slotOf s ⟨l, 1⟩).bound then discardSlot s ⟨l, 1⟩ false true else s) s
    let s1 := (ctxCores s0 n).foldl (fun s l => putCore s l (backAgain (coreOf s l) (BitVec.ofNat 64 r.epoch) (firstMb r.nmb r.lost))) s0
    let s2 := { s1 with out := s1.out.filter fun m => !(gradBound x n m) }
    let s3 := cancelJobs s2 n fun j => if j.sched then j.pass == 1 else j.slot == 1
    let x1 := ctxOf s3 n
    let z := (zeroAreas x1).filter fun e => r.layer ≤ e.1 || (fget? e.1 r.gradBlocks).isSome || x1.zeroing.contains e
    let r1 := { r.again with layer := p.nlayer, pass := 1 }
    postPass (putCtx s3 n { x1 with run := some r1, zeroing := z }) n r.epoch 1
  | _, _ => s

/-- R242: cores that work on a lost micro-batch go on with the next one (log 19). -/
def skipMb (s : State) (n i : Nat) (next : W64) : State :=
  let moved (a : Arch) : Arch := if a.mb.toNat == i then { a with mb := next } else a
  (ctxCores s n).foldl (fun s l =>
    let c := coreOf s l
    putCore s l { c with slots := c.slots.map fun x => { x with
      arch := moved x.arch, retired := moved x.retired, closed := x.closed.map fun cl => { cl with image := moved cl.image } } }) s

/-- R250: a ring whose drained slots held data of a lost micro-batch moves past them: they are empty. -/
def RingSt.consume (r : RingSt) (slots : List Nat) (closed : Bool) : RingSt :=
  let past (k : Nat) : Nat := (k + slots.length) % r.count
  let r1 := { r with slots := r.slots.filter (fun e => !(slots.contains e.1)), drainRun := past r.drainRun }
  if closed then r1 else { r1 with drainClosed := past r1.drainClosed, drainRet := past r1.drainRet }

/-- R250: the OPEN stitch that worked on a lost micro-batch is discarded, and so is the data that it had taken from its rings: the slot
goes on with the next micro-batch (log 19). -/
def dropStitch (s : State) (u : StreamId) : State :=
  let x := slotOf s u
  let used := x.opn.drained
  let s1 := discardSlot s u true true
  let c := coreOf s1 u.lcid
  let rings := (used.map (·.1)).eraseDups.foldl (fun m k => match fget? k m with
    | some (r : RingSt) => fset k (r.consume ((used.filter fun e => e.1 == k).map (·.2)) x.closed.isSome) m
    | none => m) c.rings
  putCore s1 u.lcid { c with rings := rings }

/-- R300: on a cascade the loss is sent to the master. -/
def sendLoss (s : State) (n : Nat) (m : LostMb) : State :=
  if onCascade s n then
    let spec := leBytes 2 (s.casc.self / (s.casc.w * s.casc.d)) ++ leBytes 2 m.mbi ++ leBytes 2 m.layer ++ leBytes 1 m.pass ++
      leBytes 1 0 ++ leBytes 2 m.status ++ leBytes 6 0
    toLeads s { ty := 2, code := 0x12, spec := spec }
  else s

/-- R249, R250: micro-batch `i` of the running step is lost with a status, by the OPEN stitch of slot `u`; the pass goes on, or the
backward pass begins anew (R251), on a cascade when RESTART comes (R315). A step without a contribution ends (R252); after the backward
pass no micro-batch is lost. -/
def loseMb (s : State) (n i status : Nat) (u : StreamId) : State :=
  let x := ctxOf s n
  match x.run with
  | none => s
  | some r =>
    if r.nmb ≤ i || r.lost.any (fun m => m.mbi == i) || backwardOver s n r then s
    else
      let pass := passOf s n (some u.slot)
      let m : LostMb := ⟨i, status, lossLayer s n r pass, pass⟩
      let r1 := { r with lost := r.lost ++ [m] }
      let s1 := sendLoss (putCtx (useFree s) n { x with run := some r1 }) n m
      if r1.contrib == 0 && !(onCascade s n) then finishStep (sendHalts s1 n) n 0x5001
      else if pass == 1 then (if onCascade s n then s1 else restartBackward s1 n)
      else dropStitch (skipMb s1 n i (nextMb r.nmb r1.lost i)) u

/-- R360: every micro-batch of the step is lost in the backward pass, and the step retires with 0x5001; none after the backward
pass (R251). On a cascade each loss is sent, and the cascade's step goes on (R300, R314). -/
def loseAll (s : State) (n status : Nat) : State :=
  let x := ctxOf s n
  match x.run with
  | none => s
  | some r =>
    if backwardOver s n r then s
    else
      let l := lossLayer s n r 1
      let ms := (List.range r.nmb).map fun i => (⟨i, status, l, 1⟩ : LostMb)
      let s1 := putCtx (useFree s) n { x with run := some { r with lost := ms } }
      if onCascade s n then (ms.filter fun m => !(r.lost.any fun k => k.mbi == m.mbi)).foldl (fun s m => sendLoss s n m) s1
      else finishStep (sendHalts s1 n) n 0x5001

/-- R249, R360: what the command of a slot's context suffers when a stitch of the slot consumes poison. -/
def poisonLoss (s : State) (u : StreamId) : State :=
  let n := (coreOf s u.lcid).st.ctx
  let x := ctxOf s n
  let mb := (slotOf s u).opn.mb.toNat
  match x.run with
  | some _ => if mb == 0xFFFFFFFF then loseAll s n 0x3502 else
      let t := tileOfCore u.lcid
      loseMb (sendVerdicts s t (stitchEntries (tileOf s t) u (slotOf s u).opn.seq) false) n mb 0x3501 u
  | none => if x.running.isEmpty then s else finishBatch (sendHalts s n) n 0x3503

/-- Carry out `g`, then the loss of R249 where the OPEN stitch of the slot has newly consumed poison. -/
def withLoss (u : StreamId) (g : State → State) (s : State) : State :=
  let s1 := g s
  let x := slotOf s1 u
  if x.opn.poison && !((slotOf s u).opn.poison && (slotOf s u).opn.seq == x.opn.seq) then poisonLoss s1 u else s1

/-- R362: a stitch of the core has been discarded 16 times within one command. -/
def replayLimit (s : State) (l : Nat) : State :=
  [0, 1, 2].foldl (fun s i =>
    let x := slotOf s ⟨l, i⟩
    if fget 0 x.opn.seq x.replays < 16 then s
    else
      let n := (coreOf s l).st.ctx
      let s1 := putSlot s ⟨l, i⟩ { x with replays := ferase x.opn.seq x.replays }
      match (ctxOf s n).run with
      | some r => if x.opn.mb.toNat < r.nmb then loseMb s1 n x.opn.mb.toNat 0x4501 ⟨l, i⟩ else contextFault s1 n 0x4501
      | none => contextFault s1 n 0x4501) s

/-! ## Core failure -/

/-- Field of TL_PCORE_n. -/
def pcoreState (s : State) (t p : Nat) : Nat := rfld s (rPcore t p) 9 2

/-- TL_CORE_SUMMARY counts. -/
def coreSummary (s : State) (t : Nat) : State :=
  let st (v : Nat) : Nat := ((List.range 264).filter fun p => pcoreState s t p == v).length
  rput s (rTL t 0x2000) (min 15 (st 1) + min 511 (st 2) * 16 + min 7 (st 3) * 8192)

/-- Fence or quarantine a core: TL_PCORE_n and its summary; a fence enters the defect journal. -/
def setPcore (s : State) (t p state cause : Nat) : State :=
  let o := rPcore t p
  let s0 := dropInjection s t p
  let s1 := coreSummary (rsetf (rsetf (rsetf (rsetf s0 o 9 2 state) o 0 9 0x1FF) o 11 1 0) o 16 8 cause) t
  if state == 2 then defectAppend s1 0 (t * 2 ^ 21 + p * 2 ^ 12 + cause * 16) else s1

/-- Lowest-numbered free spare core of a tile. -/
def freeSpare (s : State) (t : Nat) : Option Nat := (List.range 264).find? fun p => pcoreState s t p == 1

/-- R81 step 3: a spare core takes a physical well. -/
def adopt (s : State) (t p w : Nat) : State :=
  let o := rPcore t p
  let x := tileOf s t
  coreSummary (putTile (rsetf (rsetf (rsetf s o 9 2 0) o 0 9 w) o 11 1 (if w == p then 0 else 1)) t
    { x with serv := fset w p x.serv }) t

/-- R356: the host of a core guest: the active core of the tile with the lowest logical index that hosts no guest. -/
def guestHost (s : State) (l : Nat) : Option Nat :=
  (span (tileOfCore l * 256) 256).find? fun h => h != l && (coreOf s h).guest.isNone && pcoreOf s h != 0x1FF &&
    pcoreState s (tileOfCore l) (pcoreOf s h) == 0 && !(s.cores.any fun e => match e.2.guest with
      | some g => g.1 == h
      | none => false)

/-- Logical core that a physical core of a tile serves. -/
def servedBy (s : State) (t p : Nat) : Option Nat :=
  (span (t * 256) 256).find? fun l => pcoreOf s l == p && pcoreState s t p == 0

/-- Guests that a logical core hosts (R356). -/
def guestsOf (s : State) (h : Nat) : List Nat :=
  (s.cores.filter fun e => match e.2.guest with | some g => g.1 == h | none => false).map (·.1)

/-- Logical cores that run on a physical core: the one it serves and the guests of that one. -/
def ranBy (s : State) (t p : Nat) : List Nat :=
  match servedBy s t p with
  | some l => l :: guestsOf s l
  | none => []

/-- Surviving bound cores of a context: not guests, on tiles that are not fenced. -/
def survivors (s : State) (n : Nat) : List Nat :=
  (ctxCores s n).filter fun l => (coreOf s l).guest.isNone && !(tileOf s (tileOfCore l)).fenced

/-- A logical core waits, switched out, at a host. -/
def becomeGuest (s : State) (l h : Nat) (backed : Bool) : State :=
  putCore s l { coreOf s l with guest := some (h, backed), out := true }

/-- R356: a guest whose host can run it no longer gets another by the rule for its kind; none where there is none. -/
def rehost (s : State) (g : Nat) : Option State :=
  match (coreOf s g).guest with
  | none => some s
  | some (_, false) => (guestHost s g).map fun h => becomeGuest s g h false
  | some (_, true) =>
    let n := (coreOf s g).st.ctx
    let sv := survivors s n
    let k := ((ctxCores s n).filter fun l => l < g && match (coreOf s l).guest with | some q => q.2 | none => false).length
    if sv.isEmpty then none else some (becomeGuest s g (sv[k % sv.length]?.getD 0) true)

/-- The same for several guests. -/
def rehostAll (s : State) (gs : List Nat) : Option State := gs.foldl (fun o g => o.bind fun s => rehost s g) (some s)

/-- R81, R83, R356: the logical core of a lost physical core: adopted by a spare, else doubled onto a survivor, and then its own
guests go to other hosts. A core that is fenced for good with no free spare raises REPLACE_REQ; a first failed verdict does not.
Answers none where no survivor is left. -/
def rehome (s : State) (t l : Nat) (fence : Bool) : Option State :=
  let w := pwellOf s l
  let s1 := replayLimit (discardCore s l true) l
  match freeSpare s1 t with
  | some p2 => some (adopt s1 t p2 w)
  | none => match guestHost s1 l with
    | some h =>
      let gs := guestsOf s1 l
      let s2 := becomeGuest (putTile s1 t { tileOf s1 t with serv := fset w 0x1FF (tileOf s1 t).serv }) l h false
      rehostAll (countGuests (if fence then raiseReason s2 1 else s2)) gs
    | none => none

end Sys2Proof.Machine
end

