-- ==== Sys2Proof/Machine/Failures.lean ====
section
/-! DEFINITION. Faults of single parts and what they do to contexts (R350 to R359, R363 to R369, Table 14.4). -/

namespace Sys2Proof.Machine

/-! ## Contexts that a fault touches -/

/-- Contexts whose binding holds a core that `p` selects. -/
def ctxsWith (s : State) (p : Nat → Bool) : List Nat :=
  (List.range 64).filter fun n => (ctxCores s n).any p

/-- R355: the streams of a serving context are lost: running and batched requests, and requests that no earlier reset of
their stream precedes, retire with 0x5501; later ones run from position 0. -/
def loseStreams (s : State) (n : Nat) (p : Pattern) : State :=
  let x := ctxOf s n
  let reqs := s.accepted.filter fun e => e.op == 0xE2 && e.ctx == n
  let inBatch (e : Entry) : Bool := (x.running ++ x.released.flatten ++ x.forming).any fun b => b.ring == e.ring && b.seq == e.seq
  let started (e : Entry) : Bool := x.running.any fun b => b.ring == e.ring && b.seq == e.seq
  let strm (e : Entry) : Nat := leAt e.copy1 2 2
  let rst (e : Entry) : Bool := bitAt (leAt e.copy1 4 1) 0
  let all := List.range (leAt p.step 6 2)
  let keepOf (k : Nat) : List Entry :=
    (reqs.filter fun e => strm e == k && !(inBatch e) && !(started e)).dropWhile fun e => !(rst e)
  let kept := all.flatMap keepOf
  let gone := reqs.filter fun e => !(kept.contains e)
  let pos (k : Nat) : Nat := (keepOf k).foldl (fun a e => (if rst e then 0 else a) + leAt e.copy1 8 4) 0
  let x1 := { x with running := [], forming := [], released := [], lostStreams := all.filter fun k => (keepOf k).isEmpty,
                     pos := all.foldl (fun m k => if (keepOf k).isEmpty then m else fset k (pos k) m) [] }
  gone.foldl (fun s e => retire s e { status := 0x5501 }) (rsetf (putCtx s n x1) (rFnCtx n) 2 1 0)

/-- R355, R356: the running and later steps of a context retire with a status: its training step, or the requests that it has begun. -/
def deaden (s : State) (n status : Nat) : State :=
  let x := ctxOf s n
  let s1 := putCtx s n { x with dead := some status }
  if x.run.isSome then finishStep s1 n status
  else
    let begun := x.running ++ x.released.flatten ++ x.forming
    let l := s.accepted.filter fun e => e.op == 0xE2 && e.ctx == n && begun.any fun b => b.ring == e.ring && b.seq == e.seq
    let s2 := putCtx s1 n { x with dead := some status, running := [], released := [], forming := [] }
    l.foldl (fun s e => retire s e { status := status }) (if l.isEmpty then s1 else rsetf s2 (rFnCtx n) 2 1 0)

/-- R356: the guests that a fault would need have no room: running and later steps retire with 0x7502 until a new `bind`. -/
def noRoom (s : State) (n : Nat) : State := deaden (putCtx s n { ctxOf s n with capLost := true }) n 0x7502

/-- R354, R355: what a context suffers when wells of the given cores are lost, micro-batches homed in `regions` with them. -/
def wellsLost (s : State) (n : Nat) (ls regions : List Nat) : State :=
  let x := ctxOf s n
  match x.pat with
  | none => rebuild s n ls
  | some p =>
    if !p.training then loseStreams (rebuild (haltSlots s n false) n ls) n p
    else if p.uplace == 0 then deaden (rebuild (haltSlots s n false) n ls) n 0x7502
    else match x.run with
      | none => rebuild s n ls
      | some r =>
        if backwardOver s n r then rebuild s n ls
        else
          let lost := (List.range r.nmb).filter fun i => regions.any (bitAt (p.home i)) && !(r.lost.any fun m => m.mbi == i)
          let pass := passOf s n none
          let layer := lossLayer s n r pass
          let ms := lost.map fun i => (⟨i, 0x7501, layer, pass⟩ : LostMb)
          let s1 := putCtx (useFree s) n { x with run := some { r with lost := r.lost ++ ms } }
          let s2 := ms.foldl (fun s m => sendLoss s n m) s1
          restartStep (putCtx s2 n { ctxOf s2 n with lostWells := ninsAll ls (ctxOf s2 n).lostWells }) n

/-! ## Well-backed guests (R356, R358) -/

/-- Bytes of the dump region that a well-backed guest takes: two wells and basting stores (R356). -/
def guestBytes : Nat := 8912896

/-- R432: lowest byte of the guest space. -/
def guestFloor (s : State) : Nat := 9 * 2 ^ 30 - guestBytes * s.boot.guests.length

/-- A field of the dump region. -/
def dumpAt (s : State) (o n : Nat) : Nat := leNat ((span o n).map fun a => cellGet 0 a s.dumpMem)

/-- R432: guests placed over a valid dump clobber the sections they overlap. -/
def clobber (s : State) : State :=
  let hit := (List.range (dumpAt s 2 2)).filter fun i =>
    dumpAt s (64 + 32 * i + 2) 2 % 2 == 1 && guestFloor s < dumpAt s (64 + 32 * i + 8) 8 + dumpAt s (64 + 32 * i + 16) 8
  if rfld s (rDG 0) 0 1 == 0 || hit.isEmpty then s
  else
    let m := hit.foldl (fun m i => cellSet 0 (64 + 32 * i + 2) (cellGet 0 (64 + 32 * i + 2) s.dumpMem ||| 4) m) s.dumpMem
    rsetf { s with dumpMem := m } (rDG 0) 2 1 1

/-- R356: well-backed guests are placed, in ascending logical core ID, on the context's survivors, and guests of cores that can host
no more move to other hosts; none where the dump region or the survivors do not suffice. -/
def placeGuests (s : State) (n : Nat) (ls : List Nat) : Option State :=
  let sv := (survivors s n).filter fun l => !(ls.contains l)
  let old := (ctxCores s n).filter fun l => match (coreOf s l).guest with | some g => g.2 | none => false
  if sv.isEmpty || 1024 < s.boot.guests.length + ls.length then none
  else
    let put (s : State) (e : Nat × Nat) : State := becomeGuest s e.1 (sv[(old.length + e.2) % sv.length]?.getD 0) true
    let s1 := ls.zipIdx.foldl put s
    let lost := s1.cores.filter fun e => match e.2.guest with
      | some g => (coreOf s1 g.1).guest.isSome || (tileOf s1 (tileOfCore g.1)).fenced
      | none => false
    let s2 := (rehostAll s1 (lost.map (·.1))).getD s1
    some (clobber (countGuests { s2 with boot := { s2.boot with guests := s2.boot.guests ++ ls } }))

/-! ## Tiles, regions -/

/-- Power region of a tile. -/
def regionOfTile (t : Nat) : Nat := t / 8 / 2 * 4 + t % 8 / 2

/-- Tiles of a power region. -/
def regionTiles (r : Nat) : List Nat := [0, 1, 8, 9].map fun k => 16 * (r / 4) + 2 * (r % 4) + k

/-- WH_HEALTH0 counts. -/
def countHealth (s : State) : State :=
  let tiles := ((List.range 64).filter fun t => (tileOf s t).fenced).length
  let regs := popCount 16 (rget s 0x800C)
  let cs := ((List.range 24).filter fun j => (cistOf s j).fenced).length
  rput s 0x8004 (tiles + regs * 2 ^ 7 + cs * 2 ^ 12 + (failedPorts s).length * 2 ^ 17)

/-- R358: objects of fenced tiles move to the well-head's store of 4,096. -/
def moveObjects (s : State) (t : Nat) : State :=
  let l := (s.sos.filter fun e => e.1 / 1024 == t && e.2.st.gen != 0).map (·.1)
  { s with soStore := (ninsAll l s.soStore).take 4096 }

/-- Fence tiles: fenced, powered off, their objects moved, their logical cores guests, their contexts restarted
(R352, R354 to R358). -/
def fenceTiles (s : State) (ts regions : List Nat) : State :=
  let new := ts.filter fun t => !(tileOf s t).fenced
  let s1 := new.foldl (fun s t => moveObjects (putTile s t { tileOf s t with fenced := true, tier := .off, jobs := [], fwd := [] }) t) s
  let s2 := countHealth (writeDetours s1)
  (ctxsWith s2 fun l => new.contains (tileOfCore l)).foldl (fun s n =>
    let ls := (ctxCores s n).filter fun l => new.contains (tileOfCore l) && !((coreOf s l).guest.any (·.2))
    match placeGuests (haltSlots s n false) n ls with
    | some s3 => wellsLost s3 n ls regions
    | none => noRoom (haltSlots s n false) n) s2

/-- R352: a tile fails. -/
def failTile (s : State) (t : Nat) : State :=
  if 63 < t || (tileOf s t).fenced then s
  else fenceTiles (defectAppend s 2 (t * 2 ^ 21)) [t] [regionOfTile t]

/-- Raise reason 4 when more than four ports are failed (Table 14.6). -/
def portReason (s : State) : State := countHealth (if 4 < (failedPorts s).length then raiseReason s 4 else s)

/-- R290, R353: port state failed. -/
def portOut (s : State) (n : Nat) : State := rsetf (rsetf s (rAK n 0) 0 2 3) (rAK n 0) 2 4 0

/-- PW_PR_n of a lost region: fenced, lost. -/
def regionOut (s : State) (r : Nat) : State := rsetf (rsetf s (rPW (0x100 + 4 * r)) 0 2 3) (rPW (0x100 + 4 * r)) 2 1 1

/-- R353: a region is lost for good; `uv` says that its input fell, which keeps no fuse event (R395). -/
def failRegion (s : State) (r : Nat) : State :=
  if 15 < r || rfld s 0x800C r 1 == 1 then s
  else
    let s1 := raiseReason (rsetf (regionOut (defectAppend s 3 (r * 2 ^ 23)) r) 0x800C r 1 1) 2
    let s2 := (regionTiles r).foldl portOut s1
    fenceTiles (portReason s2) (regionTiles r) [r]

/-! ## Cores and wells -/

/-- R81 to R83, R350: an active core is lost with a cause; `state` is fenced (2) or quarantine (3). The unretired stitches of the
logical core that it serves and of that core's guests are discarded. A core that leaves quarantine for a fence on a tile with no
free spare is lost with REPLACE_REQ (Table 14.6). -/
def loseCore (s : State) (t p state cause : Nat) : State :=
  let l := servedBy s t p
  let gs := (ranBy s t p).tail
  let was := pcoreState s t p
  let s1 := setPcore s t p state cause
  if was == 3 && state == 2 && (freeSpare s1 t).isNone then raiseReason s1 1
  else if was != 0 then s1
  else match l with
    | none => s1
    | some l =>
      let s2 := gs.foldl (fun s g => replayLimit (discardCore s g true) g) s1
      match rehome s2 t l (state == 2) with
      | some s3 => s3
      | none => failTile s2 t

/-- R80 to R83: a core fails with a cause. -/
def failCore (s : State) (t p cause : Nat) : State :=
  if 63 < t || 263 < p || pcoreState s t p == 2 then s else loseCore s t p 2 cause

/-- R82: a witness verdict of a stitch of context `n` failed on a core: quarantine, or a fence when the core is on probation. -/
def failWitness (s : State) (t p n : Nat) : State :=
  if rfld s (rPcore t p) 12 1 == 1 then failCore s t p 3
  else loseCore (putTile s t { tileOf s t with probation := fset p n (tileOf s t).probation }) t p 3 6

/-- R351: a well fails: its logical core takes a free spare core and its well, or becomes a well-backed guest. -/
def failWell (s : State) (t w : Nat) : State :=
  if 63 < t || 263 < w || (tileOf s t).failedWells.contains w then s
  else
    let x := tileOf s t
    let s1 := defectAppend (putTile s t { x with failedWells := nins w x.failedWells }) 1 (t * 2 ^ 21 + w * 2 ^ 12)
    match (span (t * 256) 256).find? fun l => pwellOf s l == w with
    | none => s1
    | some l =>
      let p := pcoreOf s l
      let s2 := if p == 0x1FF then s1
        else rsetf (rsetf (rsetf (dropInjection s1 t p) (rPcore t p) 0 9 0x1FF) (rPcore t p) 9 2 1) (rPcore t p) 11 1 0
      let n := (coreOf s l).st.ctx
      let y := tileOf s2 t
      match (List.range 264).find? fun q => pcoreState s t q == 1 && !(y.failedWells.contains q) with
      | some q =>
        let s3 := adopt (putTile s2 t { y with wells := fset (l % 256) q y.wells }) t q q
        if (coreOf s l).st.gen == 0 then s3 else wellsLost (haltSlots s3 n false) n [l] []
      | none =>
        if (coreOf s l).st.gen == 0 then putTile s2 t { y with badIdx := nins (l % 256) y.badIdx }
        else match placeGuests (haltSlots s2 n false) n [l] with
          | some s3 => wellsLost s3 n [l] []
          | none => noRoom (haltSlots s2 n false) n

/-! ## Cisterns and channels -/

/-- WH_HEALTH1.chan_out and reason 3 of Table 14.6; the slices of such a channel hold no journal records, so that WH_JRN.single is set
(Table 14.4, R231). -/
def countChans (s : State) : State :=
  let k := (badChans s).length
  let s1 := rsetf (if k == 0 then s else rsetf s 0x8014 0 1 1) 0x8008 0 9 k
  if 2 < k then raiseReason s1 3 else s1

/-- R227: an active channel fails with a cause. -/
def failChan (s : State) (c cause : Nat) : State :=
  if 383 < c || chanState s c != 0 then s
  else
    let s1 := rsetf (rsetf s (rChan c) 0 2 1) (rChan c) 4 4 cause
    countChans (defectAppend s1 5 (c / 4 * 2 ^ 20 + c % 4 * 2 ^ 18 + cause * 2 ^ 14))

/-- R368: a cistern fails with its sixteen channels; the cause of a logic failure is the burst of Table 9.5 (log 23). -/
def failCist (s : State) (j : Nat) : State :=
  if 23 < j || (cistOf s j).fenced then s
  else
    let s1 := putCist (defectAppend s 4 (j * 2 ^ 22)) j { cistOf s j with fenced := true, jobs := [] }
    countHealth (rsetf ((span (16 * j) 16).foldl (fun s c => failChan s c 2) s1) 0x8014 0 1 1)

/-! ## Carrier links (R369) -/

/-- Table 18.4: defect entry fields of a carrier link. -/
def linkFields : CarrierLink → Nat
  | .mesh pl x y d => pl % 2 * 2 ^ 24 + x % 128 * 2 ^ 17 + y % 128 * 2 ^ 10 + d % 4 * 2 ^ 8
  | .edge pl c l => 1 * 2 ^ 25 + pl % 2 * 2 ^ 24 + c % 32 * 2 ^ 19 + l % 32 * 2 ^ 14
  | .wellHead c => 2 * 2 ^ 25 + c % 32 * 2 ^ 19
  | .seam pl y we => 3 * 2 ^ 25 + pl % 2 * 2 ^ 24 + y % 128 * 2 ^ 10 + (if we then 0 else 2 ^ 9)
  | .stack _ _ => 0

/-- R232, R369: a carrier link is marked down, which the routers and rotations follow (R187, R196); a link to a stack fails its
channel. -/
def failLink (s : State) : CarrierLink → State
  | .stack k c => failChan s (4 * k + c % 4) 1
  | l =>
    if s.boot.linksDown.contains l then s
    else rsetf (defectAppend { s with boot := { s.boot with linksDown := s.boot.linksDown ++ [l] } } 6 (linkFields l))
      0x8008 24 1 1

/-! ## The commands -/

/-- R351: WELL_FAILURE. -/
def execWellFailure (tile pwell : Nat) (s : State) : Host.Outcome State Fault Refusal :=
  shown (fun s => failWell s tile pwell) s

/-- R352: TILE_FAILURE. -/
def execTileFailure (tile : Nat) (s : State) : Host.Outcome State Fault Refusal := shown (fun s => failTile s tile) s

/-- R353: POWER_REGION_FAULT. -/
def execPowerRegionFault (region : Nat) (s : State) : Host.Outcome State Fault Refusal :=
  shown (fun s => failRegion s region) s

/-- R368: CISTERN_FAILURE. -/
def execCisternFailure (cn : Nat) (s : State) : Host.Outcome State Fault Refusal := shown (fun s => failCist s cn) s

/-- R369: CARRIER_LINK_FAILURE. -/
def execCarrierLinkFailure (link : CarrierLink) (s : State) : Host.Outcome State Fault Refusal :=
  shown (fun s => failLink s link) s

/-- R357: may the running logical core of a host switch out: every bound slot of it waits outside the core, or it has run 2^20 active
cycles since it was switched in? -/
def maySwitch (c : CoreSt) : Bool := !c.runs || 2 ^ 20 ≤ c.ran

/-- R357: a host core switches: its own logical core and its guests run in turn, in ascending order (log 37). -/
def switchHost (h : Nat) (s : State) : State :=
  let ring := h :: guestsOf s h
  match ring.findIdx? fun l => !(coreOf s l).out with
  | none => s
  | some i =>
    let now := ring[i]?.getD h
    let next := ring[(i + 1) % ring.length]?.getD h
    if now == next || !(maySwitch (coreOf s now)) then s
    else
      let s1 := putCore s now { coreOf s now with out := true }
      putCore s1 next { coreOf s1 next with out := false, ran := 0 }

/-- R357: HOST_CORE_SWITCH. -/
def execHostCoreSwitch (host : Nat) (s : State) : Host.Outcome State Fault Refusal := shown (switchHost host) s

/-- R363: a descriptor's burst stalls; the stall is the youngest. -/
def stall (s : State) (unit : Nat) (j : PumpJob) : State :=
  let old := s.boot.stalls.filter fun e => (stalledJobs s).contains e
  putJob { s with boot := { s.boot with stalls := old ++ [(unit, j.id)] } } unit { j with stalled := true }

/-- R363: a running descriptor holds a stalled burst. -/
def execStalledBurst (unit job : Nat) (s : State) : Host.Outcome State Fault Refusal :=
  shown (fun s => match jobOf s unit job with
    | some j => if j.phase == .running && !j.stalled then stall s unit j else s
    | none => s) s

/-- R364, R389: a stall has lasted the configured interval: one STALLED event. -/
def stallEvent (s : State) : State :=
  if rfld s 0x8020 0 16 == 0 || stallCount s == 0 then s
  else
    let s1 := rsetf { s with boot := { s.boot with stalledEvents := (s.boot.stalledEvents + 1) % 2 ^ 64 } } 0x8024 23 1 1
    if rfld s1 0x201000 6 1 == 1 then emit s1 (.msix (rfld s1 0x201000 0 6)) else s1

/-- R364: STALLED_EVENT. -/
def execStalledEvent (s : State) : Host.Outcome State Fault Refusal := shown stallEvent s

/-- R364: data resumes. -/
def execStallResume (unit job : Nat) (s : State) : Host.Outcome State Fault Refusal :=
  shown (fun s => match jobOf s unit job with
    | some j => putJob (if unit < 64 then rouse s unit else s) unit { j with stalled := false }
    | none => s) s

end Sys2Proof.Machine
end

