-- ==== Sys2Proof/Machine/Streams.lean ====
section
/-! DEFINITION. Ring, synchronisation object, pump, stitch, c-register and base/bound instructions
(R93, R94, R108 to R112, R298). -/

namespace Sys2Proof.Machine

/-! ## Rings -/

/-- R108: the ring of imm[5:0], if the form is right and the pattern declares it for the slot and direction
(`fill`: the slot fills it). -/
def ringFor (s : State) (u : StreamId) (f : Fields) (fill : Bool) : Option RingSt :=
  if f.imm.toNat < 64 && f.src1 == 0 && f.src2 == 0 && f.mod == (if fill then 0 else 1) then
    match (coreOf s u.lcid).ring? f.imm.toNat with
    | some r => if (if fill then r.fill else r.drain) == u.slot then some r else none
    | none => none
  else none

/-- R108: the offset of a ring slot in the well. -/
def RingSt.offset (r : RingSt) (i : Nat) : W64 := BitVec.ofNat 64 (r.base + i * r.size)

/-- R108, R176: `racq.w`. -/
def racqWBody (u : StreamId) (f : Fields) (s : State) : Res :=
  match ringFor s u f true with
  | none => .fault 0x2002
  | some r =>
    let give (s : State) (i : Nat) : Res := .ok (setArch s u ((slotOf s u).arch.sput f.dst (r.offset i)))
    match r.acqW with
    | some i => give s i
    | none =>
      let i := r.fillRun % r.count
      let x := r.slot i
      if x.st == .empty then
        let r1 := { r.putSlot i { x with st := .filling } with acqW := some i }
        give (putCore s u.lcid ((coreOf s u.lcid).putRing f.imm.toNat r1)) i
      else .wait (.ring f.imm.toNat false)

/-- R108, R176: `racq.r`; a provisional slot becomes an input that must be confirmed. -/
def racqRBody (u : StreamId) (f : Fields) (s : State) : Res :=
  match ringFor s u f false with
  | none => .fault 0x2002
  | some r =>
    let k := f.imm.toNat
    let give (s : State) (i : Nat) : Res := .ok (setArch s u ((slotOf s u).arch.sput f.dst (r.offset i)))
    match r.acqR with
    | some i => give s i
    | none =>
      let i := r.drainRun % r.count
      let x := r.slot i
      if x.st == .full || x.st == .provFull then
        let prov := x.st == .provFull
        let r1 := { r.putSlot i { x with st := .draining, prov := prov } with acqR := some i }
        let c := (coreOf s u.lcid).putRing k r1
        let y := c.slot u.slot
        give (putCore s u.lcid (c.putSlot u.slot { y with opn := y.opn.read k i prov })) i
      else .wait (.ring k true)

/-- R95: an `rrel` without an acquired slot. -/
def rrelNone (s : State) (u : StreamId) : Res := .ok (setArch s u (slotOf s u).arch.setRrx)

/-- R108, R173: `rrel.w`: the filling slot becomes provisional-full with the four tags of the stitch. -/
def rrelWBody (u : StreamId) (f : Fields) (s : State) : Res :=
  match ringFor s u f true with
  | none => .fault 0x2002
  | some r =>
    if f.dst != 0 then .fault 0x2002
    else match r.acqW with
      | none => rrelNone s u
      | some i =>
        let k := f.imm.toNat
        let c := coreOf s u.lcid
        let y := c.slot u.slot
        let x := r.slot i
        let tags : Tags := ⟨u.lcid, u.slot, y.opn.seq, fget 0 y.opn.seq y.replays⟩
        let x1 := { x with st := .provFull, prov := false, vouched := false, tags := some tags, ords := [], vords := [],
                           ingress := false, mAt := y.mPass + y.opn.verdicts.length +
                             (match y.closed with | some cl => cl.st.verdicts.length | none => 0),
                           clean := !y.opn.poison }
        let r1 := { r.putSlot i x1 with acqW := none, fillRun := (r.fillRun + 1) % r.count }
        let y1 := { y with opn := { y.opn with filled := y.opn.filled ++ [(k, i)] } }
        .ok (putCore s u.lcid ((c.putRing k r1).putSlot u.slot y1))

/-- R108: `rrel.r`: the slot stays draining until the stitch retires. -/
def rrelRBody (u : StreamId) (f : Fields) (s : State) : Res :=
  match ringFor s u f false with
  | none => .fault 0x2002
  | some r =>
    if f.dst != 0 then .fault 0x2002
    else match r.acqR with
      | none => rrelNone s u
      | some i =>
        let k := f.imm.toNat
        let c := coreOf s u.lcid
        let y := c.slot u.slot
        let r1 := { r with acqR := none, drainRun := (r.drainRun + 1) % r.count }
        let y1 := { y with opn := { y.opn.read k i (r.slot i).prov with drained := y.opn.drained ++ [(k, i)] } }
        .ok (putCore s u.lcid ((c.putRing k r1).putSlot u.slot y1))

/-! ## Synchronisation objects -/

/-- R109: the context-relative index an instruction names. -/
def soIndex (a : Arch) (f : Fields) : Nat := (a.sget f.src1 + immSx f).toNat

/-- R109, R327: the physical object of an index of the slot's context, none at or beyond the number it holds. -/
def soPhys (s : State) (u : StreamId) (i : Nat) : Option Nat :=
  match (ctxOf s (coreOf s u.lcid).st.ctx).bind with
  | some b => if i < b.soCount then b.so? i else none
  | none => none

/-- R298, R326: the context holds the 4,096 cascade objects when its binding asks for them. -/
def casHeld (s : State) (u : StreamId) (i : Nat) : Bool :=
  match (ctxOf s (coreOf s u.lcid).st.ctx).bind with
  | some b => b.cso && i < 4096
  | none => false

/-- R109: V − target, signed, is at least zero. -/
def soMet (v target : W64) : Bool := decide (0 ≤ (v - target).toInt)

/-- R109: `sow`. -/
def sowBody (u : StreamId) (f : Fields) (s : State) : Res :=
  let a := (slotOf s u).arch
  let target := a.sget f.src2
  if f.mod != 0 then .fault 0x2002
  else match soPhys s u (soIndex a f) with
    | none => .fault 0x2003
    | some n =>
      let o := soOf s n
      if soMet o.v target then .ok (setArch s u (a.sput f.dst o.v))
      else
        let others := o.waits.filter fun w => match w with | .slot u' _ => u' != u | _ => true
        .park { s with sos := fset n { o with waits := others ++ [.slot u target] } s.sos } (.so n false f.dst target)

/-- R109: `sos`, gated. -/
def sosBody (u : StreamId) (f : Fields) (s : State) : Res :=
  let a := (slotOf s u).arch
  if f.mod != 0 || f.dst != 0 then .fault 0x2002
  else if (soPhys s u (soIndex a f)).isNone then .fault 0x2003
  else gate s u (.signal (soIndex a f) false (a.sget f.src2))

/-- R109: `sord`. -/
def sordBody (u : StreamId) (f : Fields) (s : State) : Res :=
  let a := (slotOf s u).arch
  if f.mod != 0 || f.src2 != 0 then .fault 0x2002
  else match soPhys s u (soIndex a f) with
    | none => .fault 0x2003
    | some n => .ok (setArch s u (a.sput f.dst (soOf s n).v))

/-- R298, Table 12.4: a wait (kind 0) or read (kind 1) goes to the master under a new request tag. While the cascade function is not
ON there is no master: nothing is asked, and what waits then asks when the start completes (askWaiting; DEDUCED, log 54). -/
def casAsk (s : State) (u : StreamId) (i kind : Nat) (dst : BitVec 5) (target : W64) : State :=
  if !s.casc.active then s
  else
    let tag := s.casc.reqCtr
    let s1 := { s with casc := { s.casc with reqCtr := (tag + 1) % 2 ^ 32,
                                             reqs := (s.casc.reqs.filter fun r => r.2.1 != u) ++ [(tag, u, dst)] } }
    sendFrame s1 s1.casc.master { ty := 2, code := 4, spec := leBytes 2 i ++ leBytes 2 kind ++ leBytes 4 tag ++
                                    leBytes 8 target.toNat }

/-- R298: has a slot a request at the master that is not answered? -/
def casAsked (s : State) (u : StreamId) : Bool := s.casc.active && s.casc.reqs.any fun r => r.2.1 == u

/-- R298: `sow.c`. -/
def sowCBody (u : StreamId) (f : Fields) (s : State) : Res :=
  let x := slotOf s u
  let i := soIndex x.arch f
  let w : Wait := .so i true f.dst (x.arch.sget f.src2)
  if f.mod != 1 then .fault 0x2002
  else if !(casHeld s u i) then .fault 0x2003
  else if x.wait == some w && casAsked s u then .wait w
  else .park (casAsk s u i 0 f.dst (x.arch.sget f.src2)) w

/-- R298: `sos.c`, gated. -/
def sosCBody (u : StreamId) (f : Fields) (s : State) : Res :=
  let a := (slotOf s u).arch
  if f.mod != 1 || f.dst != 0 then .fault 0x2002
  else if !(casHeld s u (soIndex a f)) then .fault 0x2003
  else gate s u (.signal (soIndex a f) true (a.sget f.src2))

/-- R298: `sord.c`. -/
def sordCBody (u : StreamId) (f : Fields) (s : State) : Res :=
  let x := slotOf s u
  let i := soIndex x.arch f
  let w : Wait := .soRead i f.dst
  if f.mod != 1 || f.src2 != 0 then .fault 0x2002
  else if !(casHeld s u i) then .fault 0x2003
  else if x.wait == some w && casAsked s u then .wait w
  else .park (casAsk s u i 1 f.dst 0) w

/-! ## Pumps, c-registers, pairs -/

/-- R111, R197: `ppost` puts a descriptor of the own well into the tile's queue of 256. -/
def ppostBody (u : StreamId) (f : Fields) (s : State) : Res :=
  let c := coreOf s u.lcid
  let x := c.slot u.slot
  let off := (memOff x.arch f).toNat
  let t := tileOfCore u.lcid
  let q := tileOf s t
  if f.dst != 0 || f.src2 != 0 || f.mod != 0 then .fault 0x2002
  else if off % 64 != 0 then .fault 0x2004
  else if off + 64 > scratch c then .fault 0x2003
  else if (q.jobs.filter fun j => j.phase != .running).length ≥ 256 then .wait .pumpQueue
  else
    let j : PumpJob := { id := q.jobCtr, lcid := u.lcid, slot := u.slot, addr := off, st := c.st, seq := x.opn.seq,
                         replay := fget 0 x.opn.seq x.replays, pairs := x.arch.b, epoch := x.arch.epoch.toNat }
    .ok (putTile s t { q with jobs := q.jobs ++ [j], jobCtr := q.jobCtr + 1 })

/-- R94: `cget`, N in src1. -/
def cgetBody (u : StreamId) (f : Fields) (s : State) : Res :=
  if f.src2 != 0 || f.mod != 0 || f.imm != 0 then .fault 0x2002
  else match cregGet s u f.src1.toNat with
    | none => .fault 0x2002
    | some v => .ok (setArch s u ((slotOf s u).arch.sput f.dst v))

/-- R94, R95, R148: `cset`, N in dst; only c.sstat and c.vstat can be written, their reserved bits stay zero. -/
def csetBody (u : StreamId) (f : Fields) (s : State) : Res :=
  let a := (slotOf s u).arch
  let v := a.sget f.src1
  if f.src2 != 0 || f.mod != 0 || f.imm != 0 then .fault 0x2002
  else if f.dst == 11 then .ok (setArch s u { a with sstat := v &&& 3 })
  else if f.dst == 12 then .ok (setArch s u { a with vstat := v &&& 0x3F })
  else .fault 0x2002

/-- R93: a pair narrowed, none where the new range leaves the old one. -/
def BPair.narrow (b : BPair) (off len : W64) : Option BPair :=
  if off.toNat + len.toNat ≤ b.len.toNat then some { b with base := b.base + off, len := len } else none

/-- R93: `bnar`, k in dst. -/
def bnarBody (u : StreamId) (f : Fields) (s : State) : Res :=
  let a := (slotOf s u).arch
  let k := f.dst.extractLsb' 0 2
  if f.dst.toNat > 3 || f.mod != 0 || f.imm != 0 then .fault 0x2002
  else match (a.bget k).narrow (a.sget f.src1) (a.sget f.src2) with
    | none => .fault 0x2003
    | some b => .ok (setArch s u (a.bput k b))

/-- R93: `bget`, k in src1. -/
def bgetBody (u : StreamId) (f : Fields) (s : State) : Res :=
  let a := (slotOf s u).arch
  let b := a.bget (f.src1.extractLsb' 0 2)
  if f.src1.toNat > 3 || f.mod.toNat > 1 || f.src2 != 0 || f.imm != 0 then .fault 0x2002
  else .ok (setArch s u (a.sput f.dst (if f.mod == 0 then b.base else b.len)))

/-! ## The commands -/

/-- R108: `racq.w`. -/
def execRacqW (u : StreamId) (f : Fields) (s : State) : Host.Outcome State Fault Refusal :=
  .next (issue u .lane0 f [.s f.dst] (racqWBody u f) s)

/-- R108: `racq.r`. -/
def execRacqR (u : StreamId) (f : Fields) (s : State) : Host.Outcome State Fault Refusal :=
  .next (issue u .lane0 f [.s f.dst] (racqRBody u f) s)

/-- R108: `rrel.w`. -/
def execRrelW (u : StreamId) (f : Fields) (s : State) : Host.Outcome State Fault Refusal :=
  .next (issue u .lane0 f [] (rrelWBody u f) s)

/-- R108: `rrel.r`. -/
def execRrelR (u : StreamId) (f : Fields) (s : State) : Host.Outcome State Fault Refusal :=
  .next (issue u .lane0 f [] (rrelRBody u f) s)

/-- R109: `sow`. -/
def execSow (u : StreamId) (f : Fields) (s : State) : Host.Outcome State Fault Refusal :=
  .next (issue u .lane0 f [.s f.src1, .s f.src2, .s f.dst] (sowBody u f) s)

/-- R109: `sos`. -/
def execSos (u : StreamId) (f : Fields) (s : State) : Host.Outcome State Fault Refusal :=
  .next (issue u .lane0 f [.s f.src1, .s f.src2] (sosBody u f) s)

/-- R109: `sord`. -/
def execSord (u : StreamId) (f : Fields) (s : State) : Host.Outcome State Fault Refusal :=
  .next (issue u .lane0 f [.s f.src1, .s f.dst] (sordBody u f) s)

/-- R298: `sow.c`. -/
def execSowC (u : StreamId) (f : Fields) (s : State) : Host.Outcome State Fault Refusal :=
  .next (issue u .lane0 f [.s f.src1, .s f.src2, .s f.dst] (sowCBody u f) s)

/-- R298: `sos.c`. -/
def execSosC (u : StreamId) (f : Fields) (s : State) : Host.Outcome State Fault Refusal :=
  .next (issue u .lane0 f [.s f.src1, .s f.src2] (sosCBody u f) s)

/-- R298: `sord.c`. -/
def execSordC (u : StreamId) (f : Fields) (s : State) : Host.Outcome State Fault Refusal :=
  .next (issue u .lane0 f [.s f.src1, .s f.dst] (sordCBody u f) s)

/-- R111: `ppost`. -/
def execPpost (u : StreamId) (f : Fields) (s : State) : Host.Outcome State Fault Refusal :=
  .next (issue u .lane0 f [.s f.src1] (ppostBody u f) s)

/-- R112: `stitch`; every field is zero. -/
def execStitch (u : StreamId) (f : Fields) (s : State) : Host.Outcome State Fault Refusal :=
  .next (issue u .needP0 f [] (fun s => if f != {} then .fault 0x2002 else closeBody u false s) s)

/-- R94: `cget`. -/
def execCget (u : StreamId) (f : Fields) (s : State) : Host.Outcome State Fault Refusal :=
  .next (issue u .lane0 f [.s f.dst] (cgetBody u f) s)

/-- R94: `cset`. -/
def execCset (u : StreamId) (f : Fields) (s : State) : Host.Outcome State Fault Refusal :=
  .next (issue u .lane0 f [.s f.src1] (csetBody u f) s)

/-- R93: `bnar`. -/
def execBnar (u : StreamId) (f : Fields) (s : State) : Host.Outcome State Fault Refusal :=
  .next (issue u .lane0 f [.s f.src1, .s f.src2] (bnarBody u f) s)

/-- R93: `bget`. -/
def execBget (u : StreamId) (f : Fields) (s : State) : Host.Outcome State Fault Refusal :=
  .next (issue u .lane0 f [.s f.dst] (bgetBody u f) s)

end Sys2Proof.Machine
end

