-- ==== Sys2Proof/Machine/Events.lean ====
section
/-! DEFINITION. What reaches cores, slots and synchronisation objects from inside the module: verdicts, faults, halts,
retirements, wait limits, signals, vouches, confirmations, retractions, core failures, patrols (R63 to R84, R110, R139 to R141,
R167, R173 to R178). -/

namespace Sys2Proof.Machine

/-! ## Stitches and faults -/

/-- The first verdict a stitch waits for is taken. -/
def Stitch.pop (t : Stitch) : Stitch := { t with verdicts := t.verdicts.tail }

/-- R139: the verdict that arrives next, oldest stitch first, and the slot without it. -/
def takeVerdict (x : SlotSt) : Option (Verdict × SlotSt) :=
  match x.closed.bind fun c => c.st.verdicts.head?.map fun v => (c, v) with
  | some (c, v) => some (v, { x with closed := some { c with st := c.st.pop } })
  | none => match x.opn.verdicts.head? with
    | some v => some (v, { x with opn := x.opn.pop })
    | none => none

/-- R77, R82, R139: a verdict passes, or fails: the registers of the tile that produced the result show it, and its core is lost to
quarantine. A core that serves the stitch no longer leaves the stitch and later ones of the slot to be discarded. -/
def verdictBody (u : StreamId) (pass : Bool) (s : State) : State :=
  let x := slotOf s u
  match takeVerdict x with
  | none => s
  | some (v, x1) =>
    if pass && !v.injected then putSlot s u { x1 with mPass := x1.mPass + 1 }
    else
      let s1 := rcount (putSlot s u x1) (rTL v.tile 0x2800) 1
      let s2 := rput s1 (rTL v.tile 0x2808) (v.pcore % 512 + u.slot % 4 * 2 ^ 9 + v.aligned.toNat * 2 ^ 11 + 2 ^ 31)
      if (ranBy s2 v.tile v.pcore).contains u.lcid then failWitness s2 v.tile v.pcore (coreOf s u.lcid).st.ctx
      else
        let later := x.closed.all fun c => c.st.verdicts.isEmpty
        replayLimit (discardSlot s2 u later true) u.lcid

/-- R139: WITNESS_VERDICT. -/
def execWitnessVerdict (lcid slot : Nat) (pass : Bool) (s : State) : Host.Outcome State Fault Refusal :=
  shown (fun s => if s.boot.resetPending.isSome then s else verdictBody ⟨lcid, slot⟩ pass s) s

/-- Statuses that end a descriptor other than as complete (Tables 8.5 and 9.3, R303, R324). -/
def pumpStatuses : List Nat :=
  [0x2101, 0x2102, 0x2103, 0x2105, 0x2201, 0x2202, 0x2401, 0x6101, 0x6401, 0x6402, 0x7201, 0x7401]

/-- Statuses that a stream or a tile's pump reports to the command processor (Table 3.5, R106, R110, R177, R202; R17). -/
def streamStatus (st : Nat) : Bool :=
  [0x2001, 0x2002, 0x2003, 0x2004, 0x2006, 0x2007, 0x2008, 0x2010, 0x8001, 0x8002, 0x8003, 0x8004].contains st ||
  (pumpStatuses.contains st && st / 4096 == 2)

/-- R79, R323: a fault report reaches the command processor; one of an older binding is dropped, and a context already HALTED
has its status. -/
def faultArrives (status : Nat) (st : Stamp) (s1 : State) : State :=
  if st.gen == 0 || st != ctxStamp s1 st.ctx then dropItem s1
  else if ctxState s1 st.ctx == 3 then s1
  else contextFault s1 st.ctx status

/-- R79: FAULT_REPORT. -/
def execFaultReport (u : StreamId) (status : Nat) (st : Stamp) (s : State) : Host.Outcome State Fault Refusal :=
  shown (fun s => if streamStatus status then taken (.faultReport u status st) (faultArrives status st) s else s) s

/-- R79 steps 3 and 4: the slots of a core stop and discard; a faulted slot stays faulted. -/
def haltCore (s : State) (l : Nat) : State :=
  let s1 := discardCore s l false
  let c := coreOf s1 l
  putCore s1 l { c with slots := c.slots.map fun x =>
    if x.bound && x.phase != .faulted then { x with phase := .halted, wait := none } else x }

/-- R79: HALT_ARRIVE; once a reset is on its way no stitch is discarded (R430). -/
def execHaltArrive (lcid : Nat) (st : Stamp) (s : State) : Host.Outcome State Fault Refusal :=
  shown (fun s =>
    let go (s1 : State) : State := if st.gen != 0 && (coreOf s1 lcid).st == st then haltCore s1 lcid else dropItem s1
    if meshHolds s (.halt lcid st) || s.boot.resetPending.isSome then s
    else atCore (runTile s lcid) (fun s => go (arrive s (.halt lcid st))) s) s

/-- R299: does this module hold the last stage of its replica group? -/
def lastStage (c : Casc) : Bool := c.self / c.w % c.d + 1 == c.d

/-- R310, R311: the last stage reports FDONE once its forward pass has ended: every bound slot F has completed its part
(log 28). -/
def reportForward (s : State) (n : Nat) : State :=
  let x := ctxOf s n
  match x.run with
  | none => s
  | some r =>
    if onCascade s n && !r.fdoneSent && lastStage s.casc && forwardOver s n then
      toLeads (putCtx s n { x with run := some { r with fdoneSent := true } })
        { ty := 2, code := 0x10, spec := leBytes 2 (s.casc.self / (s.casc.w * s.casc.d)) ++ leBytes 2 r.nmb }
    else s

/-- R65, R66: STITCH_RETIRE: not once a reset is on its way, when the compute clocks stop (R430). -/
def execStitchRetire (u : StreamId) (s : State) : Host.Outcome State Fault Refusal :=
  shown (fun s => match (slotOf s u).closed with
    | some cl => if validStream u && s.boot.resetPending.isNone && canRetire (coreOf s u.lcid) cl then
        reportForward (retireStitch s u cl) (coreOf s u.lcid).st.ctx else s
    | none => s) s

/-- R63: STITCH_TOO_LONG: the command says that the OPEN stitch has reached 2^20 active cycles, so the slot waits on nothing outside
its core (log 1). -/
def execStitchTooLong (u : StreamId) (s : State) : Host.Outcome State Fault Refusal :=
  shown (fun s => if canIssue s u && (slotOf s u).active (coreOf s u.lcid) then
    raiseFault (putSlot s u { slotOf s u with acyc := 2 ^ 20 }) u 0x2010 else s) s

/-! ## Wait limits (R106, R110, R177) -/

/-- R106, R110, R177: a pump bound to the context holds a stalled burst, so the wait counts of the context pause. -/
def ctxStalled (s : State) (n : Nat) : Bool := (pumpUnits s).any fun k => (jobsOf s k).any fun j => j.stalled && j.st.ctx == n

/-- May a wait count of a slot's context run out: its core is not switched out (R357) and no burst of the context is stalled? -/
def waitCounts (s : State) (u : StreamId) : Bool := slotLive s u && !(ctxStalled s (coreOf s u.lcid).st.ctx)

/-- R106: LOAD_WAIT_LIMIT: a load outstanding for c.wlim core cycles raises 0x8004 at the load's own place. -/
def execLoadWaitLimit (u : StreamId) (id : Nat) (s : State) : Host.Outcome State Fault Refusal :=
  shown (fun s => match (slotOf s u).loads.find? fun l => l.id == id with
    | some l => if waitCounts s u then raiseAt s u 0x8004 l.pc l.seq else s
    | none => s) s

/-- R177: RACQ_WAIT_LIMIT. -/
def execRacqWaitLimit (u : StreamId) (s : State) : Host.Outcome State Fault Refusal :=
  shown (fun s => match (slotOf s u).wait with
    | some (.ring k read) => if waitCounts s u && !(racqReady (coreOf s u.lcid) k read) then raiseFault s u 0x8001 else s
    | _ => s) s

/-- R110: SO_WAIT_LIMIT. -/
def execSoWaitLimit (u : StreamId) (s : State) : Host.Outcome State Fault Refusal :=
  shown (fun s => if !(waitCounts s u) then s else match (slotOf s u).wait with
    | some (.so n false _ target) => if soMet (soOf s n).v target then s else raiseFault (dropWaits s u) u 0x8002
    | some (.so _ true _ _) => raiseFault (dropWaits s u) u 0x8003
    | _ => s) s

/-! ## Signals (R109, R110, R115) -/

/-- A live slot's waiting instruction completes with a value, which wakes the tile (R408). -/
def answerWait (s : State) (u : StreamId) (dst : BitVec 5) (v : W64) : State :=
  if slotLive s u then rouse (finish (setArch s u ((slotOf s u).arch.sput dst v)) u) (runTile s u.lcid) else s

/-- A waiting `sow` on object `n` of the module completes with the object's value; a slot that waits on something else by now
stays. -/
def completeSow (s : State) (u : StreamId) (n : Nat) (target v : W64) : State :=
  match (slotOf s u).wait with
  | some (.so k false dst t) => if k == n && t == target then answerWait s u dst v else s
  | _ => s

/-- R298: a waiting `sow.c` or `sord.c` completes with the master's answer. -/
def completeCas (s : State) (u : StreamId) (v : W64) : State :=
  match (slotOf s u).wait with
  | some (.so _ true dst _) => answerWait s u dst v
  | some (.soRead _ dst) => answerWait s u dst v
  | _ => s

/-- One wait that an object's value satisfies: a slot's, a `sync` entry's, or a module's (R298). -/
def completeWait (s : State) (idx : Nat) (v : W64) : SoWait → State
  | .slot u t => completeSow s u idx t v
  | .entry r q _ => match entryOf s r q with
    | some e => retire s e {}
    | none => s
  | .module m id _ => sendFrame s m { ty := 2, code := 5, spec := leBytes 2 idx ++ leBytes 2 0 ++ leBytes 4 id ++ leBytes 8 v.toNat }

/-- The target of a wait. -/
def SoWait.target : SoWait → W64
  | .slot _ t => t
  | .entry _ _ t => t
  | .module _ _ t => t

/-- R110: an amount is added to an object of the module; waits it satisfies complete. -/
def signalSo (s : State) (n : Nat) (amount : W64) : State :=
  let o := soOf s n
  let v := o.v + amount
  let hit := o.waits.filter fun w => soMet v w.target
  let s1 := { s with sos := fset n { o with v := v, waits := o.waits.filter fun w => !(soMet v w.target) } s.sos }
  hit.foldl (fun s w => completeWait s n v w) s1

/-- R298: the same for a cascade object. -/
def signalCso (s : State) (n : Nat) (amount : W64) : State :=
  let o := fget {} n s.csos
  let v := o.v + amount
  let hit := o.waits.filter fun w => soMet v w.target
  let s1 := { s with csos := fset n { o with v := v, waits := o.waits.filter fun w => !(soMet v w.target) } s.csos }
  hit.foldl (fun s w => completeWait s n v w) s1

/-- R324: an item of a sender that still holds its stamp was dropped; the context faults with 0x6101. -/
def dropFrom (s : State) (st : Stamp) : State :=
  let s1 := dropItem s
  if st.gen != 0 && st == heldStamp s1 st.ctx && ctxState s1 st.ctx != 3 then contextFault s1 st.ctx 0x6101 else s1

/-- R110: SO_SIGNAL_ARRIVE. -/
def execSoSignalArrive (so : Nat) (amount : W64) (sender : Sender) (s : State) : Host.Outcome State Fault Refusal :=
  shown (taken (.signal sender.site so amount sender.st) fun s1 =>
    if sender.st.gen != 0 && (soOf s1 so).st == sender.st then signalSo s1 so amount else dropFrom s1 sender.st) s

/-! ## Vouches, confirmations, retractions (R75 to R77, R173) -/

/-- The producing stitch of a forward-list entry has met poison. -/
def stitchPoisoned (x : SlotSt) (seq : Nat) : Bool :=
  (x.opn.seq == seq && x.opn.poison) || x.closed.any fun c => c.st.seq == seq && c.st.poison

/-- R77: the vouch of a forward-list entry. -/
def vouchOut (tile entry : Nat) (s : State) : State :=
  let t := tileOf s tile
  match t.fwd[entry]? with
  | none => s
  | some e =>
    let x := slotOf s ⟨e.tags.lcid, e.tags.slot⟩
    if e.vouched || !e.clean || stitchPoisoned x e.tags.seq || x.mPass < e.mAt then s
    else
      let s1 := putTile s tile { t with fwd := t.fwd.set entry { e with vouched := true } }
      match e.remote with
      | none => emit s1 (.vouch e.lcid e.tags e.ord e.st)
      | some m => sendFrame s1 m { ty := 2, code := 0x0B, byte1 := e.win, n := e.ord, spec := tagBytes e.tags }

/-- R77: VOUCH_SEND. -/
def execVouchSend (tile entry : Nat) (s : State) : Host.Outcome State Fault Refusal := shown (vouchOut tile entry) s

/-- Does a ring slot hold, or is it being filled with, provisional data of a stitch from a module? -/
def RSlot.holds (x : RSlot) (tags : Tags) (smod : Nat) : Bool :=
  x.ingress && x.tags == some tags && x.smod == smod &&
  (x.st == .filling || x.st == .provFull || (x.st == .draining && x.prov))

/-- Ring slots of a core that hold data of the tags. -/
def slotsOf (c : CoreSt) (tags : Tags) (smod : Nat) : List (Nat × Nat) :=
  c.rings.flatMap fun r => (r.2.slots.filter fun e => e.2.holds tags smod).map fun e => (r.1, e.1)

/-- A ring slot by number. -/
def CoreSt.rslot (c : CoreSt) (e : Nat × Nat) : RSlot := match c.ring? e.1 with | some r => r.slot e.2 | none => {}

/-- Ordinals of the blocks written so far with the tags. -/
def ordsOf (c : CoreSt) (tags : Tags) (smod : Nat) : List Nat :=
  (c.written.filter fun e => e.1 == tags && e.2.1 == smod).map fun e => e.2.2

/-- R173: a vouch marks its block, and the slot once every block is vouched. -/
def RSlot.vouch (x : RSlot) (ord : Nat) : RSlot :=
  let v := nins ord x.vords
  { x with vords := v, vouched := x.st != .filling && x.ords.all v.contains }

/-- A kind of message about provisional data. -/
inductive ProvMsg where
  | vouch (ord : Nat)
  | confirm (blocks : Nat)
  | retract (blocks : Nat)
  deriving DecidableEq, Repr

/-- R173: have the blocks that a message names been written? -/
def ProvMsg.due (m : ProvMsg) (ords : List Nat) : Bool :=
  match m with
  | .vouch k => ords.contains k
  | .confirm n => n ≤ ords.length
  | .retract n => n ≤ ords.length

/-- After a confirmation or a retraction no message of the tags is still to come: what has been written is forgotten. -/
def forgetTags (c : CoreSt) (tags : Tags) (smod : Nat) : CoreSt :=
  { c with written := c.written.filter fun e => !(e.1 == tags && e.2.1 == smod) }

/-- Table 7.2: a message acts on the slots of a core. A retraction can be the sixteenth replay of a stitch (R362); a
confirmation from another module is acknowledged through its window (R305). -/
def applyProv (s : State) (l : Nat) (tags : Tags) (smod win : Nat) (m : ProvMsg) : State :=
  let c := coreOf s l
  let es := slotsOf c tags smod
  match m with
  | .vouch k => putCore s l (modSlots (fun x => if x.ords.contains k then x.vouch k else x) es c)
  | .confirm k =>
    let s1 := rouseReady (putCore s l (modSlots confirmSlot es (forgetTags c tags smod))) l
    if smod == s.casc.self then s1 else sendFrame s1 smod { ty := 2, code := 9, byte1 := win, n := k, spec := tagBytes tags }
  | .retract _ => replayLimit (retractSlots (putCore s l (forgetTags c tags smod)) l es) l

/-- A held message as stored: kind, tags, number, module and window. -/
def ProvMsg.held (m : ProvMsg) (tags : Tags) (smod win : Nat) : Nat × Tags × Nat × List Nat :=
  match m with
  | .vouch k => (0, tags, k, [smod, win])
  | .confirm n => (1, tags, n, [smod, win])
  | .retract n => (2, tags, n, [smod, win])

/-- The message a held record stands for. -/
def heldMsg (h : Nat × Tags × Nat × List Nat) : ProvMsg :=
  match h.1 with
  | 0 => .vouch h.2.2.1
  | 1 => .confirm h.2.2.1
  | _ => .retract h.2.2.1

/-- R76, R173: a message about provisional data reaches a core: dropped when its data was treated as retracted, held until
its blocks are written, else applied; it is dropped when it then matches no slot. -/
def takeProv (s : State) (l : Nat) (tags : Tags) (smod win : Nat) (m : ProvMsg) : State :=
  let c := coreOf s l
  if smod == s.casc.self && c.retracted.contains tags then s
  else if m.due (ordsOf c tags smod) then applyProv s l tags smod win m
  else putCore s l { c with heldMsgs := c.heldMsgs ++ [m.held tags smod win] }

/-- R173: messages whose blocks are now written take effect, in the order they came. -/
def releaseHeld (s : State) (l : Nat) : State :=
  let hs := (coreOf s l).heldMsgs
  hs.foldl (fun s h =>
    let c := coreOf s l
    let smod := h.2.2.2.headD 0
    if (heldMsg h).due (ordsOf c h.2.1 smod) then
      applyProv (putCore s l { c with heldMsgs := eraseOne h c.heldMsgs }) l h.2.1 smod (h.2.2.2.getD 1 0) (heldMsg h)
    else s) s

/-- A message of the module's mesh reaches a core, if its stamp is the core's (R323). -/
def provArrives (s : State) (l : Nat) (tags : Tags) (st : Stamp) (m : ProvMsg) : State :=
  if st.gen != 0 && (coreOf s l).st == st then takeProv s l tags s.casc.self 0 m else dropFrom s st

/-- R173: VOUCH_ARRIVE. -/
def execVouchArrive (lcid : Nat) (tags : Tags) (ord : Nat) (st : Stamp) (s : State) : Host.Outcome State Fault Refusal :=
  shown (taken (.vouch lcid tags ord st) fun s => provArrives s lcid tags st (.vouch ord)) s

/-- R173: CONFIRMATION_ARRIVE. -/
def execConfirmationArrive (lcid : Nat) (tags : Tags) (blocks : Nat) (st : Stamp) (s : State) :
    Host.Outcome State Fault Refusal :=
  shown (taken (.confirm lcid tags blocks st) fun s => provArrives s lcid tags st (.confirm blocks)) s

/-- R75, R173: RETRACTION_ARRIVE. -/
def execRetractionArrive (lcid : Nat) (tags : Tags) (blocks : Nat) (st : Stamp) (s : State) :
    Host.Outcome State Fault Refusal :=
  shown (taken (.retract lcid tags blocks st) fun s => provArrives s lcid tags st (.retract blocks)) s

/-- R76: data of the tags is treated as retracted; a slot still being filled with it returns to empty (log 25). -/
def timeoutTags (s : State) (l : Nat) (tags : Tags) (smod : Nat) : State :=
  let c := coreOf s l
  let c1 := { c with heldMsgs := c.heldMsgs.filter fun h => !(h.2.1 == tags && h.2.2.2.headD 0 == smod) }
  replayLimit (retractSlots (putCore s l c1) l (slotsOf c tags smod)) l

/-- R76: a provisional block of another core of the module has no vouch after 20 µs. -/
def execVouchTimeout (lcid : Nat) (tags : Tags) (s : State) : Host.Outcome State Fault Refusal :=
  shown (fun s =>
    let c := coreOf s lcid
    if (slotsOf c tags s.casc.self).any fun e => (c.rslot e).ords.any fun k => !((c.rslot e).vords.contains k) then
      timeoutTags (putCore s lcid { c with retracted := c.retracted ++ [tags] }) lcid tags s.casc.self
    else s) s

/-! ## Core failures, witness injection, patrol, gather buffer -/

/-- R80: CORE_HANG: a slot whose next instruction is ready issues nothing; the physical core that runs it has failed. -/
def execCoreHang (u : StreamId) (s : State) : Host.Outcome State Fault Refusal :=
  shown (fun s => if canIssue s u && !((slotOf s u).blocked (coreOf s u.lcid)) then
    failCore s (runTile s u.lcid) (runCore s u.lcid) 1 else s) s

/-- R80, R81: CORE_FAILURE with one of the causes 1 to 5 of R80. -/
def execCoreFailure (tile pcore cause : Nat) (s : State) : Host.Outcome State Fault Refusal :=
  shown (fun s => if 1 ≤ cause && cause ≤ 5 then failCore s tile pcore cause else s) s

/-- R82: QUARANTINE_RESULT: a core that passes is a spare again, on probation while the binding lasts in which it failed. -/
def execQuarantineResult (tile pcore : Nat) (pass : Bool) (s : State) : Host.Outcome State Fault Refusal :=
  shown (fun s =>
    if 63 < tile || 263 < pcore || pcoreState s tile pcore != 3 then s
    else if pass then
      let again := (fget? pcore (tileOf s tile).probation).isSome
      coreSummary (rsetf (rsetf s (rPcore tile pcore) 9 2 1) (rPcore tile pcore) 12 1 again.toNat) tile
    else failCore s tile pcore 4) s

/-- R84: TL_PCORE_FENCE. -/
def execTlPcoreFence (tile pcore : Nat) (value : W32) (s : State) : Host.Outcome State Fault Refusal :=
  shown (fun s => if value.getLsbD 31 then failCore s tile pcore 5 else s) s

/-- R141: does a physical core serve a bound logical core? -/
def pcoreBound (s : State) (t p : Nat) : Bool :=
  match servedBy s t p with
  | some l => (coreOf s l).st.gen != 0
  | none => false

/-- R141, R16: TL_WIT_INJ is written. While an injection is armed the whole write has no effect, `pcore` with it, since Table 5.10
says so of the write that carries the arm bit; without the arm bit, or for a core that is not bound, `pcore` is stored and
nothing is armed (DEDUCED, log 57). -/
def armInjection (tile : Nat) (value : W32) (s : State) : State :=
  let o := rTL tile 0x280C
  let p := value.toNat % 512
  if 63 < tile || 263 < p || rfld s o 17 1 == 1 then s
  else
    let s1 := rsetf s o 0 9 p
    if value.getLsbD 16 && pcoreBound s1 tile p then rsetf s1 o 17 1 1 else s1

/-- R141: TL_WIT_INJ_ARM. -/
def execTlWitInjArm (tile : Nat) (value : W32) (s : State) : Host.Outcome State Fault Refusal := shown (armInjection tile value) s

/-- R166, R167, R181: WELL_PATROL: a period ends; `missed`: a well had no free cycles. A period that was written takes effect now;
after a stop it begins with this command. -/
def execWellPatrol (tile : Nat) (errs : List SymErr) (missed : Bool) (s : State) : Host.Outcome State Fault Refusal :=
  shown (fun s0 =>
    let o := rTL tile 0x300C
    let x := tileOf s0 tile
    let s := putTile s0 tile { x with patrol := rfld s0 o 0 8 }
    if 63 < tile then s0
    else if x.patrol == 0 then s
    else
      let bound (a : Nat) : Bool := match regionOf s a with
        | .well l _ => tileOfCore l == tile && (coreOf s l).st.gen != 0
        | _ => false
      let s1 := wellErrs s errs bound
      if missed then rsetf s1 o 16 1 1 else s1) s

/-- R178: GATHER_LINE_FLUSH of line `line` (well offset div 64). -/
def execGatherLineFlush (lcid line : Nat) (errs : List SymErr) (s : State) : Host.Outcome State Fault Refusal :=
  shown (fun s => match (coreOf s lcid).gather.find? fun g => g.off == 64 * line with
    | some g => gatherWrite s lcid g errs
    | none => s) s

end Sys2Proof.Machine
end

