-- ==== Sys2Proof/Machine/Memory.lean ====
section
/-! DEFINITION. Memory instructions (R101 to R107, R146, R162, R170, Table 4.8) and the return of loads (R106). -/

namespace Sys2Proof.Machine

/-- R103: access width in bytes. -/
def accWidth (f : Fields) : Nat := 2 ^ (f.mod.toNat / 4 % 4)

/-! ## Loads -/

/-- Addresses of the bytes a load reads. -/
def dstBytes (addr : Nat) : LoadDst → List Nat
  | .sreg _ w _ => span addr w
  | .vreg _ ls => ls.flatMap fun l => span l.2 4

/-- R103: the loaded bytes enter the destination register; bits of lanes in `over_` keep what later instructions wrote (R147). -/
def putLoaded (a : Arch) (addr : Nat) (get : Nat → W8) (dst : LoadDst) (over_ : FMap W32 := []) : Arch :=
  match dst with
  | .sreg d w z => a.sput d (extendLoad w z (leNat ((span addr w).map get)))
  | .vreg d ls => a.vput d (ls.foldl (fun v l =>
      let m := fget 0 l.1 over_
      v.setIfInBounds l.1 ((v[l.1]?.getD 0 &&& m) ||| (BitVec.ofNat 32 (leNat ((span l.2 4).map get)) &&& ~~~m))) (a.vget d))

/-- R104: bytes of the slot's gated stores, the newest write last. `amoadd` and `sos` hold no data that a load could see. -/
def gatedBytes (x : SlotSt) : List (Nat × W8) :=
  ((match x.closed with | some c => c.st.gates | none => []) ++ x.opn.gates).flatMap fun g => match g with
    | .store ps => ps.flatMap fun p => atAddr p.1 p.2
    | _ => []

/-- R170: does an LPDDR address lie in a cacheable window of the core's context, with a cache partition declared? -/
def cacheable (s : State) (lcid a : Nat) : Bool :=
  let c := coreOf s lcid
  let x := ctxOf s c.st.ctx
  decide (0 < c.wcache) && (match regionOf s a with | .lpddr _ => true | _ => false) &&
  match x.pat, x.bind with
  | some p, some b => p.cwin.any fun w => w != 0xFF && match b.lpr[w]? with
      | some r => r.covers a 1
      | none => false
  | _, _ => false

/-- The bytes of a cached line. -/
def lineBytes (c : CoreSt) (ln : Nat) : Option (List W8) := (c.cache.find? fun l => l.addr == ln).map (·.bytes)

/-- R170: a used or filled line becomes the most recent; the set keeps at most 4c lines. -/
def cacheTouch (c : CoreSt) (ln : Nat) (bytes : List W8) : CoreSt :=
  let rest := c.cache.filter fun l => l.addr != ln
  let set (a : Nat) : Nat := a / 64 % 1024
  let same := rest.filter fun l => set l.addr == set ln
  let kept := same.take (4 * c.wcache - 1)
  { c with cache := ⟨ln, bytes⟩ :: rest.filter fun l => set l.addr != set ln || kept.contains l }

/-- R166: codeword errors that a read of well bytes meets. -/
def readErrs (s : State) (errs : List SymErr) (as : List Nat) : State :=
  wellErrs s errs fun e => match regionOf s e with
    | .well l off => as.any fun a => match regionOf s a with
        | .well l' off' => wellCw l off == wellCw l' off'
        | _ => false
    | _ => false

/-- R104, R166: a load from the own well completes at once; poison marks the stitch. -/
def loadOwn (s : State) (u : StreamId) (addr : Nat) (dst : LoadDst) (errs : List SymErr) : State :=
  let as := dstBytes addr dst
  let s1 := readErrs s errs as
  let bad := as.any (badAt s1)
  let s2 := setArch s1 u (putLoaded (slotOf s1 u).arch addr (byteAt s1) dst)
  if bad then useFree (markPoison s2 u) else s2

/-- R170, R181: cached lines that an error makes unusable. TL_WELL_CE counts each refetched line once and each corrected codeword;
TL_WELL_LAST shows the well, an uncorrectable error in preference, at a block and bank that the spec does not state, since it places
no line in the partition: a free value (log 55). -/
def cacheErrs (s : State) (lcid : Nat) (lns : List Nat) (errs : List SymErr) : State :=
  let c := coreOf s lcid
  let t := tileOfCore lcid
  let hit := errs.filter fun e => lns.contains (e.addr / 64 * 64) && (lineBytes c (e.addr / 64 * 64)).isSome
  let gone := (hit.filter fun e => e.ue).foldl (fun l e => nins (e.addr / 64 * 64) l) []
  let fixed := hit.filter fun e => !e.ue && !(gone.contains (e.addr / 64 * 64))
  if hit.isEmpty then s
  else
    let s1 := putCore s lcid { c with cache := c.cache.filter fun l => !(gone.contains l.addr) }
    let place := (Config.freeWord s.freeCtr).toNat
    useFree (wellLast (rcount s1 (rTL t 0x3000) (gone.length + fixed.length)) t (pwellOf s lcid) (place / 32) place (!gone.isEmpty))

/-- R106, R170: a load from outside the own well. It completes at once when cached lines and gated bytes hold all of it;
otherwise it stays outstanding, at most 16 of them, and a request goes to the cistern. -/
def loadFar (s : State) (u : StreamId) (addr : Nat) (dst : LoadDst) (errs : List SymErr) : Res :=
  let as := dstBytes addr dst
  let clns := (linesOf ((as.filter (cacheable s u.lcid)).map fun a => (a, 0)))
  let s1 := cacheErrs s u.lcid clns errs
  let c := coreOf s1 u.lcid
  let hits := clns.filter fun ln => (lineBytes c ln).isSome
  let fromCache : FMap W8 := hits.foldl (fun m ln => (atAddr ln ((lineBytes c ln).getD [])).foldl (fun m e =>
    if as.contains e.1 then fset e.1 e.2 m else m) m) []
  let known := (gatedBytes (slotOf s1 u)).foldl (fun m e => if as.contains e.1 then fset e.1 e.2 m else m) fromCache
  let c1 := hits.foldl (fun c ln => cacheTouch c ln ((lineBytes c ln).getD [])) c
  let s2 := putCore s1 u.lcid c1
  let x := slotOf s2 u
  if as.all fun a => (fget? a known).isSome then
    .ok (setArch s2 u (putLoaded x.arch addr (fun a => fget 0 a known) dst))
  else if x.loads.length ≥ 16 then .wait .loadSlot
  else
    let ld : Load := { id := x.loadCtr, addr := addr, len := as.length, dst := dst, seq := x.opn.seq, pc := x.arch.pc, known := known,
                       lines := clns.filter fun ln => !(hits.contains ln) }
    let s3 := putSlot s2 u { x with loads := x.loads ++ [ld], loadCtr := x.loadCtr + 1 }
    .ok (match regionOf s addr with
      | .lpddr ch => emit s3 (.mem (cistOfChan ch) (.load u ld.id c.st))
      | _ => s3)

/-- Read the bytes of a load whose access is allowed. -/
def doLoad (s : State) (u : StreamId) (addr : Nat) (dst : LoadDst) (errs : List SymErr) : Res :=
  if (dstBytes addr dst).all (ownWell u.lcid) then .ok (loadOwn s u addr dst errs) else loadFar s u addr dst errs

/-- R101, R103: the action of `ld`. -/
def ldBody (u : StreamId) (f : Fields) (errs : List SymErr) (s : State) : Res :=
  let a := (slotOf s u).arch
  let w := accWidth f
  let off := (memOff a f).toNat
  let b := a.bget (memPair f)
  let ea := pairAddr b off
  if f.src2 != 0 || f.mod.getLsbD 5 then .fault 0x2002
  else if !(accessOk s u.lcid b off w false) then .fault 0x2003
  else if ea % w != 0 then .fault 0x2004
  else doLoad s u ea (.sreg f.dst w (f.mod.getLsbD 4)) errs

/-- R146: active lanes with their offsets. -/
def laneOffs (a : Arch) (f : Fields) : List (Nat × Nat) :=
  (activeLanes a f.mask).map fun i => (i, (memOff a f).toNat + 4 * i)

/-- R146: what the active lanes of a vector access raise, none for a legal one. -/
def laneFault (s : State) (lcid : Nat) (b : BPair) (ls : List (Nat × Nat)) (write : Bool) : Option Nat :=
  if ls.any fun l => !(accessOk s lcid b l.2 4 write) then some 0x2003
  else if ls.any fun l => pairAddr b l.2 % 4 != 0 then some 0x2004
  else none

/-- R103, R146: the action of `vld`. -/
def vldBody (u : StreamId) (f : Fields) (errs : List SymErr) (s : State) : Res :=
  let a := (slotOf s u).arch
  let b := a.bget (memPair f)
  let ls := laneOffs a f
  if f.src2 != 0 || f.mod.toNat / 4 != 2 then .fault 0x2002
  else match laneFault s u.lcid b ls false with
    | some st => .fault st
    | none => match ls with
      | [] => .ok s
      | l :: _ => doLoad s u (pairAddr b l.2) (.vreg f.dst (ls.map fun l => (l.1, pairAddr b l.2))) errs

/-- R144, R147: the bits of v[d] that a load of the active lanes writes. -/
def activeBits (a : Arch) (f : Fields) : Vector W32 32 :=
  Vector.ofFn fun i : Fin 32 => if laneOn a f.mask i.val then BitVec.allOnes 32 else 0

/-! ## Stores -/

/-- Contiguous pieces of a write, none across a 64-byte line. -/
def pieces : List (Nat × W8) → List (Nat × List W8)
  | [] => []
  | e :: r => match pieces r with
    | [] => [(e.1, [e.2])]
    | p :: ps => if e.1 + 1 = p.1 && e.1 / 64 == p.1 / 64 then (e.1, e.2 :: p.2) :: ps else (e.1, [e.2]) :: p :: ps

/-- R70, R104: a store whose access is allowed: to the own well at once, elsewhere gated. -/
def doStore (s : State) (u : StreamId) (bs : List (Nat × W8)) (scalar : Bool) (errs : List SymErr) : Res :=
  if bs.all fun e => ownWell u.lcid e.1 then ownStore s u bs scalar errs
  else gate s u (.store (pieces bs))

/-- R101, R103: the action of `st`. -/
def stBody (u : StreamId) (f : Fields) (errs : List SymErr) (s : State) : Res :=
  let a := (slotOf s u).arch
  let w := accWidth f
  let off := (memOff a f).toNat
  let b := a.bget (memPair f)
  let ea := pairAddr b off
  if f.dst != 0 || f.mod.toNat / 16 != 0 then .fault 0x2002
  else if !(accessOk s u.lcid b off w true) then .fault 0x2003
  else if ea % w != 0 then .fault 0x2004
  else doStore s u (atAddr ea (leBytes w (a.sget f.src2).toNat)) true errs

/-- R103, R146: the action of `vst`. -/
def vstBody (u : StreamId) (f : Fields) (errs : List SymErr) (s : State) : Res :=
  let a := (slotOf s u).arch
  let b := a.bget (memPair f)
  let ls := laneOffs a f
  if f.dst != 0 || f.mod.toNat / 4 != 2 then .fault 0x2002
  else match laneFault s u.lcid b ls true with
    | some st => .fault st
    | none =>
      if ls.isEmpty then .ok s
      else doStore s u (ls.flatMap fun l => atAddr (pairAddr b l.2) (leBytes 4 ((a.vget f.src2)[l.1]?.getD 0).toNat))
        false errs

/-- R105: the element type of `amoadd`, none for the reserved code. -/
def amoType? (f : Fields) : Option AmoType :=
  match f.mod.toNat / 4 with
  | 0 => some .fp32
  | 1 => some .int32
  | 2 => some .int64
  | _ => none

/-- Width of an `amoadd`. -/
def amoWidth : AmoType → Nat
  | .int64 => 8
  | _ => 4

/-- R105: the action of `amoadd`: gated, at an LPDDR address. -/
def amoBody (u : StreamId) (f : Fields) (s : State) : Res :=
  let a := (slotOf s u).arch
  let off := (memOff a f).toNat
  let b := a.bget (memPair f)
  let ea := pairAddr b off
  match amoType? f with
  | none => .fault 0x2002
  | some ty =>
    if f.dst != 0 then .fault 0x2002
    else if !(accessOk s u.lcid b off (amoWidth ty) true) || !(match regionOf s ea with | .lpddr _ => true | _ => false)
      then .fault 0x2003
    else if ea % amoWidth ty != 0 then .fault 0x2004
    else gate s u (.amo ea ty (a.sget f.src2))

/-- R107: the action of `fence`. Own-well stores are visible as soon as they are issued (R178). -/
def fenceBody (u : StreamId) (f : Fields) (s : State) : Res :=
  if f.mod.toNat > 2 || f.imm != 0 || f.dst != 0 || f.src1 != 0 || f.src2 != 0 then .fault 0x2002
  else if f.mod != 2 && !(slotOf s u).loads.isEmpty then .wait .fence
  else .ok s

/-! ## Gather and scatter -/

/-- R162: lanes of `vgather` and `vscatter` with their offsets in the pair. The 32-bit lane is zero-extended to the 64 bits of the
offset (DESIGN CHOICE, log 56: the spec does not say how it is extended). -/
def gatherOffs (a : Arch) (f : Fields) : List (Nat × Nat) :=
  (activeLanes a f.mask).map fun i => (i, (memOff a f + ((a.vget f.src2)[i]?.getD 0).zeroExtend 64).toNat)

/-- R162: what the lanes raise: outside the pair or the scratchpad of the own well, or misaligned. -/
def gatherFault (s : State) (u : StreamId) (b : BPair) (ls : List (Nat × Nat)) (write : Bool) : Option Nat :=
  if ls.any fun l => !(accessOk s u.lcid b l.2 4 write) || !(ownWell u.lcid (pairAddr b l.2)) then some 0x2003
  else if ls.any fun l => pairAddr b l.2 % 4 != 0 then some 0x2004
  else none

/-- R162: the action of `vgather`. -/
def vgatherBody (u : StreamId) (f : Fields) (errs : List SymErr) (s : State) : Res :=
  let a := (slotOf s u).arch
  let b := a.bget (memPair f)
  let ls := gatherOffs a f
  if f.mod.toNat / 4 != 0 then .fault 0x2002
  else match gatherFault s u b ls false with
    | some st => .fault st
    | none => if ls.isEmpty then .ok s else .ok (loadOwn s u 0 (.vreg f.dst (ls.map fun l => (l.1, pairAddr b l.2))) errs)

/-- R162: the action of `vscatter`; of lanes that name one word the highest is written. -/
def vscatterBody (u : StreamId) (f : Fields) (errs : List SymErr) (s : State) : Res :=
  let a := (slotOf s u).arch
  let b := a.bget (memPair f)
  let ls := gatherOffs a f
  if f.mod.toNat / 4 != 0 then .fault 0x2002
  else match gatherFault s u b ls true with
    | some st => .fault st
    | none =>
      if ls.isEmpty then .ok s
      else
        let top := ls.filter fun l => !(ls.any fun k => k.1 > l.1 && k.2 == l.2)
        doStore s u (top.flatMap fun l => atAddr (pairAddr b l.2) (leBytes 4 ((a.vget f.dst)[l.1]?.getD 0).toNat))
          false errs

/-! ## The commands -/

/-- Table 4.8: `st.w`. -/
def execSt (u : StreamId) (f : Fields) (errs : List SymErr) (s : State) : Host.Outcome State Fault Refusal :=
  .next (issue u .lane0 f [.s f.src1, .s f.src2] (stBody u f errs) s)

/-- Table 4.8: `vst`. -/
def execVst (u : StreamId) (f : Fields) (errs : List SymErr) (s : State) : Host.Outcome State Fault Refusal :=
  .next (issue u .lanes f [.s f.src1, .v f.src2] (vstBody u f errs) s)

/-- R105: `amoadd`. -/
def execAmoadd (u : StreamId) (f : Fields) (s : State) : Host.Outcome State Fault Refusal :=
  .next (issue u .lane0 f [.s f.src1, .s f.src2] (amoBody u f) s)

/-- R107: `fence`. -/
def execFence (u : StreamId) (f : Fields) (s : State) : Host.Outcome State Fault Refusal :=
  .next (issue u .needP0 f [] (fenceBody u f) s)

/-- R162: `vscatter`; the dst field is a source. -/
def execVscatter (u : StreamId) (f : Fields) (errs : List SymErr) (s : State) : Host.Outcome State Fault Refusal :=
  .next (issue u .lanes f [.s f.src1, .v f.src2, .v f.dst] (vscatterBody u f errs) s)

/-- Router from which the data of a load come: that of the cistern, of the other well's core, or of the well-head. -/
def loadFrom (s : State) (a : Nat) : Nat × Nat :=
  match regionOf s a with
  | .lpddr c => edgeRouter (cistOfChan c) 0
  | .well l _ => coreRouter l
  | _ => headRouter s

/-- R106, R170: the data of an outstanding load return. A cistern supplies LPDDR data earlier (R218); wells and host memory
are read now, host memory only while the link is up (R375). Lines of a cacheable window are filled unless poisoned. -/
def loadReturn (u : StreamId) (id : Nat) (s : State) : State :=
  match (slotOf s u).loads.find? fun l => l.id == id with
  | none => s
  | some l =>
    let as := dstBytes l.addr l.dst
    let now : Option (FMap W8 × Bool) := match l.data, regionOf s l.addr with
      | some d, _ => some (d, l.bad)
      | none, .well _ _ => some (as.map fun a => (a, byteAt s a), as.any (badAt s))
      | none, .host => if s.boot.cxlUp then some (as.map fun a => (a, byteAt s a), as.any (badAt s)) else none
      | none, _ => none
    match now with
    | none => s
    | some (d, bad) => if seamHolds s (loadFrom s l.addr) (coreRouter u.lcid) then s else atCore (runTile s u.lcid) (fun s =>
      let get (a : Nat) : W8 := (fget? a l.known).getD (fget 0 a d)
      let x := slotOf s u
      let s1 := putSlot s u { x with arch := putLoaded x.arch l.addr get l.dst l.over_,
                                     loads := x.loads.filter fun k => k.id != id }
      let c := coreOf s1 u.lcid
      let good := l.lines.filter fun ln => !(l.badLines.contains ln)
      let s2 := putCore s1 u.lcid (good.foldl (fun c ln => cacheTouch c ln ((span ln 64).map fun a => fget 0 a d)) c)
      if bad then useFree (markPoison s2 u) else s2) s

end Sys2Proof.Machine
end

