-- ==== Sys2Proof/Machine/Approx.lean ====
section
/-! DEFINITION. The functions of `vfn` (R155, Table 6.4): exact results, special cases, and the error bound inside which
the returned value is free (log 9). Real values are evaluated with 256 fractional bits to tell what lies inside. -/

namespace Sys2Proof.Machine

/-- Fractional bits of the evaluation. -/
def fxBits : Nat := 256

/-- 1 in fixed point. -/
def fxOne : Int := 2 ^ fxBits

/-- ln 2 in fixed point. -/
def fxLn2 : Int := 80260960185991308862233904206310070533990667611589946606122867505419956976171

/-- Product of two fixed-point numbers. -/
def fxMul (a b : Int) : Int := a * b / fxOne

/-- Taylor terms of e^r from term `k`, with `n` terms to go. -/
def expTerms (r : Int) : Nat → Nat → Int → Int
  | 0, _, _ => 0
  | n + 1, k, t => t + expTerms r n (k + 1) (fxMul t r / (k + 1))

/-- e^x as a dyadic value, x in fixed point. -/
def fxExp (x : Int) : FV :=
  let k := x / fxLn2
  .fin false (expTerms (x - k * fxLn2) 64 0 fxOne).toNat (k - fxBits)

/-- 2^x as a dyadic value. -/
def fxExp2 (x : Int) : FV :=
  let k := x / fxOne
  .fin false (expTerms (fxMul (x - k * fxOne) fxLn2) 64 0 fxOne).toNat (k - fxBits)

/-- Terms u^(2i+1) / (2i+1). -/
def atanhTerms (u2 : Int) : Nat → Nat → Int → Int
  | 0, _, _ => 0
  | n + 1, k, t => t / k + atanhTerms u2 n (k + 2) (fxMul t u2)

/-- log2 of m × 2^e as a dyadic value, m positive. -/
def fxLog2 (m : Nat) (e : Int) : FV :=
  let k := Nat.log2 m
  let z : Int := (m : Int) * fxOne / (2 ^ k : Nat)
  let u := (z - fxOne) * fxOne / (z + fxOne)
  ofSigned ((k + e) * fxOne + 2 * atanhTerms (fxMul u u) 90 1 u * fxOne / fxLn2) (-(fxBits : Int))

/-- A finite value in fixed point, toward minus infinity. -/
def toFx : FV → Int
  | .fin n m e => signed n m * (2 ^ (fxBits + e).toNat : Nat) / (2 ^ (-(fxBits + e)).toNat : Nat)
  | _ => 0

/-- A positive finite value's reciprocal, to 300 bits. -/
def recip : FV → FV
  | .fin n m e => (divFin n 1 0 n m e)
  | v => v

/-- Sum of two finite values. -/
def addV (a b : FV) : FV := (a.add b).1

/-- |a − b| ≤ d. -/
def within (a b d : FV) : Bool := !(d.lt (addV a b.neg).abs)

/-- R155: one ulp of an exact result. -/
def ulpOf : FV → FV
  | .fin _ m e => if m == 0 then .fin false 1 (-149) else .fin false 1 (max (floorLog2 m e) (-126) - 23)
  | _ => .fin false 1 (-149)

/-- R155: does an FP32 word lie within `d` of the value? An infinity stands for anything from 2^128 up. -/
def inBound (y d : FV) (b : W32) : Bool :=
  match f32.decode b.toNat with
  | .nan => false
  | .inf n => match y with
    | .fin yn _ _ => n == yn && !(y.abs.lt (.fin false 1 128) && !(within y.abs (.fin false 1 128) d))
    | _ => false
  | v => within v y d

/-- R155: flags of a returned value of a finite input: OF for an infinity, UF for a subnormal or zero that is not exact,
NX. -/
def fnFlags (b : W32) : FFlags :=
  match f32.decode b.toNat with
  | .inf _ => { ov := true, nx := true }
  | .fin _ m _ => { nx := true, uf := decide (m < 2 ^ 23) }
  | .nan => { nx := true }

/-- R155: the free value of function `fn` at input `x`, kept inside the bound `d` around the result `y`. -/
def fnFree (fn : Nat) (x : W32) (y d : FV) : W32 × FFlags :=
  let c := Config.vfnValue fn x
  let b := if inBound y d c then c else BitVec.ofNat 32 (f32.encode .rne y).1
  (b, fnFlags b)

/-- `n` ulp of a value. -/
def ulps (n : Nat) (y : FV) : FV := ((FV.fin false n 0).mul (ulpOf y)).1

/-- Is a positive dyadic a power of two, and which? -/
def pow2? (m : Nat) (e : Int) : Option Int := if m == 2 ^ Nat.log2 m then some (Nat.log2 m + e) else none

/-- An exact dyadic result as an FP32 word. -/
def exact32 (v : FV) : W32 := BitVec.ofNat 32 (f32.encode .rne v).1

/-- Is the value an integer, and which? -/
def int? : FV → Option Int
  | .fin n m e =>
    if 0 ≤ e then some (signed n m * (2 ^ e.toNat : Nat))
    else if m % 2 ^ (-e).toNat == 0 then some (signed n (m / 2 ^ (-e).toNat)) else none
  | _ => none

/-- Canonical NaN, infinities and constants as words. -/
def nan32 : W32 := 0x7FC00000#32
/-- +Inf or −Inf. -/
def inf32 (n : Bool) : W32 := if n then 0xFF800000#32 else 0x7F800000#32
/-- +0 or −0. -/
def zero32 (n : Bool) : W32 := if n then 0x80000000#32 else 0#32

/-- `rcp`. -/
def fnRcp (x : W32) : W32 × FFlags :=
  match f32.decode x.toNat with
  | .nan => (nan32, {})
  | .inf n => (zero32 n, {})
  | .fin n m e =>
    if m == 0 then (inf32 n, { dz := true })
    else match pow2? m e with
      | some k => if -126 ≤ -k && -k ≤ 127 then (exact32 (.fin n 1 (-k)), {}) else outside n (-k)
      | none => let y := divFin n 1 0 false m e; fnFree 0 x y (ulps 1 y)
where
  /-- ±2^k outside the normal range: free within one ulp; the power itself, where FP32 holds it, sets no flag -/
  outside (n : Bool) (k : Int) : W32 × FFlags :=
    let r := fnFree 0 x (.fin n 1 k) (ulps 1 (.fin n 1 k))
    if k ≤ 127 && r.1 == exact32 (.fin n 1 k) then (r.1, {}) else r

/-- `rsqrt`. -/
def fnRsqrt (x : W32) : W32 × FFlags :=
  match f32.decode x.toNat with
  | .nan => (nan32, {})
  | .inf n => if n then (nan32, { nv := true }) else (0, {})
  | .fin n m e =>
    if m == 0 then (inf32 n, { dz := true })
    else if n then (nan32, { nv := true })
    else match pow2? m e with
      | some k => if k % 2 == 0 then (exact32 (.fin false 1 (-(k / 2))), {}) else free m e
      | none => free m e
where
  /-- within two ulp -/
  free (m : Nat) (e : Int) : W32 × FFlags :=
    match (FV.sqrt (.fin false m e)).1 with
    | .fin _ m2 e2 => let y := divFin false 1 0 false m2 e2; fnFree 1 x y (ulps 2 y)
    | _ => (nan32, {})

/-- `sqrt`, correctly rounded. -/
def fnSqrt (x : W32) : W32 × FFlags :=
  let r := f32.sqrtB .rne x.toNat
  (BitVec.ofNat 32 r.1, r.2)

/-- `exp2`. -/
def fnExp2 (x : W32) : W32 × FFlags :=
  match f32.decode x.toNat with
  | .nan => (nan32, {})
  | .inf n => if n then (0, {}) else (inf32 false, { ov := true })
  | .fin n m e =>
    let v : FV := .fin n m e
    if !(v.lt (.fin false 128 0)) then (inf32 false, { ov := true, nx := true })
    else if v.lt (.fin true 149 0) then (0, { uf := true, nx := true })
    else match int? v with
      | some k => (exact32 (.fin false 1 k), {})
      | none => let y := fxExp2 (toFx v); fnFree 3 x y (ulps 2 y)

/-- `log2`. -/
def fnLog2 (x : W32) : W32 × FFlags :=
  match f32.decode x.toNat with
  | .nan => (nan32, {})
  | .inf n => if n then (nan32, { nv := true }) else (inf32 false, {})
  | .fin n m e =>
    if m == 0 then (inf32 true, { dz := true })
    else if n then (nan32, { nv := true })
    else match pow2? m e with
      | some k => (exact32 (ofSigned k 0), {})
      | none =>
        let y := fxLog2 m e
        let v : FV := .fin false m e
        fnFree 4 x y (if v.lt (.fin false 1 (-1)) || (FV.fin false 2 0).lt v then ulps 2 y else .fin false 1 (-23))

/-- `exp`. -/
def fnExp (x : W32) : W32 × FFlags :=
  match f32.decode x.toNat with
  | .nan => (nan32, {})
  | .inf n => if n then (0, {}) else (inf32 false, { ov := true })
  | .fin n m e =>
    let v : FV := .fin n m e
    if m == 0 then (0x3F800000#32, {})
    else if (divFin false 887228 0 false 10000 0).lt v then (inf32 false, { ov := true, nx := true })
    else if v.lt (.fin true 110 0) || (fxExp (toFx v)).lt (.fin false 1 (-149)) then (0, { uf := true, nx := true })
    else let y := fxExp (toFx v); fnFree 5 x y (ulps 3 y)

/-- `tanh`. -/
def fnTanh (x : W32) : W32 × FFlags :=
  match f32.decode x.toNat with
  | .nan => (nan32, {})
  | .inf n => (if n then 0xBF800000#32 else 0x3F800000#32, {})
  | .fin n m e =>
    if m == 0 then (zero32 n, {})
    else
      let a : FV := .fin false m e
      let big := (FV.fin false 64 0).lt a
      let t := fxExp (2 * toFx (if big then .fin false 64 0 else a))
      let one : FV := .fin false 1 0
      let y := match addV t one.neg, addV t one with
        | .fin _ m1 e1, .fin _ m2 e2 => divFin n m1 e1 false m2 e2
        | _, _ => .nan
      fnFree 6 x y (ulps 3 y)

/-- `sig`. -/
def fnSig (x : W32) : W32 × FFlags :=
  match f32.decode x.toNat with
  | .nan => (nan32, {})
  | .inf n => (if n then 0 else 0x3F800000#32, {})
  | .fin n m e =>
    if m == 0 then (0x3F000000#32, {})
    else
      let v : FV := .fin n m e
      let w := if v.lt (.fin true 192 0) then FV.fin true 192 0 else if (FV.fin false 192 0).lt v then .fin false 192 0 else v
      let y := match addV (fxExp (-(toFx w))) (.fin false 1 0) with
        | .fin _ m2 e2 => divFin false 1 0 false m2 e2
        | _ => .nan
      fnFree 7 x y (ulps 3 y)

/-- R155: function `fn` of Table 6.4. -/
def vfnLane (fn : Nat) (x : W32) : W32 × FFlags :=
  match fn with
  | 0 => fnRcp x
  | 1 => fnRsqrt x
  | 2 => fnSqrt x
  | 3 => fnExp2 x
  | 4 => fnLog2 x
  | 5 => fnExp x
  | 6 => fnTanh x
  | _ => fnSig x

end Sys2Proof.Machine
end

