-- ==== Sys2Proof/Machine/Vector.lean ====
section
/-! DEFINITION. The vector engine (R142 to R155, R161, Tables 6.1 to 6.7). -/

namespace Sys2Proof.Machine

/-! ## Lanes -/

/-- A lane of a vector register. -/
def lane (v : Vector W32 32) (i : Nat) : W32 := v[i]?.getD 0

/-- Write listed lanes. -/
def setLanes (v : Vector W32 32) (l : List (Nat × W32)) : Vector W32 32 :=
  l.foldl (fun v e => v.setIfInBounds e.1 e.2) v

/-- R144: active lanes of v[d] take their results, the others keep their bits; the flags join c.vstat. -/
def vlanes (a : Arch) (f : Fields) (g : Nat → W32 × FFlags) : Arch :=
  let r := (activeLanes a f.mask).map fun i => (i, g i)
  (a.vput f.dst (setLanes (a.vget f.dst) (r.map fun e => (e.1, e.2.1)))).raiseV (orFlags (r.map (·.2.2)))

/-- R144: a comparison writes the active bits of p[d]. -/
def vmask (a : Arch) (f : Fields) (g : Nat → Bool) : Arch :=
  let k := f.dst.extractLsb' 0 3
  let bits := (activeLanes a f.mask).foldl (fun (w : W32) i =>
    if g i then w ||| (1#32 <<< i) else w &&& ~~~(1#32 <<< i)) (a.pget k)
  a.pput k bits

/-- R161: a two-source lane operation with the mod values `ms` allowed. -/
def vbin (u : StreamId) (f : Fields) (ok : Bool) (g : W32 → W32 → W32 × FFlags) (s : State) : State :=
  issueArch u .lanes f [.v f.src1, .v f.src2, .w f.dst] (ok && f.imm == 0)
    (fun a => vlanes a f fun i => g (lane (a.vget f.src1) i) (lane (a.vget f.src2) i)) s

/-- As `vbin`, without flags. -/
def vbinI (u : StreamId) (f : Fields) (m : Nat) (g : W32 → W32 → W32) (s : State) : State :=
  vbin u f (f.mod.toNat == m) (fun a b => (g a b, {})) s

/-- A one-source lane operation. -/
def vun (u : StreamId) (f : Fields) (ok : Bool) (g : W32 → W32 × FFlags) (s : State) : State :=
  issueArch u .lanes f [.v f.src1, .w f.dst] (ok && f.src2 == 0)
    (fun a => vlanes a f fun i => g (lane (a.vget f.src1) i)) s

/-! ## FP32 -/

/-- R149: RNE, or RZ under `.rz`. -/
def rzMode (f : Fields) : RMode := if f.mod.getLsbD 0 then .rz else .rne

/-- An FP32 result with its flags. -/
def w32 (r : Nat × FFlags) : W32 × FFlags := (BitVec.ofNat 32 r.1, r.2)

/-- Is an FP32 word NaN? -/
def isNan32 (a : W32) : Bool := f32.decode a.toNat == .nan

/-- FP32 order of two words, zeros equal. -/
def lt32 (a b : W32) : Bool := (f32.decode a.toNat).lt (f32.decode b.toNat)
/-- FP32 equality of two words, zeros equal, NaN equal to nothing. -/
def eq32 (a b : W32) : Bool := (f32.decode a.toNat).eq (f32.decode b.toNat)

/-- R149: minimum; the first source where they compare equal. -/
def vmin32 (a b : W32) : W32 := if isNan32 a || isNan32 b then nan32 else if lt32 b a then b else a
/-- R149: maximum. -/
def vmax32 (a b : W32) : W32 := if isNan32 a || isNan32 b then nan32 else if lt32 a b then b else a

/-- Table 6.7: condition of `vcmp.f32`, none for the reserved code. -/
def fcond (c : Nat) (a b : W32) : Option Bool :=
  match c with
  | 0 => some (eq32 a b)
  | 1 => some (!(eq32 a b))
  | 2 => some (lt32 a b)
  | 3 => some (lt32 a b || eq32 a b)
  | 4 => some (lt32 b a)
  | 5 => some (lt32 b a || eq32 a b)
  | 6 => some (isNan32 a || isNan32 b)
  | _ => none

/-- Table 6.7: condition of `vcmp.i32`. -/
def icond (c : Nat) (a b : W32) : Option Bool :=
  match c with
  | 0 => some (a == b)
  | 1 => some (a != b)
  | 2 => some (a.slt b)
  | 3 => some (!(a.slt b))
  | 4 => some (a.ult b)
  | 5 => some (!(a.ult b))
  | _ => none

/-- A lane comparison into p[d]. -/
def vcmp (u : StreamId) (f : Fields) (cond : Nat → W32 → W32 → Option Bool) (s : State) : State :=
  issueArch u .lanes f [.v f.src1, .v f.src2]
    (f.imm == 0 && decide (f.dst.toNat < 8) && (cond f.mod.toNat 0 0).isSome)
    (fun a => vmask a f fun i => (cond f.mod.toNat (lane (a.vget f.src1) i) (lane (a.vget f.src2) i)).getD false) s

/-! ## Permutation -/

/-- Table 6.3: source lane of `vshuf`, as an integer; none for a reserved pattern. -/
def shufLane (m n vl i : Nat) : Option Int :=
  match m with
  | 0 => some (((i + n) % vl : Nat) : Int)
  | 1 => some ((i + n : Nat) : Int)
  | 2 => some ((i : Int) - n)
  | 3 => some ((vl : Int) - 1 - i)
  | 4 => some ((i ^^^ n : Nat) : Int)
  | _ => none

/-- R151: the value of source lane j, zero with pix outside 0 to VL − 1. -/
def permLane (v : Vector W32 32) (vl : Nat) (j : Int) : W32 × FFlags :=
  if 0 ≤ j && j < vl then (lane v j.toNat, {}) else (0, { pix := true })

/-- R152: `vcompress`. -/
def compress (a : Arch) (f : Fields) : Arch :=
  let src := a.vget f.src1
  let sel := (activeLanes a f.mask).map (lane src)
  let out := sel ++ List.replicate (a.vl - sel.length) 0
  a.vput f.dst (setLanes (a.vget f.dst) ((List.range a.vl).zip out))

/-- R152: `vexpand`. -/
def expand (a : Arch) (f : Fields) : Arch :=
  let src := a.vget f.src1
  let act := activeLanes a f.mask
  a.vput f.dst (setLanes (a.vget f.dst) (act.zip ((List.range act.length).map (lane src))))

/-! ## Conversion -/

/-- Table 6.1: element format, stored width and parts of a code. -/
def vfmt (c : Nat) : Option (Elem × Nat) :=
  match c with
  | 0 => some (.fp e4m3, 8)
  | 1 => some (.fp e5m2, 8)
  | 2 => some (.fp e3m2, 8)
  | 3 => some (.fp e2m3, 8)
  | 4 => some (.fp e2m1, 4)
  | 5 => some (.int 8, 8)
  | 6 => some (.fp bf16, 16)
  | 7 => some (.fp f16, 16)
  | 8 => some (.fp f32, 32)
  | 9 => some (.int 16, 16)
  | 10 => some (.int 32, 32)
  | 11 => some (.mxi8, 8)
  | _ => none

/-- Element bits of a format, inside its stored width (R143). -/
def elemBits (c w : Nat) : Nat := if c == 2 || c == 3 then 6 else w

/-- R143: element i of a part. -/
def partGet (v : Vector W32 32) (w p i : Nat) : Nat := bitsAt (lane v (w * p + i * w / 32)).toNat (i * w % 32) w

/-- R143: write element i of a part. -/
def partSet (w p : Nat) (v : Vector W32 32) (e : Nat × Nat) : Vector W32 32 :=
  let l := w * p + e.1 * w / 32
  v.setIfInBounds l (BitVec.ofNat 32 (putBits (lane v l).toNat (e.1 * w % 32) w e.2))

/-- Table 2.6 with the MXINT8 rule of R153: pairs of class E, where no rounding can arise. -/
def classE (src dst : Nat) : Bool :=
  match src with
  | 0 => [8, 6, 7].contains dst
  | 1 => [8, 6, 7].contains dst
  | 2 => [8, 6, 7, 0, 1].contains dst
  | 3 => [8, 6, 7, 0].contains dst
  | 4 => [8, 6, 7, 0, 1, 2, 3].contains dst
  | 5 => [8, 6, 7, 9, 10].contains dst
  | 6 => dst == 8
  | 7 => dst == 8
  | 9 => [8, 10].contains dst
  | 11 => [8, 6, 7].contains dst
  | _ => false

/-- R38, R40: rounding of mod[1:0] for lane i, from the slot's key and counter. -/
def cvtMode (f : Fields) (key ctr : W64) (i : Nat) : RMode :=
  match f.mod.toNat with
  | 0 => .rne
  | 1 => .rz
  | _ => .sr (drawLane key ctr i)

/-- R40: an `.sr` conversion of one result per lane uses one counter value. -/
def Arch.useCtr (a : Arch) (f : Fields) : Arch := if f.mod == 2 then { a with srctr := a.srctr + 1 } else a

/-- Fields of `vcvt` in imm (R153). -/
def cvtSrc (f : Fields) : Nat := f.imm.toNat % 16
/-- Destination code, also the element code of `vquant`. -/
def cvtDst (f : Fields) : Nat := f.imm.toNat / 16 % 16
/-- Source part. -/
def cvtSrcPart (f : Fields) : Nat := f.imm.toNat / 256 % 8
/-- Destination part. -/
def cvtDstPart (f : Fields) : Nat := f.imm.toNat / 4096 % 8

/-- R153: is the form of `vcvt` legal? -/
def cvtOk (f : Fields) : Bool :=
  match vfmt (cvtSrc f), vfmt (cvtDst f) with
  | some (_, ws), some (_, wd) =>
    cvtSrcPart f < 32 / ws && cvtDstPart f < 32 / wd && f.src2 == 0 && f.mod.toNat < 3 &&
    !(f.imm.getLsbD 11) && f.imm.toNat / 2 ^ 15 == 0 && !(f.mod == 2 && classE (cvtSrc f) (cvtDst f))
  | _, _ => false

/-- R153: one element; equal codes copy exactly. -/
def cvtElem (src dst : Nat) (mode : RMode) (b : Nat) : Nat × FFlags :=
  match vfmt src, vfmt dst with
  | some (es, w), some (ed, _) => if src == dst then (b % 2 ^ elemBits src w, {}) else ed.encode mode (es.decode b)
  | _, _ => (0, {})

/-- R153: `vcvt` on the register image, with the core's key. -/
def cvtArch (key : W64) (f : Fields) (a : Arch) : Arch :=
  match vfmt (cvtSrc f), vfmt (cvtDst f) with
  | some (_, ws), some (_, wd) =>
    let src := a.vget f.src1
    let r := (activeLanes a f.mask).map fun i =>
      (i, cvtElem (cvtSrc f) (cvtDst f) (cvtMode f key a.srctr i) (partGet src ws (cvtSrcPart f) i))
    let v := (r.map fun e => (e.1, e.2.1)).foldl (partSet wd (cvtDstPart f)) (a.vget f.dst)
    ((a.vput f.dst v).raiseV (orFlags (r.map (·.2.2)))).useCtr f
  | _, _ => a

/-- R154: is a code an element format of an MX block? -/
def mxCode (c : Nat) : Bool := c < 5 || c == 11

/-- R154: is the form of `vquant` legal? -/
def quantOk (f : Fields) : Bool :=
  match vfmt (cvtDst f) with
  | some (_, w) => mxCode (cvtDst f) && cvtDstPart f < 32 / w && f.mod.toNat < 3 && cvtSrc f == 0 &&
      f.imm.toNat / 256 % 16 == 0 && f.imm.toNat / 2 ^ 15 == 0
  | none => false

/-- R154: `vquant` on the register image. -/
def quantArch (key : W64) (f : Fields) (a : Arch) : Arch :=
  match vfmt (cvtDst f) with
  | some (el, w) =>
    let scale := (a.sget f.src2).toNat % 256
    let src := a.vget f.src1
    let r := (activeLanes a f.mask).map fun i =>
      (i, if scale == 255 then ((0 : Nat), ({} : FFlags))
          else el.encode (cvtMode f key a.srctr i) ((f32.decode (lane src i).toNat).scale (127 - (scale : Int))))
    let v := (r.map fun e => (e.1, e.2.1)).foldl (partSet w (cvtDstPart f)) (a.vget f.dst)
    ((a.vput f.dst v).raiseV (orFlags (r.map (·.2.2)))).useCtr f
  | none => a

/-- An instruction that reads the core's generator key (R40). -/
def issueKey (u : StreamId) (f : Fields) (refs : List RegRef) (ok : Bool) (g : W64 → Arch → Arch) (s : State) : State :=
  issueArch u .lanes f refs ok (g (coreOf s u.lcid).key) s

/-! ## Masks -/

/-- R161: a mask register operation on all 32 bits. -/
def pbin (u : StreamId) (f : Fields) (m : Nat) (g : W32 → W32 → W32) (s : State) : State :=
  issueArch u .needP0 f []
    (f.mod.toNat == m && f.imm == 0 && decide (f.dst.toNat < 8) && decide (f.src1.toNat < 8) && decide (f.src2.toNat < 8))
    (fun a => a.pput (f.dst.extractLsb' 0 3)
      (g (a.pget (f.src1.extractLsb' 0 3)) (a.pget (f.src2.extractLsb' 0 3)))) s

/-! ## The commands -/

/-- R149: `vadd.f32`. -/
def execVaddF32 (u : StreamId) (f : Fields) (s : State) : Host.Outcome State Fault Refusal :=
  .next (vbin u f (f.mod.toNat < 2) (fun a b => w32 (f32.addB (rzMode f) a.toNat b.toNat)) s)

/-- R149: `vsub.f32`. -/
def execVsubF32 (u : StreamId) (f : Fields) (s : State) : Host.Outcome State Fault Refusal :=
  .next (vbin u f (f.mod.toNat < 2) (fun a b => w32 (f32.subB (rzMode f) a.toNat b.toNat)) s)

/-- R149: `vmul.f32`. -/
def execVmulF32 (u : StreamId) (f : Fields) (s : State) : Host.Outcome State Fault Refusal :=
  .next (vbin u f (f.mod.toNat < 2) (fun a b => w32 (f32.mulB (rzMode f) a.toNat b.toNat)) s)

/-- R149: `vfma.f32`: s1 × s2 + d, one rounding. -/
def execVfmaF32 (u : StreamId) (f : Fields) (s : State) : Host.Outcome State Fault Refusal :=
  .next (issueArch u .lanes f [.v f.src1, .v f.src2, .v f.dst] (decide (f.mod.toNat < 2) && f.imm == 0)
    (fun a => vlanes a f fun i => w32 (f32.fmaB (rzMode f) (lane (a.vget f.src1) i).toNat
      (lane (a.vget f.src2) i).toNat (lane (a.vget f.dst) i).toNat)) s)

/-- R149: `vmin.f32`. -/
def execVminF32 (u : StreamId) (f : Fields) (s : State) : Host.Outcome State Fault Refusal :=
  .next (vbinI u f 0 vmin32 s)

/-- R149: `vmax.f32`. -/
def execVmaxF32 (u : StreamId) (f : Fields) (s : State) : Host.Outcome State Fault Refusal :=
  .next (vbinI u f 0 vmax32 s)

/-- Table 6.7: `vabs`; NaN gives the canonical NaN. -/
def execVabs (u : StreamId) (f : Fields) (s : State) : Host.Outcome State Fault Refusal :=
  .next (vun u f (f.mod == 0 && f.imm == 0) (fun a => (if isNan32 a then nan32 else a &&& 0x7FFFFFFF#32, {})) s)

/-- Table 6.7: `vneg`. -/
def execVneg (u : StreamId) (f : Fields) (s : State) : Host.Outcome State Fault Refusal :=
  .next (vun u f (f.mod == 1 && f.imm == 0) (fun a => (if isNan32 a then nan32 else a ^^^ 0x80000000#32, {})) s)

/-- Table 6.7: `vcsgn`: magnitude of s1 with the sign bit of s2. -/
def execVcsgn (u : StreamId) (f : Fields) (s : State) : Host.Outcome State Fault Refusal :=
  .next (vbinI u f 2 (fun a b =>
    if isNan32 a then nan32 else (a &&& 0x7FFFFFFF#32) ||| (b &&& 0x80000000#32)) s)

/-- R149: `vcmp.f32`. -/
def execVcmpF32 (u : StreamId) (f : Fields) (s : State) : Host.Outcome State Fault Refusal :=
  .next (vcmp u f fcond s)

/-- R149: `vadd.i32`, modulo 2^32. -/
def execVaddI32 (u : StreamId) (f : Fields) (s : State) : Host.Outcome State Fault Refusal :=
  .next (vbinI u f 0 (fun a b => a + b) s)

/-- R149: `vsub.i32`, modulo 2^32. -/
def execVsubI32 (u : StreamId) (f : Fields) (s : State) : Host.Outcome State Fault Refusal :=
  .next (vbinI u f 0 (fun a b => a - b) s)

/-- R149: `vmul.i32`, modulo 2^32. -/
def execVmulI32 (u : StreamId) (f : Fields) (s : State) : Host.Outcome State Fault Refusal :=
  .next (vbinI u f 0 (fun a b => a * b) s)

/-- Table 6.7: `vand`. -/
def execVand (u : StreamId) (f : Fields) (s : State) : Host.Outcome State Fault Refusal :=
  .next (vbinI u f 0 (fun a b => a &&& b) s)

/-- Table 6.7: `vor`. -/
def execVor (u : StreamId) (f : Fields) (s : State) : Host.Outcome State Fault Refusal :=
  .next (vbinI u f 1 (fun a b => a ||| b) s)

/-- Table 6.7: `vxor`. -/
def execVxor (u : StreamId) (f : Fields) (s : State) : Host.Outcome State Fault Refusal :=
  .next (vbinI u f 2 (fun a b => a ^^^ b) s)

/-- Table 6.7: `vandn`. -/
def execVandn (u : StreamId) (f : Fields) (s : State) : Host.Outcome State Fault Refusal :=
  .next (vbinI u f 3 (fun a b => a &&& ~~~b) s)

/-- Table 6.7: `vshl`, by bits [4:0] of s2. -/
def execVshl (u : StreamId) (f : Fields) (s : State) : Host.Outcome State Fault Refusal :=
  .next (vbinI u f 0 (fun a b => a <<< (b.toNat % 32)) s)

/-- Table 6.7: `vshr`, by bits [4:0] of s2. -/
def execVshr (u : StreamId) (f : Fields) (s : State) : Host.Outcome State Fault Refusal :=
  .next (vbinI u f 1 (fun a b => a >>> (b.toNat % 32)) s)

/-- Table 6.7: `vsra`, by bits [4:0] of s2. -/
def execVsra (u : StreamId) (f : Fields) (s : State) : Host.Outcome State Fault Refusal :=
  .next (vbinI u f 2 (fun a b => a.sshiftRight (b.toNat % 32)) s)

/-- Table 6.7: `vcmp.i32`. -/
def execVcmpI32 (u : StreamId) (f : Fields) (s : State) : Host.Outcome State Fault Refusal :=
  .next (vcmp u f icond s)

/-- Table 6.7: lane-wise, mod 0. -/
def execVminI32 (u : StreamId) (f : Fields) (s : State) : Host.Outcome State Fault Refusal :=
  .next (vbinI u f 0 (fun a b => if b.slt a then b else a) s)

/-- Table 6.7: lane-wise, mod 1. -/
def execVmaxI32 (u : StreamId) (f : Fields) (s : State) : Host.Outcome State Fault Refusal :=
  .next (vbinI u f 1 (fun a b => if a.slt b then b else a) s)

/-- Table 6.7: lane-wise, mod 2. -/
def execVminu (u : StreamId) (f : Fields) (s : State) : Host.Outcome State Fault Refusal :=
  .next (vbinI u f 2 (fun a b => if b.ult a then b else a) s)

/-- Table 6.7: lane-wise, mod 3. -/
def execVmaxu (u : StreamId) (f : Fields) (s : State) : Host.Outcome State Fault Refusal :=
  .next (vbinI u f 3 (fun a b => if a.ult b then b else a) s)

/-- R144, Table 6.7: `vsel`: lanes below VL take s1 where the mask bit is 1, else s2. -/
def execVsel (u : StreamId) (f : Fields) (s : State) : Host.Outcome State Fault Refusal :=
  .next (issueArch u .lanes f [.v f.src1, .v f.src2, .w f.dst] (f.mod == 0 && f.imm == 0)
    (fun a => a.vput f.dst (setLanes (a.vget f.dst) ((List.range (min 32 a.vl)).map fun i =>
      (i, if (a.pget f.mask).getLsbD i then lane (a.vget f.src1) i else lane (a.vget f.src2) i)))) s)

/-- Table 6.7: `vbcast`. -/
def execVbcast (u : StreamId) (f : Fields) (s : State) : Host.Outcome State Fault Refusal :=
  .next (issueArch u .lanes f [.s f.src1, .w f.dst] (f.mod == 0 && f.src2 == 0)
    (fun a => vlanes a f fun _ => ((memOff a f).setWidth 32, {})) s)

/-- R151: `vext`. -/
def execVext (u : StreamId) (f : Fields) (s : State) : Host.Outcome State Fault Refusal :=
  .next (issueArch u .needP0 f [.v f.src1, .s f.dst] (f.mod == 0 && f.src2 == 0 && decide (f.imm.toNat < 32))
    (fun a =>
      let r := permLane (a.vget f.src1) a.vl f.imm.toNat
      (a.sput f.dst (r.1.zeroExtend 64)).raiseV r.2) s)

/-- Table 6.7: `vins`. -/
def execVins (u : StreamId) (f : Fields) (s : State) : Host.Outcome State Fault Refusal :=
  .next (issueArch u .needP0 f [.s f.src1, .w f.dst] (f.mod == 0 && f.src2 == 0 && decide (f.imm.toNat < 32))
    (fun a => if f.imm.toNat < a.vl
      then a.vput f.dst (setLanes (a.vget f.dst) [(f.imm.toNat, (a.sget f.src1).setWidth 32)]) else a) s)

/-- R150: `vperm`. -/
def execVperm (u : StreamId) (f : Fields) (s : State) : Host.Outcome State Fault Refusal :=
  .next (issueArch u .lanes f [.v f.src1, .v f.src2, .w f.dst] (f.mod == 0 && f.imm == 0)
    (fun a => vlanes a f fun i => permLane (a.vget f.src1) a.vl (lane (a.vget f.src2) i).toNat) s)

/-- R150, Table 6.3: `vshuf`. -/
def execVshuf (u : StreamId) (f : Fields) (s : State) : Host.Outcome State Fault Refusal :=
  .next (issueArch u .lanes f [.v f.src1, .w f.dst]
    (decide (f.imm.toNat < 32) && f.src2 == 0 && (shufLane f.mod.toNat 0 1 0).isSome)
    (fun a => vlanes a f fun i => permLane (a.vget f.src1) a.vl
      ((shufLane f.mod.toNat f.imm.toNat a.vl i).getD 0)) s)

/-- R152: `vcompress`. -/
def execVcompress (u : StreamId) (f : Fields) (s : State) : Host.Outcome State Fault Refusal :=
  .next (issueArch u .lanes f [.v f.src1, .w f.dst] (f.mod == 0 && f.src2 == 0 && f.imm == 0) (fun a => compress a f) s)

/-- R152: `vexpand`. -/
def execVexpand (u : StreamId) (f : Fields) (s : State) : Host.Outcome State Fault Refusal :=
  .next (issueArch u .lanes f [.v f.src1, .w f.dst] (f.mod == 0 && f.src2 == 0 && f.imm == 0) (fun a => expand a f) s)

/-- R153: `vcvt`. -/
def execVcvt (u : StreamId) (f : Fields) (s : State) : Host.Outcome State Fault Refusal :=
  .next (issueKey u f [.v f.src1, .w f.dst] (cvtOk f) (fun k a => cvtArch k f a) s)

/-- R154: `vquant`. -/
def execVquant (u : StreamId) (f : Fields) (s : State) : Host.Outcome State Fault Refusal :=
  .next (issueKey u f [.v f.src1, .s f.src2, .w f.dst] (quantOk f) (fun k a => quantArch k f a) s)

/-- Table 6.7: `pand`. -/
def execPand (u : StreamId) (f : Fields) (s : State) : Host.Outcome State Fault Refusal :=
  .next (pbin u f 0 (fun a b => a &&& b) s)

/-- Table 6.7: `por`. -/
def execPor (u : StreamId) (f : Fields) (s : State) : Host.Outcome State Fault Refusal :=
  .next (pbin u f 1 (fun a b => a ||| b) s)

/-- Table 6.7: `pxor`. -/
def execPxor (u : StreamId) (f : Fields) (s : State) : Host.Outcome State Fault Refusal :=
  .next (pbin u f 2 (fun a b => a ^^^ b) s)

/-- Table 6.7: `pandn`. -/
def execPandn (u : StreamId) (f : Fields) (s : State) : Host.Outcome State Fault Refusal :=
  .next (pbin u f 3 (fun a b => a &&& ~~~b) s)

/-- Table 6.7: `pmov`, to p[d] or to s[d]. -/
def execPmov (u : StreamId) (f : Fields) (s : State) : Host.Outcome State Fault Refusal :=
  .next (issueArch u .needP0 f (if f.mod == 0 then [.s f.src1] else [.s f.dst])
    (f.src2 == 0 && f.imm == 0 && ((f.mod == 0 && decide (f.dst.toNat < 8)) || (f.mod == 1 && decide (f.src1.toNat < 8))))
    (fun a => if f.mod == 0 then a.pput (f.dst.extractLsb' 0 3) ((a.sget f.src1).setWidth 32)
      else a.sput f.dst ((a.pget (f.src1.extractLsb' 0 3)).zeroExtend 64)) s)

/-- R145: `setvl`, in the scalar pipe. -/
def execSetvl (u : StreamId) (f : Fields) (s : State) : Host.Outcome State Fault Refusal :=
  .next (issueArch u .lane0 f [.s f.src1, .s f.dst] (f.mod == 0 && f.src2 == 0 && f.imm == 0)
    (fun a =>
      let n := min 32 (a.sget f.src1).toNat
      { a.sput f.dst (BitVec.ofNat 64 n) with vl := n }) s)

/-- R155: `vfn`. -/
def execVfn (u : StreamId) (f : Fields) (s : State) : Host.Outcome State Fault Refusal :=
  .next (vun u f (f.mod == 0 && decide (f.imm.toNat < 8)) (vfnLane f.imm.toNat) s)

end Sys2Proof.Machine
end

