-- ==== Sys2Proof/Machine/Matrix.lean ====
section
/-! DEFINITION. The matrix arrays and the accumulator port (R44 to R53, R116 to R141). -/

namespace Sys2Proof.Machine

/-! ## Operand panels -/

/-- R122: a panel: base offset, rows, inner elements (a multiple of 32), stored width in bits, MX or not. -/
structure Panel where
  base : Nat
  rows : Nat
  cols : Nat
  bits : Nat
  mx : Bool
  deriving DecidableEq, Repr

/-- Table 5.2: rows per line, granules per row, elements per granule. -/
def geometry (b : Nat) : Nat × Nat × Nat := if b == 4 then (16, 2, 16) else if b == 8 then (8, 4, 8) else (4, 8, 4)

/-- R121: offset of element j of row i inside a square. -/
def squareOff (b i j : Nat) : Nat :=
  let (l, g, e) := geometry b
  256 * (i / l) + 4 * b * (i % l) + 8 * ((j / e + i / l) % g) + j % e * b / 8

/-- Table 5.2: bytes of a square. -/
def squareLen (b : Nat) : Nat := 128 * b

/-- R122: squares along the two axes. -/
def Panel.vSquares (p : Panel) : Nat := p.cols / 32
/-- R122: squares along the outer axis. -/
def Panel.uSquares (p : Panel) : Nat := ceilDiv p.rows 32

/-- R122: offset of the byte that holds an element. -/
def Panel.elemOff (p : Panel) (r c : Nat) : Nat :=
  p.base + (r / 32 * p.vSquares + c / 32) * squareLen p.bits + squareOff p.bits (r % 32) (c % 32)

/-- R122: offset of the scale byte of row r, block v. -/
def Panel.scaleOff (p : Panel) (r v : Nat) : Nat :=
  p.base + p.uSquares * p.vSquares * squareLen p.bits + (r / 32 * p.vSquares + v) * 32 + r % 32

/-- R122: bytes of a panel. -/
def Panel.len (p : Panel) : Nat :=
  p.uSquares * p.vSquares * squareLen p.bits + (if p.mx then p.uSquares * p.vSquares * 32 else 0)

/-- R121: an element's encoding, from a read of well bytes. -/
def Panel.elem (p : Panel) (get : Nat → Nat) (r c : Nat) : Nat :=
  let o := p.elemOff r c
  if p.bits == 4 then (if c % 2 == 0 then get o % 16 else get o / 16)
  else if p.bits == 8 then get o
  else get o + 256 * get (o + 1)

/-- Offsets of the bytes of an element. -/
def Panel.elemBytes (p : Panel) (r c : Nat) : List Nat :=
  let o := p.elemOff r c
  if p.bits == 16 then [o, o + 1] else [o]

/-! ## Block sums -/

/-- R44, Table 5.5: element formats of the block-exact floating-point pairs. -/
def lowFloat (c : Nat) : Bool := [0, 1, 2, 3, 4, 8, 9, 10, 11, 12].contains c

/-- R44: integer operand codes. -/
def intCode (c : Nat) : Bool := c == 5 || c == 13

/-- Table 2.8: does the pair run on the block-exact path? -/
def pairExact (a w : Nat) : Bool := (lowFloat a && lowFloat w) || (intCode a && intCode w)

/-- Table 2.8: does the pair run on the aligned path? -/
def pairAligned (a w : Nat) : Bool := (a == 6 && w == 6) || (a == 7 && w == 7)

/-- Table 5.2: stored width of a code. -/
def codeBits (c : Nat) : Nat := if c == 4 || c == 12 then 4 else if c == 6 || c == 7 then 16 else 8

/-- Is the code an MX format? -/
def codeMx (c : Nat) : Bool := 8 ≤ c && c ≤ 13

/-- Value of an element of a code. -/
def codeVal (c b : Nat) : FV := match tagFmt c with | some (el, _, _) => el.decode b | none => .nan

/-- R46: what special products make of a block sum, none when every product is finite. -/
def specialSum (ps : List FV) : Option W32 :=
  if ps.any fun p => p == .nan then some nan32
  else match ps.any (fun p => p == .inf false), ps.any (fun p => p == .inf true) with
    | true, true => some nan32
    | true, false => some (inf32 false)
    | false, true => some (inf32 true)
    | false, false => none

/-- R45: the exact sum of the products under a scale of 2^k, rounded once. -/
def blockExact (ps : List FV) (k : Int) : W32 :=
  match specialSum ps with
  | some w => w
  | none => exact32 ((ps.foldl addV (.fin false 0 0)).scale k)

/-- R47: a product truncated to the window with its last place at 2^k, round to odd. -/
def toWindow (k : Int) : FV → Int
  | .fin n m e =>
    if k ≤ e then signed n (m * 2 ^ (e - k).toNat)
    else
      let d := 2 ^ (k - e).toNat
      signed n (if m % d == 0 then m / d else m / d ||| 1)
  | _ => 0

/-- R47: the window sum of the aligned path, rounded once. -/
def blockAligned (ps : List FV) : W32 :=
  match specialSum ps with
  | some w => w
  | none => match amaxOf ps with
    | .fin _ m e =>
      if m == 0 then 0
      else
        let k := floorLog2 m e - 61
        exact32 (ofSigned ((ps.map (toWindow k)).foldl (· + ·) 0) k)
    | _ => 0

/-- R48: the order in which `n` block sums are added: free, fixed by the instruction, its shape and its mode. -/
def sumOrder (imm : W32) (mod : BitVec 6) : Nat → Nat → List Nat → List Nat
  | 0, _, _ => []
  | n + 1, i, l =>
    let k := Config.blockPick imm mod i % l.length
    match l[k]? with
    | some x => x :: sumOrder imm mod n (i + 1) (l.eraseIdx k)
    | none => []

/-- R52: one step of the compensated accumulation. -/
def kcStep (p : W32 × W32) (s : W32) : W32 × W32 :=
  let t := add32 p.1 s
  let e := add32 (sub32 p.1 (sub32 t s)) (sub32 s (sub32 t (sub32 t s)))
  (t, add32 p.2 e)

/-- R52: the value a pair delivers. -/
def kcValue (p : W32 × W32) : W32 := add32 p.1 p.2

/-- Is an FP32 word finite? -/
def fin32 (a : W32) : Bool := (f32.decode a.toNat).isFin

/-- FP32 sum of words, exact and rounded once. -/
def trueSum (ws : List W32) : W32 := exact32 ((ws.map fun w => f32.decode w.toNat).foldl addV (.fin false 0 0))

/-- R31, R51: a free value, but finite where the true sum `t` is, and canonical where it is NaN. -/
def boundFree (v t : W32) : W32 :=
  if fin32 v then v else if fin32 t then t else if f32.decode v.toNat == .nan then nan32 else v

/-- R46, R51: beyond 32,768 block sums the value is free, but special values act as in R46, and it is finite where the true sum
is. -/
def foldedAcc (imm : W32) (mod : BitVec 6) (prior : W32) (sums : List W32) : W32 :=
  match specialSum ((prior :: sums).map fun w => f32.decode w.toNat) with
  | some w => w
  | none => boundFree (Config.foldedSum imm mod (0 :: prior :: sums)) (trueSum (prior :: sums))

/-- R51, R52: a pair beyond 32,768 block sums: free, but what it delivers is finite where the true sum is; with a special value
the steps of R52 say what it holds. -/
def foldedPair (imm : W32) (mod : BitVec 6) (prior : W32 × W32) (sums : List W32) : W32 × W32 :=
  let all := prior.1 :: prior.2 :: sums
  if !(all.all fin32) then sums.foldl kcStep prior
  else
    let t := trueSum all
    let hi := boundFree (Config.foldedSum imm mod (0 :: all)) t
    let lo := boundFree (Config.foldedSum imm mod (1 :: all)) 0
    (hi, if fin32 t && !(fin32 (kcValue (hi, lo))) then 0 else lo)

/-- R48, R51: an accumulator after the block sums of an instruction, in the default mode. -/
def accumulate (imm : W32) (mod : BitVec 6) (over_ : Bool) (prior : W32) (sums : List W32) : W32 :=
  if over_ then foldedAcc imm mod prior sums
  else (sumOrder imm mod sums.length 0 (List.range sums.length)).foldl (fun a i => add32 a (sums[i]?.getD 0)) prior

/-- R48, R51, R52: a pair after the block sums of an instruction. -/
def accumulateKc (imm : W32) (mod : BitVec 6) (over_ : Bool) (prior : W32 × W32) (sums : List W32) : W32 × W32 :=
  if over_ then foldedPair imm mod prior sums
  else (sumOrder imm mod sums.length 0 (List.range sums.length)).foldl (fun a i => kcStep a (sums[i]?.getD 0)) prior

/-! ## Operand presence and ring slots -/

/-- Ring slots of a core that overlap a range of well offsets. -/
def slotsHit (c : CoreSt) (lo n : Nat) : List (Nat × Nat × RingSt) :=
  c.rings.flatMap fun e =>
    let r := e.2
    if n == 0 || lo + n ≤ r.base || r.base + r.count * r.size ≤ lo || r.size == 0 then []
    else
      let i0 := (lo - r.base) / r.size
      let i1 := min (r.count - 1) ((lo + n - 1 - r.base) / r.size)
      (List.range (i1 + 1 - i0)).map fun d => (e.1, i0 + d, r)

/-- R60: may the array read a ring slot: held by the stream, or full or provisional-full with the stream as drainer? -/
def slotReady (slot : Nat) (h : Nat × Nat × RingSt) : Bool :=
  let (_, i, r) := h
  (r.fill == slot && r.acqW == some i) || (r.drain == slot && r.acqR == some i) ||
  (r.drain == slot && ((r.slot i).st == .full || (r.slot i).st == .provFull))

/-- R60: the ring slots under operand ranges that are not present. -/
def notReady (c : CoreSt) (slot : Nat) (ranges : List (Nat × Nat)) : Option Nat :=
  (ranges.flatMap fun r => slotsHit c r.1 r.2).findSome? fun h => if slotReady slot h then none else some h.1

/-- R65 condition 3: provisional slots under operand ranges become inputs of the stitch. -/
def readInputs (c : CoreSt) (slot : Nat) (ranges : List (Nat × Nat)) (t : Stitch) : Stitch :=
  (ranges.flatMap fun r => slotsHit c r.1 r.2).foldl (fun t h =>
    let x := h.2.2.slot h.2.1
    t.read h.1 h.2.1 (h.2.2.drain == slot && (x.st == .provFull || (x.st == .draining && x.prov)))) t

/-- R129, R134: does a range lie wholly in one ring slot that the stream holds for filling? -/
def inOneFill (c : CoreSt) (slot lo n : Nat) : Bool :=
  c.rings.any fun e => e.2.fill == slot && match e.2.acqW with
    | some i => e.2.base + i * e.2.size ≤ lo && lo + n ≤ e.2.base + (i + 1) * e.2.size
    | none => false

/-! ## `mma` -/

/-- Fields of `mma` (Tables 5.3, 5.4). -/
structure MmaOp where
  m : Nat
  n : Nat
  k : Nat
  fa : Nat
  fw : Nat
  t : Nat
  kc : Bool
  bx : Bool
  ta : Bool
  tw : Bool
  dw : Bool
  deriving DecidableEq, Repr

/-- Table 5.3: the fields of imm and mod. -/
def mmaOp (f : Fields) : MmaOp :=
  let i := f.imm.toNat
  { m := bitsAt i 0 8 + 1, n := 16 * (bitsAt i 8 4 + 1), k := 32 * (bitsAt i 12 7 + 1), fa := bitsAt i 19 4,
    fw := bitsAt i 23 4, t := bitsAt i 28 4, kc := f.mod.getLsbD 0, bx := f.mod.getLsbD 1, ta := f.mod.getLsbD 2,
    tw := f.mod.getLsbD 3, dw := f.mod.getLsbD 4 }

/-- R126: row groups. -/
def MmaOp.groups (o : MmaOp) : Nat := ceilDiv o.m 64
/-- R116: N-blocks. -/
def MmaOp.nblocks (o : MmaOp) : Nat := o.n / 16
/-- Tiles of one result. -/
def MmaOp.per (o : MmaOp) : Nat := if o.kc then 2 else 1
/-- R126, R129: tiles the instruction uses from `t`. -/
def MmaOp.tiles (o : MmaOp) : Nat := if o.dw then 2 * o.groups * o.per else o.groups * o.nblocks * o.per
/-- R126, R129: first tile of row group g of N-block j. -/
def MmaOp.tileOf (o : MmaOp) (j g : Nat) : Nat :=
  if o.dw then o.t + (if j % 2 == 0 then 0 else o.groups * o.per) + o.per * g else o.t + o.per * (j * o.groups + g)

/-- R122, R123: the A panel. -/
def MmaOp.panelA (o : MmaOp) (base : Nat) : Panel :=
  if o.ta then ⟨base, o.k, 32 * ceilDiv o.m 32, codeBits o.fa, codeMx o.fa⟩ else ⟨base, o.m, o.k, codeBits o.fa, codeMx o.fa⟩
/-- R122, R123: the W panel. -/
def MmaOp.panelW (o : MmaOp) (base : Nat) : Panel :=
  if o.tw then ⟨base, o.k, 32 * ceilDiv o.n 32, codeBits o.fw, codeMx o.fw⟩ else ⟨base, o.n, o.k, codeBits o.fw, codeMx o.fw⟩

/-- R130, Table 5.7: what an `mma` raises, in the table's order. -/
def mmaFault (c : CoreSt) (slot : Nat) (f : Fields) (o : MmaOp) (a w d : Nat) : Option Nat :=
  let pa := o.panelA a
  let pw := o.panelW w
  let lim := scratch c
  if o.fa < 14 && o.fw < 14 && !(pairExact o.fa o.fw) && !(pairAligned o.fa o.fw) then some 0x2001
  else if (o.ta || o.tw) && slot != 1 then some 0x2001
  else if (o.ta && codeMx o.fa) || (o.tw && codeMx o.fw) then some 0x2001
  else if o.fa > 13 || o.fw > 13 || f.mod.getLsbD 5 || f.imm.getLsbD 27 || (!o.dw && f.dst != 0) || o.t + o.tiles > 16 ||
    (o.kc && o.t % 2 == 1) then some 0x2002
  else if a + pa.len > lim || w + pw.len > lim || (o.dw && !(inOneFill c slot d (o.nblocks * o.groups * 4096))) then
    some 0x2003
  else if a % 256 != 0 || w % 256 != 0 || (o.dw && d % 256 != 0) then some 0x2004
  else if (List.range o.tiles).any fun i => !((c.slot slot).amask.getLsbD (o.t + i)) then some 0x2006
  else none

/-- Readers of the two operands: element encodings by (row, contraction) and (column, contraction), scale bytes by block. -/
structure MmaRead where
  a : Nat → Nat → Nat
  w : Nat → Nat → Nat
  sa : Nat → Nat → Option Nat
  sw : Nat → Nat → Option Nat

/-- The readers of an instruction over a read of well bytes. -/
def mmaRead (o : MmaOp) (a w : Nat) (get : Nat → Nat) : MmaRead :=
  let pa := o.panelA a
  let pw := o.panelW w
  { a := fun m k => if o.ta then pa.elem get k m else pa.elem get m k,
    w := fun n k => if o.tw then pw.elem get k n else pw.elem get n k,
    sa := fun m v => if pa.mx then some (get (pa.scaleOff m v)) else none,
    sw := fun n v => if pw.mx then some (get (pw.scaleOff n v)) else none }

/-- Well offsets that the arrays read. -/
def mmaBytes (o : MmaOp) (a w : Nat) : List Nat :=
  let pa := o.panelA a
  let pw := o.panelW w
  let ks := List.range o.k
  let vs := List.range (o.k / 32)
  ((List.range o.m).flatMap fun m => (ks.flatMap fun k => if o.ta then pa.elemBytes k m else pa.elemBytes m k) ++
    (if pa.mx then vs.map (pa.scaleOff m) else [])) ++
  ((List.range o.n).flatMap fun n => (ks.flatMap fun k => if o.tw then pw.elemBytes k n else pw.elemBytes n k) ++
    (if pw.mx then vs.map (pw.scaleOff n) else []))

/-- R45 to R47: block sum v of output (m, n). -/
def mmaBlock (o : MmaOp) (r : MmaRead) (m n v : Nat) : W32 :=
  let ps := (List.range 32).map fun i =>
    ((codeVal o.fa (r.a m (32 * v + i))).mul (codeVal o.fw (r.w n (32 * v + i)))).1
  let x := r.sa m v
  let y := r.sw n v
  if x == some 255 || y == some 255 then nan32
  else if pairAligned o.fa o.fw then blockAligned ps
  else blockExact ps (((x.getD 127 : Nat) : Int) + ((y.getD 127 : Nat) : Int) - 254)

/-- R125: the block sums of output (m, n) in contraction order. -/
def mmaSums (o : MmaOp) (r : MmaRead) (m n : Nat) : List W32 := (List.range (o.k / 32)).map (mmaBlock o r m n)

/-- R138: is an element or scale of row m of a pass such that the row is not checked? -/
def rowSkipped (o : MmaOp) (r : MmaRead) (j m : Nat) (vs : List Nat) : Bool :=
  let bad (c b : Nat) : Bool := !(codeVal c b).isFin
  vs.any fun v =>
    r.sa m v == some 255 || (List.range 32).any (fun i => bad o.fa (r.a m (32 * v + i))) ||
    (List.range 16).any fun n => r.sw (16 * j + n) v == some 255 ||
      (List.range 32).any fun i => bad o.fw (r.w (16 * j + n) (32 * v + i))

/-- R118: contraction blocks of each pass: one, or two when both operands are 4-bit. -/
def mmaPasses (o : MmaOp) : List (List Nat) :=
  chunks (if codeBits o.fa == 4 && codeBits o.fw == 4 then 2 else 1) (List.range (o.k / 32))

/-- R138: rows not checked over all passes. -/
def skippedRows (o : MmaOp) (r : MmaRead) : Nat :=
  ((List.range o.nblocks).flatMap fun j => (mmaPasses o).map fun vs =>
    ((List.range o.m).filter fun m => rowSkipped o r j m vs).length).sum

/-- A tile's word. -/
def AccTile.word (t : AccTile) (r c : Nat) : W32 := t.w[16 * r + c]?.getD 0

/-- R49: block sums that have entered a word since it was last cleared. -/
def AccTile.entered (t : AccTile) (r c : Nat) : Nat := t.sums[16 * r + c]?.getD 0

/-- R49: did a word begin from a non-zero loaded value? -/
def AccTile.preset (t : AccTile) (r c : Nat) : Bool := t.loaded[16 * r + c]?.getD false

/-- R49: n_b of a word of a tile, or of a pair, once `k` more block sums have entered. -/
def blockCount (hi lo : AccTile) (k r c : Nat) : Nat :=
  hi.entered r c + lo.entered r c + k + (hi.preset r c || lo.preset r c).toNat

/-- R49, R125, R126: the tiles of N-block j, row group g, after the instruction. Under `.bx` a tile begins at +0 (Table 5.4), so
that a row at or beyond M, which R125 leaves unwritten, holds +0 (DEDUCED, log 46). -/
def mmaTile (f : Fields) (o : MmaOp) (r : MmaRead) (old : FMap AccTile) (j g : Nat) : List (Nat × AccTile) :=
  let k := o.tileOf j g
  let fresh := o.bx || o.dw
  let hi : AccTile := if fresh then {} else fget {} k old
  let lo : AccTile := if fresh || !o.kc then {} else fget {} (k + 1) old
  let nb := o.k / 32
  let cell (i : Nat) : W32 × W32 :=
    let m := 64 * g + i / 16
    let p := (hi.word (i / 16) (i % 16), lo.word (i / 16) (i % 16))
    if m < o.m then
      let sums := mmaSums o r m (16 * j + i % 16)
      let over_ := decide (32768 < blockCount hi lo nb (i / 16) (i % 16))
      if o.kc then accumulateKc f.imm f.mod over_ p sums else (accumulate f.imm f.mod over_ p.1 sums, p.2)
    else p
  let cells := (List.range 1024).map cell
  let counts := (List.range 1024).map fun i => hi.entered (i / 16) (i % 16) + (if 64 * g + i / 16 < o.m then nb else 0)
  if o.kc then [(k, ⟨cells.map (·.1), counts, hi.loaded⟩), (k + 1, ⟨cells.map (·.2), lo.sums, lo.loaded⟩)]
  else [(k, ⟨cells.map (·.1), counts, hi.loaded⟩)]

/-- R52, R132: the FP32 image of a tile or pair. -/
def tileWords (tiles : FMap AccTile) (k : Nat) (kc : Bool) : List W32 :=
  let word (k i : Nat) : W32 := (fget ({} : AccTile) k tiles).w[i]?.getD 0
  (List.range 1024).map fun i => if kc then kcValue (word k i, word (k + 1) i) else word k i

/-- Set listed tiles. -/
def putTiles (l : List (Nat × AccTile)) (m : FMap AccTile) : FMap AccTile := l.foldl (fun m e => fset e.1 e.2 m) m

/-- R141: an armed injection on the physical core that runs the slot is consumed when a checked row runs on it. -/
def takeInjection (s : State) (lcid : Nat) (checked : Bool) : State × Bool :=
  let o := rTL (runTile s lcid) 0x280C
  if checked && rfld s o 17 1 == 1 && rfld s o 0 9 == runCore s lcid then (rsetf s o 17 1 0, true) else (s, false)

/-- The tiles become part of the next snapshot (R72). -/
def Stitch.wrote (t : Stitch) (ks : List Nat) : Stitch := { t with tilesW := ninsAll ks t.tilesW }

/-- R124 to R129, R139: the action of `mma`. -/
def mmaBody (u : StreamId) (f : Fields) (errs : List SymErr) (s : State) : Res :=
  let c := coreOf s u.lcid
  let x := c.slot u.slot
  let o := mmaOp f
  let a := (x.arch.sget f.src1).toNat
  let w := (x.arch.sget f.src2).toNat
  let d := (x.arch.sget f.dst).toNat
  let ranges := [(a, (o.panelA a).len), (w, (o.panelW w).len)]
  match mmaFault c u.slot f o a w d with
  | some st => .fault st
  | none => match notReady c u.slot ranges with
    | some k => .wait (.ring k true)
    | none =>
      let base := wellBase u.lcid
      let bytes := (mmaBytes o a w).map (base + ·)
      let s1 := readErrs s errs bytes
      let bad := bytes.any (badAt s1)
      let r := mmaRead o a w fun off => (byteAt s1 (base + off)).toNat
      let skip := skippedRows o r
      let ij := takeInjection s1 u.lcid (decide (skip < o.m * o.nblocks * (mmaPasses o).length))
      let s2 := rcount ij.1 (rTL (runTile s u.lcid) 0x2804) skip
      let news := (List.range o.nblocks).flatMap fun j => (List.range o.groups).flatMap fun g => mmaTile f o r c.tiles j g
      let used := span o.t o.tiles
      let tiles := if o.dw then used.foldl (fun m k => ferase k m) c.tiles else putTiles news c.tiles
      let image (j g : Nat) : List W8 := wordBytes (tileWords (putTiles (mmaTile f o r [] j g) []) (o.tileOf j g) o.kc)
      let drained : List (Nat × W8) := if !o.dw then [] else
        (List.range o.nblocks).flatMap fun j => (List.range o.groups).flatMap fun g =>
          atAddr (base + d + (j * o.groups + g) * 4096) (image j g)
      let s3 := wellStore s2 u.lcid drained errs
      let c3 := coreOf s3 u.lcid
      let y := c3.slot u.slot
      let opn := (readInputs c u.slot ranges y.opn).wrote used
      let v : Verdict := ⟨pairAligned o.fa o.fw, ij.2, runTile s u.lcid, runCore s u.lcid⟩
      let y1 := { y with opn := { opn with verdicts := opn.verdicts ++ [v], poison := opn.poison || bad } }
      let s4 := putCore s3 u.lcid ({ c3 with tiles := tiles }.putSlot u.slot y1)
      .ok (if bad then useFree s4 else s4)

/-! ## The accumulator port -/

/-- The tiles of a list become +0. -/
def clearTiles (c : CoreSt) (ks : List Nat) : CoreSt := { c with tiles := ks.foldl (fun m k => ferase k m) c.tiles }

/-- Record written tiles in the OPEN stitch. -/
def noteTiles (s : State) (u : StreamId) (ks : List Nat) : State :=
  let x := slotOf s u
  putSlot s u { x with opn := x.opn.wrote ks }

/-- R133: the action of `mclr`. -/
def mclrBody (u : StreamId) (f : Fields) (s : State) : Res :=
  let c := coreOf s u.lcid
  let ks := (List.range 16).filter f.imm.getLsbD
  if f.mod != 0 || f.dst != 0 || f.src1 != 0 || f.src2 != 0 || f.imm.toNat / 2 ^ 16 != 0 then .fault 0x2002
  else if ks.any fun k => !((c.slot u.slot).amask.getLsbD k) then .fault 0x2006
  else .ok (noteTiles (putCore s u.lcid (clearTiles c ks)) u ks)

/-- Table 5.8: first tile and count of `mld` and `mdrain`. -/
def portTiles (f : Fields) : Nat × Nat := (bitsAt f.imm.toNat 0 4, bitsAt f.imm.toNat 4 5)

/-- R133: the action of `mld`. -/
def mldBody (u : StreamId) (f : Fields) (errs : List SymErr) (s : State) : Res :=
  let c := coreOf s u.lcid
  let x := c.slot u.slot
  let (t, n) := portTiles f
  let src := (x.arch.sget f.src1).toNat
  let ks := span t n
  if f.mod != 0 || f.dst != 0 || f.src2 != 0 || f.imm.toNat / 2 ^ 9 != 0 || n == 0 || t + n > 16 then .fault 0x2002
  else if src + 4096 * n > scratch c then .fault 0x2003
  else if src % 64 != 0 then .fault 0x2004
  else if ks.any fun k => !(x.amask.getLsbD k) then .fault 0x2006
  else match notReady c u.slot [(src, 4096 * n)] with
    | some k => .wait (.ring k true)
    | none =>
      let base := wellBase u.lcid + src
      let s1 := readErrs s errs (span base (4096 * n))
      let bad := anyBad s1 base (4096 * n)
      let c1 := coreOf s1 u.lcid
      let news : List (Nat × AccTile) := ks.map fun k => 
        let ws := words32 (bytesAt s1 (base + 4096 * (k - t)) 4096)
        (k, ⟨ws, [], ws.map fun w => !(f32.decode w.toNat).isZero⟩)
      let y := c1.slot u.slot
      let opn := (readInputs c u.slot [(src, 4096 * n)] y.opn).wrote ks
      let y1 := { y with opn := { opn with poison := opn.poison || bad } }
      let s2 := putCore s1 u.lcid ({ c1 with tiles := putTiles news c1.tiles }.putSlot u.slot y1)
      .ok (if bad then useFree s2 else s2)

/-- R132: bytes of an image: FP32 words, or BF16 by RNE. -/
def imageBytes (bf : Bool) (ws : List W32) : List W8 :=
  if bf then ws.flatMap fun w => leBytes 2 (bf16.encode .rne (f32.decode w.toNat)).1 else wordBytes ws

/-- R135: the gradient block of a tile image. -/
def gradBlock (c : CoreSt) (u : StreamId) (seq replay i : Nat) (ws : List W32) : Block :=
  Block.seal { prov := true, fmt := 0x10, vbytes := 4096, gen := c.st.gen, ctx := c.st.ctx, pslot := u.slot,
               plcid := u.lcid, preplay := replay, pseq := seq, bidx := i, payload := wordBytes ws }

/-- R130, R133 to R135: the action of `mdrain`; `g` for gradient blocks. -/
def mdrainBody (u : StreamId) (f : Fields) (g : Bool) (errs : List SymErr) (s : State) : Res :=
  let c := coreOf s u.lcid
  let x := c.slot u.slot
  let (t, n) := portTiles f
  let kc := f.mod.getLsbD 0
  let bf := f.mod.getLsbD 1
  let per := if kc then 2 else 1
  let dst := (x.arch.sget f.src1).toNat
  let ks := span t (n * per)
  let len := if g then 4160 else if bf then 2048 else 4096
  if g && u.slot != 1 then .fault 0x2001
  else if f.mod.getLsbD 2 != g || f.mod.toNat / 16 != 0 || (g && bf) || f.dst != 0 || f.src2 != 0 ||
    f.imm.toNat / 2 ^ 9 != 0 || n == 0 || t + n * per > 16 || (kc && t % 2 == 1) then .fault 0x2002
  else if dst + n * len > scratch c || !(inOneFill c u.slot dst (n * len)) then .fault 0x2003
  else if dst % 64 != 0 then .fault 0x2004
  else if ks.any fun k => !(x.amask.getLsbD k) then .fault 0x2006
  else
    let out := (List.range n).flatMap fun i =>
      let ws := tileWords c.tiles (t + i * per) kc
      if g then Block.bytes (gradBlock c u x.opn.seq (fget 0 x.opn.seq x.replays) i ws) else imageBytes bf ws
    let s1 := wellStore s u.lcid (atAddr (wellBase u.lcid + dst) out) errs
    .ok (if f.mod.getLsbD 3 then noteTiles (putCore s1 u.lcid (clearTiles (coreOf s1 u.lcid) ks)) u ks else s1)

/-! ## The commands -/

/-- R133: `mclr`. -/
def execMclr (u : StreamId) (f : Fields) (s : State) : Host.Outcome State Fault Refusal :=
  .next (issue u .lane0 f [] (mclrBody u f) s)

/-- R133: `mdrain`. -/
def execMdrain (u : StreamId) (f : Met Fields) (s : State) : Host.Outcome State Fault Refusal :=
  .next (issue u .lane0 f.arg [.s f.arg.src1] (mdrainBody u f.arg false f.errs) s)

/-- R135: `mdrain.g`. -/
def execMdrainG (u : StreamId) (f : Met Fields) (s : State) : Host.Outcome State Fault Refusal :=
  .next (issue u .lane0 f.arg [.s f.arg.src1] (mdrainBody u f.arg true f.errs) s)

end Sys2Proof.Machine
end

