-- ==== Sys2Proof/Machine/Sealing.lean ====
section
/-! DEFINITION. Sealing raw data into tensor blocks and writing blocks out again (R33, R35, R37, R121, R122, R198 to R204). -/

namespace Sys2Proof.Machine

/-- Stored width of an element in the raw form: FP6 takes one byte (R120, R198). -/
def rawBits (w : Nat) : Nat := if w == 6 then 8 else w

/-- Width of a tag's raw elements and whether it is MX; raw bytes count as 8 bits. -/
def rawFmt (tag : Nat) : Nat × Bool :=
  match tagFmt tag with
  | some (_, w, mx) => (rawBits w, mx)
  | none => (8, false)

/-- Raw bytes of one MX block (R198). -/
def rawMx (tag : Nat) : Nat := 4 * (rawFmt tag).1

/-- Table 2.4: elements of a full payload. -/
def fullElems (tag : Nat) : Nat :=
  match tagFmt tag with
  | some (_, w, true) => 32 * mxPerBlock w
  | some (_, 6, false) => 5460
  | some (_, w, false) => 32768 / w
  | none => 4096

/-! ## Sealing -/

/-- R35, R204: the runs of raw data that one tensor block each takes. -/
def rawPieces (tag addr n saddr : Nat) : List Piece :=
  if (rawFmt tag).2 then
    let per := rawMx tag
    let cap := fullElems tag / 32
    let k := ceilDiv n per
    (List.range (ceilDiv k cap)).map fun i =>
      ⟨addr + i * cap * per, min (cap * per) (n - i * cap * per), saddr + i * cap, min cap (k - i * cap)⟩
  else
    let c := fullElems tag * (rawFmt tag).1 / 8
    (List.range (ceilDiv n c)).map fun i => ⟨addr + i * c, min c (n - i * c), 0, 0⟩

/-- Stored blocks at a stride of 4,160 bytes (R203). -/
def wholePieces (addr n : Nat) : List Piece := (List.range (n / 4160)).map fun i => ⟨addr + 4160 * i, 4160, 0, 0⟩

/-- R33, R35, R204: payload, MX block count and bytes in use of raw elements with their scale bytes. -/
def sealRaw (tag : Nat) (es ss : List W8) : List W8 × Nat × Nat :=
  match tagFmt tag with
  | some (_, w, mx) =>
    let packed := if w == 6 then packElems 6 (es.map BitVec.toNat) else es
    if mx then
      let el := packed ++ List.replicate (mxBytes w * ss.length - packed.length) 0
      (el ++ ss, ss.length, el.length + ss.length)
    else (packed, 0, packed.length)
  | none => (es, 0, es.length)

/-! ## Writing a block out -/

/-- R198: is the descriptor's data widened at the ingress? -/
def widens (d : Carriage) : Bool := d.dfmt != d.sfmt

/-- Is the data written out MX, with scale bytes? -/
def outMx (d : Carriage) : Bool := (rawFmt d.sfmt).2 && !(widens d)

/-- Element width of the data written out. -/
def outBits (d : Carriage) : Nat := (rawFmt d.dfmt).1

/-- R33, R37: elements of a block in the format written out, and its scale bytes. -/
def blockElems (d : Carriage) (b : Block) : List Nat × List W8 :=
  match tagFmt d.sfmt with
  | some (el, w, true) =>
    let ss := (b.payload.drop (mxBytes w * b.nblk)).take b.nblk
    let es := (List.range (32 * b.nblk)).map (elemAt w b.payload)
    if widens d then
      (es.zipIdx.map fun e => match tagFmt d.dfmt with
        | some (o, _, _) => (o.encode .rne (mxValue el (ss[e.2 / 32]?.getD 0).toNat e.1)).1
        | none => 0, [])
    else (es, ss)
  | some (_, w, false) =>
    let n := if w == 6 then b.vbytes / 3 * 4 else b.vbytes * 8 / w
    ((List.range n).map (elemAt w b.payload), [])
  | none => ((b.payload.take b.vbytes).map BitVec.toNat, [])

/-- Elements of the raw form as bytes. -/
def rawBytes (bits : Nat) (es : List Nat) : List W8 := packElems bits es

/-- R201 step 4: bytes that the ingress writes for one block, by offset in the slot or area. -/
def blockImage (d : Carriage) (b : Block) : List (Nat × W8) :=
  let i := b.bidx - d.first
  if !d.draw then atAddr (4160 * i) (Block.bytes b)
  else
    let start := i * fullElems d.sfmt
    let (es, ss) := blockElems d b
    let bits := (outBits d)
    if d.skew then
      let p : Panel := ⟨0, d.prows, d.pcols, bits, (outMx d)⟩
      let g := if bits == 4 then 2 else 1
      (((chunks g es).zipIdx).flatMap fun e =>
        let k := start + e.2 * g
        if k / d.pcols < d.prows then atAddr (p.elemOff (k / d.pcols) (k % d.pcols)) (rawBytes bits e.1) else []) ++
      (ss.zipIdx).filterMap fun e =>
        let k := start / 32 + e.2
        if k / p.vSquares < d.prows then some (p.scaleOff (k / p.vSquares) (k % p.vSquares), e.1) else none
    else
      atAddr (start * bits / 8) (rawBytes bits es) ++
      (if (outMx d) then atAddr (d.mxk * (4 * bits) + start / 32) ss else [])

/-- R200, R201: bytes of a slot that the ingress writes for a group of blocks. -/
def groupLen (d : Carriage) (bs : List Block) : Nat :=
  if !d.draw then 4160 * bs.length
  else if d.skew then Panel.len ⟨0, d.prows, d.pcols, (outBits d), (outMx d)⟩
  else (bs.map fun b =>
    let (es, ss) := blockElems d b
    ceilDiv (es.length * (outBits d)) 8 + (if (outMx d) then ss.length else 0)).sum

/-- MX blocks of a group. -/
def groupMx (bs : List Block) : Nat := (bs.map (·.nblk)).sum

/-- Elements of a group, which fill a panel of skew. -/
def groupElems (d : Carriage) (bs : List Block) : Nat := (bs.map fun b => (blockElems d b).1.length).sum

end Sys2Proof.Machine
end

