-- ==== Sys2Proof/Machine/Pumps.lean ====
section
/-! DEFINITION. Pumps, ingress units and the forward list (R67, R183, R197 to R206, R216, R246, R303 to R305). -/

namespace Sys2Proof.Machine

/-! ## Descriptors -/

/-- Table 8.4: a descriptor's fields. -/
def descOf (l : List W8) : PumpDesc :=
  { op := leAt l 0 1, flags := leAt l 1 1, skind := leAt l 2 1, dkind := leAt l 3 1, sref := leAt l 4 1, dref := leAt l 5 1,
    sfmt := leAt l 6 1, dfmt := leAt l 7 1, soff := leAt l 8 8, dest := leAt l 16 8, len := leAt l 24 8, prows := leAt l 32 4,
    pcols := leAt l 36 4, sobj := leAt l 40 4, sval := leAt l 44 4, tag := leAt l 48 8, soffs := leAt l 56 4,
    rsv := leAt l 63 1 }

/-- flags.skew. -/
def PumpDesc.skew (d : PumpDesc) : Bool := bitAt d.flags 1
/-- flags.sraw. -/
def PumpDesc.sraw (d : PumpDesc) : Bool := bitAt d.flags 2
/-- flags.draw. -/
def PumpDesc.draw (d : PumpDesc) : Bool := bitAt d.flags 3
/-- flags.sig. -/
def PumpDesc.sig (d : PumpDesc) : Bool := bitAt d.flags 4
/-- R198: op 1, or op 2 with another dfmt, widens. -/
def PumpDesc.widen (d : PumpDesc) : Bool := d.op == 1 || (d.op == 2 && d.dfmt != d.sfmt)
/-- Is the source raw MX data? -/
def PumpDesc.rawMx (d : PumpDesc) : Bool := d.sraw && (rawFmt d.sfmt).2
/-- R303: destination module of dkind 3. -/
def PumpDesc.dmod (d : PumpDesc) : Nat := bitsAt d.dest 0 10
/-- R303: win byte. -/
def PumpDesc.win (d : PumpDesc) : Nat := bitsAt d.dest 10 8
/-- R303: first block index. -/
def PumpDesc.first (d : PumpDesc) : Nat := bitsAt d.dest 18 32

/-- Table 8.5, 0x2101; `size`: slot size of the source ring, if any. -/
def descReserved (d : PumpDesc) (size : Option Nat) : Bool :=
  2 < d.op || 32 ≤ d.flags || 1 < d.skind || 3 < d.dkind || d.rsv != 0 || !(tagOk d.sfmt) || !(tagOk d.dfmt) ||
  (d.op == 2) != (d.dkind == 2) || (if d.skind == 0 then 3 else 63) < d.sref ||
  (if d.dkind == 0 then 3 else if d.dkind == 3 then 0 else 63) < d.dref ||
  (d.dfmt != d.sfmt && !d.widen) ||
  (d.skind == 1 && (d.soff != 0 || d.len == 0 || 4096 < d.len)) ||
  (d.skind == 0 && !d.sraw && d.len % 4160 != 0) ||
  (d.dkind == 1 && 2 ^ 14 ≤ d.dest) ||
  (d.dkind == 2 && (2 ^ 31 ≤ d.dest || bitAt d.dest 7 || bitAt d.dest 15 || bitAt d.dest 23)) ||
  (d.dkind == 3 && (2 ^ 50 ≤ d.dest || bitAt d.dest 16)) ||
  ((d.skew || d.widen) && !d.draw) ||
  (d.widen && !((rawFmt d.sfmt).2 && (d.dfmt == 6 || d.dfmt == 0 || d.dfmt == 1))) ||
  (d.skew && (d.prows == 0 || d.pcols == 0 || d.pcols % 32 != 0 || 16 < (rawFmt d.dfmt).1)) ||
  (!d.rawMx && d.soffs != 0) ||
  (d.rawMx && d.skind == 1 && (d.soffs % rawMx d.sfmt != 0 || match size with
    | some n => n < d.soffs + d.soffs / rawMx d.sfmt
    | none => false))

/-- R191, R198: destination cores of dkind 1 and 2. -/
def PumpDesc.targets (d : PumpDesc) : List Nat :=
  if d.dkind == 1 then [d.dest] else if d.dkind == 2 then rectCores d.dest else []

/-- May `n` bytes at an offset of a descriptor's pair be read or written (R101, R198)? -/
def pairSpan (s : State) (j : PumpJob) (k off n : Nat) (write : Bool) : Bool :=
  let b := j.pairs[k]?.getD {}
  accessOk s j.lcid b off n write && (n == 0 || (regionOf s (pairAddr b (off + n - 1)) != .none))

/-- R301: the flags and kind of a declared window of a pattern, none for an undeclared one. -/
def Pattern.window (p : Pattern) (w : Nat) : Option (List W8) :=
  (chunks 8 p.casc).find? fun e => leAt e 0 1 == w

/-- R303, R308: 0x2401 of a descriptor of dkind 3, known before any data moves. "Another kind than the source requires" is read of the
exchange: it takes the gradient blocks that slot B drains into a ring, for the gradient range of a layer (DEDUCED, log 67). -/
def akgonBad (s : State) (j : PumpJob) (d : PumpDesc) : Bool :=
  s.casc.w * s.casc.d * s.casc.m ≤ d.dmod || s.casc.cgen == 0 || bitAt d.win 6 ||
  (match (ctxOf s j.st.ctx).pat with
    | some p => if d.win < 128 then d.win == 0 || (p.window d.win).isNone
                else d.skind != 1 || !(p.layers.any fun l => p.gidx l == d.win % 64)
    | none => true)

/-- Table 8.5, 0x2102; a scheduled stream reads its source at the pattern's own address (R259). -/
def descAddress (s : State) (j : PumpJob) (d : PumpDesc) : Bool :=
  let b := (ctxOf s j.st.ctx).bind
  let core (l : Nat) : Bool := (b.any fun b => b.cores.contains l) &&
    match (coreOf s l).ring? d.dref with | some r => r.fill == 3 | none => false
  (!j.sched && d.skind == 0 && (!(pairSpan s j d.sref d.soff d.len false) ||
    (d.rawMx && !(pairSpan s j d.sref d.soffs (ceilDiv d.len (rawMx d.sfmt)) false)))) ||
  (d.skind == 1 && (match (coreOf s j.lcid).ring? d.sref with | some r => r.drain != 3 | none => true)) ||
  (d.dkind == 0 && !(pairSpan s j d.dref d.dest 1 true)) ||
  (!(d.targets.all core)) || (d.dkind == 2 && d.targets.isEmpty) ||
  (d.sig && (match b with | some b => b.soCount ≤ d.sobj | none => true))

/-- Table 8.5, 0x2103. -/
def descAlign (s : State) (d : PumpDesc) : Bool :=
  (d.skind == 0 && (d.soff % 64 != 0 || (d.rawMx && d.soffs % 64 != 0))) ||
  (d.dkind == 0 && d.dest % (if d.skew then 256 else 64) != 0) ||
  (d.skew && d.targets.any fun l => match (coreOf s l).ring? d.dref with
    | some r => r.base % 256 != 0 || r.size % 256 != 0
    | none => false)

/-- R198 to R201, R303: the status a posted descriptor fails with before it moves data. -/
def descCheck (s : State) (j : PumpJob) (d : PumpDesc) : Option Nat :=
  firstBad [
    (descReserved d (((coreOf s j.lcid).ring? d.sref).map (·.size)), 0x2101),
    (d.dkind == 3 && akgonBad s j d, 0x2401),
    (d.dkind == 3 && s.casc.leftMods.contains d.dmod, 0x7401),
    (descAddress s j d, 0x2102),
    (descAlign s d, 0x2103)]

/-! ## The end of a descriptor -/

/-- R202: a descriptor ends: status and done, the signal, and a report of a class 0x2 status. -/
def endJob (s : State) (unit : Nat) (j : PumpJob) (status : Nat) : State :=
  let s1 := writeDone (putJobs s unit ((jobsOf s unit).filter fun x => x.id != j.id)) j status
  let s2 := match (ctxOf s1 j.st.ctx).bind with
    | some b => (match (if j.desc.sig && j.desc.sobj < b.soCount then b.so? j.desc.sobj else none) with
      | some n => emit s1 (.signal (.unit unit) n (BitVec.ofNat 64 j.desc.sval) j.st)
      | none => s1)
    | none => s1
  if status / 4096 == 2 then emit s2 (.faultReport ⟨j.lcid, j.slot⟩ status j.st) else s2

/-- R202: has the descriptor moved everything, and is none of its data still revocable (log 24)? -/
def jobComplete (j : PumpJob) : Bool :=
  j.phase == .running && j.wait.isEmpty && j.unconf.isEmpty && j.redo.isEmpty && j.took.isEmpty &&
  (if j.desc.skind == 1 then j.desc.len ≤ j.next else j.desc.len ≤ j.off)

/-! ## Building blocks at the source -/

/-- Does a piece of a source lie on a failed channel (R227)? -/
def onFailed (s : State) (a n : Nat) : Bool :=
  [a, a + n - 1].any fun x => match regionOf s x with | .lpddr c => chanState s c == 1 | _ => false

/-- R203, R205, R216: the block that a pump sends for a piece, and whether its stored check value failed. -/
def buildBlock (s : State) (j : PumpJob) (p : Piece) (prod : Option Producer) (bidx : Nat) : Block × Bool :=
  let set (b : Block) (q : Producer) : Block :=
    Block.seal { b with prov := false, pord := 0, gen := j.st.gen, ctx := j.st.ctx, pslot := q.slot, plcid := q.lcid,
                        pseq := q.seq, preplay := q.replay, bidx := bidx, res := 0 }
  if j.desc.sraw then
    let bad := anyBad s p.addr p.len || anyBad s p.saddr p.slen
    let (pl, k, v) := sealRaw j.desc.sfmt (bytesAt s p.addr p.len) (bytesAt s p.saddr p.slen)
    (set { fmt := j.desc.sfmt, nblk := k, vbytes := v, payload := pl, poison := bad } (prod.getD ⟨j.slot, j.lcid, j.seq, j.replay⟩), false)
  else
    let b := blockOf (bytesAt s p.addr 4160)
    let bad := anyBad s p.addr 4160
    let b1 := { b with poison := b.poison || bad || !(Block.good b), prov := false, pord := 0 }
    (match prod with | some q => set b1 q | none => b1, !bad && !(Block.good b))

/-- Where the check-value mismatches of a unit's stored blocks are counted (R203, R216). -/
def countMismatch (s : State) (unit n : Nat) : State :=
  rcount s (if unit < 64 then rTL unit 0x3804 else rCS (unit - 64) 0x214) n

/-- What a descriptor sends next: its number, pieces, producer, provisional tags with the forward-list data, and the ring slot
it drains. -/
structure Group where
  num : Nat
  pieces : List Piece
  prod : Option Producer
  bidx : Nat
  prov : Option (Tags × Nat × Bool) := none
  ringSlot : Option Nat := none
  deriving DecidableEq, Repr

/-- R67, R200, R303, R304: may provisional data go to the destination? `none`: it must wait for a full slot. -/
def provTo (s : State) (j : PumpJob) : Option (Option Nat) :=
  let d := j.desc
  if d.dkind == 1 || d.dkind == 2 then some none
  else if d.dkind == 3 && d.win < 128 then
    match (ctxOf s j.st.ctx).pat.bind fun p => p.window d.win with
    | some e => if leAt e 1 1 != 0 then none else if bitAt (leAt e 3 1) 0 then some none else some (some 0x2401)
    | none => none
  else none

/-- Outcome of looking for the next group. -/
inductive Next where
  | wait
  | fail (status : Nat)
  | group (g : Group)
  deriving DecidableEq, Repr

/-- R198, R200, R203: the next slot of a ring source. -/
def nextSlot (s : State) (j : PumpJob) : Next :=
  let d := j.desc
  match (coreOf s j.lcid).ring? d.sref with
  | none => .fail 0x2102
  | some r =>
    if d.len ≤ j.next && j.redo.isEmpty then .wait
    else
      let num := j.redo.headD j.next
      let i := r.take % r.count
      let x := r.slot i
      let a := wellBase j.lcid + r.base + i * r.size
      let ps := if !d.sraw then wholePieces a r.size
        else if d.rawMx then rawPieces d.sfmt a d.soffs (a + d.soffs) else rawPieces d.sfmt a r.size 0
      let post : Producer := ⟨j.slot, j.lcid, j.seq, j.replay⟩
      let prod : Option Producer := if x.ingress then (if d.sraw then some post else none) else match x.tags with
        | some t => some ⟨t.slot, t.lcid, t.seq, t.replay⟩
        | none => some post
      let g : Group := ⟨num, ps, prod, num * ps.length, none, some i⟩
      if x.st == .full then .group g
      else if x.st == .provFull && !x.ingress then
        match provTo s j, x.tags with
        | some (some st), _ => .fail st
        | some none, some t => .group { g with prov := some (t, x.mAt, x.clean) }
        | _, _ => .wait
      else .wait

/-- How the blocks of a group travel. -/
def carriageOf (unit : Nat) (j : PumpJob) (g : Group) (dest : BlockDest) (bs : List Block) : Carriage :=
  { unit := unit, job := j.id, dest := dest, slotNo := g.num, first := (bs.head?.map (·.bidx)).getD 0, count := bs.length,
    draw := j.desc.draw, skew := j.desc.skew, sfmt := j.desc.sfmt, dfmt := if j.desc.widen then j.desc.dfmt else j.desc.sfmt,
    prows := j.desc.prows, pcols := j.desc.pcols, mxk := groupMx bs, base := g.bidx, st := j.st }

/-- R200: a group from the front of a range source: blocks until one destination slot of `size` bytes, or one panel, is
full; everything when the destination has no slots. Answers the pieces, none when they do not fit. -/
def takeFit (s : State) (unit : Nat) (j : PumpJob) (size : Option Nat) (prod : Option Producer) :
    List Piece → Nat → List Piece → List Block → Option (List Piece)
  | [], _, acc, bs => match size with
    | none => some acc
    | some n => if groupLen (carriageOf unit j ⟨0, [], none, 0, none, none⟩ default bs) bs == n then some acc else none
  | p :: rest, bidx, acc, bs =>
    let b := (buildBlock s j p prod bidx).1
    let bs1 := bs ++ [b]
    let acc1 := acc ++ [p]
    let c := carriageOf unit j ⟨0, [], none, 0, none, none⟩ default bs1
    match size with
    | none => takeFit s unit j size prod rest (bidx + 1) acc1 bs1
    | some n =>
      if j.desc.skew then
        (if j.desc.prows * j.desc.pcols ≤ groupElems c bs1 then (if groupLen c bs1 == n then some acc1 else none)
         else takeFit s unit j size prod rest (bidx + 1) acc1 bs1)
      else if groupLen c bs1 == n then some acc1
      else if n < groupLen c bs1 then none
      else takeFit s unit j size prod rest (bidx + 1) acc1 bs1

/-- Pieces of a range source. -/
def rangePieces (j : PumpJob) : List Piece :=
  let d := j.desc
  let a := if j.sched then j.src else pairAddr (j.pairs[d.sref]?.getD {}) d.soff
  if d.sraw then rawPieces d.sfmt a d.len (pairAddr (j.pairs[d.sref]?.getD {}) d.soffs) else wholePieces a d.len

/-- R203, R216: producer fields of a range source. -/
def rangeProd (j : PumpJob) : Producer :=
  if j.sched then ⟨3, 0xFFFFFFFF, j.epoch, 0⟩ else ⟨j.slot, j.lcid, j.seq, j.replay⟩

/-- R200: the next group of a range source. -/
def nextRange (s : State) (unit : Nat) (j : PumpJob) : Next :=
  let d := j.desc
  let size := (d.targets.head?.bind fun l => (coreOf s l).ring? d.dref).map (·.size)
  match (rangePieces j).drop j.piece with
  | [] => .wait
  | ps => match takeFit s unit j size (some (rangeProd j)) ps j.bidx [] [] with
    | none => .fail 0x2105
    | some g => .group ⟨j.next, g, some (rangeProd j), j.bidx, none, none⟩

/-! ## Sending -/

/-- R176: the first empty slot from the ring's drain cursor. -/
def freeSlot (r : RingSt) : Option Nat :=
  ((List.range r.count).map fun k => ((if r.drain == 3 then r.take else r.drainRun) + k) % r.count).find? fun i =>
    (r.slot i).st == .empty

/-- R200: ordinal of the next provisional block of a stitch. -/
def nextOrd (t : TileSt) (tags : Tags) : Nat := (t.fwd.filter fun e => e.tags == tags).foldl (fun m e => max m (e.ord + 1)) 0

/-- R258: does a transfer stream a keep layer's forward weights? -/
def keptStream (s : State) (c : Carriage) : Bool :=
  match jobOf s c.unit c.job with
  | some j => j.sched && j.pass == 0 && match (ctxOf s j.st.ctx).pat with | some p => p.keep j.layer | none => false
  | none => false

/-- Table 7.2: an ingress unit reserves a slot for a group. -/
def reserveSlot (s : State) (l ring i : Nat) (c : Carriage) (tags : Option Tags) : State :=
  let k := coreOf s l
  match k.ring? ring with
  | none => s
  | some r => putCore s l (k.putRing ring (r.putSlot i
      { st := .filling, ingress := true, tags := tags, carr := some (c.unit, c.job, c.slotNo), need := c.count, smod := s.casc.self,
        kept := keptStream s c }))

/-- The source slot becomes draining, marked when it was provisional-full (Table 7.2). -/
def drainSlot (s : State) (unit : Nat) (j : PumpJob) (i : Nat) : State :=
  let k := coreOf s j.lcid
  match k.ring? j.desc.sref with
  | none => s
  | some r =>
    let x := r.slot i
    let r1 := { r.putSlot i { x with st := .draining, prov := x.st == .provFull, taker := some (unit, j.id) } with
      take := (r.take + 1) % r.count }
    putCore s j.lcid (k.putRing j.desc.sref r1)

/-- The descriptor after it has sent a group. -/
def afterGroup (j : PumpJob) (g : Group) (bytes : Nat) (wait : List Sent) : PumpJob :=
  { j with next := if j.redo.isEmpty then j.next + 1 else j.next, redo := j.redo.tail, piece := j.piece + g.pieces.length,
           off := j.off + (if j.desc.skind == 1 then bytes else
             (g.pieces.map (·.len)).sum), bidx := j.bidx + g.pieces.length,
           took := j.took ++ (match g.ringSlot with | some i => [(g.num, i)] | none => []),
           wait := j.wait ++ wait,
           unconf := j.unconf ++ (match g.prov, g.ringSlot with | some p, some i => [(p.1, g.num, i)] | _, _ => []) }

/-- Blocks of a group with their provisional marks, and the check-value mismatches met. -/
def groupBlocks (s : State) (j : PumpJob) (g : Group) (ord : Option Nat) : List Block × Nat :=
  let l := g.pieces.zipIdx.map fun e => buildBlock s j e.1 g.prod (g.bidx + e.2)
  (l.zipIdx.map fun e => match ord with
    | some o => { e.1.1 with prov := true, pord := o + e.2 }
    | none => e.1.1, (l.filter (·.2)).length)

/-- Records of the blocks sent to one destination. -/
def sentOf (c : Carriage) (g : Group) (ord : Option Nat) : List Sent :=
  g.pieces.zipIdx.map fun e => ⟨g.bidx + e.2, c, e.1, g.prod, g.bidx + e.2, ord.map (· + e.2)⟩

/-- What sending a group does. -/
inductive SendRes where
  /-- `full`: on a full forward list -/
  | wait (full : Bool)
  | fail (status : Nat)
  | sent (s : State)

/-- Forward-list entries of a group towards one destination (R200). -/
def fwdOf (g : Group) (ord : Option Nat) (lcid : Nat) (remote : Option Nat) (win : Nat) (st : Stamp) : List FwdEntry :=
  match g.prov, ord with
  | some (t, m, cl), some o => (List.range g.pieces.length).map fun i => ⟨lcid, remote, win, t, o + i, m, cl, st, false⟩
  | _, _ => []

/-- R191, R200: send a group to rings of the module. -/
def sendRings (s : State) (unit : Nat) (j : PumpJob) (g : Group) (bs : List Block) (ord : Option Nat) : SendRes :=
  let d := j.desc
  let size := groupLen (carriageOf unit j g default bs) bs
  let ts := d.targets.map fun l => (l, ((coreOf s l).ring? d.dref).getD {})
  if ts.any fun e => e.2.size != size then .fail 0x2105
  else
    let fwd := ts.flatMap fun e => fwdOf g ord e.1 none 0 j.st
    if 1024 < (tileOf s unit).fwd.length + fwd.length && !fwd.isEmpty then .wait true
    else if ts.any fun e => (freeSlot e.2).isNone then .wait false
    else
      let cs := ts.map fun e => (e.1, (freeSlot e.2).getD 0, carriageOf unit j g (.ring e.1 d.dref) bs)
      let s1 := cs.foldl (fun s e => reserveSlot s e.1 d.dref e.2.1 e.2.2 (g.prov.map (·.1))) s
      let s2 := if fwd.isEmpty then s1 else putTile s1 unit { tileOf s1 unit with fwd := (tileOf s1 unit).fwd ++ fwd }
      let s3 := emits s2 (cs.flatMap fun e => bs.map fun b => .block e.2.2 b)
      .sent (putJob s3 unit (afterGroup j g size (cs.flatMap fun e => sentOf e.2.2 g ord)))

/-- R246: does a block add to a gradient area wait for its zero-fill? -/
def zeroWait (s : State) (a : Nat) : Bool :=
  match rangeOwner s a with
  | some (n, _) => (ctxOf s n).zeroing.any fun e => inGrad (ctxOf s n) e.1 a
  | none => false

/-- R198: send a group to a range of a pair. -/
def sendRange (s : State) (unit : Nat) (j : PumpJob) (g : Group) (bs : List Block) : SendRes :=
  let d := j.desc
  let c0 := carriageOf unit j g default bs
  let size := groupLen c0 bs
  let off := d.dest + (if d.skind == 1 then j.off else 0)
  let a := pairAddr (j.pairs[d.dref]?.getD {}) off
  let c := { c0 with dest := .range a }
  if !(pairSpan s j d.dref off size true) then .fail 0x2102
  else match regionOf s a with
    | .lpddr _ =>
      if zeroWait s a then .wait false
      else
        let s1 := emits s (bs.map fun b => .mem (cistOfAddr a) (.block c b))
        .sent (putJob s1 unit (afterGroup j g size (sentOf c g none)))
    | .well _ _ =>
      let s1 := emits s (bs.map fun b => .block c b)
      .sent (putJob s1 unit (afterGroup j g size (sentOf c g none)))
    | .host =>
      if !s.boot.cxlUp then .wait false
      else
        let s1 := bs.foldl (fun s b => hostStore s ((blockImage c b).map fun e => (a + e.1, e.2))) s
        .sent (putJob s1 unit (afterGroup j g size []))
    | .none => .fail 0x2102

/-- Send a data frame (R288, R302). -/
def sendData (s : State) (m ty win wblk : Nat) (b : Block) : State :=
  sendFrame s m { ty := ty, win := win, wblk := wblk, block := some b }

/-- R302, R303, R308: the frame of a descriptor's block `k`, with the window generation; an own block of the exchange goes to this
module's hem unit with its carriage. -/
def akgonFrame (s : State) (j : PumpJob) (c : Carriage) (k : Nat) (b : Block) : Frame :=
  let d := j.desc
  let b1 := { b with wgen := (match (ctxOf s j.st.ctx).run with | some r => r.epoch | none => j.epoch) % 2 ^ 16 }
  if 128 ≤ d.win then { ty := 4, win := d.win, wblk := d.first + k, block := some b1, via := some c }
  else { ty := 3, win := d.win, wblk := d.first + k, block := some b1 }

/-- R303, R308: send a group to a window; own blocks of the exchange go to this module's hem unit, after TURN (R310). -/
def sendAkgon (s : State) (unit : Nat) (j : PumpJob) (g : Group) (bs : List Block) (ord : Option Nat) : SendRes :=
  let d := j.desc
  let fwd := fwdOf g ord 0 (some d.dmod) d.win j.st
  if 128 ≤ d.win && !s.casc.turned then .wait false
  else if 1024 < (tileOf s unit).fwd.length + fwd.length && !fwd.isEmpty then .wait true
  else
    let c := carriageOf unit j g default bs
    let to_ := if 128 ≤ d.win then s.casc.self else d.dmod
    let s1 := if fwd.isEmpty then s else putTile s unit { tileOf s unit with fwd := (tileOf s unit).fwd ++ fwd }
    let s2 := bs.zipIdx.foldl (fun s e => sendFrame s to_ (akgonFrame s j c (g.bidx + e.2) e.1)) s1
    let wait := if ord.isSome || 128 ≤ d.win then sentOf c g ord else []
    let sent := if to_ == s.casc.self then [] else (List.range bs.length).map fun i => fget 0 to_ s.casc.dtx + 1 + i
    .sent (putJob s2 unit { afterGroup j g 0 wait with dseqs := j.dseqs ++ sent })

/-- Table 7.2: source slots whose data the destination has accepted become empty. -/
def freeTaken (s : State) (unit id : Nat) : State :=
  match jobOf s unit id with
  | none => s
  | some j =>
    let fin := j.took.filter fun e => !(j.wait.any fun w => w.d.slotNo == e.1)
    let k := coreOf s j.lcid
    let k1 := match k.ring? j.desc.sref with
      | some r => k.putRing j.desc.sref (fin.foldl (fun r e =>
          if (r.slot e.2).taker == some (unit, id) then r.putSlot e.2 {} else r) r)
      | none => k
    if fin.isEmpty then s
    else rouseReady (putJob (putCore s j.lcid k1) unit { j with took := j.took.filter fun e => !(fin.contains e) }) j.lcid

/-- One group of a running descriptor. -/
def sendNext (s : State) (unit : Nat) (j : PumpJob) : SendRes :=
  match (if j.desc.skind == 1 then nextSlot s j else nextRange s unit j) with
  | .wait => .wait false
  | .fail st => .fail st
  | .group g =>
    if g.pieces.any fun p => onFailed s p.addr (max 1 p.len) then .fail 0x7201
    else if g.pieces.any fun p => (regionOf s p.addr == .host && !s.boot.cxlUp) then .wait false
    else
      let ord := g.prov.map fun e => nextOrd (tileOf s unit) e.1
      let (bs, bad) := groupBlocks s j g ord
      let s0 := countMismatch s unit bad
      let s1 := match g.ringSlot with | some i => drainSlot s0 unit j i | none => s0
      match (if j.desc.dkind == 0 then sendRange s1 unit j g bs
             else if j.desc.dkind == 3 then sendAkgon s1 unit j g bs ord
             else sendRings s1 unit j g bs ord) with
      | .wait full => .wait full
      | .fail st => .fail st
      | .sent s2 => .sent (freeTaken s2 unit j.id)

/-- A running descriptor moves what it can; it waits, ends by a failure, or goes on. -/
def pumpGo : Nat → State → Nat → Nat → State
  | 0, s, _, _ => s
  | n + 1, s, unit, id =>
    match jobOf s unit id with
    | none => s
    | some j =>
      if j.stalled || j.st != heldStamp s j.st.ctx then s
      else match sendNext s unit j with
        | .wait full => if full then rsetf s (rTL unit 0x3810) 27 1 1 else s
        | .fail st => endJob s unit j st
        | .sent s1 => pumpGo n s1 unit id

/-- R243, R249: how far the running step of a context has come, for the record of a later loss: the latest schedule entry
started or gradient block accepted (log 19). -/
def stepAt (s : State) (n pass l : Nat) : State :=
  let x := ctxOf s n
  match x.run with
  | none => s
  | some r =>
    let later := if r.pass != pass then r.pass < pass else if pass == 0 then r.layer < l else l < r.layer
    if later then putCtx s n { x with run := some { r with pass := pass, layer := l } } else s

/-- R197, R199: a queued descriptor starts, and moves what it can; presented again, a running one goes on (log 24). -/
def pumpRun (unit id : Nat) (s : State) : State :=
  match jobOf s unit id with
  | none => s
  | some j =>
    match j.phase with
    | .unretired => s
    | .running => pumpGo (j.desc.len + j.redo.length + 1) s unit id
    | .ready =>
      if 64 ≤ ((jobsOf s unit).filter fun x => x.phase == .running).length || j.st != heldStamp s j.st.ctx then s
      else
        let d := if j.sched then j.desc else descOf (bytesAt s (wellBase j.lcid + j.addr) 64)
        let j1 := { j with phase := .running, desc := d }
        let s1 := if j.sched then stepAt (putJob s unit j1) j.st.ctx j.pass j.layer else putJob s unit j1
        match descCheck s1 j1 d with
        | some st => endJob s1 unit j1 st
        | none => pumpGo (d.len + 1) s1 unit id

/-- R194: a pump of a tile whose wells are out of reach waits, and wakes the tile. -/
def pumpStart (unit id : Nat) (s : State) : State := if unit < 64 then atWell unit (pumpRun unit id) s else pumpRun unit id s

/-- R202: PUMP_DESCRIPTOR_END: with status 0 once the descriptor is complete, else with the status that ended it, which is one that
the spec gives (R17). -/
def execPumpDescriptorEnd (unit job status : Nat) (s : State) : Host.Outcome State Fault Refusal :=
  shown (fun s => match jobOf s unit job with
    | some j => if j.phase == .running && (pumpStatuses.contains status || (status == 0 && jobComplete j)) then endJob s unit j status else s
    | none => s) s

/-! ## Ingress units (R201, R206) -/

/-- A destination has accepted a block: the sender forgets it, and a source slot with nothing left becomes empty. -/
def acceptAt (s : State) (d : Carriage) (place : Nat) : State :=
  match jobOf s d.unit d.job with
  | none => s
  | some j => freeTaken (putJob s d.unit { j with wait := j.wait.filter fun w =>
      !(w.place == place && w.d.dest == d.dest && w.d.slotNo == d.slotNo) }) d.unit d.job

/-- The number of a carried block in its transfer. -/
def placeOf (d : Carriage) (b : Block) : Nat := d.base + (b.bidx - d.first)

/-- R323, R324: a dropped block ends the sending descriptor with 0x6101 when its stamp still holds. -/
def dropBlock (s : State) (d : Carriage) : State :=
  let s1 := dropItem s
  match jobOf s1 d.unit d.job with
  | some j => if j.st == heldStamp s1 j.st.ctx then endJob s1 d.unit j 0x6101 else s1
  | none => s1

/-- R206: how often a block has been asked for again at a unit, and one more. -/
def triesOf (l : List (Nat × Nat × Nat × Nat)) (k j p : Nat) : Nat :=
  match l.find? fun e => e.1 == k && e.2.1 == j && e.2.2.1 == p with | some e => e.2.2.2 | none => 0

/-- Set a count of tries. -/
def setTries (l : List (Nat × Nat × Nat × Nat)) (k j p n : Nat) : List (Nat × Nat × Nat × Nat) :=
  let r := l.filter fun e => !(e.1 == k && e.2.1 == j && e.2.2.1 == p)
  if n == 0 then r else r ++ [(k, j, p, n)]

/-- R173: a provisional block has been written at a core: its tags, sending module and ordinal. -/
def noteWritten (c : CoreSt) (b : Block) (smod : Nat) : CoreSt :=
  let e : Tags × Nat × Nat := (⟨b.plcid, b.pslot, b.pseq, b.preplay⟩, smod, b.pord)
  if b.prov && !(c.written.contains e) then { c with written := c.written ++ [e] } else c

/-- Write a block's bytes into a well; a poisoned block poisons the codewords it touches (R201 steps 3 to 5). -/
def wellBlock (s : State) (l base : Nat) (d : Carriage) (b : Block) : State :=
  let bs := (blockImage d b).map fun e => (base + e.1, e.2)
  if b.poison then wellMark (gatherFlush s l) l (bs.map (·.1)) else wellPut s l bs

/-- R201 step 6: one block of a slot has been written; the complete slot is filled. -/
def fillBlock (x : RSlot) (b : Block) (i smod : Nat) : RSlot :=
  let got := nins i x.got
  let x1 := { x with got := got, ords := if b.prov then x.ords ++ [b.pord] else x.ords, smod := smod,
                     tags := if b.prov then some ⟨b.plcid, b.pslot, b.pseq, b.preplay⟩ else x.tags }
  if got.length < x.need then x1
  else { x1 with st := if b.prov then .provFull else .full, carr := none }

/-- R173 to R176, R201: a checked block enters the ring slot reserved for its transfer. -/
def ringBlock (s : State) (l ring : Nat) (d : Carriage) (b : Block) (smod : Nat) : State :=
  let c := coreOf s l
  match c.ring? ring with
  | none => s
  | some r => match r.slots.find? fun e => e.2.st == .filling && e.2.carr == some (d.unit, d.job, d.slotNo) with
    | none => s
    | some (i, x) =>
      if x.got.contains (b.bidx - d.first) then s
      else
        let s1 := wellBlock s l (wellBase l + r.base + i * r.size) d b
        let c1 := noteWritten (coreOf s1 l) b smod
        rouseReady (releaseHeld
          (putCore s1 l (c1.putRing ring (((c1.ring? ring).getD r).putSlot i (fillBlock x b (b.bidx - d.first) smod)))) l) l

/-- R206: a check value fails: asked again at most three times, then accepted with the poison flag. `none`: asked again. -/
def checkedBlock (s : State) (l : Nat) (d : Carriage) (b : Block) (place : Nat) : State × Option Block :=
  let t := tileOfCore l
  let k := d.unit + 128 * l
  if Block.good b then (putTile s t { tileOf s t with tries := setTries (tileOf s t).tries k d.job place 0 }, some b)
  else
    let n := triesOf (tileOf s t).tries k d.job place
    let last (p : Bool) : State := rput (rcount s (rTL t 0x3804) 1) (rTL t 0x3808) (l % 2 ^ 14 + p.toNat * 2 ^ 14 + 2 ^ 31)
    if n < 3 then
      let s1 := last false
      (emit (putTile s1 t { tileOf s1 t with tries := setTries (tileOf s1 t).tries k d.job place (n + 1) })
        (.resend d.unit d.job place d.st), none)
    else
      let s1 := last true
      (putTile s1 t { tileOf s1 t with tries := setTries (tileOf s1 t).tries k d.job place 0 }, some { b with poison := true })

/-- Logical core at whose ingress a carried block arrives. -/
def BlockDest.lcid : BlockDest → Nat
  | .ring l _ => l
  | .range a => (a - 0x100000000000) / 0x400000

/-- R76: blocks of data that is treated as retracted are dropped; a slot that was reserved for them returns to empty. -/
def dropRetracted (s : State) (d : Carriage) : State :=
  let mine (x : RSlot) : Bool := x.st == .filling && x.carr == some (d.unit, d.job, d.slotNo)
  match d.dest with
  | .ring l ring =>
    let c := coreOf s l
    (match c.ring? ring with
    | some r => rouseReady (putCore s l (c.putRing ring { r with slots := r.slots.filter fun e => !(mine e.2) })) l
    | none => s)
  | .range _ => s

/-- R201: an ingress unit takes a block of the module's mesh. -/
def ingress (d : Carriage) (b : Block) (s1 : State) : State :=
  let l := BlockDest.lcid d.dest
  let c := coreOf s1 l
  let place := placeOf d b
  if c.st.gen == 0 || c.st != ⟨b.ctx, b.gen⟩ then dropBlock s1 d
  else if b.prov && c.retracted.contains ⟨b.plcid, b.pslot, b.pseq, b.preplay⟩ then acceptAt (dropRetracted s1 d) d place
  else match checkedBlock s1 l d b place with
    | (s2, none) => s2
    | (s2, some b1) =>
      let s3 := match d.dest with
        | .ring _ ring => ringBlock s2 l ring d b1 s2.casc.self
        | .range a => wellBlock s2 l a d b1
      acceptAt s3 d place

/-- R201: TENSOR_BLOCK_ARRIVE. -/
def execTensorBlockArrive (d : Carriage) (b : Block) (s : State) : Host.Outcome State Fault Refusal :=
  shown (fun s => if meshHolds s (.block d b) then s
    else atWell (tileOfCore (BlockDest.lcid d.dest)) (fun s => ingress d b (arrive s (.block d b))) s) s

/-- R206, R215: the pump reads the source again and sends the block of number `bidx` once more; where the block went to several
destinations, to each of them that has not accepted it yet (DESIGN CHOICE, log 62: the spec does not say to which). -/
def resendBody (unit job bidx : Nat) (st : Stamp) (s : State) : State :=
  let s1 := arrive s (.resend unit job bidx st)
  match jobOf s1 unit job with
  | none => s1
  | some j =>
    if j.st != st then dropItem s1
    else (j.wait.filter fun w => w.place == bidx).foldl (fun s w =>
      let b := (buildBlock s j w.piece w.prod w.bidx).1
      let b1 := match w.prov with | some o => { b with prov := true, pord := o } | none => b
      if j.desc.dkind == 3 then (if 128 ≤ j.desc.win then sendFrame s s.casc.self (akgonFrame s j w.d w.bidx b1) else s)
      else emit s (match w.d.dest with
        | .range a => (match regionOf s a with
          | .lpddr _ => .mem (cistOfAddr a) (.block w.d b1)
          | _ => .block w.d b1)
        | _ => .block w.d b1)) s1

/-- R183: FLIT_RETRY. -/
def execFlitRetry (tile : Nat) (s : State) : Host.Outcome State Fault Refusal :=
  shown (fun s => if tile < 64 then rcount s (rTL tile 0x3800) 1 else s) s

end Sys2Proof.Machine
end

