-- ==== Sys2Proof/Machine/Cistern.lean ====
section
/-! DEFINITION. Cisterns: the check code and poison of LPDDR, tensor blocks and addition at memory, row repair and page
retirement, channels (R213 to R228, R246, R271, R272). -/

namespace Sys2Proof.Machine

/-! ## Spare pages (R223 to R225, R227) -/

/-- Offset of an LPDDR address in its stack. -/
def stackOff (a : Nat) : Nat := a % 0x800000000

/-- Numbers of spare pages that hold nothing. -/
def freeSpares (c : ChanSt) : List Nat :=
  (List.range 512).filter fun k => !(c.perm.any fun e => e.2 == k) && !(c.temp.any fun e => e.2 == k)

/-- CS_CHAN_n: free spare pages and pages on temporary spares. -/
def countSpares (s : State) (c : Nat) : State :=
  let x := chanSt s c
  rsetf (rsetf s (rChan c) 8 10 (512 - x.perm.length - x.temp.length)) (rChan c) 18 10 x.temp.length

/-- Word of the first entry of the memory retirement journal (Table 18.1). -/
def mrBase : Nat := 0x1900 / 4

/-- The memory retirement journal's 2,048 words. -/
def mrWords (s : State) : List Nat := (List.range 2048).map fun i => otpWord s (mrBase + i)

/-- Table 9.4: channel of an entry. -/
def mrChan (w : Nat) : Nat := 4 * bitsAt w 23 7 + bitsAt w 0 23 * 4096 / 0x1E0000000

/-- R225: used entries of a channel, oldest first. -/
def mrOf (s : State) (c : Nat) : List Nat := (mrWords s).filter fun w => bitAt w 31 && mrChan w == c

/-- Retirement entries used (WH_DJ). -/
def mrUsed (s : State) : Nat := ((mrWords s).filter fun w => bitAt w 31).length

/-- R225 steps 2 and 3: the page takes permanent spare `k`; a page that lies there for a time, the page itself among them, moves to
the highest free spare first, and the page's own temporary spare is released last. None where no spare is free. -/
def takeSpare (x : ChanSt) (page k : Nat) : Option ChanSt :=
  let settled (x : ChanSt) : ChanSt := { x with perm := fset page k x.perm, temp := ferase page x.temp }
  match x.temp.find? fun e => e.2 == k with
  | none => if k < 512 then some (settled x) else none
  | some e => (freeSpares x).getLast?.map fun f => settled { x with temp := fset e.1 f x.temp }

/-- R225: a page retires for good: its journal entry, and the spare page whose number counts the channel's earlier entries. -/
def retirePage (s : State) (c page cause : Nat) : State :=
  let next := 2048 - ((mrWords s).reverse.takeWhile (· == 0)).length
  if chanState s c != 0 || (fget? page (chanSt s c).perm).isSome then s
  else if 2048 ≤ next then failChan s c 4
  else
    let k := (mrOf s c).length
    let s0 := otpProgram s (mrBase + next) (page % 2 ^ 23 + c / 4 % 128 * 2 ^ 23 + cause % 2 * 2 ^ 30 + 2 ^ 31)
    let s1 := rsetf s0 0x8010 11 12 (mrUsed s0)
    match takeSpare (chanSt s c) page k with
    | some x => countSpares (putChan s1 c x) c
    | none => failChan s1 c 3

/-- R224: a page moves to the highest free spare page, from page 511 downward. -/
def movePage (s : State) (c page : Nat) : State :=
  let x := chanSt s c
  if chanState s c != 0 then s
  else match (freeSpares x).getLast? with
    | some f => countSpares (putChan s c { x with temp := fset page f x.temp }) c
    | none => failChan s c 3

/-- First row number of the check bytes of mapped data, and of the private areas: rows are numbered in the order of Table 9.2, data of
the stack first, then its check bytes; those of a channel's private areas follow. -/
def checkRows : Nat := 0x780000000 / 2048
/-- The same for the private areas. -/
def privRows : Nat := checkRows + 0x780000000 / 32768

/-- Table 9.2: first row of a private area among those of its channel. -/
def areaRow : MemArea → Nat
  | .journal => 1024
  | .dump => 3072
  | _ => 0

/-- R223, R227: row of a codeword: of its data, or of its check bytes, which serves eight pages. -/
def rowOf (e : SymErr) : Nat :=
  if e.area != .mapped then
    let r := areaRow e.area + e.addr % 2 ^ 25 / 2048
    privRows + (if e.check then 15360 + r / 16 else r)
  else if e.check then checkRows + stackOff e.addr / 32768 else stackOff e.addr / 2048

/-- R223: pages of a row; a row of a private area holds none. -/
def rowPages (row : Nat) : List Nat :=
  if row < checkRows then [row / 2] else if row < privRows then span (8 * (row - checkRows)) 8 else []

/-- R223: a row fails. Pages that already lie on a spare page stay there (log 26). -/
def rowFails (s : State) (c row : Nat) : State :=
  let x := chanSt s c
  let ps := (rowPages row).filter fun p => (fget? p x.perm).isNone && (fget? p x.temp).isNone
  if chanState s c != 0 then s
  else if x.repaired.contains row then ps.foldl (fun s p => retirePage s c p 0) s
  else if x.noRes.contains (Config.rowBank c row) then ps.foldl (fun s p => retirePage s c p 1) s
  else ps.foldl (fun s p => movePage s c p) (putChan s c { x with queue := if x.queue.contains row then x.queue else x.queue ++ [row] })

/-! ## Codeword errors (R213, R223, R227) -/

/-- Channel of the module that holds an error's codeword; none where it lies in no channel's data. -/
def errChan (s : State) (e : SymErr) : Option Nat :=
  if e.area != .mapped then (if e.addr / 2 ^ 25 < 384 then some (e.addr / 2 ^ 25) else none)
  else match regionOf s e.addr with
    | .lpddr c => some c
    | _ => none

/-- Number of an error's codeword among the marked ones: those of private areas follow those of engine addresses. -/
def errCw (e : SymErr) : Nat :=
  if e.area == .mapped then e.addr / 64 else 2 ^ 40 + areaRow e.area * 2 ^ 32 + e.addr / 64

/-- CS_MEM_LAST (Table 9.5) of a cistern. A codeword of a private area has no offset page: a free value stands there (log 63). -/
def memLast (s : State) (c : Nat) (e : SymErr) : State :=
  let page := if e.area == .mapped then stackOff e.addr / 4096 else (Config.freeWord s.freeCtr).toNat % 2 ^ 23
  rput (if e.area == .mapped then s else useFree s) (rCS (cistOfChan c) 0x208)
    (c / 4 % 4 + page * 4 + e.ue.toNat * 2 ^ 25 + e.check.toNat * 2 ^ 26 + 2 ^ 31)

/-- R227: core cycles of 1 ms. -/
def msCycles : Nat := 850000

/-- R213, R227: a codeword of channel `c` is found uncorrectable: it is marked and counted, and its row fails. The count of rows takes
the row of the data. -/
def memUe (s : State) (c : Nat) (e : SymErr) : State :=
  let s1 := memLast (rcount { s with lpPoison := nins (errCw e) s.lpPoison } (rCS (cistOfChan c) 0x204) 1) c e
  let x := chanSt s1 c
  let rows := (x.ueRows.filter fun r => s.now < r.2 + msCycles) ++ [(rowOf { e with check := false }, s.now)]
  let s2 := rowFails (putChan s1 c { x with ueRows := rows }) c (rowOf e)
  if 64 ≤ ((rows.map (·.1)).eraseDups).length then failChan s2 c 2 else s2

/-- R213, R223: a codeword of channel `c` is found correctable: it is counted, and its row fails the second time. -/
def memCe (s : State) (c : Nat) (e : SymErr) : State :=
  let s1 := memLast (rcount s (rCS (cistOfChan c) 0x200) 1) c e
  let x := chanSt s1 c
  if x.ceSeen.any fun k => k / 2 == errCw e then rowFails s1 c (rowOf e)
  else putChan s1 c { x with ceSeen := nins (2 * errCw e) x.ceSeen }

/-- R208, R213, R223, R227: an error in an active channel. A correction of the link code is only counted; a marked codeword stays
marked and counts no more. -/
def memErr (s : State) (e : SymErr) : State :=
  match errChan s e with
  | none => s
  | some c =>
    if chanState s c != 0 then s
    else if e.link then rcount s (rCS (cistOfChan c) 0x200) 1
    else if e.ue then (if s.lpPoison.contains (errCw e) then s else memUe s c e)
    else memCe s c e

/-- R224: does a page hold an address on a spare page that it did not hold before? Then the copy has read it. -/
def movedNow (s0 s : State) (a : Nat) : Bool :=
  let c := chanOf a
  let page := stackOff a / 4096
  let at_ (s : State) : Option Nat := match fget? page (chanSt s c).perm with | some k => some k | none => fget? page (chanSt s c).temp
  (match regionOf s a with | .lpddr _ => true | _ => false) && (at_ s).isSome && at_ s != at_ s0

/-- Errors are met: corrected ones first. -/
def applyErrs (s : State) (es : List SymErr) : State :=
  (es.filter fun e => e.ue).foldl memErr ((es.filter fun e => !e.ue).foldl memErr s)

/-- R224: pages that move are read whole, which can meet further errors and move further pages. -/
def copyErrs : Nat → State → State → List SymErr → State
  | 0, _, s, _ => s
  | n + 1, s0, s, es =>
    let hit := es.filter fun e => movedNow s0 s e.addr
    if hit.isEmpty then s else copyErrs n s0 (applyErrs s hit) (es.filter fun e => !(hit.contains e))

/-- The errors that an access meets: at the addresses of mapped data that it reads, and in the pages that move because of them. -/
def memErrs (s : State) (errs : List SymErr) (touch : Nat → Bool) : State :=
  let es := errs.filter fun e => e.area == .mapped
  copyErrs es.length s (applyErrs s (es.filter fun e => touch e.addr)) (es.filter fun e => !(touch e.addr))

/-- R166, R213: the errors that an access to wells or LPDDR meets, at the addresses it reads. -/
def meetErrs (s : State) (errs : List SymErr) (touch : Nat → Bool) : State := memErrs (wellErrs s errs touch) errs touch

/-- Does a run of bytes take in the 64-byte line of an address? -/
def inRun (base len a : Nat) : Bool := base / 64 ≤ a / 64 && a / 64 * 64 < base + len

/-- R198: may a job's reads meet an error at an address: in the source of a schedule entry, in the well of the posting core or
in the pair that names its source? -/
def jobTouches (j : PumpJob) (a : Nat) : Bool :=
  if j.sched then inRun j.src j.desc.len a
  else ownWell j.lcid a || (match j.pairs[j.desc.sref]? with
    | some b => inRun b.base.toNat b.len.toNat a
    | none => false)

/-- R199, R213: a descriptor starts or goes on, and its reads meet errors. -/
def pumpMeets (unit job : Nat) (errs : List SymErr) (s : State) : State :=
  match jobOf s unit job with
  | none => s
  | some j => if j.phase == .unretired then s else pumpStart unit job (meetErrs s errs (jobTouches j))

/-- R199: PUMP_DESCRIPTOR_START. -/
def execPumpDescriptorStart (unit job : Nat) (errs : List SymErr) (s : State) : Host.Outcome State Fault Refusal :=
  shown (pumpMeets unit job errs) s

/-- R206: RESEND_REQUEST: the pump reads the block's source again, and can meet errors there. -/
def execResendRequest (unit job : Nat) (bidx : Met Nat) (st : Stamp) (s : State) : Host.Outcome State Fault Refusal :=
  shown (fun s =>
    let again (j : PumpJob) (a : Nat) : Bool := (j.wait.filter fun w => w.place == bidx.arg).any fun w =>
      inRun w.piece.addr w.piece.len a || inRun w.piece.saddr w.piece.slen a
    resendBody unit job bidx.arg st (match jobOf s unit job with
      | some j => if j.st == st then meetErrs s bidx.errs (again j) else s
      | none => s)) s

/-- Do a list of addresses touch the codeword of another? -/
def touches (as : List Nat) (a : Nat) : Bool := as.any fun x => x / 64 == a / 64

/-! ## Loads, stores, `amoadd` (R213, R218, R219, R271, R324) -/

/-- R323: the present stamp of the context whose LPDDR range holds an address. -/
def ownerStamp (s : State) (a : Nat) : Option Stamp := (rangeOwner s a).map fun e => heldStamp s e.1

/-- R271: does a write to an address wait for the settle of its layer? -/
def settleHolds (s : State) (a : Nat) : Bool :=
  match rangeOwner s a with
  | some (n, _) => (ctxOf s n).settle.any fun l => inGrad (ctxOf s n) l a
  | none => false

/-- R106, R213: a load reaches the cistern: its data, and the lines it will fill, are read. -/
def memLoad (s : State) (u : StreamId) (id : Nat) (st : Stamp) (errs : List SymErr) : State :=
  let x := slotOf s u
  match x.loads.find? fun l => l.id == id with
  | none => s
  | some l =>
    if (coreOf s u.lcid).st != st then dropItem s
    else
      let own := (dstBytes l.addr l.dst).filter fun a => (fget? a l.known).isNone
      let as := (own ++ l.lines.flatMap fun ln => span ln 64).eraseDups
      let s1 := memErrs s errs (touches as)
      let poor := l.lines.filter fun ln => (span ln 64).any (badAt s1)
      let l1 := { l with data := some (as.map fun a => (a, byteAt s1 a)), bad := own.any (badAt s1), badLines := poor }
      let y := slotOf s1 u
      let s2 := putSlot s1 u { y with loads := y.loads.map fun k => if k.id == id then l1 else k }
      if as.any (badAt s1) then useFree s2 else s2

/-- R212, R213: the errors that the merge reads of a write meet: at codewords that it writes in part. -/
def partErrs (s : State) (errs : List SymErr) (bs : List (Nat × W8)) : State :=
  let part (x : Nat) : Bool := touches (bs.map (·.1)) x && !((span (x / 64 * 64) 64).all fun y => bs.any fun e => e.1 == y)
  if errs.isEmpty then s else memErrs s errs part

/-- R213, R324: a store reaches the cistern. -/
def memStore (s : State) (ps : List (Nat × List W8)) (st : Stamp) (errs : List SymErr) : State :=
  match ps with
  | [] => s
  | p :: _ =>
    if ownerStamp s p.1 != some st then dropFrom s st
    else
      let bs := ps.flatMap fun p => atAddr p.1 p.2
      lpStore (partErrs s errs bs) bs

/-- R105, R219: the sum that an `amoadd` leaves. -/
def amoSum (ty : AmoType) (old v : Nat) : Nat :=
  match ty with
  | .fp32 => (add32 (BitVec.ofNat 32 old) (BitVec.ofNat 32 v)).toNat
  | .int32 => (old + v) % 2 ^ 32
  | .int64 => (old + v) % 2 ^ 64

/-- R219, R227, R324: an `amoadd` reaches the cistern. -/
def memAmo (s : State) (a : Nat) (ty : AmoType) (v : W64) (st : Stamp) : State :=
  if ownerStamp s a != some st then dropFrom s st
  else if chanState s (chanOf a) != 0 then rcount s (rCS (cistOfAddr a) 0x210) 1
  else if anyBad s a (amoWidth ty) then s
  else lpStore s (atAddr a (leBytes (amoWidth ty) (amoSum ty (leNat (bytesAt s a (amoWidth ty))) v.toNat)))

/-! ## Tensor blocks (R213, R215, R216, R220, R221) -/

/-- The `step epoch` that R216 and R220 put into a block of a context. -/
def runEpoch (s : State) (n : Nat) : Nat := match (ctxOf s n).run with | some r => r.epoch | none => 0

/-- R216: a block that a cistern builds for a context, sealed. -/
def cisternBlock (s : State) (n fmt nblk vbytes pseq bidx : Nat) (poison : Bool) (payload : List W8) : Block :=
  Block.seal { poison := poison, fmt := fmt, nblk := nblk, vbytes := vbytes, gen := ctxGen s n, ctx := n, pslot := 3,
               plcid := 0xFFFFFFFF, pseq := pseq, bidx := bidx, payload := payload }

/-- R213: bytes of a tensor block written to LPDDR; a poisoned one marks every codeword it covers. -/
def lpWrite (s : State) (bs : List (Nat × W8)) (poison : Bool) : State :=
  let s1 := (linesOf bs).foldl (fun s ln => lpStore s (bs.filter fun e => e.1 / 64 * 64 == ln)) s
  if poison then lpMark s1 (bs.map (·.1)) else s1

/-- R227: do any of `n` bytes from an address lie on a channel that is not active? -/
def onDead (s : State) (a n : Nat) : Bool := chanState s (chanOf a) != 0 || chanState s (chanOf (a + n - 1)) != 0

/-- R227: write a whole block at an address; on a failed channel it is dropped and counted once. -/
def writeBlock (s : State) (a : Nat) (b : Block) : State :=
  if onDead s a 4160 then rcount s (rCS (cistOfAddr a) 0x210) 1 else lpWrite s (atAddr a (Block.bytes b)) b.poison

/-- R217: an update engine reads a block; a mismatch poisons its codewords. The answer says whether it is poisoned. -/
def updRead (s : State) (a : Nat) : State × Block × Bool :=
  let b := blockOf (bytesAt s a 4160)
  if anyBad s a 4160 then (useFree s, b, true)
  else if !(Block.good b) then (lpMark (rcount s (rCS (cistOfAddr a) 0x214) 1) (span a 4160), b, true)
  else (s, b, b.poison)

/-- R220 step 4: the sum of two payloads. -/
def addPayload (fp : Bool) (x y : List W8) : List W8 :=
  wordBytes ((List.range 1024).map fun i =>
    let a := BitVec.ofNat 32 (leAt x (4 * i) 4)
    let b := BitVec.ofNat 32 (leAt y (4 * i) 4)
    if fp then add32 a b else a + b)

/-- R220: a block is added to its target in an accumulation range of context `n`. -/
def blockSum (s : State) (n a mark : Nat) (b : Block) : State :=
  let t := blockOf (bytesAt s a 4160)
  let bad := anyBad s a 4160 || t.poison || !(Block.good t)
  let fmt := if mark == 1 then 0x10 else 0x12
  writeBlock (if anyBad s a 4160 then useFree s else s) a
    (cisternBlock s n fmt 0 4096 (runEpoch s n) b.bidx (bad || b.poison) (addPayload (mark == 1) (Block.body t) (Block.body b)))

/-! ## Measurement (R272, R273) -/

/-- Does an FP32 word hold a NaN or an infinity? -/
def nonFinite (w : W32) : Bool := w.toNat / 2 ^ 23 % 256 == 255

/-- R272, R273: one element enters a measurement. -/
def Meas.element (m : Meas) (w : W32) : Meas :=
  let mag := BitVec.ofNat 32 (w.toNat % 2 ^ 31)
  { s := add64 m.s (mul64 (to64 w) (to64 w)),
    a := if nonFinite w then m.a else if m.a.toNat < mag.toNat then mag else m.a,
    f := m.f + (nonFinite w).toNat }

/-- Elements of an FP32 block. -/
def fpElems (b : Block) : List W32 := words32 (b.payload.take b.vbytes)

/-- R272: a block is measured for a layer and tap; a poisoned one is counted in the layer's poison count. -/
def measure (r : StepRun) (l tap cn : Nat) (b : Block) : StepRun :=
  if b.poison then { r with poisonG := r.poisonG + (tap == 0).toNat, poisons := fmod 0 l (· + 1) r.poisons }
  else { r with meas := fmod {} (measKey l tap cn) (fun m => (fpElems b).foldl Meas.element m) r.meas }

/-- R272: layer and tap (1 to 3) of a block at an address of the tap area. -/
def tapOf (p : Pattern) (a : Nat) : Option (Nat × Nat) :=
  let base := leAt p.upd 48 8
  let k := (a - base) / 4160
  if base ≤ a && base != 0 && (a - base) % 4160 == 0 && k < 3 * p.nlayer then some (k % p.nlayer + 1, k / p.nlayer + 1) else none

/-- R245, R272: a gradient block has been accepted at its area; a plain area is measured as it is stored. -/
def gradAccepted (s : State) (n a cn : Nat) (b : Block) (plain : Bool) : State :=
  let x := ctxOf s n
  match x.run, x.layers.find? fun l => inGrad x l a with
  | some r, some l =>
    let r1 := { r with gradBlocks := fmod [] l (nins a) r.gradBlocks }
    stepAt (putCtx s n { x with run := some (if plain then measure r1 l 0 cn b else r1) }) n 1 l
  | _, _ => s

/-! ## A block arrives (R215, R221, R227, R272, R323) -/

/-- A pump's transfer ends with a status, if its descriptor's stamp still holds. -/
def failJob (s : State) (d : Carriage) (status : Nat) : State :=
  match jobOf s d.unit d.job with
  | some j => if j.st == d.st then endJob s d.unit j status else s
  | none => s

/-- R206, R215: the check of an arriving block; `none`: it is asked for again. -/
def cistChecked (s : State) (cn : Nat) (d : Carriage) (b : Block) (place : Nat) : State × Option Block :=
  let c := cistOf s cn
  let put (s : State) (n : Nat) : State := putCist s cn { c with tries := setTries c.tries d.unit d.job place n }
  if Block.good b then (put s 0, some b)
  else
    let n := triesOf c.tries d.unit d.job place
    let s1 := rcount s (rCS cn 0x214) 1
    if n < 3 then (emit (put s1 (n + 1)) (.resend d.unit d.job place d.st), none) else (put s1 0, some { b with poison := true })

/-- R220, R221, R272: a checked block enters its range. An addition reads its target whole, a store only what it writes in part. -/
def enterRange (s0 : State) (cn n : Nat) (r : RangeE) (d : Carriage) (b : Block) (place : Nat) (errs : List SymErr) : State :=
  let a := blockAt d b
  let bs := (blockImage d b).map fun e => (BlockDest.addr d.dest + e.1, e.2)
  let adds := r.mark == 1 || r.mark == 2
  let s := if adds then memErrs s0 errs (inRun a 4160) else partErrs s0 errs bs
  let plain : State := lpWrite s bs b.poison
  match r.mark with
  | 0 => acceptAt (gradAccepted plain n a cn b true) d place
  | 3 =>
    match (ctxOf s n).pat.bind (fun p => tapOf p a), (ctxOf s n).run with
    | some (l, t), some run =>
      if b.fmt == 0x10 then acceptAt (putCtx s n { ctxOf s n with run := some (measure run l t cn b) }) d place
      else acceptAt plain d place
    | _, _ => acceptAt (if b.fmt == 0x10 then s else plain) d place
  | 4 => acceptAt plain d place
  | m =>
    if b.fmt != (if m == 1 then 0x10 else 0x12) then failJob s d 0x2201
    else if (a - r.base) % 4160 != 0 then failJob s d 0x2202
    else acceptAt (gradAccepted (blockSum s n a m b) n a cn b false) d place

/-- Addresses of the blocks that a descriptor with a range destination sends. -/
def transferBlocks (j : PumpJob) (d : Carriage) : List Nat :=
  let n := if j.desc.skind == 1 then j.desc.len * d.count else (rangePieces j).length
  (List.range n).map fun i => pairAddr (j.pairs[j.desc.dref]?.getD {}) (j.desc.dest + 4160 * i)

/-- R279, Table 11.6: a transfer that ends on a failed channel counts as poisoned gradient blocks where it had not been accepted. -/
def gradRefused (s : State) (n cn : Nat) (r : RangeE) (d : Carriage) (b : Block) : State :=
  match jobOf s d.unit d.job, (ctxOf s n).run with
  | some j, some q =>
    let x := ctxOf s n
    let new (a : Nat) : Bool := x.layers.any fun l => inGrad x l a && !((fget [] l q.gradBlocks).contains a)
    if d.draw then s
    else ((transferBlocks j d).filter new).foldl (fun s a => gradAccepted s n a cn { b with poison := true } (r.mark == 0)) s
  | _, _ => s

/-- R215, R218, R227, R271, R323: a tensor block reaches the cistern. -/
def memBlock (s : State) (cn : Nat) (d : Carriage) (b : Block) (errs : List SymErr) : State :=
  let a := blockAt d b
  match rangeOwner s a with
  | none => dropBlock s d
  | some (n, r) =>
    if heldStamp s n != ⟨b.ctx, b.gen⟩ then dropBlock s d
    else if onDead s a (if d.draw then 1 else 4160) || (blockImage d b).any fun e => chanState s (chanOf (BlockDest.addr d.dest + e.1)) != 0 then
      failJob (gradRefused (rcount s (rCS cn 0x210) 1) n cn r d b) d 0x7201
    else
      let place := placeOf d b
      match cistChecked s cn d b place with
      | (s1, none) => s1
      | (s1, some b1) => enterRange s1 cn n r d b1 place errs

/-- R271, R377: a write that a settle or a line held by the host holds back stays on its way; the host is snooped. -/
def writeWaits (s : State) (a n : Nat) : Option State :=
  if settleHolds s a then some s
  else if (heldLines s (span a n)).isEmpty then none
  else some (snoopLines s (span a n))

/-- The same for the pieces of a gated write. -/
def storeWaits (s : State) (ps : List (Nat × List W8)) : Option State :=
  let as := ps.flatMap fun p => span p.1 p.2.length
  if ps.any fun p => settleHolds s p.1 then some s
  else if (heldLines s as).isEmpty then none
  else some (snoopLines s as)

/-- R218: a request reaches the cistern. -/
def cistTake (cn : Nat) (r : MemReq) (errs : List SymErr) (s : State) : State :=
  let s1 := arrive s (.mem cn r)
  if meshHolds s (.mem cn r) then s
  else match r with
  | .load u id st => memLoad s1 u id st errs
  | .store _ ps st => match storeWaits s ps with
    | some s2 => s2
    | none => memStore s1 ps st errs
  | .block d b => match writeWaits s (blockAt d b) 4160 with
    | some s2 => s2
    | none => memBlock s1 cn d b errs

/-- R218: CISTERN_REQUEST. -/
def execCisternRequest (cn : Nat) (r : MemReq) (errs : List SymErr) (s : State) : Host.Outcome State Fault Refusal :=
  shown (cistTake cn r errs) s

/-- R219: CISTERN_AMOADD. -/
def execCisternAmoadd (cn src : Nat) (addr : Nat) (add : AmoAdd) (st : Stamp) (errs : List SymErr) (s : State) :
    Host.Outcome State Fault Refusal :=
  shown (fun s => if meshHolds s (.amo cn src addr add.ty add.value st) then s else match writeWaits s addr (amoWidth add.ty) with
    | some s2 => s2
    | none =>
      let s1 := arrive s (.amo cn src addr add.ty add.value st)
      let s2 := if ownerStamp s addr == some st then memErrs s1 errs (touches (span addr (amoWidth add.ty))) else s1
      memAmo s2 addr add.ty add.value st) s

/-- R220: BLOCK_ADD: a block whose destination lies in an accumulation range. -/
def execBlockAdd (cn : Nat) (d : Carriage) (b : Block) (errs : List SymErr) (s : State) : Host.Outcome State Fault Refusal :=
  shown (fun s => match rangeOwner s (blockAt d b) with
    | some (_, r) => if r.mark == 1 || r.mark == 2 then cistTake cn (.block d b) errs s else s
    | none => taken (.mem cn (.block d b)) (fun s => dropBlock s d) s) s

/-! ## Zero-fill (R222, R246) -/

/-- R222: one block of a zero-fill for context `n`. -/
def zeroBlock (s : State) (n a mark bidx : Nat) : State :=
  writeBlock s a (cisternBlock s n (if mark == 1 then 0x10 else if mark == 2 then 0x12 else 0x13) 0 4096 (runEpoch s n)
    bidx false (List.replicate 4096 0))

/-- R246: may a zero-fill of a running step take place? The gradient areas that it touches are still to be filled, in layer order. -/
def zeroDue (x : CtxSt) (addr blocks : Nat) : Bool :=
  x.run.isNone || x.layers.all fun l => (gradAreas x l).all fun g =>
    !(g.1 < addr + 4160 * blocks && addr < g.1 + g.2) ||
    (x.zeroing.contains (l, g.1) && x.zeroing.all fun e => l ≤ e.1 || (addr ≤ e.2 && (gradAreas x e.1).all fun h => h.1 != e.2 || h.1 + h.2 ≤ addr + 4160 * blocks))

/-- R222, R246, R271: a zero-fill of blocks in a range of the context; areas now zero are no longer to be filled. -/
def zeroFill (n addr blocks : Nat) (s : State) : State :=
  match rangeOwner s addr with
  | none => s
  | some (m, r) =>
    if m != n || !(r.covers addr (4160 * blocks)) || !(zeroDue (ctxOf s n) addr blocks) || (List.range blocks).any (fun i => settleHolds s (addr + 4160 * i)) then s
    else if !((heldLines s (span addr (4160 * blocks))).isEmpty) then snoopLines s (span addr (4160 * blocks))
    else
      let s1 := (List.range blocks).foldl (fun s i => zeroBlock s n (addr + 4160 * i) r.mark i) s
      let x := ctxOf s1 n
      let done (e : Nat × Nat) : Bool := (gradAreas x e.1).any fun g => g.1 == e.2 && addr ≤ g.1 && g.1 + g.2 ≤ addr + 4160 * blocks
      putCtx s1 n { x with zeroing := x.zeroing.filter fun e => !(done e) }

/-- R222: ZERO_FILL. -/
def execZeroFill (ctx addr blocks : Nat) (s : State) : Host.Outcome State Fault Refusal := shown (zeroFill ctx addr blocks) s

/-! ## Patrol, retirement by the host, repair (R214, R226 to R228) -/

/-- R214, R223: a patrol period of a cistern ends. -/
def patrol (cn : Nat) (errs : List SymErr) (missed : Bool) (s : State) : State :=
  if 23 < cn then s
  else
    let per := rfld s (rCS cn 0x220) 0 8
    let c := cistOf s cn
    if c.period == 0 then putCist s cn { c with period := per }
    else
      let mine (e : SymErr) : Bool := match errChan s e with | some k => cistOfChan k == cn | none => false
      let s1 := applyErrs s (errs.filter mine)
      let age (l : List Nat) : List Nat := (l.filter fun k => k % 2 == 0).map (· + 1)
      let s2 := (span (16 * cn) 16).foldl (fun s k =>
        let x := chanSt s k
        if x.ceSeen.isEmpty then s else putChan s k { x with ceSeen := age x.ceSeen }) s1
      let s3 := putCist s2 cn { cistOf s2 cn with period := per }
      if missed then rsetf s3 (rCS cn 0x220) 8 1 1 else s3

/-- R214: CISTERN_PATROL. -/
def execCisternPatrol (cn : Nat) (errs : List SymErr) (missed : Bool) (s : State) : Host.Outcome State Fault Refusal :=
  shown (patrol cn errs missed) s

/-- R227: CS_CHAN_RETIRE. -/
def execCsChanRetire (cn chan : Nat) (value : W32) (s : State) : Host.Outcome State Fault Refusal :=
  shown (fun s => if cn < 24 && chan < 16 && value.getLsbD 31 then failChan s (16 * cn + chan) 5 else s) s

/-- CS_PPR_STAT. -/
def rPpr (cn : Nat) : Nat := rCS cn 0x308

/-- R228: a host command of the repair unit is taken or refused. -/
def pprTake (cn : Nat) (repair : Bool) (s : State) : State :=
  if 23 < cn then s
  else if (cistOf s cn).pprBusy.isSome || (repair && ready s) then rsetf s (rPpr cn) 2 1 1
  else rsetf (putCist s cn { cistOf s cn with pprBusy := some (repair, rget s (rCS cn 0x300)) }) (rPpr cn) 0 1 1

/-- R228: PPR_REPAIR. -/
def execPprRepair (cn : Nat) (s : State) : Host.Outcome State Fault Refusal := shown (pprTake cn true) s

/-- R233: PPR_QUERY. -/
def execPprQuery (cn : Nat) (s : State) : Host.Outcome State Fault Refusal := shown (pprTake cn false) s

/-- Channel of a CS_PPR_SEL value. -/
def selChan (cn v : Nat) : Nat := 16 * cn + 4 * bitsAt v 0 2 + bitsAt v 2 2

/-- R226: a row has been repaired: its pages leave their temporary spares, and it leaves the queue. -/
def rowRepaired (s : State) (c row : Nat) : State :=
  let x := chanSt s c
  let other (p : Nat) : Bool := x.queue.any fun q => q != row && (rowPages q).contains p
  let temp := x.temp.filter fun e => !((rowPages row).contains e.1) || other e.1
  countSpares (putChan s c { x with queue := x.queue.filter (· != row), repaired := nins row x.repaired, temp := temp }) c

/-- R226: the device reports that a repair failed: no resource is left, and the row's pages retire. -/
def rowUnrepaired (s : State) (c row : Nat) : State :=
  let x := chanSt s c
  (rowPages row).foldl (fun s p => retirePage s c p 1)
    (putChan s c { x with queue := x.queue.filter (· != row), noRes := nins (Config.rowBank c row) x.noRes })

/-- Table 9.2: the row of a channel at a place of its raw layout: data, check bytes, private areas. -/
def rowNumber (c raw : Nat) : Nat :=
  let v := raw % 4194304
  if v < 3932160 then c % 4 * 3932160 + v
  else if v < 4177920 then checkRows + c % 4 * 245760 + (v - 3932160)
  else privRows + (v - 4177920)

/-- R223, R228: a host repair or query ends; what a query finds out about a bank is kept. -/
def pprEnd (cn : Nat) (deviceOk avail : Bool) (s : State) : State :=
  match (cistOf s cn).pprBusy with
  | none => s
  | some (repair, sel) =>
    let c := selChan cn sel
    let o := rPpr cn
    let s1 := rsetf (rsetf (putCist s cn { cistOf s cn with pprBusy := none }) o 0 1 0) o 1 1 1
    let x := chanSt s1 c
    if !repair then
      rsetf (putChan s1 c { x with noRes := if avail then ndel (bitsAt sel 4 4) x.noRes else nins (bitsAt sel 4 4) x.noRes }) o 4 1 avail.toNat
    else
      let row := rowNumber c (Config.bankRow c (bitsAt sel 4 4) (bitsAt sel 8 18))
      if deviceOk then rowRepaired s1 c row else rsetf (rowUnrepaired s1 c row) o 3 1 1

/-- R228: PPR_COMPLETE. -/
def execPprComplete (cn : Nat) (deviceOk avail : Bool) (s : State) : Host.Outcome State Fault Refusal :=
  shown (pprEnd cn deviceOk avail) s

end Sys2Proof.Machine
end

