-- ==== Sys2Proof/Machine/Train.lean ====
section
/-! DEFINITION. Update engines, in-line measurement, the step governor, commit and settle (R246, R252, R264 to R285). -/

namespace Sys2Proof.Machine

/-! ## Measurements of a step (R272 to R274) -/

/-- R272: a cistern reads a layer's accumulation range once after its last add. -/
def readArea (s : State) (n l : Nat) : State :=
  let x := ctxOf s n
  match x.run, x.pat with
  | some r, some p =>
    if !(p.gacc l) || r.areaRead.contains l then s
    else ((gradAreas x l).flatMap areaBlocks).foldl (fun s a =>
      let (s1, b, bad) := updRead s a
      match (ctxOf s1 n).run with
      | some r => putCtx s1 n { ctxOf s1 n with run := some (measure r l 0 (cistOfAddr a) { b with poison := bad }) }
      | none => s1) (putCtx s n { x with run := some { r with areaRead := nins l r.areaRead } })
  | _, _ => s

/-- R242, R251: the backward pass has finished: the gradient of every layer is complete. -/
def backwardDone (s : State) (n : Nat) (r : StepRun) : Bool := (ctxOf s n).layers.all (gradComplete s n r)

/-- R273: the global norm from the sums of the layers. -/
def normOf (sums : List W64) : W64 := sqrt64 (sums.foldl add64 0)

/-- R277: the clip factor. -/
def clipOf (bits tau : Nat) (g : W64) : W32 :=
  let t := f32.decode tau
  if bitAt bits 1 && t.lt (f64.decode g.toNat) then BitVec.ofNat 32 (f32.encode .rne (t.div (f64.decode g.toNat)).1).1
  else 0x3F800000#32

/-- R269: are the updates of a step deferred? -/
def StepRun.deferred (r : StepRun) : Bool := bitAt r.bits 1

/-! ## Sending to master and deputy (R311) -/

/-- XDONE of a module: its group's contributing count, and its measurements by layer and tap; a status of Table 11.5 row 2
travels in the body (log 28). -/
def sendXdone (s : State) (n : Nat) (r : StepRun) : State :=
  match (ctxOf s n).pat with
  | none => s
  | some p =>
    let ms := p.layers.flatMap fun l => p.taps.map fun t => (⟨l, t, r.layerMeas l t⟩ : LayerMeas)
    toLeads s { ty := 6, code := 0x14, meas := ms, spec := leBytes 2 (if r.poisonG == 0 then 0 else 0x5003) ++ leBytes 2 0 ++ leBytes 4 r.contrib }

/-! ## The decision (R276) -/

/-- Table 11.5 without row 1: 0 to commit. -/
def decide115 (poisonG poisonW skip anyF : Bool) : Nat :=
  if poisonG then 0x5003 else if poisonW then 0x5004 else if skip && anyF then 0x5002 else 0

/-- R276: at the end of the backward pass, the step governor decides; on a cascade the module reports XDONE (R311). -/
def govern (n : Nat) (s : State) : State :=
  match (ctxOf s n).run, (ctxOf s n).pat with
  | some r0, some p =>
    if p.uplace != 1 || r0.decision.isSome || r0.reported || !(backwardDone s n r0) then s
    else
      let s1 := p.layers.foldl (fun s l => readArea s n l) s
      let x := ctxOf s1 n
      let r := x.run.getD r0
      if onCascade s1 n then sendXdone (putCtx s1 n { x with run := some { r with reported := true } }) n r
      else
        let g := normOf (p.layers.map fun l => (r.layerMeas l 0).s)
        let anyF := p.layers.any fun l => (r.layerMeas l 0).f != 0
        putCtx s1 n { x with run := some { r with norm := g, clip := clipOf r.bits (leAt p.upd 4 4) g,
                                                  decision := some (decide115 (r.poisonG != 0) r.poisonW (bitAt r.bits 0) anyF) } }
  | _, _ => s

/-- R272, R276: GOVERNOR_DECISION; the accumulation ranges not measured before are read, and can meet errors. -/
def execGovernorDecision (ctx : Met Nat) (s : State) : Host.Outcome State Fault Refusal :=
  shown (fun s =>
    let x := ctxOf s ctx.arg
    let reads (l : Nat) (a : Nat) : Bool := (gradAreas x l).any fun g => inRun g.1 g.2 a
    govern ctx.arg (match x.run, x.pat with
      | some r, some p =>
        let due := p.uplace == 1 && r.decision.isNone && !r.reported && backwardDone s ctx.arg r
        if due then memErrs s ctx.errs fun a => p.layers.any fun l => p.gacc l && !(r.areaRead.contains l) && reads l a else s
      | _, _ => s)) s

/-! ## The optimiser (R264 to R266) -/

/-- The parameters of a step's updates (R263, R264). -/
structure UpdPar where
  sgd : Bool
  lr : W32
  b1 : W32
  b2 : W32
  eps : W32
  wd : W32
  bc1 : W32
  bc2 : W32
  c : W32
  deriving DecidableEq, Repr

/-- FP32 one. -/
def one32 : W32 := 0x3F800000#32

/-- FP64 one. -/
def one64 : W64 := 0x3FF0000000000000#64

/-- R264: a power in FP64: exact where FP64 holds it. Its rounding elsewhere is open (log 10). -/
def powF64 (b : W32) (n : Nat) : W64 :=
  match f32.decode b.toNat with
  | .fin neg m e =>
    let t := (List.range 24).foldl (fun k _ => if k.1 % 2 == 0 && k.1 != 0 then (k.1 / 2, k.2 + 1) else k) (m, e)
    if (t.1 ≤ 1 || n ≤ 53) && -1074 ≤ t.2 * n && t.1 ^ (if t.1 ≤ 1 then 1 else n) < 2 ^ 53 then
      BitVec.ofNat 64 (f64.encode .rne (.fin (neg && n % 2 == 1) (t.1 ^ (if t.1 ≤ 1 then 1 else n)) (t.2 * n))).1
    else Config.powF64 b n
  | _ => Config.powF64 b n

/-- R263, R264: parameters from the copied block, the update count and the clip factor. -/
def updPar (sgd : Bool) (d : List W8) (u : Nat) (c : W32) : UpdPar :=
  let v (i : Nat) : W32 := BitVec.ofNat 32 (leAt d (4 * i) 4)
  { sgd := sgd, lr := v 0, b1 := v 1, b2 := v 2, eps := v 3, wd := v 4, c := c,
    bc1 := to32 (sub64 one64 (powF64 (v 1) (u + 1))),
    bc2 := to32 (sqrt64 (sub64 one64 (powF64 (v 2) (u + 1)))) }

/-- R264: the new moments of an element before they are quantised: m1 and s1. -/
def updMoments (q : UpdPar) (m s g : W32) : W32 × W32 :=
  let gc := mul32 q.c g
  if q.sgd then (add32 (mul32 q.b1 m) gc, 0)
  else
    (add32 (mul32 q.b1 m) (mul32 (sub32 one32 q.b1) gc),
     sqrt32 (add32 (mul32 q.b2 (mul32 s s)) (mul32 (sub32 one32 q.b2) (mul32 gc gc))))

/-- R264: the new weight of an element from the quantised moments. -/
def updWeight (q : UpdPar) (w mq sq : W32) : W32 :=
  if q.sgd then sub32 w (mul32 q.lr (add32 mq (mul32 q.wd w)))
  else sub32 w (mul32 q.lr (add32 (div32 (div32 mq q.bc1) (add32 (div32 sq q.bc2) q.eps)) (mul32 q.wd w)))

/-- R266: the stochastic bits of element `j` of layer `l` and quantity `k` in epoch `e`. -/
def updDraw (seed : W64) (e l k j : Nat) : Nat :=
  (mix (mix (seed ^^^ 0xA5A5A5A5A5A5A5A5#64) ^^^ mix (BitVec.ofNat 64 (e * 2 ^ 14 + l * 4 + k)) ^^^ BitVec.ofNat 64 j)).toNat % 2 ^ 32

/-- An MX block of 32 elements: scale byte and element codes. -/
structure MxGroup where
  scale : Nat := 0
  es : List Nat := List.replicate 32 0
  deriving DecidableEq, Repr, Inhabited

/-- R37: the FP32 values of a group. -/
def MxGroup.values (g : MxGroup) (el : Elem) : List W32 :=
  g.es.map fun e => BitVec.ofNat 32 (f32.encode .rne (mxValue el g.scale e)).1

/-- R36, R265: 32 values quantised by stochastic rounding, and how many saturate. -/
def quantMx (el : Elem) (draw : Nat → Nat) (vs : List W32) : MxGroup × Nat :=
  let fs := vs.map fun v => f32.decode v.toNat
  let sc := (scaleByte el fs).1
  if sc == 255 then (⟨sc, vs.map fun _ => 0⟩, 0)
  else
    let rs := fs.zipIdx.map fun e => el.encode (.sr (draw e.2)) (e.1.scale (127 - (sc : Int)))
    (⟨sc, rs.map (·.1)⟩, (rs.filter fun r => r.2.ov).length)

/-! ## Groups in blocks -/

/-- Element format and width of a layer's stored weights. -/
def wElem (p : Pattern) (l : Nat) : Elem × Nat := match tagFmt (p.plan l 0) with | some (e, w, _) => (e, w) | none => (.fp e4m3, 8)

/-- Group `i` of an MX tensor block of elements of width `w`. -/
def groupAt (w : Nat) (b : Block) (i : Nat) : MxGroup :=
  ⟨(b.payload[mxBytes w * b.nblk + i]?.getD 0).toNat, (List.range 32).map fun t => elemAt w b.payload (32 * i + t)⟩

/-- R35, R204: payload of an MX tensor block of groups. -/
def mxPayload (w : Nat) (gs : List MxGroup) : List W8 :=
  (gs.flatMap fun g => packElems w g.es) ++ gs.map fun g => BitVec.ofNat 8 g.scale

/-- Group `i` of one half of a pending block (R267). -/
def pendGroup (b : Block) (base i : Nat) : MxGroup :=
  ⟨leAt b.payload (base + 1024 + i) 1, (List.range 32).map fun t => leAt b.payload (base + 32 * i + t) 1⟩

/-- R267: payload of a pending block. -/
def pendPayload (ms ss : List MxGroup) : List W8 :=
  let half (gs : List MxGroup) : List W8 :=
    let es := gs.flatMap fun g => g.es.map (BitVec.ofNat 8)
    let sc := gs.map fun g => BitVec.ofNat 8 g.scale
    es ++ List.replicate (1024 - es.length) 0 ++ sc ++ List.replicate (32 - sc.length) 0
  half ms ++ half ss

/-- R268: is a gradient address held by a pending block of epoch `e`? -/
def isPending (b : Block) (bad : Bool) (e : Nat) : Bool := !bad && b.fmt == 0x13 && b.pseq == e && b.vbytes == 2112

/-- A block written by an update engine or a settle; a failed channel drops it and counts one (R227). -/
def updWrite (s : State) (a : Nat) (b : Block) : State :=
  if chanState s (chanOf a) != 0 then rcount s (rCS (cistOfAddr a) 0x210) 1 else writeBlock s a b

/-- Read the blocks of an area of `k` blocks, with their poison. -/
def readBlocks (s : State) (a k : Nat) : State × List (Block × Bool) :=
  (List.range k).foldl (fun r i => let (s1, b, bad) := updRead r.1 (a + 4160 * i); (s1, r.2 ++ [(b, bad)])) (s, [])

/-! ## The update of a part (R264 to R268, R279) -/

/-- What an update makes of one group: quantised moments, new weight group, saturated elements; none where its gradient
block is poisoned. -/
structure GroupOut where
  mq : MxGroup
  sq : MxGroup
  w : MxGroup
  sat : Nat
  deriving DecidableEq, Repr, Inhabited

/-- Block of a list of blocks read. -/
def nthBlock (l : List (Block × Bool)) (i : Nat) : Block := (l[i]?.getD default).1

/-- Is a block of a list poisoned? -/
def nthBad (l : List (Block × Bool)) (i : Nat) : Bool := (l[i]?.getD default).2

/-- R264 to R268: one group of 32 elements, number `i` of its part, from the blocks of its areas. -/
def updGroup (p : Pattern) (q : UpdPar) (e l first : Nat) (ws ms ss gs : List (Block × Bool)) (i : Nat) : Option GroupOut :=
  let gb := nthBlock gs (i / 32)
  let pend := isPending gb (nthBad gs (i / 32)) e
  if nthBad gs (i / 32) then none
  else
    let (el, w) := wElem p l
    let wv := (groupAt w (nthBlock ws (i / 124)) (i % 124)).values el
    let mv := (groupAt 8 (nthBlock ms (i / 124)) (i % 124)).values (.fp e4m3)
    let sv := (groupAt 8 (nthBlock ss (i / 124)) (i % 124)).values (.fp e4m3)
    let gv := (List.range 32).map fun t => BitVec.ofNat 32 (leAt (gb.payload.take gb.vbytes) (4 * (32 * (i % 32) + t)) 4)
    let draw (k t : Nat) : Nat := updDraw p.seed e l k (first + 32 * i + t)
    let raw := (List.range 32).map fun t => updMoments q (mv[t]?.getD 0) (sv[t]?.getD 0) (gv[t]?.getD 0)
    let m := quantMx (.fp e4m3) (draw 1) (raw.map (·.1))
    let v := quantMx (.fp e4m3) (draw 2) (raw.map (·.2))
    let mq := if pend then pendGroup gb 0 (i % 32) else m.1
    let sq := if pend then pendGroup gb 1056 (i % 32) else if q.sgd then {} else v.1
    let mqv := mq.values (.fp e4m3)
    let sqv := sq.values (.fp e4m3)
    let nw := quantMx el (draw 0) ((List.range 32).map fun t => updWeight q (wv[t]?.getD 0) (mqv[t]?.getD 0) (sqv[t]?.getD 0))
    some ⟨mq, sq, nw.1, nw.2 + (if pend then 0 else m.2 + v.2)⟩

/-- R264 to R268, R279: the update of one part: shadow and pending blocks, counts, and the poison it met. -/
def updPart (s : State) (n : Nat) (p : Pattern) (r : StepRun) (q : UpdPar) (l : Nat) (part : List W8) : State :=
  let cnt := leAt part 8 4
  let ng := ceilDiv cnt 1024
  let nw := ceilDiv cnt 3968
  let grp := ceilDiv cnt 32
  let act := fget 0 l (ctxOf s n).active
  let wa := leAt part (16 + 8 * act) 8
  let sh := leAt part (24 - 8 * act) 8
  let ga := leAt part 48 8
  let cn := cistOfAddr ga
  let (s1, gs) := readBlocks s ga ng
  let (s2, ws) := readBlocks s1 wa nw
  let (s3, ms) := readBlocks s2 (leAt part 32 8) nw
  let (s4, ss) := if q.sgd then (s3, []) else readBlocks s3 (leAt part 40 8) nw
  let wBad (k : Nat) : Bool := nthBad ws k || nthBad ms k || nthBad ss k
  let outs := (List.range grp).map fun i => updGroup p q r.epoch l (leAt part 4 4) ws ms ss gs i
  let w := (wElem p l).2
  let shadow (s : State) (k : Nat) : State :=
    let old := blockOf (bytesAt s (sh + 4160 * k) 4160)
    let is := (List.range grp).filter fun i => i / 124 == k
    let pl := mxPayload w (is.map fun i => match outs[i]?.getD none with | some o => o.w | none => groupAt w old (i % 124))
    updWrite s (sh + 4160 * k) (cisternBlock s n (p.plan l 0) is.length pl.length r.epoch k (wBad k) pl)
  let pending (s : State) (i : Nat) : State :=
    if nthBad gs i || isPending (nthBlock gs i) false r.epoch then s
    else
      let is := (List.range grp).filter fun k => k / 32 == i
      let os := is.filterMap fun k => outs[k]?.getD none
      updWrite s (ga + 4160 * i) (cisternBlock s n 0x13 0 2112 r.epoch i (is.any fun k => wBad (k / 124))
        (pendPayload (os.map (·.mq)) (os.map (·.sq))))
  let s5 := (List.range ng).foldl pending ((List.range nw).foldl shadow s4)
  let badG := (gs.filter (·.2)).length
  let badW := ((ws ++ ms ++ ss).filter (·.2)).length
  let sat := (outs.map fun o => match o with | some g => g.sat | none => 0).sum
  let s6 := rcount (rcount (rcount s5 (rCS cn 0x404) (ng - badG)) (rCS cn 0x408) (badG + badW)) (rCS cn 0x40C) sat
  let x := ctxOf s6 n
  match x.run with
  | some r1 => putCtx s6 n { x with run := some { r1 with poisonW := r1.poisonW || badW != 0, poisonG := max r1.poisonG (min 1 badG) } }
  | none => s6

/-! ## Layer updates (R269) -/

/-- R312: on a cascade, a module whose updates of the step are written, or that met Table 11.5 row 3, reports READY once
PREPARE has come; a poisoned gradient block that its updates met is reported as row 2 (R279, log 51). -/
def maybeReady (s : State) (n : Nat) : State :=
  let x := ctxOf s n
  match x.run with
  | none => s
  | some r =>
    let doneUpd := x.layers.all r.updated.contains
    if onCascade s n && !r.readySent && (match r.decision with | some d => d != 0 || doneUpd || r.poisonW | none => false) then
      toLeads (putCtx s n { x with run := some { r with readySent := true } })
        { ty := 2, code := 0x16, spec := leBytes 2 (decide115 (!r.poisonW && r.poisonG != 0) r.poisonW false false) }
    else s

/-- R27, R260: is every cistern that holds a part of the layer one whose update engines the context binds, and do they work? -/
def enginesFit (s : State) (n l : Nat) : Bool :=
  match (ctxOf s n).bind, (ctxOf s n).pat with
  | some b, some p => (p.layerParts l).all fun e =>
      let j := cistOfAddr (leAt e 48 8)
      b.cists.contains j && !(cistBad s j)
  | _, _ => false

/-- R269: may the update of a layer start? -/
def updateStarts (s : State) (n l : Nat) (r : StepRun) : Bool :=
  let x := ctxOf s n
  enginesFit s n l && x.layers.contains l && !(r.updated.contains l) && !r.committed && !(x.settle.contains l) && gradComplete s n r l &&
  (r.decision == none || r.decision == some 0) &&
  (!r.deferred || (r.decision.isSome && x.layers.all fun k => l ≤ k || r.updated.contains k))

/-- R264, R269: the update of a layer, part by part; a layer on an accumulation range is measured first (R272). -/
def layerUpdate (n l : Nat) (s : State) : State :=
  match (ctxOf s n).run, (ctxOf s n).pat with
  | some r, some p =>
    if p.uplace != 1 || !(updateStarts s n l r) then s
    else match entryOf s r.ring r.seq with
      | none => s
      | some e =>
        let s1 := readArea s n l
        let sgd := leAt p.upd 0 1 == 1
        let q := updPar sgd e.copy3 (ctxOf s n).u (if r.deferred then r.clip else one32)
        let s2 := (p.layerParts l).foldl (fun s part => updPart s n p r q l part) s1
        let x := ctxOf s2 n
        match x.run with
        | some r2 => maybeReady (putCtx s2 n { x with run := some { r2 with updated := nins l r2.updated } }) n
        | none => s2
  | _, _ => s

/-- R269: LAYER_UPDATE. -/
def execLayerUpdate (ctx layer : Nat) (errs : List SymErr) (s : State) : Host.Outcome State Fault Refusal :=
  shown (fun s =>
    let owns (a : Nat) : Bool := match rangeOwner s a with | some (n, _) => n == ctx | none => false
    layerUpdate ctx layer (match (ctxOf s ctx).run with
      | some r => if updateStarts s ctx layer r then memErrs s errs owns else s
      | none => s)) s

/-! ## Commit (R270, R285) -/

/-- A finite FP32 word as a multiple of 2^-149. -/
def units149 (w : W32) : Option Int :=
  match f32.decode w.toNat with
  | .fin neg m e => some (signed neg (m * 2 ^ (e + 149).toNat))
  | _ => none

/-- R285: |L' − L| ≤ ρ · 2γ · a · (1 + γ), with γ of R55 for `m` contributions, compared exactly. -/
def lossClose (l' l a rho : W32) (m : Nat) : Bool :=
  match units149 l', units149 l, units149 a, units149 rho with
  | some x, some y, some av, some rv =>
    let k : Int := (m : Int) - 1
    let d : Int := 2 ^ 24 - k
    let diff : Int := (x - y).natAbs
    if m ≤ 1 then diff == 0
    else if d ≤ 0 then true
    else diff * d * d * 2 ^ 149 ≤ rv * av * 2 * k * 2 ^ 24
  | _, _, _, _ => false

/-- R285: is the comparison made? -/
def restoreCompares (x : CtxSt) (e : Entry) (r : StepRun) : Bool :=
  r.firstAfterRestore && crc32c e.copy2 == x.trailer.mbCrc && r.contrib == r.nmb && x.trailer.trailCount == x.trailer.trailNmb

/-- R285: what the first step after a restore verifies: none where no comparison is made. -/
def verifyRestore (s : State) (x : CtxSt) (p : Pattern) (e : Entry) (r : StepRun) : Option Bool :=
  if restoreCompares x e r then
    let c := lossCell s p
    some (lossClose c.1 x.trailer.lossSum c.2.1 (BitVec.ofNat 32 (leAt p.upd 8 4)) c.2.2)
  else none

/-- R282, R283: settings of a running mirror stream of a context: period N. -/
def mirrorPeriod (s : State) (n : Nat) : Option Nat :=
  if fnState s (128 + n) == 2 then some (leAt (fnSet s (128 + n)) 2 2) else none

/-- R270 step 4, R282, Table 11.8: the capture at commit of an epoch that is a multiple of N. -/
def mirrorCapture (s : State) (n : Nat) : State :=
  let x := ctxOf s n
  match mirrorPeriod s n, x.pat with
  | some k, some p =>
    if k == 0 || x.comEpoch % k != 0 then s
    else
      let m : MirrorImage := {
        epoch := x.comEpoch, u := x.u, count := x.count, sos := ctxSos s n, rings := ringRecs s n, gens := genRecs s n, hist := x.hist,
        scale := bytesAt s (leAt p.upd 24 8) (4 * p.nlayer), meas := p.measure }
      putCtx s n { x with capture := some m }
  | _, _ => s

/-- The COMMIT record of the journal (R344). -/
def jcommit (s : State) (n : Nat) : State :=
  let x := ctxOf s n
  jput s (fun r => match r with | .commit m _ _ _ _ => m == n | _ => false) (.commit n x.comEpoch x.u x.count x.active)

/-- R286: CS_UPD_STAT.settle of a context's cisterns: a layer still to settle has a part there. -/
def showSettle (s : State) (n : Nat) : State :=
  match (ctxOf s n).bind, (ctxOf s n).pat with
  | some b, some p =>
    let ps := (ctxOf s n).settle.flatMap p.layerParts
    b.cists.foldl (fun s j => rsetf s (rCS j 0x400) 3 1 (ps.any fun e => cistOfAddr (leAt e 48 8) == j).toNat) s
  | _, _ => s

/-- R171: the caches of a context's cores are empty. -/
def dropCaches (s : State) (n : Nat) : State := (ctxCores s n).foldl (fun s l => putCore s l { coreOf s l with cache := [] }) s

/-- R270: a step commits with a status: pointers, u and count, tables, capture, retirement record, settle. The image of the step before
is taken first, from the weights that this step read. -/
def commitStep (sb : State) (n : Nat) (status : Nat) : State :=
  let x0 := ctxOf sb n
  match x0.run, x0.pat with
  | some r, some p =>
    let s := match entryOf sb r.ring r.seq with | some e => imageGo (putCtx sb n (mirrorTrailer sb x0 e r)) n | none => sb
    let x := ctxOf s n
    let act := p.layers.foldl (fun m l => fset l (1 - fget 0 l x.active) m) x.active
    let y := { x with active := act, u := x.u + 1, count := x.count + r.contrib, comEpoch := r.epoch, run := some { r with committed := true } }
    let s1 := putCtx (dropCaches s n) n y
    let s2 := mirrorCapture (writeTables s1 n p r status) n
    let s3 := finishStep (jcommit s2 n) n status
    let s4 := putCtx s3 n { ctxOf s3 n with settle := p.layers.reverse, settleEpoch := r.epoch }
    if onCascade s4 n then s4 else showSettle s4 n
  | _, _ => sb

/-- R100: has every bound slot of a context completed its part? -/
def partsDone (s : State) (n : Nat) : Bool :=
  (ctxCores s n).all fun l => [0, 1, 2].all fun i =>
    let x := (coreOf s l).slot i
    !x.bound || x.phase == .partDone

/-- R270, R279, R285: a step of a module without cascade that may end does so; poison that its updates met after the decision
counts as in Table 11.5. -/
def endStep (n : Nat) (s : State) : State :=
  let x := ctxOf s n
  match x.run, x.pat with
  | some r, some p =>
    if onCascade s n || !(partsDone s n) then s
    else if p.uplace == 0 then
      finishStep (putCtx s n { x with comEpoch := if r.contrib == 0 then x.comEpoch else r.epoch }) n r.status
    else match r.decision, entryOf s r.ring r.seq with
      | some 0, some e =>
        if r.poisonG != 0 || r.poisonW then finishStep s n (decide115 (r.poisonG != 0) r.poisonW false false)
        else if !(p.layers.all r.updated.contains) then s
        else match verifyRestore s x p e r with
          | some false => finishStep (putCtx s n { x with restored := false, unverified := true }) n 0x4301
          | some true => commitStep (putCtx s n { x with restored := false, unverified := false }) n r.status
          | none => commitStep s n r.status
      | some st, _ => finishStep s n st
      | none, _ => s
  | _, _ => s

/-- R270: STEP_COMMIT. -/
def execStepCommit (ctx : Nat) (s : State) : Host.Outcome State Fault Refusal := shown (endStep ctx) s

/-! ## Settle (R271, R313) -/

/-- R271: the moment blocks of one part from its pending blocks. -/
def settlePart (s : State) (n : Nat) (p : Pattern) (e : Nat) (part : List W8) : State :=
  let cnt := leAt part 8 4
  let grp := ceilDiv cnt 32
  let (s1, ps) := readBlocks s (leAt part 48 8) (ceilDiv cnt 1024)
  let put (base : Nat) (area : Nat) (s : State) (k : Nat) : State :=
    let is := (List.range grp).filter fun i => i / 124 == k
    let pl := mxPayload 8 (is.map fun i => pendGroup (nthBlock ps (i / 32)) base (i % 32))
    updWrite s (area + 4160 * k)
      (cisternBlock s n 0x08 is.length pl.length e k (is.any fun i => nthBad ps (i / 32)) pl)
  let ks := List.range (ceilDiv cnt 3968)
  let s2 := ks.foldl (put 0 (leAt part 32 8)) s1
  if leAt p.upd 0 1 == 1 then s2 else ks.foldl (put 1056 (leAt part 40 8)) s2

/-- SETTLE record of a context (R344). -/
def jsettle (s : State) (n e l : Nat) : State :=
  jput s (fun r => match r with | .settle m _ _ => m == n | _ => false) (.settle n e l)

/-- R271: the settle of a layer, in the order nlayer to 1; on a cascade only after RELEASE (R313). -/
def settleLayer (n l : Nat) (s : State) : State :=
  let x := ctxOf s n
  match x.settle, x.pat with
  | k :: rest, some p =>
    if k != l || (onCascade s n && !s.casc.released) then s
    else
      let s1 := (p.layerParts l).foldl (fun s part => settlePart s n p x.settleEpoch part) s
      let s2 := putCtx s1 n { ctxOf s1 n with settle := rest }
      imageGo (showSettle (jsettle s2 n x.settleEpoch l) n) n
  | _, _ => s

/-- R271: SETTLE; the pending blocks are read, and can meet errors. -/
def execSettle (ctx : Nat) (layer : Met Nat) (s : State) : Host.Outcome State Fault Refusal :=
  shown (fun s =>
    let x := ctxOf s ctx
    let pend (a : Nat) : Bool := (gradAreas x layer.arg).any fun g => inRun g.1 g.2 a
    settleLayer ctx layer.arg (if x.settle.head? == some layer.arg && !(onCascade s ctx && !s.casc.released) then
      memErrs s layer.errs pend else s)) s

end Sys2Proof.Machine
end

