-- ==== Sys2Proof/Machine/Commands.lean ====
section
/-! DEFINITION. Entries that no context runs: `xfer`, `sync`, `query` (R109, R115, R298, R390, R391). -/

namespace Sys2Proof.Machine

/-! ## Acceptance and `load`, which read memory (R213, R330, R384) -/

/-- R384: ENTRY_ACCEPTANCE; the blocks and tables that the entry names are read, and can meet errors. -/
def execEntryAcceptance (ring : Met Nat) (s : State) : Host.Outcome State Fault Refusal :=
  shown (fun s =>
    let reads := acceptReads s ring.arg
    acceptNext ring.arg (if ringTakes s ring.arg && !ring.errs.isEmpty then memErrs s ring.errs fun a => reads.any fun e => inRun e.1 e.2 a else s)) s

/-- R330: LOAD; the pattern image is read, and can meet errors. -/
def execLoad (ring : Nat) (seq : Met Nat) (s : State) : Host.Outcome State Fault Refusal :=
  shown (fun s => loadBody ring seq.arg (match mayBeginCtx s ring seq.arg 0xE1 with
    | some e => if seq.errs.isEmpty then s else memErrs s seq.errs (inRun e.b.toNat (imageLen (bytesAt s e.b.toNat 128)))
    | none => s)) s

/-! ## `xfer` (R390) -/

/-- What a copy has met: a poisoned source line, a dropped destination line. -/
structure CopyMet where
  bad : Bool := false
  dropped : Bool := false
  deriving DecidableEq, Repr, Inhabited

/-- R390: one 64-byte line. -/
def copyLine (src dst : Nat) (r : State × CopyMet) : State × CopyMet :=
  let s := r.1
  let bad := anyBad s src 64
  let bs := atAddr dst (bytesAt s src 64)
  let s0 := if bad then useFree s else s
  match regionOf s dst with
  | .lpddr c =>
    let s1 := lpStore s0 bs
    if chanState s c != 0 then (s1, { r.2 with dropped := true })
    else (if bad then lpMark s1 [dst] else s1, { r.2 with bad := r.2.bad || bad })
  | _ =>
    let s1 := hostStore s0 bs
    (if bad then { s1 with hostPoison := nins (dst / 64) s1.hostPoison } else s1, { r.2 with bad := r.2.bad || bad })

/-- R390: the copy, in ascending order. A copy that meets both conditions reports the dropped lines (log 29). -/
def copyAll (s : State) (src dst len : Nat) : State × Nat :=
  let r := (List.range (len / 64)).foldl (fun r i => copyLine (src + 64 * i) (dst + 64 * i) r) (s, {})
  (r.1, if r.2.dropped then 0x7701 else if r.2.bad then 0x3701 else 0)

/-- R390, R375: an `xfer` runs and retires; without the host link it waits where it needs host memory. -/
def xferBody (ring seq : Nat) (errs : List SymErr) (s : State) : State :=
  match mayBegin s ring seq 0xE3 with
  | none => s
  | some e =>
    let src := e.a.toNat
    let dst := e.b.toNat
    let len := e.d.toNat
    if !s.boot.cxlUp && (0x400000000000 ≤ src || 0x400000000000 ≤ dst) then s
    else if (List.range (len / 64)).any fun i => settleHolds s (dst + 64 * i) then s
    else
      let (s1, st) := copyAll (memErrs s errs (inRun src len)) src dst len
      retire s1 e { status := st, detail := len }

/-- R390: XFER. -/
def execXfer (ring seq : Nat) (errs : List SymErr) (s : State) : Host.Outcome State Fault Refusal := shown (xferBody ring seq errs) s

/-! ## `sync` (R109, R115) -/

/-- A `sync` entry that waits or signals, waiting or queued; a queued one begins while the memory map is ON (R333, log 30). -/
def syncEntry (s : State) (ring seq : Nat) (signal : Bool) : Option Entry :=
  match entryOf s ring seq with
  | some e =>
    let w (x : Entry) : Bool := x.ring == ring && x.seq < seq && x.op == 0xE4 && x.mod % 2 == 0
    if e.op == 0xE4 && (e.mod % 2 == 1) == signal && !(s.accepted.any w) && (e.phase == .waiting || rfld s (rFnStat 1) 0 2 == 2) then some e else none
  | none => none

/-- R109: the object an entry names, as a cascade index or a physical object; none at or beyond the number held (log 30). -/
def syncObject (s : State) (e : Entry) : Option (Nat × Bool) :=
  match (ctxOf s e.ctx).bind with
  | none => none
  | some b =>
    if bitAt e.mod 1 then (if b.cso && e.imm < 4096 then some (e.imm, true) else none)
    else if e.imm < b.soCount then (b.so? e.imm).map fun n => (n, false)
    else none

/-- The stream number under which an entry's request to the master is kept. -/
def entryStream (e : Entry) : StreamId := ⟨0x10000 + e.ring, e.seq⟩

/-- R115: `sync` that waits. -/
def syncWaitBody (ring seq : Nat) (s : State) : State :=
  match syncEntry s ring seq false with
  | none => s
  | some e => match syncObject s e with
    | none => retire s e { status := 0x2003 }
    | some (n, true) =>
      if e.phase != .queued then s else casAsk (putEntry s { e with phase := .waiting }) (entryStream e) n 0 0 e.b
    | some (n, false) =>
      let o := soOf s n
      if soMet o.v e.b then retire s e {}
      else if o.waits.contains (.entry ring seq e.b) then s
      else putEntry { s with sos := fset n { o with waits := o.waits ++ [.entry ring seq e.b] } s.sos } { e with phase := .waiting }

/-- R115: SYNC_WAIT. -/
def execSyncWait (ring seq : Nat) (s : State) : Host.Outcome State Fault Refusal := shown (syncWaitBody ring seq) s

/-- R115, R298: `sync` that signals: the value is added as the entry retires, so that its SO record holds it (R344). -/
def syncSignalBody (ring seq : Nat) (s : State) : State :=
  match syncEntry s ring seq true with
  | none => s
  | some e => match syncObject s e with
    | none => retire s e { status := 0x2003 }
    | some (n, false) => retire (signalSo s n e.b) e {}
    | some (n, true) =>
      let s1 := retire s e {}
      if !s1.casc.active then s1 else sendAll s1 (leads s1) { ty := 2, code := 3, spec := leBytes 8 n ++ leBytes 8 e.b.toNat }

/-- R115: SYNC_SIGNAL. -/
def execSyncSignal (ring seq : Nat) (s : State) : Host.Outcome State Fault Refusal := shown (syncSignalBody ring seq) s

/-! ## `query` (R391) -/

/-- Registers as bytes, in offset order. -/
def regBytes (s : State) (os : List Nat) : List W8 := os.flatMap fun o => leBytes 4 (rget s o)

/-- Query kind 0x00, also the health read of R393. -/
def healthBytes (s : State) : List W8 :=
  moduleLine s ++ regBytes s [0x8000, 0x8004, 0x8008, 0x800C, 0x8010, 0x8014] ++ leBytes 40 0

/-- Table 15.8. -/
def queryBytes (s : State) (kind idx : Nat) : List W8 :=
  match kind with
  | 0 => healthBytes s
  | 1 =>
    let m := match (ctxOf s idx).pat with | some p => p.measure | none => []
    ctxLine s idx ++ m.take 64 ++ List.replicate (64 - m.length) 0
  | 2 => (List.range 256).map (fnByte s)
  | 3 => ringLine s idx ++ regBytes s ((List.range 16).map fun i => rHC idx (4 * i))
  | 4 => (djWords s).flatMap (leBytes 4)
  | _ =>
    ((List.range 384).map fun c => BitVec.ofNat 8 (rget s (rChan c))) ++
    ((List.range 64).flatMap fun t => leBytes 2 (rfld s (rTL t 0x2000) 4 9)) ++
    ((List.range 64).map fun t => BitVec.ofNat 8 (rfld s (rTL t 0x2000) 0 4)) ++ leBytes 64 0

/-- R391: a `query` writes its result to the host and retires with its length. -/
def queryBody (ring seq : Nat) (s : State) : State :=
  match mayBegin s ring seq 0xE6 with
  | none => s
  | some e =>
    if !s.boot.cxlUp then s
    else
      let b := queryBytes s (e.a.toNat % 256) (e.a.toNat / 256)
      retire (hostStore s (atAddr e.b.toNat b)) e { detail := b.length }

/-- R391: QUERY. -/
def execQuery (ring seq : Nat) (s : State) : Host.Outcome State Fault Refusal := shown (queryBody ring seq) s

end Sys2Proof.Machine
end

