-- ==== Sys2Proof/Machine/Akgon.lean ====
section
/-! DEFINITION. Akgon ports, frames, relays, windows and provisional data across modules (R287 to R307). -/

namespace Sys2Proof.Machine

/-! ## Members and roles (R296, R297, R299) -/

/-- Change the cascade's state. -/
def modCasc (s : State) (g : Casc → Casc) : State := { s with casc := g s.casc }

/-- Modules of a cascade. -/
def Casc.total (c : Casc) : Nat := c.w * c.d * c.m

/-- R299: replica group of a module. -/
def Casc.group (c : Casc) (m : Nat) : Nat := m / (c.w * c.d)

/-- R299: stage of a module. -/
def Casc.stage (c : Casc) (m : Nat) : Nat := m / c.w % c.d

/-- Modules in the cascade: neither left nor lost. -/
def Casc.live (c : Casc) : List Nat := (List.range c.total).filter fun m => !(c.lost.contains m) && !(c.leftMods.contains m)

/-- R297: the next live entry of succ after a new master. -/
def Casc.nextDeputy (c : Casc) : Nat := (c.succ.find? fun m => m != c.master && !(c.lost.contains m) && !(c.leftMods.contains m)).getD c.master

/-- Role of this module: 0 member, 1 deputy, 2 master. -/
def casRole (c : Casc) : Nat := if c.self == c.master then 2 else if c.self == c.deputy then 1 else 0

/-- The CASCADE record: epoch, restart count, term, phase. -/
def cascadeRec (s : State) : Option (Nat × Nat × Nat × Nat) :=
  s.journal.findSome? fun r => match r with | .cascade e k t p => some (e, k, t, p) | _ => none

/-- R311, R315: REJOIN to master and deputy, with the journal's state for the step: 1 prepared, 2 committed, 0 neither (log 28). -/
def sendRejoin (s : State) : State :=
  if !s.casc.active then s
  else toLeads s { ty := 2, code := 0x1B, spec := leBytes 2 (match cascadeRec s with | some q => q.2.2.2 | none => 0) }

/-- R115, R298: every slot and `sync` entry that waits for a cascade object asks the master: when the cascade becomes active, and anew
when its master changes. -/
def askWaiting (s0 : State) : State :=
  let s := modCasc s0 fun c => { c with reqs := [] }
  let slots := s.cores.flatMap fun e => [0, 1, 2].map fun i => (⟨e.1, i⟩ : StreamId)
  let s1 := slots.foldl (fun s u => match (slotOf s u).wait with
    | some (.so i true d t) => casAsk s u i 0 d t
    | some (.soRead i d) => casAsk s u i 1 d 0
    | _ => s) s
  (s1.accepted.filter fun e => e.op == 0xE4 && e.phase == .waiting && e.mod % 2 == 0 && bitAt e.mod 1).foldl
    (fun s e => casAsk s (entryStream e) e.imm 0 0 e.b) s1

/-- R307: every core treats a lost module's provisional data as retracted, vouched or not. -/
def loseData (s : State) (m : Nat) : State :=
  s.cores.foldl (fun s e =>
    let tags := (e.2.rings.flatMap fun r => (r.2.slots.filterMap fun x =>
      if x.2.ingress && x.2.smod == m then x.2.tags else none)).eraseDups
    tags.foldl (fun s t => timeoutTags s e.1 t m) s) s

/-- R297, R307: another module acts as master from now on, and the one before it is lost; this module, back from a reset, reports to it. -/
def newMaster (s : State) (m : Nat) : State :=
  let c := s.casc
  let old := c.master
  if m == old then s
  else
    let gone := old != c.self && !(c.lost.contains old) && !(c.leftMods.contains old)
    let s1 := modCasc s fun c => { c with master := m, lost := ndel m (if gone then nins old c.lost else c.lost) }
    let s2 := modCasc s1 fun c => { c with deputy := c.nextDeputy }
    let s3 := askWaiting (if gone then loseData s2 old else s2)
    if c.back then sendRejoin s3 else s3

/-- R297: codes of the messages that only the master sends. -/
def masterCodes : List Nat := [0x11, 0x13, 0x15, 0x17, 0x1A, 0x1C]

/-- R297: what a frame tells of the master: TAKEOVER names it; a higher term than the highest seen, in a message or beat of the master,
too. A master that sees one in another module's frame has been followed by its deputy, and acts as a member. -/
def hearTerm (s : State) (f : Frame) : State :=
  let c := s.casc
  let s1 := modCasc s fun c => { c with term := max c.term f.term }
  let fromMaster := if f.ty == 1 then leAt f.spec 0 1 == 2 else masterCodes.contains f.code
  if f.term < c.term then s1
  else if f.ty != 1 && f.code == 0x1C then newMaster s1 f.smod
  else if f.term == c.term then s1
  else if fromMaster then newMaster s1 f.smod
  else if c.self == c.master then newMaster s1 c.deputy
  else s1

/-! ## Ports (R289, R290, R294) -/

/-- Is a port up? -/
def portUp (s : State) (n : Nat) : Bool := n < 64 && rfld s (rAK n 0) 0 2 == 2

/-- R288: does a 32-bit sequence number come at or before another? -/
def seqUpTo (a b : Nat) : Bool := (b + 2 ^ 32 - a) % 2 ^ 32 < 2 ^ 31

/-- R289, R291: acknowledged frames leave the replay buffer, and waiting ones follow. -/
def ackFrames (s : State) (n lack : Nat) : State :=
  let p := portOf s n
  flushPort p.queue.length (putPort s n { p with replay := p.replay.filter fun f => !(seqUpTo f.lseq lack) }) n

/-- R289: frames are sent again from a link sequence number on. -/
def resendFrames (s : State) (n start : Nat) : State :=
  let l := (portOf s n).replay.filter fun f => seqUpTo start f.lseq
  emits (rcount s (rAK n 0xC) l.length) (l.map fun f => .frame n f)

/-- R289: a link frame arrives. -/
def linkFrameIn (port lack : Nat) (resendFrom : Option Nat) (s : State) : State :=
  if !(portUp s port) then s
  else
    let s1 := ackFrames s port lack
    match resendFrom with
    | some q => resendFrames s1 port q
    | none => s1

/-- R289: LINK_FRAME. -/
def execLinkFrame (port lack : Nat) (resendFrom : Option Nat) (s : State) : Host.Outcome State Fault Refusal :=
  shown (linkFrameIn port lack resendFrom) s

/-- R289: the port asks for the frames after the last one received in order. Link frames are not held for resending. -/
def askResend (s : State) (n : Nat) : State :=
  let p := portOf s n
  let f : Frame := { dmod := 0xFFFF, smod := s.casc.self, ty := 0, cgen := s.casc.cgen, lack := p.rxSeq, n := (p.rxSeq + 1) % 2 ^ 32 }
  emit s (.frame n { f with fcrc := frameCheck f })

/-- R294: a frame for another module leaves towards it, or is dropped at its last hop. -/
def relay (s : State) (port : Nat) (f : Frame) : State :=
  if f.hops ≤ 1 then rcountF s (rAK port 0x18) 0 16 1
  else
    let g := { f with hops := f.hops - 1 }
    match framePort s g with
    | some q => portSend s q g
    | none => rcountF s (rAK port 0x18) 0 16 1

/-- R290: has the dseq of a frame been accepted from its source? -/
def frameSeen (s : State) (f : Frame) : Bool := f.dseq != 0 && (fget [] f.smod s.casc.drx).contains f.dseq

/-- R290: a frame for this module enters the inbox, unless its dseq has been accepted from its source. -/
def deliver (s : State) (port : Nat) (f : Frame) : State :=
  if frameSeen s f then s
  else
    let c := s.casc
    { s with casc := { c with drx := if f.dseq == 0 then c.drx else fmod [] f.smod (nins f.dseq) c.drx },
             inbox := s.inbox ++ [{ f with port := some port }] }

/-- R301: is the window of generation `w` open: a step of the cascade's context with that generation has been accepted, and its
retirement record is not yet written. -/
def windowOpen (s : State) (w : Nat) : Bool :=
  s.casc.active &&
  ((s.accepted.any fun e => e.op == 0xE2 && e.ctx == s.casc.ctx && e.epoch % 2 ^ 16 == w) ||
   s.hrings.any fun h => h.2.done.any fun d => match d.step with
     | some (n, e) => n == s.casc.ctx && e % 2 ^ 16 == w
     | none => false)

/-- R302: a block is dropped and its sender told. -/
def dropData (s : State) (port : Nat) (f : Frame) (wgen status : Nat) : State :=
  sendFrame (rcountF s (rAK port 0x18) (if status == 0x6401 then 0 else 16) 16 1) f.smod
    { ty := 2, code := 0x0A, epoch := wgen, spec := leBytes 2 status ++ leBytes 2 0 ++ leBytes 4 f.win ++ leBytes 4 f.wblk ++
        leBytes 4 f.dseq }

/-- R206, R309: the check of a block that a port takes: asked for again three times, then taken with the poison flag. -/
def portChecked (s : State) (port : Nat) (f : Frame) (b : Block) : State × Option Block :=
  let p := portOf s port
  let put (s : State) (n : Nat) : State := putPort s port { portOf s port with tries := setTries p.tries f.smod f.win f.wblk n }
  if Block.good b then (put s 0, some b)
  else
    let n := triesOf p.tries f.smod f.win f.wblk
    let s1 := rcount s (rAK port 0x10) 1
    if n < 3 then (put s1 (n + 1), none) else (put s1 0, some { b with poison := true })

/-- R301: the window a data frame names is the exchange or one that the pattern declares. -/
def windowKnown (s : State) (f : Frame) : Bool :=
  f.ty == 4 || ((ctxOf s s.casc.ctx).pat.bind fun p => p.window f.win).isSome

/-- R302: a data frame for this module reaches a port, in order: dropped, asked for again by the link frame of R289 (log 28), or
accepted. -/
def dataIn (s : State) (port : Nat) (f : Frame) (b : Block) : State :=
  let next (s : State) : State := putPort s port { portOf s port with rxSeq := f.lseq }
  if frameSeen s f then next s
  else if f.cgen != s.casc.cgen then dropData (next s) port f b.wgen 0x6401
  else if !(windowOpen s b.wgen) || !(windowKnown s f) then dropData (next s) port f b.wgen 0x6402
  else match portChecked s port f b with
    | (s1, none) => askResend s1 port
    | (s1, some b1) => deliver (next s1) port { f with block := some b1 }

/-- R288: types and message codes that the manual reserves; frames with them are dropped. -/
def frameReserved (f : Frame) : Bool :=
  6 < f.ty || ((f.ty == 2 || f.ty == 1) && (f.code == 0 || (0xC ≤ f.code && f.code ≤ 0xF) || 0x1C < f.code))

/-- R289: a frame that is the next in order at a port: dropped, delivered to this module, or relayed. -/
def frameNext (s : State) (port : Nat) (f : Frame) : State :=
  let next (s : State) : State := putPort s port { portOf s port with rxSeq := f.lseq }
  if frameReserved f then next s
  else if f.ty != 1 && f.dmod != s.casc.self then relay (next s) port f
  else match f.block with
    | some b => if f.ty == 3 || f.ty == 4 then dataIn s port f b else deliver (next s) port f
    | none => deliver (next s) port f

/-- R289: FEC codewords are counted: corrected ones, uncorrectable ones. -/
def countFec (s : State) (port : Nat) : FecResult → State
  | .clean => s
  | .corrected k => rcount s (rAK port 4) k
  | .uncorrectable k => rcount s (rAK port 8) (max 1 k)

/-- R289: a frame reaches a port; one that has not been relayed names the far end (R318). -/
def frameIn (port : Nat) (f : Frame) (fec : FecResult) (s : State) : State :=
  let s0 := arrive s (.frame port f)
  if !(portUp s port) then s0
  else
    let s1 := countFec s0 port fec
    let lost := match fec with | .uncorrectable _ => true | _ => false
    if lost || f.fcrc != frameCheck f then askResend s1 port
    else
      let s2 := ackFrames (if f.hops == 4 then rsetf s1 (rAK port 0) 7 10 f.smod else s1) port f.lack
      let rx := (portOf s2 port).rxSeq
      if f.ty == 0 || seqUpTo f.lseq rx then s2
      else if f.lseq != (rx + 1) % 2 ^ 32 then askResend s2 port
      else frameNext s2 port f

/-- R289: AKGON_FRAME_RECEIVE. -/
def execAkgonFrameReceive (port : Nat) (fr : Frame) (fec : FecResult) (s : State) : Host.Outcome State Fault Refusal :=
  shown (frameIn port fr fec) s

/-- R283, R290, R366: a port fails; frames not acknowledged go out again by other ports, except those of a mirror image on its way, which
is abandoned. -/
def failPort (s : State) (n : Nat) : State :=
  if 63 < n || rfld s (rAK n 0) 0 2 == 3 then s
  else
    let held := (portOf s n).replay ++ (portOf s n).queue
    let cut := (List.range 64).filter fun c => match mirrorPartner s c with
      | some (m, _) => (ctxOf s c).image.isSome && (nextHop s m).isSome && s.casc.pmap[n]? == nextHop s m
      | none => false
    let to_ := cut.filterMap fun c => (mirrorPartner s c).map (·.1)
    let s1 := portReason (portOut (defectAppend (putPort s n { portOf s n with replay := [], queue := [] }) 7 (n * 2 ^ 21)) n)
    let again (f : Frame) : Bool := f.dmod != 0xFFFF && !(f.ty == 5 && to_.contains f.dmod)
    (held.filter again).foldl (fun s f => match framePort s f with
      | some q => portSend s q f
      | none => s) (cut.foldl dropImage s1)

/-- R290: PORT_FAIL. -/
def execPortFail (port : Nat) (s : State) : Host.Outcome State Fault Refusal := shown (fun s => failPort s port) s

/-- R290: LANE_FAIL: the spare takes the lane's place, or the port fails. -/
def execLaneFail (port lane : Nat) (s : State) : Host.Outcome State Fault Refusal :=
  shown (fun s =>
    let p := portOf s port
    if !(portUp s port || (port < 64 && rfld s (rAK port 0) 0 2 == 1)) || 8 < lane || p.laneBad.contains lane then s
    else if p.spareUsed then failPort s port
    else rsetf (rsetf (putPort s port { p with laneBad := nins lane p.laneBad, spareUsed := true }) (rAK port 0) 6 1 1)
      (rAK port 0) 2 4 8) s

/-! ## Control frames (R288, R297) -/

/-- A delivered frame is taken from the inbox. -/
def takeIn (s : State) (f : Frame) : State := { s with inbox := eraseOne f s.inbox }

/-- R297: a control frame acts on an active cascade unless its term or generation is old; `none`: it is dropped. -/
def control (s : State) (f : Frame) : Option State :=
  let s1 := takeIn s f
  let c := s1.casc
  if !c.active || f.cgen != c.cgen || f.term < c.term then none else some (hearTerm s1 f)

/-- A control message's effect; a dropped frame only leaves the inbox, and one of another generation is counted. -/
def onControl (f : Frame) (g : State → State) (s : State) : State :=
  match control s f with
  | some s1 => g s1
  | none => if s.casc.active && f.cgen != s.casc.cgen then rcountF (takeIn s f) (rAK (f.port.getD 0) 0x18) 0 16 1
            else takeIn s f

/-- R295, R297: BEAT_SEND: a beat on every working port, from the start of the cascade function on. -/
def execBeatSend (s : State) : Host.Outcome State Fault Refusal :=
  shown (fun s => if !s.casc.active && fnState s 0 != 1 then s else
    ((List.range 64).filter (portUp s)).foldl (fun s n => portSend s n
      { dmod := 0xFFFF, smod := s.casc.self, ty := 1, cgen := s.casc.cgen, term := s.casc.term, code := 2, epoch := s.casc.comEpoch,
        spec := leBytes 1 (casRole s.casc) }) s) s

/-- R297: BEAT. -/
def execBeat (fr : Frame) (s : State) : Host.Outcome State Fault Refusal :=
  shown (fun s =>
    let s1 := takeIn s fr
    if s1.casc.active && fr.cgen == s1.casc.cgen then
      hearTerm { s1 with casc := { s1.casc with heard := fset fr.smod s1.now s1.casc.heard } } fr
    else s1) s

/-! ## Cascade objects (R298) -/

/-- R298: CASCADE_SIGNAL: master and deputy apply it. -/
def execCascadeSignal (fr : Frame) (s : State) : Host.Outcome State Fault Refusal :=
  shown (onControl fr fun s =>
    if casRole s.casc == 0 || 4095 < leAt fr.spec 0 2 then s
    else signalCso s (leAt fr.spec 0 2) (BitVec.ofNat 64 (leAt fr.spec 8 8))) s

/-- R298: CASCADE_WAIT_READ: the master answers, or keeps the wait. -/
def execCascadeWaitRead (fr : Frame) (s : State) : Host.Outcome State Fault Refusal :=
  shown (onControl fr fun s =>
    let i := leAt fr.spec 0 2
    let tag := leAt fr.spec 4 4
    let target := BitVec.ofNat 64 (leAt fr.spec 8 8)
    let o : SoSt := fget {} i s.csos
    if casRole s.casc != 2 || 4095 < i then s
    else if leAt fr.spec 2 1 == 1 || soMet o.v target then completeWait s i o.v (.module fr.smod tag target)
    else { s with csos := fset i { o with waits := o.waits ++ [.module fr.smod tag target] } s.csos }) s

/-- R298: CASCADE_ANSWER: the waiting slot or entry goes on. -/
def execCascadeAnswer (fr : Frame) (s : State) : Host.Outcome State Fault Refusal :=
  shown (onControl fr fun s =>
    let tag := leAt fr.spec 4 4
    match s.casc.reqs.find? fun r => r.1 == tag with
    | none => s
    | some r =>
      let s1 := { s with casc := { s.casc with reqs := s.casc.reqs.filter fun q => q.1 != tag } }
      if r.2.1.lcid < 0x10000 then completeCas s1 r.2.1 (BitVec.ofNat 64 (leAt fr.spec 8 8))
      else match entryOf s1 (r.2.1.lcid - 0x10000) r.2.1.slot with
        | some e => retire s1 e {}
        | none => s1) s

/-! ## Provisional data (R304 to R307) -/

/-- Table 12.4: the tags of a control body. -/
def tagsOf (l : List W8) : Tags := ⟨leAt l 0 4 % 2 ^ 14, leAt l 0 4 / 2 ^ 16 % 4, leAt l 8 8, leAt l 4 4⟩

/-- R318: AK_PROV of a port. -/
def countProv (s : State) (port lo : Nat) : State := rcountF s (rAK port 0x14) lo 16 1

/-- R305: AKGON_VOUCH. -/
def execAkgonVouch (lcid : Nat) (fr : Frame) (s : State) : Host.Outcome State Fault Refusal :=
  shown (onControl fr fun s => takeProv s lcid (tagsOf fr.spec) fr.smod fr.byte1 (.vouch fr.n)) s

/-- R305: AKGON_CONFIRMATION. -/
def execAkgonConfirmation (lcid : Nat) (fr : Frame) (s : State) : Host.Outcome State Fault Refusal :=
  shown (onControl fr fun s => takeProv s lcid (tagsOf fr.spec) fr.smod fr.byte1 (.confirm fr.n)) s

/-- R307: AKGON_RETRACTION. -/
def execAkgonRetraction (lcid : Nat) (fr : Frame) (s : State) : Host.Outcome State Fault Refusal :=
  shown (onControl fr fun s =>
    takeProv (countProv s (fr.port.getD 0) 0) lcid (tagsOf fr.spec) fr.smod fr.byte1 (.retract fr.n)) s

/-- R306: has a stitch retired? A stitch that is neither OPEN nor CLOSED and precedes the OPEN one has. -/
def tagsRetired (s : State) (t : Tags) : Bool :=
  let x := slotOf s ⟨t.lcid, t.slot⟩
  t.seq < x.opn.seq && !(x.closed.any fun c => c.st.seq == t.seq)

/-- R306: the producer answers a RESEND from its draining slot. -/
def answerResend (fr : Frame) (s : State) : State :=
  let t := tagsOf fr.spec
  let tile := tileOfCore t.lcid
  let ent := (tileOf s tile).fwd.find? fun e => e.tags == t && e.ord == fr.n && e.remote == some fr.smod
  match ent with
  | none => s
  | some e =>
    (jobsOf s tile).foldl (fun s j =>
      if j.desc.dkind != 3 || j.desc.dmod != fr.smod || j.lcid != t.lcid then s
      else (j.wait.filter fun w => w.prov == some fr.n && w.prod == some ⟨t.slot, t.lcid, t.seq, t.replay⟩).foldl (fun s w =>
        let b := (buildBlock s j w.piece w.prod w.bidx).1
        let wgen := (match (ctxOf s j.st.ctx).run with | some r => r.epoch | none => j.epoch) % 2 ^ 16
        let b1 := if tagsRetired s t then { b with wgen := wgen } else { b with wgen := wgen, prov := true, pord := fr.n }
        let s1 := sendData s fr.smod 3 j.desc.win (j.desc.first + w.bidx) b1
        if e.vouched && b1.prov then sendFrame s1 fr.smod { ty := 2, code := 0x0B, byte1 := e.win, n := e.ord, spec := tagBytes t }
        else s1) s) s

/-- R306: AKGON_RESEND. -/
def execAkgonResend (fr : Frame) (s : State) : Host.Outcome State Fault Refusal := shown (onControl fr (answerResend fr)) s

/-- R305: a confirmation is acknowledged: source slots and forward-list entries of the data are freed. -/
def confirmAck (fr : Frame) (s : State) : State :=
  let t := tagsOf fr.spec
  let tile := tileOfCore t.lcid
  let x := tileOf s tile
  let mine (j : PumpJob) : Bool := j.desc.dkind == 3 && j.desc.dmod == fr.smod && j.lcid == t.lcid
  let s1 := putTile s tile { x with
    fwd := x.fwd.filter fun e => !(e.tags == t && e.remote == some fr.smod),
    jobs := x.jobs.map fun j => if mine j then
      { j with wait := j.wait.filter fun w => !(w.prov.isSome && w.prod == some ⟨t.slot, t.lcid, t.seq, t.replay⟩) } else j }
  (x.jobs.filter mine).foldl (fun s j => freeTaken s tile j.id) s1

/-- R305: CONFIRMATION_ACK. -/
def execConfirmationAck (fr : Frame) (s : State) : Host.Outcome State Fault Refusal := shown (onControl fr (confirmAck fr)) s

/-- R302, R303: a drop notice ends the sending descriptor with its status. -/
def dropNotice (fr : Frame) (s : State) : State :=
  let st := leAt fr.spec 0 2
  let win := leAt fr.spec 4 1
  let blk := leAt fr.spec 8 4
  let hit := (pumpUnits s).flatMap fun u => ((jobsOf s u).filter fun j =>
    j.phase == .running && j.desc.dkind == 3 && j.desc.dmod == fr.smod && j.desc.win == win && j.desc.first ≤ blk &&
    j.dseqs.contains (leAt fr.spec 12 4)).map fun j => (u, j)
  match hit with
  | (u, j) :: _ => endJob s u j st
  | [] => s

/-- R302: DROP_NOTICE. -/
def execDropNotice (fr : Frame) (s : State) : Host.Outcome State Fault Refusal := shown (onControl fr (dropNotice fr)) s

/-- R306: a provisional block from another module has no vouch after 20 µs. -/
def provTimeout (lcid : Nat) (tags : Tags) (smod port : Nat) (s : State) : State :=
  let c := coreOf s lcid
  let es := slotsOf c tags smod
  if smod == s.casc.self || es.all fun e => (c.rslot e).vouched then s
  else
    let ask := es.flatMap fun e => let x := c.rslot e; x.ords.map fun o => (o, x.win)
    ask.foldl (fun s a => sendFrame s smod { ty := 2, code := 8, byte1 := a.2, n := a.1, spec := tagBytes tags })
      (timeoutTags (countProv s port 16) lcid tags smod)

/-- R306: AKGON_PROV_TIMEOUT. -/
def execAkgonProvTimeout (lcid : Nat) (tags : Tags) (smod port : Nat) (s : State) : Host.Outcome State Fault Refusal :=
  shown (provTimeout lcid tags smod port) s

/-! ## Windows (R301, R302) -/

/-- R302: the step that waited for accepted blocks goes on to retire. -/
def endWaiting (s : State) : State :=
  match (ctxOf s s.casc.ctx).run.bind (·.ending) with
  | some st => finishStep s s.casc.ctx st
  | none => s

/-- R302: a block for a window of kind 0 enters a slot of the ring of a core; none where no slot is empty. -/
def windowRing (s : State) (lcid ring : Nat) (f : Frame) (b : Block) : Option State :=
  let c := coreOf s lcid
  match c.ring? ring with
  | none => some s
  | some r =>
    let per := max 1 (r.size / 4160)
    let k := f.wblk % per
    let d : Carriage := { unit := 0x1000 + f.smod, job := f.win, dest := .ring lcid ring, slotNo := f.wblk / per,
                          first := b.bidx - k, count := per, st := c.st }
    let b1 := { b with bidx := d.first + k }
    let open_ := r.slots.any fun e => e.2.st == .filling && e.2.carr == some (d.unit, d.job, d.slotNo)
    let tags := if b.prov then some (⟨b.plcid, b.pslot, b.pseq, b.preplay⟩ : Tags) else none
    if open_ then some (ringBlock s lcid ring d b1 f.smod)
    else match freeSlot r with
      | none => none
      | some i =>
        let s1 := reserveSlot s lcid ring i d tags
        let c1 := coreOf s1 lcid
        let s2 := match c1.ring? ring with
          | some r1 => putCore s1 lcid (c1.putRing ring (r1.putSlot i { r1.slot i with smod := f.smod, win := f.win }))
          | none => s1
        some (ringBlock s2 lcid ring d b1 f.smod)

/-- R301, R302: a block for a window of kind 1 is written to its range. -/
def windowRange (s : State) (n k : Nat) (f : Frame) (b : Block) : State :=
  match (ctxOf s n).bind.bind fun b => b.lpr[k]? with
  | none => s
  | some r =>
    let a := r.base + 4160 * f.wblk
    if !(r.covers a 4160) then s
    else if r.mark == 1 || r.mark == 2 then gradAccepted (blockSum s n a r.mark b) n a (cistOfAddr a) b false
    else gradAccepted (writeBlock s a b) n a (cistOfAddr a) b (r.mark == 0)

/-- R302: an accepted window data frame is written; where its ring holds no empty slot, it waits. Once its step is to retire without
a commit, such a block goes nowhere (log 67). -/
def windowIn (f : Frame) (lcid : Nat) (s : State) : State :=
  let s1 := takeIn s f
  let n := s1.casc.ctx
  let leaving := ((ctxOf s n).run.bind (·.ending)).isSome
  match f.block, (ctxOf s1 n).pat.bind fun p => p.window f.win with
  | some b, some e =>
    if !(s.inbox.contains f) then s
    else if leAt e 1 1 == 1 then endWaiting (windowRange s1 n (leAt e 2 1) f b)
    else match windowRing s1 lcid (leAt e 2 1) f b with
      | some t => endWaiting t
      | none => if leaving then endWaiting s1 else s
  | _, _ => s1

/-- R302: WINDOW_DATA: a frame of the inbox and the port that delivered it, none for one handed over inside the module. -/
def execWindowData (port : Option Nat) (fr : Frame) (lcid : Nat) (s : State) : Host.Outcome State Fault Refusal :=
  shown (windowIn { fr with port := port } lcid) s

end Sys2Proof.Machine
end

