-- ==== Sys2Proof/Machine/Cascade.lean ====
section
/-! DEFINITION. The cascade: roles, the gradient exchange and its hem units, the two-phase step commit, losses and rejoins
(R295 to R300, R307 to R316). Layouts of message bodies that the manual leaves open: log 28. -/

namespace Sys2Proof.Machine

/-! ## Members (R296, R299) -/

/-- Modules of the replica groups taking part. -/
def Casc.partMods (c : Casc) : List Nat := (List.range c.total).filter fun m => c.part.contains (c.group m)

/-- Does this module act as master? -/
def isMaster (s : State) : Bool := s.casc.active && casRole s.casc == 2

/-- A message of the running cascade step from the master to modules. -/
def tell (s : State) (ms : List Nat) (fr : Frame) : State := sendAll s ms { fr with k := s.casc.k, epoch := s.casc.epoch }

/-- The CASCADE record of the journal (R344): 1 prepared, 2 committed. -/
def jcascade (s : State) (phase : Nat) : State :=
  jput s (fun r => match r with | .cascade _ _ _ _ => true | _ => false) (.cascade s.casc.epoch s.casc.k s.casc.term phase)

/-- Numbers as 2-byte fields, their count first. -/
def listBytes (l : List Nat) : List W8 := leBytes 2 l.length ++ l.flatMap (leBytes 2)

/-- The numbers of such a list, and the bytes after it. -/
def bytesList (l : List W8) : List Nat × List W8 :=
  let k := leAt l 0 2
  ((List.range k).map fun i => leAt l (2 + 2 * i) 2, l.drop (2 + 2 * k))

/-! ## What the master decides (R310 to R313) -/

/-- R310: has every last-stage module of a group reported FDONE? -/
def Casc.groupDone (c : Casc) (g : Nat) : Bool :=
  ((List.range c.total).filter fun m => c.group m == g && c.stage m + 1 == c.d).all fun m => c.fdone.any fun e => e.1 == m

/-- R288, R311: a message to every module of the cascade, those of a group that has left among them; one that its 16 bytes do not hold
goes as control data (log 28). -/
def tellAll (s : State) (fr : Frame) : State :=
  tell s (List.range s.casc.total) { fr with ty := if fr.spec.length ≤ 16 then 2 else 6 }

/-- R310: the master sends TURN. -/
def sendTurn (s : State) : State :=
  tellAll (modCasc s fun c => { c with turned := true }) { code := 0x11, spec := listBytes s.casc.part ++ listBytes s.casc.straggle }

/-- One XDONE by module. -/
def Casc.xdoneOf (c : Casc) (m : Nat) : CasMeas := fget {} m c.xdone

/-- R311: A maximum and F sum over the modules of each stage, by stage, layer and tap; the layer number of stage d is counted
from 4097 × d. -/
def Casc.merged (c : Casc) : List LayerMeas :=
  let all := c.partMods.flatMap fun m => (c.xdoneOf m).meas.map fun e => ({ e with layer := 4097 * c.stage m + e.layer } : LayerMeas)
  all.foldl (fun acc e =>
    match acc.find? fun x => x.layer == e.layer && x.tap == e.tap with
    | none => acc ++ [e]
    | some _ => acc.map fun x => if x.layer == e.layer && x.tap == e.tap then
        { x with m := { s := add64 x.m.s e.m.s, a := if x.m.a.toNat < e.m.a.toNat then e.m.a else x.m.a, f := x.m.f + e.m.f } } else x) []

/-- R312: PREPARE from the XDONEs: count, total, G, c and the outcome of Table 11.5 on cascade-wide values. -/
def Casc.prepare (c : Casc) (bits tau : Nat) : CasMeas :=
  let gs := c.part
  let first (g : Nat) : Nat := g * (c.w * c.d)
  let count := (gs.map fun g => if c.straggle.contains g then 0 else (c.xdoneOf (first g)).count).sum
  let total := (gs.map fun g => match c.fdone.find? fun e => c.group e.1 == g with
    | some e => e.2
    | none => (c.fdone.head?.map (·.2)).getD 0).sum
  let ms := c.merged
  let t0 := ms.filter fun e => e.tap == 0
  let g := normOf (t0.map fun e => e.m.s)
  let bad := c.partMods.any fun m => (c.xdoneOf m).status != 0
  let st := decide115 bad false (bitAt bits 0) (t0.any fun e => e.m.f != 0)
  { count := count, total := total, norm := g, clip := clipOf bits tau g, meas := ms,
    status := if count == 0 then 0x5001 else if st != 0 then st else if count == total then 0 else 1 }

/-- Body of PREPARE. -/
def prepareFrame (p : CasMeas) : Frame :=
  { ty := 6, code := 0x15, meas := p.meas,
    spec := leBytes 2 p.status ++ leBytes 2 0 ++ leBytes 4 p.clip.toNat ++ leBytes 8 p.norm.toNat ++ leBytes 4 p.total ++ leBytes 4 p.count }

/-- R311, R312: PREPARE goes out. -/
def sendPrepare (s : State) : State :=
  match (ctxOf s s.casc.ctx).run, (ctxOf s s.casc.ctx).pat with
  | some r, some p =>
    let q := s.casc.prepare r.bits (leAt p.upd 4 4)
    tell (modCasc s fun c => { c with prepared := some q, outcome := q.status }) s.casc.partMods (prepareFrame q)
  | _, _ => s

/-- R312: COMMIT with the outcome. -/
def commitFrame (c : Casc) : Frame := { ty := 2, code := 0x17, spec := leBytes 2 c.outcome }

/-- R312: COMMIT of the latest step committed here. -/
def pastCommit (c : Casc) (k : Nat) : Frame := { ty := 2, code := 0x17, spec := leBytes 2 c.comOutcome, k := k, epoch := c.comEpoch }

/-- R311: RELEASE of the latest step committed here. -/
def releaseFrame (c : Casc) : Frame := { ty := 2, code := 0x1A, k := c.k, epoch := c.comEpoch }

/-- R311, R313: RELEASE, once every module that is not lost has sent ACK. -/
def releaseGo (s : State) : State :=
  let c := s.casc
  if !c.relSent && c.live.all fun m => fget? m c.acks == some c.comEpoch then
    sendAll (modCasc s fun c => { c with relSent := true }) c.live (releaseFrame c)
  else s

/-- R279, R312: the outcome after every READY. -/
def Casc.readyOutcome (c : Casc) : Nat :=
  if c.ready.any fun e => e.2 == 0x5004 then 0x5004
  else if c.outcome ≤ 1 && c.ready.any fun e => e.2 == 0x5003 then 0x5003
  else c.outcome

/-- R310 to R312: what is due at the master for the running step, in the order of the phases. -/
def phaseGo (s : State) : State :=
  let c := s.casc
  if !c.turned then
    if !c.part.isEmpty && c.part.all (fun g => c.groupDone g || c.straggle.contains g) && !c.fdone.isEmpty then sendTurn s else s
  else if c.prepared.isNone then
    if c.partMods.all fun m => (fget? m c.xdone).isSome then sendPrepare s else s
  else if !c.committing then
    if c.waitRejoin.isEmpty && c.partMods.all fun m => c.ready.any fun e => e.1 == m then
      let s1 := modCasc s fun c => { c with committing := true, outcome := c.readyOutcome }
      if c.deputy == c.self || !(c.live.contains c.deputy) then tell (modCasc s1 fun c => { c with crec := true }) c.live (commitFrame s1.casc)
      else tell s1 [c.deputy] (commitFrame s1.casc)
    else s
  else s

/-- R310 to R313: what is due at the master. -/
def masterGo (s : State) : State := if !(isMaster s) then s else phaseGo (releaseGo s)

/-! ## Losses, exclusion, restart (R300, R314, R315) -/

/-- R309, R315: own blocks and partial sums of the step leave the hem units. -/
def clearHem (s : State) : State := { s with ports := fmapAll (fun _ p => { p with hem := [] }) s.ports }

/-- R315: the master restarts the backward pass on every taking part module. -/
def sendRestart (s : State) : State :=
  let s1 := modCasc s fun c => { c with k := c.k + 1, xdone := [], prepared := none, ready := [], outcome := 0, committing := false }
  tellAll s1 { code := 0x13, spec := listBytes s1.casc.part }

/-- R315: the replica groups taking part: the modules of any other have left the cascade. -/
def takePart (s : State) (part : List Nat) : State :=
  modCasc s fun c =>
    let out (m : Nat) : Bool := !(part.contains (c.group m))
    { c with part := part, lost := c.lost.filter fun m => !(out m), waitRejoin := c.waitRejoin.filter fun m => !(out m),
             leftMods := ninsAll ((List.range c.total).filter out) c.leftMods }

/-- R315: a replica group leaves the cascade. -/
def leaveGroup (s : State) (g : Nat) : State := takePart s (ndel g s.casc.part)

/-- R314: the running step retires without its module's group: weights unchanged, every micro-batch in the retry area. -/
def leftStep (s : State) (n : Nat) : State :=
  match (ctxOf s n).run with
  | none => s
  | some r =>
    let pass := passOf s n none
    let layer := lossLayer s n r pass
    let ms := (List.range r.nmb).map fun i => (⟨i, 0x5401, layer, pass⟩ : LostMb)
    let s1 := haltSlots (stopJobs (useFree s) n) n false
    finishStep (putCtx s1 n { ctxOf s1 n with run := some { r with lost := ms, total := some 0 } }) n 0x5401

/-- Table 12.7: the master's action on the loss of a module, by the phase of the step; a COMMIT that only the lost deputy was
sent is held. -/
def masterLoss (s : State) (m : Nat) : State :=
  let c := s.casc
  let g := c.group m
  if !(isMaster s) || !(c.part.contains g) then s
  else if !c.turned then leaveGroup s g
  else if c.prepared.isNone then sendRestart (leaveGroup s g)
  else modCasc s fun c => { c with waitRejoin := nins m c.waitRejoin, committing := c.committing && (c.crec || m != c.deputy) }

/-- R283, R297, R307, R315: a module is found lost; a mirror image on its way to it is abandoned. -/
def loseModule (m : Nat) (s : State) : State :=
  let c := s.casc
  if !c.active || m == c.self || c.total ≤ m || c.lost.contains m || c.leftMods.contains m then s
  else
    let s1 := loseData (modCasc s fun c => { c with lost := nins m c.lost }) m
    let cut := (List.range 64).filter fun n => (mirrorPartner s1 n).any fun e => e.1 == m
    masterGo (masterLoss (cut.foldl dropImage s1) m)

/-- R297: MODULE_LOST. -/
def execModuleLost (module_ : Nat) (s : State) : Host.Outcome State Fault Refusal := shown (loseModule module_) s

/-- R297: the deputy becomes master; it completes what its copy of the step says (R315). -/
def takeOver (s : State) : State :=
  let c := s.casc
  if !c.active || casRole c != 1 then s
  else
    let old := c.master
    let s1 := modCasc s fun c => { c with term := c.term + 1, master := c.self, lost := nins old c.lost }
    let s2 := modCasc s1 fun c => { c with deputy := c.nextDeputy }
    let s3 := sendAll s2 (ndel c.self (List.range c.total)) { ty := 2, code := 0x1C, k := c.k, epoch := c.epoch }
    let s4 := askWaiting (loseData s3 old)
    if s4.casc.crec then tell (modCasc s4 fun c => { c with committing := true }) s4.casc.live (commitFrame s4.casc)
    else masterGo (masterLoss s4 old)

/-- R297: DEPUTY_TAKEOVER. -/
def execDeputyTakeover (s : State) : Host.Outcome State Fault Refusal := shown takeOver s

/-- R297: TAKEOVER: the sender is master; the next live entry of succ is deputy. -/
def execTakeover (fr : Frame) (s : State) : Host.Outcome State Fault Refusal := shown (onControl fr fun s => s) s

/-! ## Messages of a step -/

/-- R311: a message of the running step: one of a newer epoch begins that step, one of an older epoch or restart is
dropped. -/
def onStep (f : Frame) (g : State → State) (s : State) : State :=
  onControl f (fun s =>
    let s1 := if s.casc.epoch < f.epoch then modCasc s fun c => c.begin f.epoch else s
    if f.epoch != s1.casc.epoch || f.k < s1.casc.k then s1 else g s1) s

/-- R311: a message that does not begin a step: one of the running step with a lower k is dropped. -/
def onLate (f : Frame) (g : State → State) (s : State) : State :=
  onControl f (fun s => if f.epoch == s.casc.epoch && f.k < s.casc.k then s else g s) s

/-- R310: FDONE. -/
def execFdone (fr : Frame) (s : State) : Host.Outcome State Fault Refusal :=
  shown (onStep fr fun s =>
    if s.casc.straggle.contains (s.casc.group fr.smod) || s.casc.fdone.any (fun e => e.1 == fr.smod) then s
    else masterGo (modCasc s fun c => { c with fdone := c.fdone ++ [(fr.smod, leAt fr.spec 2 2)] })) s

/-- R316: the modules of a straggling group abandon the step's stitches; their micro-batches are lost. -/
def straggleHere (s : State) (n : Nat) : State :=
  match (ctxOf s n).run with
  | none => s
  | some r =>
    let more := ((List.range r.nmb).filter fun i => !(r.lost.any fun m => m.mbi == i)).map fun i =>
      (⟨i, 0x5402, lossLayer s n r (passOf s n none), passOf s n none⟩ : LostMb)
    let s1 := haltSlots (stopJobs (useFree s) n) n false
    let s2 := putCtx s1 n { ctxOf s1 n with run := some { r with lost := r.lost ++ more } }
    (ctxCores s2 n).foldl (fun s l =>
      let c := coreOf s l
      putCore s l { c with slots := c.slots.map fun x => if x.bound then { x with phase := .partDone } else x }) s2

/-- R310, R314, R316: TURN. -/
def turnIn (fr : Frame) (s : State) : State :=
  let (part, rest) := bytesList fr.spec
  let strag := (bytesList rest).1
  let s1 := takePart (modCasc s fun c => { c with turned := true, straggle := strag }) part
  let g := s1.casc.group s1.casc.self
  if !(part.contains g) then leftStep s1 s1.casc.ctx
  else if strag.contains g then straggleHere s1 s1.casc.ctx
  else s1

/-- R310: TURN. -/
def execTurn (fr : Frame) (s : State) : Host.Outcome State Fault Refusal := shown (onStep fr (turnIn fr)) s

/-- R300, R315: LOSS: at the master it is relayed to the other modules of the group, and in the backward pass restarts it;
at a module of the group the micro-batch is lost. -/
def lossIn (fr : Frame) (s : State) : State :=
  let c := s.casc
  let g := leAt fr.spec 0 2
  let i := leAt fr.spec 2 2
  let pass := leAt fr.spec 6 1
  let n := c.ctx
  let s1 := if g != c.group c.self || fr.smod == c.self then s
    else match (ctxOf s n).run with
      | none => s
      | some r =>
        if r.nmb ≤ i || r.committed || r.lost.any (fun m => m.mbi == i) then s
        else
          let r1 := { r with lost := r.lost ++ [⟨i, leAt fr.spec 8 2, leAt fr.spec 4 2, pass⟩] }
          let s1 := putCtx s n { ctxOf s n with run := some r1 }
          if pass == 0 then skipMb s1 n i (nextMb r.nmb r1.lost i) else s1
  if !(isMaster s1) then s1
  else
    let others := c.live.filter fun m => c.group m == g && m != fr.smod && m != c.self
    let s2 := if c.group fr.smod == g then sendAll s1 others { fr with ty := 2 } else s1
    if pass == 1 && c.prepared.isNone then sendRestart s2 else s2

/-- R300: LOSS. -/
def execLoss (fr : Frame) (s : State) : Host.Outcome State Fault Refusal := shown (onStep fr (lossIn fr)) s

/-- R251, R314, R315: RESTART. -/
def restartIn (fr : Frame) (s : State) : State :=
  let part := (bytesList fr.spec).1
  let s0 := takePart s part
  let s1 := clearHem (modCasc s0 fun c => { c with k := fr.k, xdone := [], prepared := none, ready := [], outcome := 0, committing := false })
  let n := s1.casc.ctx
  if !(part.contains (s1.casc.group s1.casc.self)) then leftStep s1 n
  else if s1.casc.straggle.contains (s1.casc.group s1.casc.self) then
    match (ctxOf s1 n).run with
    | some r => putCtx s1 n { ctxOf s1 n with run := some r.again }
    | none => s1
  else restartBackward s1 n

/-- R315: RESTART. -/
def execRestart (fr : Frame) (s : State) : Host.Outcome State Fault Refusal := shown (onStep fr (restartIn fr)) s

/-- R312: XDONE. -/
def execXdone (fr : Frame) (s : State) : Host.Outcome State Fault Refusal :=
  shown (onStep fr fun s =>
    let x : CasMeas := { count := leAt fr.spec 4 4, status := leAt fr.spec 0 2, meas := fr.meas }
    masterGo (modCasc s fun c => { c with xdone := fset fr.smod x c.xdone })) s

/-- R312: PREPARE: outcome, G, c, count and measurements of the step; deferred updates may start, READY may be due. -/
def prepareIn (fr : Frame) (s : State) : State :=
  let st := leAt fr.spec 0 2
  let q : CasMeas := { count := leAt fr.spec 20 4, status := st, clip := BitVec.ofNat 32 (leAt fr.spec 4 4), norm := BitVec.ofNat 64 (leAt fr.spec 8 8),
                       total := leAt fr.spec 16 4, meas := fr.meas }
  let s1 := jcascade (modCasc s fun c => { c with prepared := some q, outcome := st }) 1
  let n := s1.casc.ctx
  let base := 4097 * s1.casc.stage s1.casc.self
  match (ctxOf s1 n).run with
  | none => s1
  | some r =>
    let ms := (fr.meas.filter fun e => base < e.layer && e.layer < base + 4097).foldl
      (fun m e => fset (measKey (e.layer - base) e.tap 0) e.m m) []
    maybeReady (putCtx s1 n { ctxOf s1 n with run := some { r with
      decision := some (if st ≤ 1 then 0 else st), clip := q.clip, norm := q.norm, meas := ms, total := some q.count } }) n

/-- R312: PREPARE. -/
def execPrepare (fr : Frame) (s : State) : Host.Outcome State Fault Refusal := shown (onStep fr (prepareIn fr)) s

/-- R312: READY. -/
def execReady (fr : Frame) (s : State) : Host.Outcome State Fault Refusal :=
  shown (onStep fr fun s =>
    masterGo (modCasc s fun c => { c with ready := (c.ready.filter fun e => e.1 != fr.smod) ++ [(fr.smod, leAt fr.spec 0 2)] })) s

/-- R311: ACK to master and deputy. -/
def sendAck (s : State) (k e : Nat) : State := sendAll s (leads s) { ty := 2, code := 0x19, k := k, epoch := e }

/-- R285: the end of a step that the cascade commits: the first after a restore is verified, and does not commit where that fails. -/
def commitVerified (s : State) (n outcome : Nat) : State :=
  let x := ctxOf s n
  match x.run, x.pat with
  | some r, some p => match (entryOf s r.ring r.seq).bind fun e => verifyRestore s x p e r with
    | some false => finishStep (putCtx s n { x with restored := false, unverified := true }) n 0x4301
    | some true => commitStep (putCtx s n { x with restored := false, unverified := false }) n outcome
    | none => commitStep s n outcome
  | _, _ => commitStep s n outcome

/-- R270, R312: the commit of a cascade step at this module, or the step's skip. -/
def cascCommit (s : State) (e k outcome : Nat) : State :=
  let n := s.casc.ctx
  match (ctxOf s n).run with
  | some r =>
    if r.epoch != e then s
    else
      let s1 := modCasc s fun c => { c with committed := true, comEpoch := e, comOutcome := outcome, released := false, relSent := false }
      sendAck (if outcome ≤ 1 then commitVerified s1 n outcome else finishStep s1 n outcome) k e
  | none => if (ctxOf s n).comEpoch == e || s.casc.comEpoch == e then sendAck s k e else s

/-- R100, R302, R312: COMMIT: the deputy records it and reports CREC; each module then commits. A module whose slots have not
completed their parts, or whose windows hold blocks not yet written, takes the message later. -/
def commitIn (fr : Frame) (s0 s : State) : State :=
  let n := s.casc.ctx
  let wait := match (ctxOf s n).run with | some r => r.epoch == fr.epoch && (!(partsDone s n) || windowBlocks s n r) | none => false
  if wait then s0
  else
    let outcome := leAt fr.spec 0 2
    let s1 := modCasc (jcascade s 2) fun c => { c with outcome := outcome }
    let s2 := if casRole s1.casc == 1 then
        sendFrame (modCasc s1 fun c => { c with crec := true }) fr.smod { ty := 2, code := 0x18, k := fr.k, epoch := fr.epoch }
      else s1
    masterGo (cascCommit s2 fr.epoch fr.k outcome)

/-- R312: COMMIT. -/
def execCommit (fr : Frame) (s : State) : Host.Outcome State Fault Refusal := shown (fun s => onStep fr (commitIn fr s) s) s

/-- R312: CREC: the master sends COMMIT to the members and to itself. -/
def execCrec (fr : Frame) (s : State) : Host.Outcome State Fault Refusal :=
  shown (onStep fr fun s =>
    if !(isMaster s) || s.casc.crec || !s.casc.committing then s
    else tell (modCasc s fun c => { c with crec := true }) (ndel s.casc.deputy s.casc.live) (commitFrame s.casc)) s

/-- R311: ACK: recorded; a module that is back gets RELEASE of a step already released. -/
def ackIn (fr : Frame) (s : State) : State :=
  let s1 := modCasc s fun c => { c with acks := fset fr.smod fr.epoch c.acks }
  if isMaster s1 && s1.casc.relSent && fr.epoch == s1.casc.comEpoch then sendFrame s1 fr.smod (releaseFrame s1.casc) else masterGo s1

/-- R311: ACK. -/
def execAck (fr : Frame) (s : State) : Host.Outcome State Fault Refusal := shown (onLate fr (ackIn fr)) s

/-- R313: RELEASE: the settle of the committed step may begin. -/
def execRelease (fr : Frame) (s : State) : Host.Outcome State Fault Refusal :=
  shown (onLate fr fun s =>
    if fr.epoch == s.casc.comEpoch then showSettle (modCasc s fun c => { c with released := true }) s.casc.ctx else s) s

/-- R314, R315: REJOIN: a module is back; the master sends it what it has missed: a module whose group has left, the groups taking part. A
deputy that has recorded COMMIT stands for its CREC. -/
def rejoinIn (fr : Frame) (s : State) : State :=
  let c := s.casc
  let phase := leAt fr.spec 0 2
  if c.leftMods.contains fr.smod then
    (if isMaster s then tell s [fr.smod] { ty := if 7 < c.part.length then 6 else 2, code := 0x13, spec := listBytes c.part } else s)
  else
    let s1 := modCasc s fun c => { c with lost := ndel fr.smod c.lost, waitRejoin := ndel fr.smod c.waitRejoin }
    if !(isMaster s1) then s1
    else if phase != 0 && fr.epoch == c.comEpoch then masterGo (sendFrame s1 fr.smod (pastCommit c fr.k))
    else if c.crec || c.committed then masterGo (tell s1 [fr.smod] (commitFrame c))
    else match c.prepared with
      | some q =>
        if fr.smod == c.deputy && phase == 2 && fr.epoch == c.epoch && fr.k == c.k then
          tell (modCasc s1 fun c => { c with committing := true, crec := true }) s1.casc.live (commitFrame c)
        else masterGo (tell (modCasc s1 fun c => { c with ready := c.ready.filter fun e => e.1 != fr.smod }) [fr.smod] (prepareFrame q))
      | none => s1

/-- R315: REJOIN. -/
def execRejoin (fr : Frame) (s : State) : Host.Outcome State Fault Refusal := shown (onLate fr (rejoinIn fr)) s

/-- R316: the straggler window expires: groups without FDONE straggle, and TURN is due. -/
def execStragglerWindowExpiry (s : State) : Host.Outcome State Fault Refusal :=
  shown (fun s =>
    let c := s.casc
    if !(isMaster s) || c.swin == 0 || c.turned || c.fdone.isEmpty then s
    else masterGo (modCasc s fun c => { c with straggle := c.part.filter fun g => !(c.groupDone g) })) s

/-- R315: the rejoin window of a lost module expires: its group leaves; before the commit is recorded, with a restart. -/
def execRwinExpiry (module_ : Nat) (s : State) : Host.Outcome State Fault Refusal :=
  shown (fun s =>
    let c := s.casc
    if !(isMaster s) || !(c.lost.contains module_) then s
    else
      let s1 := leaveGroup s (c.group module_)
      if c.crec || c.committed || c.prepared.isNone then masterGo s1 else sendRestart s1) s

/-! ## Starting (R295) -/

/-- Table 12.3: shared settings bytes, over which HELLO carries a digest. -/
def helloDigest (d rord : List W8) : List W8 := (Config.shake256 ((d.drop 2).take 2 ++ (d.drop 5).take 35 ++ rord)).take 8

/-- R292, Table 12.3: the cascade's state from its settings block. -/
def cascOf (s : State) (d : List W8) : Casc :=
  let nring := leAt d 6 1
  let m := leAt d 12 2
  let rord := bytesAt s (leAt d 56 8) (nring * m * 2)
  let succ := ((List.range 8).map fun i => leAt d (16 + 2 * i) 2).takeWhile (· != 0xFFFF)
  { self := leAt d 0 2, cgen := leAt d 2 2, ctx := leAt d 4 1, topo := leAt d 5 1, w := leAt d 8 2, d := leAt d 10 2, m := m,
    succ := succ, swin := leAt d 32 4, rwin := if leAt d 36 4 == 0 then 20000 else leAt d 36 4,
    pmap := (List.range 64).map fun i => leAt (bytesAt s (leAt d 40 8) 128) (2 * i) 2,
    rtab := if leAt d 48 8 == 0 then [] else (List.range 1024).map fun i => leAt (bytesAt s (leAt d 48 8) 2048) (2 * i) 2,
    rord := (List.range nring).map fun q => (List.range m).map fun i => leAt rord (2 * (q * m + i)) 2,
    digest := helloDigest d rord, master := succ.headD 0, deputy := (succ[1]?).getD (succ.headD 0), part := List.range m }

/-- R295: HELLO to a module. -/
def sendHello (s : State) (m : Nat) : State :=
  let x := ctxOf s s.casc.ctx
  let meas := match x.pat with | some p => p.measure | none => []
  sendFrame s m { ty := 2, code := 1, epoch := x.epoch, spec := (meas.take 8) ++ List.replicate (8 - meas.length) 0 ++ s.casc.digest }

/-- R295: the cascade starts: settings taken, AK_STAT.group shown, HELLO to every other module. -/
def cascadeStart (s : State) (d : List W8) : State :=
  let s1 := { s with casc := { cascOf s d with dtx := s.casc.dtx, drx := s.casc.drx } }
  let grp (n : Nat) : Nat := ((List.range 64).find? fun k => s1.casc.pmap[k]? == s1.casc.pmap[n]?).getD n
  let s2 := (List.range 64).foldl (fun s n => if s1.casc.pmap[n]? == some 0xFFFF then s else rsetf s (rAK n 0) 17 6 (grp n)) s1
  ((List.range s2.casc.total).filter fun m => m != s2.casc.self).foldl sendHello s2

/-- R295: is the start complete: every module has answered with equal values, and every port of pmap is up with the far end that it
names (AK_STAT.peer)? -/
def cascadeReady (s : State) : Bool :=
  let c := s.casc
  ((List.range c.total).filter fun m => m != c.self).all c.helloOk.contains &&
  (List.range 64).all fun n => match c.pmap[n]? with
    | some p => p == 0xFFFF || (rfld s (rAK n 0) 0 2 == 2 && rfld s (rAK n 0) 7 10 == p)
    | none => true

/-- R295: HELLO: compared while the cascade starts; a module not yet heard gets an answer. -/
def helloIn (fr : Frame) (s : State) : State :=
  let s1 := takeIn s fr
  let c := s1.casc
  let x := ctxOf s1 c.ctx
  let meas := match x.pat with | some p => p.measure | none => []
  if fnState s1 0 != 1 || c.total ≤ fr.smod || c.helloOk.contains fr.smod then s1
  else if fr.cgen == c.cgen && fr.epoch == x.epoch && fr.spec.take 8 == meas.take 8 ++ List.replicate (8 - meas.length) 0 &&
      (fr.spec.drop 8).take 8 == c.digest then
    sendHello (modCasc s1 fun c => { c with helloOk := nins fr.smod c.helloOk }) fr.smod
  else s1

/-- R295: HELLO. -/
def execHello (fr : Frame) (s : State) : Host.Outcome State Fault Refusal := shown (helloIn fr) s

/-! ## The gradient exchange (R308, R309) -/

/-- R308: the ring order of block `j`, of the groups taking part. -/
def Casc.order (c : Casc) (j : Nat) : List Nat :=
  let gs := c.part
  let q := if gs.isEmpty || c.rord.isEmpty then 0 else j / gs.length % c.rord.length
  ((c.rord[q]?).getD []).filter gs.contains

/-- R308: owner of block `j`. -/
def Casc.owner (c : Casc) (j : Nat) : Nat := let o := c.order j; (o[j % max 1 o.length]?).getD 0

/-- The member after `g` in the order of block `j`. -/
def Casc.after (c : Casc) (j g : Nat) : Nat :=
  let o := c.order j
  (o[(o.idxOf g + 1) % max 1 o.length]?).getD g

/-- R308, R316: the first module of the chain: the owner's successor, stragglers passed over. -/
def Casc.first (c : Casc) (j : Nat) : Nat :=
  let o := c.order j
  let k := o.idxOf (c.owner j)
  (((List.range o.length).map fun i => (o[(k + 1 + i) % max 1 o.length]?).getD 0).find? fun g => !(c.straggle.contains g)).getD (c.owner j)

/-- R299: the module of another group with this module's coordinates. -/
def Casc.peer (c : Casc) (g : Nat) : Nat := g * (c.w * c.d) + c.self % (c.w * c.d)

/-- R309: the sum of two blocks, sealed with a new header; the wgen of the running step. -/
def hemSum (s : State) (j : Nat) (x y : Block) : Block :=
  let n := s.casc.ctx
  { cisternBlock s n 0x10 0 4096 (runEpoch s n) j (x.poison || y.poison) (addPayload true (Block.body x) (Block.body y)) with wgen := x.wgen }

/-- Send an exchange block to the next module of its chain. -/
def hemSend (s : State) (g : Nat) (f : Frame) (b : Block) : State := sendData s (s.casc.peer g) 4 f.win f.wblk b

/-- R309: a sum is stored at its place in the gradient range; only the owner's cistern measures it. -/
def hemStore (s : State) (f : Frame) (b : Block) (owner : Bool) : State :=
  let n := s.casc.ctx
  match (ctxOf s n).bind.bind fun b => b.lpr[f.win % 64]? with
  | none => s
  | some r =>
    let a := r.base + 4160 * f.wblk
    if !(r.covers a 4160) then s else gradAccepted (writeBlock s a b) n a (cistOfAddr a) b owner

/-- R309: the complete sum at its owner is stored, measured and sent along the chain. -/
def hemComplete (s : State) (f : Frame) (b : Block) : State :=
  let c := s.casc
  let me := c.group c.self
  let s1 := hemStore s f b true
  if c.after f.wblk me == me then s1 else hemSend s1 (c.after f.wblk me) f b

/-- R309: a sum, or an unchanged partial, goes on: to the next module, or it is complete here. -/
def hemPass (s : State) (f : Frame) (b : Block) : State :=
  let c := s.casc
  let me := c.group c.self
  if c.owner f.wblk == me then hemComplete s f b else hemSend s (c.after f.wblk me) f b

/-- R309: a block in a buffer of some port: its port and its entry. -/
def hemFind (s : State) (own : Bool) (f : Frame) : Option (Nat × Block) :=
  s.ports.findSome? fun p => (p.2.hem.find? fun e => e.1 == own && e.2.1 == f.win % 64 && e.2.2.1 == f.wblk).map fun e => (p.1, e.2.2.2)

/-- R309: a block waits in a port's buffer. -/
def hemKeep (s : State) (port : Nat) (own : Bool) (f : Frame) (b : Block) : State :=
  let p := portOf s port
  putPort s port { p with hem := p.hem ++ [(own, f.win % 64, f.wblk, b)] }

/-- R309: a block leaves its buffer. -/
def hemDrop (s : State) (port : Nat) (own : Bool) (f : Frame) : State :=
  let p := portOf s port
  putPort s port { p with hem := p.hem.filter fun e => !(e.1 == own && e.2.1 == f.win % 64 && e.2.2.1 == f.wblk) }

/-- R309: an own block or a partial sum at a hem unit; none where it has to wait for one of the 256 places of the buffer. -/
def hemTake (s : State) (port : Nat) (f : Frame) (b : Block) : Option State :=
  let c := s.casc
  let me := c.group c.self
  let own := f.smod == c.self
  if own && c.first f.wblk == me then some (hemPass s f b)
  else if !own && c.straggle.contains me then some (hemPass s f b)
  else match hemFind s (!own) f with
    | none => if 256 ≤ (portOf s port).hem.length then none else some (hemKeep s port own f b)
    | some (q, other) => some (hemPass (rcount (hemDrop s q (!own) f) (rAK port 0x1C) 1) f (hemSum s f.wblk other b))

/-- R206, R309: the check of an own block at the hem unit: its pump is asked again three times, then it is taken with the poison flag. -/
def ownChecked (s : State) (port : Nat) (f : Frame) (d : Carriage) (b : Block) : State × Option Block :=
  match portChecked s port f b with
  | (s1, none) => (emit s1 (.resend d.unit d.job (placeOf d b) d.st), none)
  | r => r

/-- R206: an own block has been taken: its source slot is free. -/
def ownTaken (s : State) (f : Frame) (b : Block) : State :=
  match f.via with | some d => acceptAt s d (placeOf d b) | none => s

/-- R309: the sum on its way round after the owner. -/
def hemGather (s : State) (f : Frame) (b : Block) : State :=
  let c := s.casc
  let me := c.group c.self
  let s1 := hemStore s f b false
  if c.after f.wblk me == c.owner f.wblk then s1 else hemSend s1 (c.after f.wblk me) f b

/-- R271, R309: an accepted exchange frame is taken by a hem unit; a sum whose area still settles waits, and so does one without a place
in the buffer. -/
def exchangeIn (port : Nat) (f : Frame) (gather : Bool) (s : State) : State :=
  let s1 := takeIn s f
  let n := s1.casc.ctx
  match f.block with
  | none => s1
  | some b =>
    if !(s.inbox.contains f) then s
    else if (ctxOf s1 n).settle.any fun l => match (ctxOf s1 n).bind.bind fun b => b.lpr[f.win % 64]? with
        | some r => inGrad (ctxOf s1 n) l (r.base + 4160 * f.wblk)
        | none => false then s
    else if gather then endWaiting (hemGather s1 f b)
    else
      let r := match f.via with | some d => ownChecked s1 port f d b | none => (s1, some b)
      match r with
      | (s2, none) => s2
      | (s2, some b1) => match hemTake s2 port f b1 with
        | some t => endWaiting (ownTaken t f b)
        | none => s

/-- R309: EXCHANGE_DATA. -/
def execExchangeData (port : Nat) (fr : Frame) (gather : Bool) (s : State) : Host.Outcome State Fault Refusal :=
  shown (exchangeIn port fr gather) s

end Sys2Proof.Machine
end

