-- ==== Sys2Proof/Machine/Functions.lean ====
section
/-! DEFINITION. Functions: start, stop, settings, and the panels' clock plans (R333 to R339, R402 to R406). Choices: log 32. -/

namespace Sys2Proof.Machine

/-! ## Panels (R402 to R406) -/

/-- R405: the next step of a panel's change completes. Towards full mode the rail has ramped up, and the hold begins; a hold ends
with the new clocks, and towards slow mode the rail then ramps down. A step that has begun completes whatever the goal has become
(R406). -/
def panelChange (p : Nat) (s : State) : State :=
  let b := s.boot
  let mode (s : State) (v : Nat) : State := rsetf s (rPanel p) 0 1 v
  if 1 < p then s
  else if b.rampDown.contains p then { s with boot := { b with rampDown := ndelAll [p] b.rampDown } }
  else if b.hold.contains p then mode { s with boot := { b with hold := ndelAll [p] b.hold } } (panelGoal s p)
  else if panelGoal s p == rfld s (rPanel p) 0 1 then s
  else if panelGoal s p == 0 then { s with boot := { b with hold := nins p b.hold } }
  else mode { s with boot := { b with rampDown := nins p b.rampDown } } 1

/-- R405: PANEL_MODE_CHANGE. -/
def execPanelModeChange (panel : Nat) (s : State) : Host.Outcome State Fault Refusal := shown (panelChange panel) s

/-! ## State of a function -/

/-- Requests of a function. -/
def fnOf (s : State) (f : Nat) : FnSt := fget {} f s.fns

/-- Replace them; FN_STAT.pend and FN_PENDING follow. -/
def putFn (s : State) (f : Nat) (x : FnSt) : State :=
  let p := x.pend.isSome.toNat
  rsetf (rsetf { s with fns := fset f x s.fns } (rFnStat f) 2 1 p) (rFN (0x800 + 4 * (f / 32))) (f % 32) 1 p

/-- FN_STAT_f.state. -/
def setFnState (s : State) (f v : Nat) : State := rsetf s (rFnStat f) 0 2 v

/-- `fn` entries retire with a status. -/
def retireFns (s : State) (l : List (Nat × Nat)) (status : Nat) : State :=
  l.foldl (fun s e => match entryOf s e.1 e.2 with | some x => retire s x { status := status } | none => s) s

/-- R334: a settings block is copied into FN_SET_f. -/
def copySettings (s : State) (f : Nat) (d : List W8) : State :=
  ((chunks 4 d).zipIdx).foldl (fun s e => rput s (rFN (0x10000 + 0x100 * f + 4 * e.2)) (leNat e.1)) s

/-- R333: which ports the port-groups function enables; before any settings, every one. -/
def portEnabled (s : State) (n : Nat) : Bool :=
  (fget? (rFN 0x10300) s.regs).isNone || bitAt (leAt (fnSet s 3) 0 8) n

/-- What a start sets going (R295, R422). -/
def startWork (s : State) (f : Nat) : State :=
  match f with
  | 0 => cascadeStart s (fnSet s 0)
  | 3 => (List.range 64).foldl (fun s n => if portEnabled s n && rfld s (rAK n 0) 0 2 == 0 then rsetf s (rAK n 0) 0 2 1 else s) s
  | _ => s

/-- R334: OFF to STARTING. -/
def beginStart (s : State) (f : Nat) (q : FnReq) : State :=
  let s1 := setFnState (copySettings s f q.settings) f 1
  startWork (putFn s1 f { startE := q.entry.toList }) f

/-- R333: what a stop ends at once. -/
def stopWork (s : State) (f : Nat) : State := if 128 ≤ f && f < 192 then dropImage s (f - 128) else s

/-- R334, R336: a start request. -/
def startReq (s : State) (f : Nat) (q : FnReq) : State :=
  let x := fnOf s f
  match fnState s f with
  | 0 => beginStart s f q
  | 1 => putFn s f { x with startE := x.startE ++ q.entry.toList }
  | 2 => retireFns s q.entry.toList 0
  | _ => retireFns (putFn s f { x with pend := some q }) ((x.pend.bind (·.entry)).toList) 0x5152

/-- R334, R336, R337: a stop request. -/
def stopReq (s : State) (f : Nat) (e : Option (Nat × Nat)) : State :=
  let x := fnOf s f
  match fnState s f with
  | 0 => retireFns s e.toList 0
  | 1 => retireFns (stopWork (setFnState (putFn s f { stopE := e.toList, asked := true }) f 3) f) x.startE 0x5153
  | 2 => stopWork (setFnState (putFn s f { stopE := e.toList, asked := true }) f 3) f
  | _ => retireFns (putFn s f { x with stopE := x.stopE ++ e.toList, pend := none }) ((x.pend.bind (·.entry)).toList) 0x5152

/-- R337: a start fails with a status. -/
def failStart (s : State) (f status : Nat) : State :=
  let x := fnOf s f
  let s1 := setFnState (putFn s f {}) f 3
  retireFns (rsetf (rsetf s1 (rFnStat f) 4 1 1) (rFnStat f) 16 16 status) x.startE status

/-! ## `fn` entries -/

/-- R337: a `fn` entry's request is made. -/
def fnEntry (ring seq act : Nat) (s : State) : State :=
  match mayBegin s ring seq 0xE5 with
  | none => s
  | some e =>
    if e.imm != act then s
    else
      let s1 := putEntry s { e with phase := .waiting }
      if act == 1 then startReq s1 e.a.toNat ⟨some (ring, seq), e.copy1⟩ else stopReq s1 e.a.toNat (some (ring, seq))

/-- R337: FN_START. -/
def execFnStart (ring seq : Nat) (s : State) : Host.Outcome State Fault Refusal := shown (fnEntry ring seq 1) s

/-- R337: FN_STOP. -/
def execFnStop (ring seq : Nat) (s : State) : Host.Outcome State Fault Refusal := shown (fnEntry ring seq 0) s

/-! ## Register requests (R335, R336, R427) -/

/-- R336: writes of 1 to FN_CTRL_f.en or FN_CTRL_f.dis; they have no effect before READY (R427). A request that breaks a
dependency of R337 is not taken (log 32). -/
def fnCtrl (f : Nat) (start : Bool) (s : State) : State :=
  if !(ready s) || !(fnKnown f) || fnDepends s f start then s
  else if start then startReq s f {} else stopReq s f none

/-- R336: FN_CTRL_EN. -/
def execFnCtrlEn (f : Nat) (s : State) : Host.Outcome State Fault Refusal := shown (fnCtrl f true) s

/-- R336: FN_CTRL_DIS. -/
def execFnCtrlDis (f : Nat) (s : State) : Host.Outcome State Fault Refusal := shown (fnCtrl f false) s

/-- R335: a write to FN_SET_f. -/
def fnSetWrite (f w : Nat) (v : W32) (s : State) : State :=
  if 255 < f || 63 < w then s
  else if fnState s f == 0 then rput s (rFN (0x10000 + 0x100 * f + 4 * w)) v.toNat
  else rsetf s (rFnStat f) 3 1 1

/-- R335: FN_SET_WRITE. -/
def execFnSetWrite (f w : Nat) (value : W32) (s : State) : Host.Outcome State Fault Refusal := shown (fnSetWrite f w value) s

/-! ## Ends of starts and stops -/

/-- R227: at the start of the memory map, failed channels become retired. -/
def retireChans (s : State) : State :=
  (List.range 384).foldl (fun s c => if chanState s c == 1 then rsetf s (rChan c) 0 2 2 else s) s

/-- R290, R422: ports that trained come up. -/
def portsUp (s : State) : State :=
  (List.range 64).foldl (fun s n => if rfld s (rAK n 0) 0 2 == 1 then rsetf s (rAK n 0) 0 2 2 else s) s

/-- Is all that a start waits for there? A restore completes by MIRROR_RESTORE. -/
def startDone (s : State) (f : Nat) : Bool :=
  if f == 0 then cascadeReady s
  else if f == 2 then !(panelChanging s 0) && !(panelChanging s 1)
  else if 128 ≤ f && f < 192 then leAt (fnSet s f) 0 1 == 0
  else true

/-- What reaching ON brings (R227, R295, R403, R422). -/
def onWork (s : State) (f : Nat) : State :=
  match f with
  | 0 => askWaiting (modCasc s fun c => { c with active := true })
  | 1 => retireChans s
  | 2 => { s with boot := { s.boot with margin := (leAt (fnSet s 2) 2 1, leAt (fnSet s 2) 3 1) } }
  | 3 => portsUp s
  | _ => s

/-- R334, R337: STARTING to ON. -/
def reachOn (s : State) (f : Nat) : State :=
  let x := fnOf s f
  let s1 := onWork (setFnState (putFn s f {}) f 2) f
  retireFns (rsetf s1 (rFnStat f) 16 16 0) x.startE 0

/-- R334: a start completes. Settings that a start cannot take, written as registers, make it fail (log 32). -/
def startComplete (f : Nat) (s : State) : State :=
  if fnState s f != 1 then s
  else match settingsRefusal s f (fnSet s f) with
    | some st => failStart s f st
    | none => if startDone s f then reachOn s f else s

/-- R334: FUNCTION_START_COMPLETE. -/
def execFunctionStartComplete (f : Nat) (s : State) : Host.Outcome State Fault Refusal := shown (startComplete f) s

/-- R17: a status that the engine writes for a failure: its class is neither ok nor reserved. -/
def failStatus (st : Nat) : Bool := (1 ≤ st / 4096 && st / 4096 ≤ 8) || st / 4096 == 15

/-- R334, R337: FUNCTION_START_FAIL. -/
def execFunctionStartFail (f status : Nat) (s : State) : Host.Outcome State Fault Refusal :=
  shown (fun s => if fnState s f == 1 && failStatus status then failStart s f status else s) s

/-- R295: CASCADE_START_TIMEOUT. -/
def execCascadeStartTimeout (s : State) : Host.Outcome State Fault Refusal :=
  shown (fun s => if fnState s 0 == 1 then failStart s 0 0x8401 else s) s

/-- Does a command of a context run? A `sync` names a context, so one that waits is a command of it (log 30). -/
def ctxBusy (s : State) (n : Nat) : Bool :=
  (ctxOf s n).run.isSome || !(ctxOf s n).running.isEmpty || s.accepted.any fun e =>
    e.ctx == n && ((0xE0 ≤ e.op && e.op ≤ 0xE2 && (e.phase == .running || e.phase == .draining)) ||
      (e.op == 0xE4 && e.phase == .waiting))

/-- R333: may the stop complete? -/
def stopDone (s : State) (f : Nat) : Bool :=
  if f == 0 then (ctxOf s s.casc.ctx).run.isNone
  else if f == 1 then !((List.range 64).any (ctxBusy s))
  else true

/-- What reaching OFF brings: the cascade is inactive, ports go down. -/
def offWork (s : State) (f : Nat) : State :=
  match f with
  | 0 => modCasc s fun c => { c with active := false, helloOk := [], reqs := [] }
  | 3 => (List.range 64).foldl (fun s n =>
      if rfld s (rAK n 0) 0 2 == 3 then s else putPort (rsetf s (rAK n 0) 0 2 0) n { portOf s n with replay := [], queue := [], txSeq := 0, rxSeq := 0 }) s
  | _ => s

/-- R334: a stop completes; a pending start then applies, as from OFF. -/
def stopComplete (f : Nat) (s : State) : State :=
  if fnState s f != 3 || !(stopDone s f) then s
  else
    let x := fnOf s f
    let s1 := offWork (setFnState (putFn s f {}) f 0) f
    let s2 := retireFns (if x.asked then rsetf s1 (rFnStat f) 16 16 0 else s1) x.stopE 0
    match x.pend with
    | some q => beginStart s2 f q
    | none => s2

/-- R334: FUNCTION_STOP_COMPLETE. -/
def execFunctionStopComplete (f : Nat) (s : State) : Host.Outcome State Fault Refusal := shown (stopComplete f) s

end Sys2Proof.Machine
end

