-- ==== Sys2Proof/Machine/Serving.lean ====
section
/-! DEFINITION. Serving batches, energy, and the mirror stream (R253 to R256, R280 to R285). -/

namespace Sys2Proof.Machine

/-! ## Batches (R255, R256) -/

/-- R255: rows of a batch at most. -/
def Pattern.bmax (p : Pattern) : Nat := leAt p.step 16 2

/-- Table 10.1: release fill. -/
def Pattern.brel (p : Pattern) : Nat := if leAt p.step 18 2 == 0 then min 64 p.bmax else leAt p.step 18 2

/-- R254, R255: the batch that forms from waiting requests in acceptance order, and the requests left over; a request waits
too where an earlier one of its stream waits (R254). -/
def takeBatch (bmax : Nat) (got left : List BatchReq) : List BatchReq → List BatchReq × List BatchReq
  | [] => (got, left)
  | r :: rest =>
    if batchRows got + r.rows ≤ bmax && !((got ++ left).any fun x => x.stream == r.stream)
    then takeBatch bmax (got ++ [r]) left rest
    else takeBatch bmax got (left ++ [r]) rest

/-- R255, R333, R459: the oldest released batch runs once the batch before it has finished, no halt of the context is on its way and the
memory map is ON;
what c.epoch and c.mb hold in a batch is a free value (log 13). -/
def runReleased (s : State) (n : Nat) : State :=
  let x := ctxOf s n
  match x.released with
  | b :: rest =>
    if !x.running.isEmpty || haltsPending s n || fnState s 1 != 2 then s
    else
      let s1 := rsetf (putCtx s n { x with running := b, released := rest }) (rFnCtx n) 2 1 1
      let s2 := b.foldl (fun s r => match entryOf s r.ring r.seq with
        | some e => putEntry s { e with phase := .running }
        | none => s) s1
      startCores (useFree (useFree s2)) n (Config.freeWord s2.freeCtr) (Config.freeWord (s2.freeCtr + 1)) true
  | [] => s

/-- R255: does the cause hold: fill, a window that expired, an idle context? -/
def releaseDue (s : State) (n : Nat) (p : Pattern) (cause : ReleaseCause) : Bool :=
  let x := ctxOf s n
  match cause with
  | .fill => p.brel ≤ batchRows (takeBatch p.bmax [] [] x.forming).1
  | .window => true
  | .idle => x.running.isEmpty && x.released.isEmpty

/-- R255: the forming batch is released. -/
def releaseBatch (n : Nat) (cause : ReleaseCause) (s : State) : State :=
  let x := ctxOf s n
  match x.pat with
  | none => s
  | some p =>
    if p.training || x.forming.isEmpty || !(releaseDue s n p cause) then runReleased s n
    else
      let q := takeBatch p.bmax [] [] x.forming
      if q.1.isEmpty then s else runReleased (putCtx s n { x with forming := q.2, released := x.released ++ [q.1] }) n

/-- R255: BATCH_RELEASE. -/
def execBatchRelease (ctx : Nat) (cause : ReleaseCause) (s : State) : Host.Outcome State Fault Refusal :=
  shown (releaseBatch ctx cause) s

/-- R100, R256: a batch is finished when every bound slot has completed its part and its results are written: no store, block or
descriptor of the context is still on its way; the next released batch runs. -/
def batchDone (n : Nat) (s : State) : State :=
  if (ctxOf s n).running.isEmpty || !(partsDone s n) || itemsLeft s n (fun _ => true) then s else runReleased (finishBatch s n 0) n

/-- R256: BATCH_COMPLETE. -/
def execBatchComplete (ctx : Nat) (s : State) : Host.Outcome State Fault Refusal := shown (batchDone ctx) s

/-! ## Energy (R280, R399) -/

/-- R280: the tier of a tile as a number, 3 where it is fenced. -/
def tierNo (s : State) (t : Nat) : Nat :=
  if (tileOf s t).fenced then 3 else match (tileOf s t).tier with | .active => 0 | .gated => 1 | .pllOff => 2 | .off => 3

/-- R280: the part of a region's energy that a tile gets: by powered state and activity count, among the four tiles; none where no tile
of the region has a weight (log 66). -/
def tileEnergy (s : State) (r : EnergyReading) (t : Nat) : Nat :=
  let w (t : Nat) : Nat := Config.energyWeight (tierNo s t) (r.activity[t]?.getD 0)
  let k := regionOfTile t
  (r.regions[k]?.getD 0) * w t / ((regionTiles k).map w).sum

/-- R280: what a context gets of a reading: a fourth of a tile's energy for each quarter that it binds, and its part of the rim's energy
by bytes moved. -/
def ctxEnergy (s : State) (r : EnergyReading) (n : Nat) : Nat :=
  match (ctxOf s n).bind with
  | none => 0
  | some b =>
    let mine := (r.moved.filter fun e => e.1 == n).map (·.2)
    let all := (r.moved.filter fun e => (ctxOf s e.1).bind.isSome).map (·.2)
    (b.quarters.map fun q => tileEnergy s r (q / 4) / 4).sum + r.rim * mine.sum / all.sum

/-- R280, R399: a reading is divided among the bound contexts; what no context gets is counted as such. -/
def energyIn (r : EnergyReading) (s : State) : State :=
  let all := r.regions.sum + r.rim + r.standby
  let shares := (List.range 64).map fun n => (n, ctxEnergy s r n)
  let s1 := shares.foldl (fun s e => if e.2 == 0 then s else putCtx s e.1 { ctxOf s e.1 with energy := (ctxOf s e.1).energy + e.2 }) s
  let t := (s.boot.energy.1 + all, s.boot.energy.2 + (all - (shares.map (·.2)).sum))
  rput64 (rput64 { s1 with boot := { s1.boot with energy := t } } (rPW 0x210) (energyUnits t.1)) (rPW 0x218) (energyUnits t.2)

/-- R280: ENERGY_REPORT. -/
def execEnergyReport (r : EnergyReading) (s : State) : Host.Outcome State Fault Refusal := shown (energyIn r) s

/-! ## The mirror stream (R283, R284) -/

/-- R283: is a frame of an image on its way to a module? -/
def imageFlying (s : State) (to_ : Nat) : Bool :=
  s.out.any fun m => match m with | .frame _ f => f.ty == 5 && f.dmod == to_ && f.smod == s.casc.self | _ => false

/-- R283: MIRROR_IMAGE_COMPLETE: every part of the latest image has arrived at the partner. -/
def execMirrorImageComplete (ctx : Nat) (s : State) : Host.Outcome State Fault Refusal :=
  shown (fun s => match (ctxOf s ctx).image, mirrorPartner s ctx with
    | some m, some (to_, _) => if m.areas.isEmpty || imageFlying s to_ then s else putCtx s ctx { ctxOf s ctx with image := none }
    | _, _ => s) s

/-- R284: the weights and moments of a part: weights into copy 0. -/
def writePart (p : Pattern) (s : State) (a : PartImage) : State :=
  let e := p.part a.part
  let n := 4160 * ceilDiv (leAt e 8 4) 3968
  let put (s : State) (o : Nat) (l : List W8) : State := if l.isEmpty then s else anyStore s (atAddr (leAt e o 8) (l.take n))
  if leAt p.upd 40 4 ≤ a.part then s else put (put (put s 16 a.w) 32 a.m) 40 (if leAt p.upd 0 1 == 1 then [] else a.v)

/-- R284: a restored image is written into its context. -/
def writeImage (s : State) (n : Nat) (p : Pattern) (m : MirrorImage) : State :=
  let s1 := m.areas.foldl (writePart p) s
  let s2 := anyStore s1 (atAddr (leAt p.upd 24 8) m.scale)
  let s3 := setGens (setSos (setRings s2 m.rings) m.sos) m.gens
  let x := ctxOf s3 n
  let s4 := putCtx s3 n { x with
    active := p.layers.foldl (fun a l => fset l 0 a) [], epoch := m.epoch, comEpoch := m.epoch, u := m.u, count := m.count,
    hist := m.hist, settle := [], trailer := m, restored := true, unverified := false, verifyNext := true, started := false }
  jsettle (jcommit (jso (showSettle s4 n) n) n) n m.epoch 1

/-- R284, R337: the restore of a mirror stream's `fn` entry ends. -/
def restoreImage (n : Nat) (image : Option MirrorImage) (s : State) : State :=
  let f := 128 + n
  if 63 < n || fnState s f != 1 || leAt (fnSet s f) 0 1 != 1 then s
  else match image, (ctxOf s n).pat with
    | none, _ => failStart s f 0x5301
    | some m, some p => if m.meas != p.measure then failStart s f 0x5302 else reachOn (writeImage s n p m) f
    | some _, none => s

/-- R284: MIRROR_RESTORE. -/
def execMirrorRestore (ctx : Nat) (image : Option MirrorImage) (s : State) : Host.Outcome State Fault Refusal :=
  shown (restoreImage ctx image) s

/-- Do parts cover the bytes from `a` on without a gap up to `stop`? -/
def coversTo (stop : Nat) : Nat → FMap Nat → Bool
  | a, [] => stop ≤ a
  | a, (o, n) :: r => o ≤ a && coversTo stop (max a (o + n)) r

/-- R283: a part of an image arrives at a mirror sink; the new image lies in the half of the range that does not hold the last
complete image, and a part at offset 0 begins a new image (log 33). -/
def mirrorPart (area : Nat) (p : MirrorPart) (s : State) : State :=
  match rangeOwner s area with
  | none => s
  | some (_, r) =>
    let half := r.pages * 4096 / 2
    if r.mark != 4 || r.base != area || !p.crcOk || half < p.offset + p.bytes.length then s
    else
      let k := fget {} area s.casc.sinks
      let into := match k.good with | some 0 => 1 | _ => 0
      let s1 := anyStore s (atAddr (area + into * half + p.offset) p.bytes)
      let parts := fset p.offset p.bytes.length (if p.offset == 0 then [] else k.parts)
      let stop := if p.last then some (p.offset + p.bytes.length) else if p.offset == 0 then none else k.stop
      let k1 := match stop with
        | some e => if coversTo e 0 parts then { good := some into } else { k with parts := parts, stop := stop }
        | none => { k with parts := parts, stop := stop }
      modCasc s1 fun c => { c with sinks := fset area k1 c.sinks }

/-- R283: MIRROR_DATA_FRAME. -/
def execMirrorDataFrame (smod area : Nat) (part : MirrorPart) (s : State) : Host.Outcome State Fault Refusal :=
  shown (fun s =>
    let s1 := match s.inbox.find? fun f => f.ty == 5 && f.smod == smod && f.mirror == some (area, part) with
      | some f => takeIn s f
      | none => s
    if s1.casc.active && smod < s1.casc.total && smod != s1.casc.self then mirrorPart area part s1 else s1) s

end Sys2Proof.Machine
end

