-- ==== Sys2Proof/Machine/HostLink.lean ====
section
/-! DEFINITION. The host link: tail lines, staging and mirror windows, ring registers, sideband (R12, R375 to R388, R393).
Choices: log 34. -/

namespace Sys2Proof.Machine

/-! ## Tail lines and the link (R375, R383) -/

/-- Is a ring being tracked: enabled or paused? -/
def ringOn (s : State) (r : Nat) : Bool := r < 64 && (rfld s (rHC r 0x24) 0 2 == 1 || rfld s (rHC r 0x24) 0 2 == 3)

/-- R383: the engine reads a tail line; a tail below the next sequence number is ignored. -/
def readTail (s : State) (r : Nat) : State :=
  let t := leNat (bytesAt s (rget64 s (rHC r 8)) 8)
  if t < rget64 s (rHC r 0x28) then s else putHring s r { hringOf s r with tail := t }

/-- Bytes that the host puts into its own memory. -/
def hostWrites (s : State) (bs : List (Nat × W8)) : State :=
  let own := bs.filter fun e => 0x400000000000 ≤ e.1 && e.1 < 0x800000000000
  { s with mem := cellSets memDefault own s.mem, hostPoison := s.hostPoison.filter fun k => !(own.any fun e => e.1 / 64 == k) }

/-- R383: the host has written entries and blocks, then a tail line; the engine reads the line again. -/
def tailWritten (ring : Nat) (line : List W8) (host : List (Nat × W8)) (s : State) : State :=
  let s1 := hostWrites s host
  let s2 := if 63 < ring then s1 else hostWrites s1 (atAddr (rget64 s1 (rHC ring 8)) (line.take 64))
  if ringOn s2 ring && s2.boot.cxlUp then readTail s2 ring else s2

/-- R383: TAIL_LINE_INVALIDATE. -/
def execTailLineInvalidate (ring : Nat) (line : List W8) (host : List (Nat × W8)) (s : State) :
    Host.Outcome State Fault Refusal :=
  shown (tailWritten ring line host) s

/-- R375: CXL_LINK_DOWN: accesses to host memory wait. -/
def execCxlLinkDown (s : State) : Host.Outcome State Fault Refusal :=
  shown (fun s => { s with boot := { s.boot with cxlUp := false } }) s

/-- Tail lines of all tracked rings are read. -/
def readTails (s : State) : State := (List.range 64).foldl (fun s r => if ringOn s r then readTail s r else s) s

/-- R375: the link is back: writes that waited take place, records that waited are written, tail lines are read. -/
def linkUp (s : State) : State :=
  let held := s.hostHeld
  let s1 := hostStore { s with boot := { s.boot with cxlUp := true }, hostHeld := [] } held
  readTails ((List.range 64).foldl (fun s r => flushRing ((hringOf s r).done.length + 1) s r) s1)

/-- R375: CXL_LINK_UP: the port is powered from the rim. -/
def execCxlLinkUp (s : State) : Host.Outcome State Fault Refusal := shown (fun s => if s.boot.rim then linkUp s else s) s

/-! ## The staging window (R377) -/

/-- Last completed step of bring-up. -/
def bringStep (s : State) : Nat := rfld s 0x108 0 4

/-- R377, R427: does a staging access of a line reach LPDDR? -/
def stagingOpen (s : State) (a : Nat) : Bool :=
  7 ≤ bringStep s && match regionOf s a with | .lpddr c => chanState s c == 0 | _ => false

/-- HC_ERR: set a bit. -/
def hostErr (s : State) (b : Nat) : State := rsetf s 0x201004 b 1 1

/-- R377: a line enters the snoop filter; a full filter gives up its oldest line. -/
def filterAdd (s : State) (k : Nat) : State :=
  if s.snoopFilter.contains k then s
  else if s.snoopFilter.length < 262144 then { s with snoopFilter := s.snoopFilter ++ [k] }
  else match s.snoopFilter with
    | [] => s
    | o :: r =>
      let s1 := { s with snoopFilter := r ++ [k] }
      if s1.stagingSnoops.contains o then s1 else emit { s1 with stagingSnoops := s1.stagingSnoops ++ [o] } (.snoop (.staging o))

/-- Answer a read. -/
def answer (s : State) (bs : List W8) (poison : Bool) : State := { s with reply := ⟨bs, poison⟩ }

/-- R377: a staging read of bytes of one line. -/
def stagingRead (dpa len : Nat) (errs : List SymErr) (s : State) : State :=
  if !s.boot.cxlUp || 0x30000000000 < dpa + len || 64 < dpa % 64 + len || len == 0 then s
  else if !(stagingOpen s dpa) then answer (hostErr s 0) (List.replicate len 0xFF) true
  else
    let s1 := memErrs s errs (inRun dpa len)
    let bad := anyBad s1 dpa len
    filterAdd (answer (if bad then useFree s1 else s1) (bytesAt s1 dpa len) bad) (dpa / 64)

/-- R377: STAGING_READ. -/
def execStagingRead (dpa len : Nat) (errs : List SymErr) (s : State) : Host.Outcome State Fault Refusal :=
  shown (stagingRead dpa len errs) s

/-- R213, R377: raw bytes that the host writes to LPDDR. -/
def stagingStore (s : State) (bs : List (Nat × W8)) : State :=
  let r := overPoison (· / 64) 64 s.lpPoison bs
  { s with mem := cellSets memDefault r.1 s.mem, lpPoison := r.2 }

/-- R227: a write that a failed channel drops counts in CS_MEM_DROP. -/
def countDrop (s : State) (a : Nat) : State :=
  match regionOf s a with
  | .lpddr c => if chanState s c == 1 then rcount s (rCS (cistOfChan c) 0x210) 1 else s
  | _ => s

/-- R271, R377: a staging write of bytes of one line; one whose area still settles waits. -/
def stagingWrite (dpa : Nat) (data : List W8) (errs : List SymErr) (s : State) : State :=
  if !s.boot.cxlUp || 0x30000000000 < dpa + data.length || 64 < dpa % 64 + data.length || data.isEmpty then s
  else if !(stagingOpen s dpa) then hostErr (countDrop s dpa) 0
  else if settleHolds s dpa then s
  else stagingStore (if data.length < 64 then memErrs s errs (inRun dpa data.length) else s) (atAddr dpa data)

/-- R377: STAGING_WRITE. -/
def execStagingWrite (dpa : Nat) (data : List W8) (errs : List SymErr) (s : State) : Host.Outcome State Fault Refusal :=
  shown (stagingWrite dpa data errs) s

/-! ## The mirror window (R378, R379) -/

/-- R378, R379: MIRROR_READ. -/
def execMirrorRead (line : Nat) (s : State) : Host.Outcome State Fault Refusal :=
  shown (fun s => if !s.boot.cxlUp || 1023 < line then s
    else answer { s with presence := nins line s.presence } (mirrorLine s line) false) s

/-- R378: MIRROR_WRITE. -/
def execMirrorWrite (offset : Nat) (s : State) : Host.Outcome State Fault Refusal :=
  shown (fun s => if !s.boot.cxlUp || 65535 < offset then s else hostErr s 1) s

/-- R377, R379: a BIRsp. -/
def snooped (s : State) : SnoopTarget → State
  | .mirror k => { s with presence := ndel k s.presence, snoops := ndel k s.snoops }
  | .staging k => { s with stagingSnoops := ndel k s.stagingSnoops, snoopFilter := ndel k s.snoopFilter }

/-- R379: BIRSP. -/
def execBirsp (target : SnoopTarget) (s : State) : Host.Outcome State Fault Refusal :=
  shown (fun s => snooped (arrive s (.snoop target)) target) s

/-! ## Ring registers (R12, R385, R387) -/

/-- R12: a write of one word of a pair: the low word fills the write latch; the high word commits the pair by `put`. -/
def pairWrite (s : State) (o : Nat) (high : Bool) (v : W32) (put : State → Nat → State) : State :=
  if !high then { s with wlatch := fset o v s.wlatch }
  else
    let low := match fget? o s.wlatch with | some w => w.toNat | none => rget s o
    put { s with wlatch := ferase o s.wlatch } (low + 2 ^ 32 * v.toNat)

/-- R346: journal records of entries whose retirement record the host has consumed leave. -/
def releaseJournal (s : State) (r cons : Nat) : State :=
  let gone (q : Nat) : Bool := q < cons && (entryOf s r q).isNone
  { s with journal := s.journal.filter fun x => match x with
    | .accept e => !(e.ring == r && gone e.seq)
    | .retire k q _ => !(k == r && gone q)
    | _ => true }

/-- R385: a new consumer index; a smaller one, or one above the next sequence number, is ignored. -/
def consWrite (r : Nat) (s : State) (v : Nat) : State :=
  if v < rget64 s (rHC r 0x18) || rget64 s (rHC r 0x28) < v then hostErr s 3
  else
    let s1 := releaseJournal (rput64 s (rHC r 0x18) v) r v
    if rfld s1 0x8014 3 1 == 1 && journalRoom s1 0 then rsetf s1 0x8014 3 1 0 else s1

/-- R385: HC_CPL_CONS_WRITE. -/
def execHcCplConsWrite (ring : Nat) (high : Bool) (value : W32) (s : State) : Host.Outcome State Fault Refusal :=
  shown (fun s => if 63 < ring then s else pairWrite s (rHC ring 0x18) high value (consWrite ring)) s

/-- Does a ring's area of `n` bytes lie in host memory at a multiple of `al`? -/
def hostArea (a n al : Nat) : Bool := a % al == 0 && 0x400000000000 ≤ a && a + n ≤ 0x800000000000

/-- R387: may a ring be enabled? -/
def ringAddrs (s : State) (r z : Nat) : Bool :=
  hostArea (rget64 s (rHC r 0)) (128 * 2 ^ z) 4096 && hostArea (rget64 s (rHC r 0x10)) (64 * 2 ^ z) 4096 &&
  hostArea (rget64 s (rHC r 8)) 64 64

/-- R16, Table 15.7: does a value of HC_RING_CFG hold no reserved encoding? -/
def cfgOk (v : Nat) : Bool := 4 ≤ bitsAt v 5 5 && bitsAt v 5 5 ≤ 16 && bitsAt v 10 6 != 63

/-- R383, R387: HC_RING_CFG is written with en = 1. -/
def ringEnable (r v : Nat) (s : State) : State :=
  let o := rHC r 0x20
  let same := bitsAt v 5 5 == rfld s o 5 5
  if 63 < r || !(cfgOk v) then s
  else if rfld s (rHC r 0x24) 0 2 == 0 then
    let s1 := rsetf (rsetf s o 5 5 (bitsAt v 5 5)) o 10 6 (bitsAt v 10 6)
    if !(ringAddrs s1 r (bitsAt v 5 5)) then hostErr s1 2
    else
      let s2 := putHring (rsetf (rsetf s1 o 0 1 1) (rHC r 0x24) 0 2 1) r { hringOf s1 r with tail := 0, draining := false }
      if s2.boot.cxlUp then readTail s2 r else s2
  else if same && ringOn s r then rsetf s o 10 6 (bitsAt v 10 6)
  else hostErr s 2

/-- R387: RING_ENABLE. -/
def execRingEnable (ring : Nat) (value : W32) (s : State) : Host.Outcome State Fault Refusal :=
  shown (fun s => if value.getLsbD 0 then ringEnable ring value.toNat s else s) s

/-- R387: HC_RING_CFG is written with en = 0: an enabled ring drains. -/
def ringDisable (r v : Nat) (s : State) : State :=
  let o := rHC r 0x20
  if 63 < r || !(cfgOk v) then s
  else if rfld s (rHC r 0x24) 0 2 == 0 then rsetf (rsetf (rsetf s o 5 5 (bitsAt v 5 5)) o 10 6 (bitsAt v 10 6)) o 0 1 0
  else if bitsAt v 5 5 != rfld s o 5 5 then hostErr s 2
  else
    let s1 := rsetf (rsetf (rsetf s o 10 6 (bitsAt v 10 6)) o 0 1 0) (rHC r 0x24) 0 2 2
    drainRing (putHring s1 r { hringOf s1 r with draining := true }) r

/-- R387: RING_DISABLE. -/
def execRingDisable (ring : Nat) (value : W32) (s : State) : Host.Outcome State Fault Refusal :=
  shown (fun s => if value.getLsbD 0 then s else ringDisable ring value.toNat s) s

/-- R387: a pair that may be written only while its ring is disabled. -/
def ringPair (r o : Nat) (s : State) (v : Nat) : State :=
  if rfld s (rHC r 0x24) 0 2 == 0 then rput64 s (rHC r o) v else hostErr s 2

/-- R387: a write to a ring's configuration registers. -/
def ringConfig (r o : Nat) (v : W32) (s : State) : State :=
  if 63 < r then s
  else if o == 0x20 then (if v.getLsbD 0 then ringEnable r v.toNat s else ringDisable r v.toNat s)
  else if o == 0x18 || o == 0x1C then pairWrite s (rHC r 0x18) (o == 0x1C) v (consWrite r)
  else if o == 0x24 then (if v.getLsbD 2 then rsetf s (rHC r 0x24) 2 1 0 else s)
  else if o % 4 == 0 && o ≤ 0x2C then pairWrite s (rHC r (o / 8 * 8)) (o % 8 == 4) v (ringPair r (o / 8 * 8))
  else s

/-- R387: HC_RING_CONFIG_WRITE. -/
def execHcRingConfigWrite (ring offset : Nat) (value : W32) (s : State) : Host.Outcome State Fault Refusal :=
  shown (ringConfig ring offset value) s

/-! ## The sideband (R393) -/

/-- R393: MCTP_HEALTH_READ. -/
def execMctpHealthRead (s : State) : Host.Outcome State Fault Refusal := 
  shown (fun s => if s.boot.standby || s.boot.rim then answer s (healthBytes s) false else s) s

/-- R393: MCTP_CONTROL_MESSAGE; the answer's content is a free value (log 12). -/
def execMctpControlMessage (data : List W8) (s : State) : Host.Outcome State Fault Refusal :=
  shown (fun s => if s.boot.standby || s.boot.rim then answer s (Config.mctpAnswer data) false else s) s

end Sys2Proof.Machine
end

