-- ==== Sys2Proof/Machine/Reset.lean ====
section
/-! DEFINITION. Resets, their causes, what they keep, and the dump (R229, R230, R416 to R418, R430 to R434). Choices:
log 35. -/

namespace Sys2Proof.Machine

/-! ## Causes (R416, R417) -/

/-- R416, R417: a cause asks for a reset; causes of one reset merge, and it is cold if any cause is cold. A warm cause while a
bring-up step runs takes no dump. -/
def requestReset (s : State) (k : ResetKind) (b : Nat) : State :=
  match s.boot.resetPending with
  | none =>
    rsetf { s with boot := { s.boot with resetPending := some k, trigAt := s.now, noDump := rfld s 0x108 4 1 == 1, dumped := false } } 0x114 0 8 (2 ^ b)
  | some old =>
    rsetf { s with boot := { s.boot with resetPending := some (if k == .cold then .cold else old) } } 0x114 b 1 1

/-- R416: WARM_RESET_REQUEST. -/
def execWarmResetRequest (s : State) : Host.Outcome State Fault Refusal := shown (fun s => requestReset s .warm 0) s

/-- R416, Table 17.9: COLD_RESET_REQUEST; with warm also 1 the reset is cold. -/
def execColdResetRequest (warmAlso : Bool) (s : State) : Host.Outcome State Fault Refusal :=
  shown (fun s => requestReset (if warmAlso then requestReset s .warm 0 else s) .cold 1) s

/-- R416: FIRMWARE_RESET_REQUEST: by firmware that runs. -/
def execFirmwareResetRequest (s : State) : Host.Outcome State Fault Refusal :=
  shown (fun s => if 4 ≤ bringStep s then requestReset s .warm 5 else s) s

/-- R375: CXL_RESET. -/
def execCxlReset (s : State) : Host.Outcome State Fault Refusal := shown (fun s => requestReset s .warm 3) s

/-! ## What survives (R418, Table 17.2) -/

/-- Registers that a warm reset keeps: contexts and generations, FN_SET, the HC_ block, error counters, counts since cold reset, the
cause, the state of the dump region. -/
def keepReg (o : Nat) : Bool :=
  (rFN 0x900 ≤ o && o ≤ rFN 0xA00) || (rFN 0x10000 ≤ o && o < rFN 0x20000) || (0x200000 ≤ o && o < 0x400000) ||
  o == 0x114 || o == rPW 0 || (rPW 0x210 ≤ o && o ≤ rPW 0x21C) || o == rPW 0x8020 || o == rDG 0 ||
  (0x1000000 ≤ o && o < 0x1400000 && [0x2004, 0x2800, 0x2804, 0x3000, 0x3004, 0x3800, 0x3804].contains (o % 0x10000)) ||
  (0x800000 ≤ o && o < 0x980000 && [0x200, 0x204, 0x210, 0x214, 0x404, 0x408, 0x40C].contains (o % 0x10000)) ||
  (0x2000000 ≤ o && o < 0x2100000 && [4, 8, 0xC, 0x10, 0x14, 0x18, 0x1C].contains (o % 0x4000))

/-- R439: counts of OTP entries in WH_DJ. -/
def showOtp (s : State) : State := rput s 0x8010 ((djUsed s).length + mrUsed s * 2 ^ 11)

/-- PW_STAT as the supplies are; the trip bit stays. -/
def showPower (s : State) : State :=
  rsetf s (rPW 0) 0 3 (s.boot.rim.toNat + 2 * s.boot.standby.toNat + 4 * (s.boot.rim && !s.boot.standby).toNat)

/-- Bytes of LPDDR and of host memory. -/
def lpByte (e : Host.Cell) : Bool := e.1 < 0x100000000000
/-- The same for host memory. -/
def hostByte (e : Host.Cell) : Bool := 0x400000000000 ≤ e.1

/-- What a context keeps for the mirror window and its replay; the journal's records give back the rest. -/
def CtxSt.kept (x : CtxSt) : CtxSt :=
  { epoch := x.epoch, comEpoch := x.comEpoch, u := x.u, count := x.count, hist := x.hist, restored := x.restored,
    unverified := x.unverified, verifyNext := x.verifyNext, trailer := x.trailer, dead := x.dead, capLost := x.capLost, energy := x.energy,
    started := x.started }

/-- START records keep which micro-batches have been lost and how often the step has run; ACCEPT records keep whether a serving
request had been batched. -/
def keepLosses (s : State) : List JRec :=
  s.journal.map fun r => match r with
    | .accept e => match s.accepted.find? fun x => x.ring == e.ring && x.seq == e.seq with
      | some x => if e.op == 0xE2 && x.phase != .queued then .accept { e with phase := .waiting } else r
      | none => r
    | .start n q => match (ctxOf s n).run with
      | some c => if c.epoch == q.epoch then .start n { q with lost := c.lost, restarts := c.restarts, total := c.total } else r
      | none => r
    | _ => r

/-- Messages that have left the module towards the host: they survive as the link does (Table 17.2). -/
def Msg.toHost : Msg → Bool
  | .snoop _ => true
  | .msix _ => true
  | .mctp _ => true
  | _ => false

/-- Functions in a state. -/
def fnsIn (s : State) (v : Nat) : List Nat := (List.range 192).filter fun f => fnKnown f && fnState s f == v

/-- What the cascade function keeps for its resumption: settings, roles, modules that have left, images held (R315, R426). -/
def Casc.kept (c : Casc) : Casc :=
  { self := c.self, cgen := c.cgen, ctx := c.ctx, topo := c.topo, w := c.w, d := c.d, m := c.m, succ := c.succ, swin := c.swin,
    rwin := c.rwin, pmap := c.pmap, rtab := c.rtab, rord := c.rord, digest := c.digest, term := c.term, master := c.master,
    deputy := c.deputy, leftMods := c.leftMods, comEpoch := c.comEpoch, comOutcome := c.comOutcome,
    dtx := c.dtx, drx := c.drx, part := (List.range c.m).filter fun g => !(c.leftMods.any fun m => c.group m == g),
    sinks := fmapAll (fun _ k => { good := k.good }) c.sinks }

/-- Bank header state bytes of flash (Table 18.6): the state of bank `b`. -/
def bankBase (b : Nat) : Nat := if b == 0 then 0 else 0x4000000

/-- R448: a byte of flash; an erased byte reads 0xFF. -/
def flashByte (s : State) (a : Nat) : W8 := cellGet 0xFF a s.flash

/-- R448: bits of a byte of flash are cleared. -/
def flashClear (s : State) (a : Nat) (v : W8) : State := { s with flash := cellSet 0xFF a (flashByte s a &&& v) s.flash }

/-- R452: a reset after step 4 has started a TRIAL bank and before READY makes the bank FAILED. -/
def failTrial (s : State) : State :=
  match s.boot.trialRun with
  | some b => flashClear s (bankBase b) 0x1F
  | none => s

/-- R229, R418: the warm reset. -/
def warmCore (s0 : State) : State :=
  let s := failTrial s0
  let regs := (s.regs.filter fun e => keepReg e.1).map fun e =>
    if rFN 0x900 ≤ e.1 && e.1 < rFN 0xA00 then (e.1, e.2 &&& ~~~4#32) else e
  let t : State := { s with
    out := s.out.filter Msg.toHost, inbox := [], mem := s.mem.filter fun e => lpByte e || hostByte e, wellPoison := [],
    cores := [], tiles := [], sos := [], csos := [], soStore := [], cists := [], ports := [],
    chans := fmapAll (fun _ c => { c with ceSeen := [], ueRows := [] }) s.chans, selfRefresh := true,
    ctxs := fmapAll (fun _ x => x.kept) s.ctxs, hrings := fmapAll (fun _ h => { h with done := [] }) s.hrings,
    accepted := [], journal := keepLosses s, fns := [],
    casc := s.casc.kept, regs := regs, rlatch := [], wlatch := [],
    boot := { standby := s.boot.standby, rim := s.boot.rim, energy := s.boot.energy, lastWarm := true, tripHold := s.boot.tripHold, fnOn := fnsIn s 2, fnStart := fnsIn s 1,
              cxlUp := s.boot.cxlUp, stalledEvents := s.boot.stalledEvents, tapIr := s.boot.tapIr, tapCells := s.boot.tapCells,
              dumpSeq := s.boot.dumpSeq } }
  showOtp (rput (rcountF t 0x114 16 16 1) 0x108 2)

/-- R223, R230: what a channel keeps through a cold reset: retirements in OTP, the repair queue and repairs in flash. -/
def ChanSt.kept (c : ChanSt) : ChanSt := { perm := c.perm, queue := c.queue, repaired := c.repaired, noRes := c.noRes }

/-- R230, R418: the cold reset, with the always-on domain up or newly powered. -/
def coldCore (s0 : State) (up : Bool) : State :=
  let s := failTrial s0
  let t : State := { State.reset with
    pending := s.pending, freeCtr := s.freeCtr, now := if up then s.now else 0, aonLog := if up then s.aonLog else [],
    otp := s.otp, flash := s.flash, djOver := s.djOver, dataWriter := s.dataWriter, dataOld := s.dataOld, mem := s.mem.filter hostByte, hostPoison := s.hostPoison, reply := s.reply,
    chans := fmapAll (fun _ c => c.kept) s.chans, regs := [(0x108, if up then 2#32 else 0#32), (0x114, BitVec.ofNat 32 (rfld s 0x114 0 8))],
    boot := { standby := s.boot.standby, rim := s.boot.rim, cxlUp := s.boot.rim, tapIr := if up then s.boot.tapIr else .idcode,
              tapCells := if up then s.boot.tapCells else [], tripHold := up && s.boot.tripHold } }
  showOtp (if up then showPower t else t)

/-! ## The dump (R430 to R434) -/

/-- R416, R417, R432: is a dump due? -/
def dumpDue (s : State) : Bool :=
  s.boot.resetPending == some .warm && s.boot.past7 && !s.boot.noDump &&
  !(rfld s (rDG 4) 0 1 == 1 && rfld s (rDG 0) 0 1 == 1)

/-- Table 17.6: section 4. -/
def dumpObjects (s : State) : List W8 :=
  ((List.range 65536).flatMap fun n => leBytes 8 (soOf s n).v.toNat) ++
  if isMaster s || (s.casc.active && casRole s.casc == 1) then (List.range 4096).flatMap fun n => leBytes 8 (fget {} n s.csos).v.toNat
  else []

/-- R433: the record of one well. -/
def wellRecord (s : State) (l : Nat) : List W8 :=
  let d := bytesAt s (wellBase l) 65536
  leBytes 2 2 ++ leBytes 2 32 ++ leBytes 4 l ++ leBytes 8 0 ++ leBytes 4 65536 ++ leBytes 4 (crc32c d).toNat ++ leBytes 8 0 ++ d

/-- R430: tiles whose base die does not answer the dump engine: it is unpowered. -/
def silentTiles (s : State) : List Nat := (List.range 64).filter fun t => (tileOf s t).fenced || (tileOf s t).tier == .off

/-- R433: section 9. -/
def dumpWells (s : State) : List W8 :=
  (s.cores.filter fun e => e.2.st.gen != 0 && e.2.wcache < 16 && !((silentTiles s).contains (tileOfCore e.1))).flatMap fun e =>
    wellRecord s e.1

/-! ### Section 8: the basting stores (Table 3.3) -/

/-- Bytes of a basting store that the manual does not settle (log 65). -/
def storeFree (s : State) (a n : Nat) : List W8 := (span a n).map (Config.storeByte s.freeCtr)

/-- R71, R72: image buffer `b` of accumulator tile `k`: the retired image where this buffer holds it, the closing snapshot's in the
other one, +0 where the slot has not run since the scrub. -/
def tileImage (s : State) (c : CoreSt) (b : Bool) (a k : Nat) : List W8 :=
  match ([0, 1, 2].map c.slot).find? fun x => x.bound && x.amask.getLsbD k with
  | none => storeFree s a 4096
  | some x =>
    let retired := match fget? k x.retTiles with
      | some r => if fget false k x.tileBuf == b then wordBytes r.w else storeFree s a 4096
      | none => if x.phase == .idle then List.replicate 4096 0 else storeFree s a 4096
    match x.closed.bind fun cl => fget? k cl.tiles with
    | some t => if b != x.buf then wordBytes t.w else retired
    | none => retired

/-- R70, R71: an undo log: up to 128 lines, oldest first, then the well offsets of the lines. -/
def undoImage (s : State) (l a : Nat) (t : Option Stitch) : List W8 :=
  let es := ((t.map fun t => t.undo.reverse).getD []).take 128
  (es.flatMap fun e => e.2) ++ storeFree s (a + 64 * es.length) (8192 - 64 * es.length) ++
  (es.flatMap fun e => leBytes 4 (e.1 - wellBase l)) ++ storeFree s (a + 8192 + 4 * es.length) (512 - 4 * es.length)

/-- Table 3.3: the basting store of a physical core, at its place in the section: header, register images, accumulator images, undo
logs, gate buffers, reserved. -/
def bastingStore (s : State) (l : Option Nat) (a : Nat) : List W8 :=
  match l with
  | none => storeFree s a 261120 ++ List.replicate 1024 0
  | some l =>
    let c := coreOf s l
    let tiles := [false, true].flatMap fun b => (List.range 16).flatMap fun k => tileImage s c b (a + 28672 + 65536 * b.toNat + 4096 * k) k
    let logs := [0, 1, 2].flatMap fun i =>
      undoImage s l (a + 159744 + 17408 * i) ((c.slot i).closed.map (·.st)) ++
      undoImage s l (a + 159744 + 17408 * i + 8704) (some (c.slot i).opn)
    storeFree s a 28672 ++ tiles ++ logs ++ storeFree s (a + 211968) 49152 ++ List.replicate 1024 0

/-- Table 17.6: section 8: the stores of every physical core of the tiles that answer, tile by tile; a core's store is that of its
well. -/
def dumpStores (s : State) : List W8 :=
  ((List.range 64).filter fun t => !((silentTiles s).contains t)).flatMap fun t => (List.range 264).flatMap fun p =>
    bastingStore s ((span (256 * t) 256).find? fun l => pwellOf s l == p && (coreOf s l).st.gen != 0) (262144 * (264 * t + p))

/-- Table 17.6: the sections to write, in type order, with their greatest sizes. After a thermal trip only sections 1 to 7. -/
def dumpSections (s : State) : List (Nat × List W8) :=
  let trip := rfld s 0x114 4 1 == 1
  let free (k n : Nat) : Nat × List W8 := (k, (Config.dumpSection k s.freeCtr).take n)
  [(1, (s.aonLog ++ List.replicate 262144 0).take 262144), free 2 8388608, free 3 4194304, (4, dumpObjects s), free 5 4194304,
    free 6 1048576, free 7 2097152] ++
  (if rfld s (rDG 4) 2 1 == 1 && !trip then [(8, dumpStores s)] else []) ++
  (if rfld s (rDG 4) 1 1 == 1 && !trip then [(9, dumpWells s)] else [])

/-- R431: first offset from `a` on that the dump may not write: a failed channel's slice, the guests' space. -/
def dumpLimit (s : State) (a : Nat) : Nat :=
  let slice := 25165824
  ((List.range 384).filter fun k => chanState s k != 0 && a < (k + 1) * slice).foldl (fun m k => min m (max a (k * slice))) (guestFloor s)

/-- A section with its place: type, offset, bytes, bytes that fit. -/
structure DumpEntry where
  type : Nat
  off : Nat
  data : List W8
  fit : Nat
  /-- a tile left out of it would have filled a part (R430) -/
  cut : Bool
  deriving DecidableEq, Repr

/-- R431: sections one after another, each from a multiple of 4 KiB. -/
def placeSections (s : State) : Nat → List (Nat × List W8) → List DumpEntry
  | _, [] => []
  | a, e :: r =>
    let n := e.2.length
    ⟨e.1, a, e.2, min n (dumpLimit s a - a), [4, 5, 8, 9].contains e.1 && !(silentTiles s).isEmpty⟩ :: placeSections s (a + ceilDiv n 4096 * 4096) r

/-- Table 17.5: entry of a section. -/
def DumpEntry.bytes (e : DumpEntry) : List W8 :=
  leBytes 2 e.type ++ leBytes 2 (flagByte [e.fit != 0, e.cut || e.fit != 0 && e.fit < e.data.length]) ++ leBytes 4 0 ++ leBytes 8 e.off ++
  leBytes 8 e.fit ++ leBytes 4 (crc32c (e.data.take e.fit)).toNat ++ leBytes 4 0

/-- Number among the marked codewords of the one at an offset of the dump region (R231). -/
def dumpCw (a : Nat) : Nat := 2 ^ 40 + 3072 * 2 ^ 32 + (a / 25165824 * 2 ^ 25 + a % 25165824) / 64

/-- Bytes put into the dump region; codewords that are written whole lose their marks (R213). -/
def dumpPut (s : State) (a : Nat) (l : List W8) : State :=
  let whole (k : Nat) : Bool :=
    let c := (k - (2 ^ 40 + 3072 * 2 ^ 32)) / 2 ^ 19
    let o := c * 25165824 + (k - (2 ^ 40 + 3072 * 2 ^ 32)) % 2 ^ 19 * 64
    2 ^ 40 + 3072 * 2 ^ 32 ≤ k && a ≤ o && o + 64 ≤ a + l.length
  { s with dumpMem := cellSets 0 (atAddr a l) s.dumpMem, lpPoison := s.lpPoison.filter fun k => !(whole k) }

/-- R401: the tick counter at a moment: 50 MHz beside the nominal core clock of 850 MHz. -/
def tickAt (now : Nat) : Nat := now / 17

/-- R401: the tick counter. -/
def tickCount (s : State) : Nat := tickAt s.now

/-- R430 step 4, R431: the dump is written. -/
def writeDump (s : State) : State :=
  let es := placeSections s 4096 (dumpSections s)
  let seq := s.boot.dumpSeq + 1
  let head := leBytes 1 1 ++ leBytes 1 (rfld s 0x114 0 8) ++ leBytes 2 es.length ++ leBytes 4 0 ++ leBytes 8 seq ++
    leBytes 8 (tickAt s.boot.trigAt) ++ leBytes 8 (tickCount s) ++ leBytes 8 (4096 + (es.map (·.fit)).sum) ++ leBytes 24 0 ++
    es.flatMap DumpEntry.bytes
  let s1 := es.foldl (fun s e => dumpPut s e.off (e.data.take e.fit)) (dumpPut (useFree s) 0 (head ++ List.replicate (4096 - head.length) 0))
  rput { s1 with boot := { s1.boot with dumpSeq := seq, dumped := true } } (rDG 0) (1 + seq % 65536 * 65536)

/-- R430: DUMP. -/
def execDump (s : State) : Host.Outcome State Fault Refusal :=
  shown (fun s => if dumpDue s && !s.boot.dumped then writeDump s else s) s

/-- R229, R430: WARM_RESET: after the dump, where one is due, and once the bring-up step in progress has completed (R417). -/
def execWarmReset (s : State) : Host.Outcome State Fault Refusal :=
  shown (fun s => if s.boot.resetPending == some .warm && rfld s 0x108 4 1 == 0 && (s.boot.dumped || !(dumpDue s)) then warmCore s else s) s

/-- R230: COLD_RESET. -/
def execColdReset (s : State) : Host.Outcome State Fault Refusal :=
  shown (fun s => if s.boot.resetPending == some .cold then coldCore s true else s) s

/-- R434: is the copy that the DG_ registers describe refused? -/
def copyRefused (s : State) : Bool :=
  let src := rget64 s (rDG 0x10)
  let dst := rget64 s (rDG 0x18)
  let len := rget s (rDG 0x20)
  bringStep s < 7 || rfld s (rDG 0x28) 0 1 == 1 || src % 64 != 0 || dst % 64 != 0 || len % 64 != 0 || 2 ^ 30 < len ||
  9 * 2 ^ 30 < src + len || dst < 0x400000000000 || 0x800000000000 < dst + len

/-- R434: DG_COPY_CMD.go; done and err speak of the last copy. -/
def dumpCopy (s : State) : State :=
  let o := rDG 0x28
  if copyRefused s then rsetf (rsetf (rsetf s o 1 1 0) o 2 1 1) o 16 16 0x1602
  else rsetf { s with boot := { s.boot with copy := (rget64 s (rDG 0x10), rget64 s (rDG 0x18), rget s (rDG 0x20)) } } o 0 1 1

/-- R434: DUMP_COPY. -/
def execDumpCopy (value : W32) (s : State) : Host.Outcome State Fault Refusal :=
  shown (fun s => if value.getLsbD 0 then dumpCopy s else s) s

/-- R213, R434: one line of a copy; a line on a failed channel or of a marked codeword is poisoned. -/
def dumpLine (src dst : Nat) (r : State × Bool) : State × Bool :=
  let s := r.1
  if chanState s (src / 25165824) != 0 || s.lpPoison.contains (dumpCw src) then
    let s1 := hostStore (useFree s) (atAddr dst ((List.range 64).map fun i => Config.poisonByte s.freeCtr (src + i)))
    ({ s1 with hostPoison := nins (dst / 64) s1.hostPoison }, true)
  else (hostStore s (atAddr dst ((span src 64).map fun a => cellGet 0 a s.dumpMem)), r.2)

/-- R434: the copy completes. -/
def dumpCopied (s : State) : State :=
  let o := rDG 0x28
  if rfld s o 0 1 == 0 || !s.boot.cxlUp then s
  else
    let (src, dst, len) := s.boot.copy
    let r := (List.range (len / 64)).foldl (fun r i => dumpLine (src + 64 * i) (dst + 64 * i) r) (s, false)
    rsetf (rsetf (rsetf (rsetf r.1 o 0 1 0) o 1 1 1) o 2 1 r.2.toNat) o 16 16 (if r.2 then 0x3701 else 0)

/-- R434: DUMP_COPY_COMPLETE. -/
def execDumpCopyComplete (s : State) : Host.Outcome State Fault Refusal := shown dumpCopied s

/-- R434: DUMP_RELEASE: the W1C bits of DG_STAT. -/
def execDumpRelease (value : W32) (s : State) : Host.Outcome State Fault Refusal :=
  shown (fun s => rput s (rDG 0) ((BitVec.ofNat 32 (rget s (rDG 0)) &&& ~~~(value &&& 5#32)).toNat)) s

end Sys2Proof.Machine
end

