-- ==== Sys2Proof/Machine/Power.lean ====
section
/-! DEFINITION. Supplies, the power cap, protective slow mode, sleep tiers, PLLs and temperatures (R394 to R410). Choices:
log 36. -/

namespace Sys2Proof.Machine

/-! ## Supplies (R395, R396, R416) -/

/-- Change the well-head's state. -/
def modBoot (s : State) (g : Boot → Boot) : State := { s with boot := g s.boot }

/-- R395: a region's input fell: fenced as by a power region fault, but neither WH_PR_LOST nor replacement reason 2 nor a journal
entry, so that the next reset powers it again. -/
def regionUnder (r : Nat) (s : State) : State :=
  let o := rPW (0x100 + 4 * r)
  if 15 < r || rfld s o 0 2 == 3 then s
  else fenceTiles (portReason ((regionTiles r).foldl portOut (rsetf (rsetf s o 0 2 3) o 3 1 1))) (regionTiles r) [r]

/-- R395: REGION_UNDERVOLTAGE. -/
def execRegionUndervoltage (region : Nat) (s : State) : Host.Outcome State Fault Refusal := shown (regionUnder region) s

/-- R396: neither input is left: the module is off. OTP, flash and the host's memory keep their contents. -/
def powerOffAll (s : State) : State :=
  let t := coldCore s false
  { t with boot := { t.boot with standby := false, rim := false, cxlUp := false }, regs := [] }

/-- R396: the module stops, and LPDDR and the journal are lost (R343). -/
def rimLost (s : State) : State :=
  if !s.boot.rim then s
  else if !s.boot.standby then powerOffAll s
  else showPower (modBoot (coldCore s true) fun b => { b with rim := false, cxlUp := false })

/-- R396: RIM_LOSS. -/
def execRimLoss (s : State) : Host.Outcome State Fault Refusal := shown rimLost s

/-- R396: the standby input is lost: the always-on domain draws from the rim, if that is up. -/
def standbyLost (s : State) : State :=
  if !s.boot.standby then s
  else if !s.boot.rim then powerOffAll s
  else showPower (modBoot s fun b => { b with standby := false })

/-- R396: STANDBY_LOSS. -/
def execStandbyLoss (s : State) : Host.Outcome State Fault Refusal := shown standbyLost s

/-- R396: STANDBY_RETURN: while the always-on domain runs on the rim. -/
def execStandbyReturn (s : State) : Host.Outcome State Fault Refusal :=
  shown (fun s => if !s.boot.standby && s.boot.rim then showPower (modBoot s fun b => { b with standby := true }) else s) s

/-- R416 cause 6: standby power arrives with the always-on domain unpowered: a cold reset. -/
def standbyArrives (s : State) : State :=
  if s.boot.standby || s.boot.rim then s
  else rput (coldCore (modBoot s fun b => { b with standby := true }) false) 0x114 (2 ^ 6)

/-- R416: STANDBY_ARRIVE. -/
def execStandbyArrive (s : State) : Host.Outcome State Fault Refusal := shown standbyArrives s

/-- R396, R416 cause 7: the rim input returns: a cold reset; it also powers an always-on domain without standby. -/
def rimReturns (s : State) : State :=
  if s.boot.rim then s
  else
    let s1 := modBoot s fun b => { b with rim := true }
    if s.boot.standby then requestReset (showPower s1) .cold 7
    else rput (coldCore s1 false) 0x114 (2 ^ 7)

/-- R416: RIM_RETURN. -/
def execRimReturn (s : State) : Host.Outcome State Fault Refusal := shown rimReturns s

/-! ## The power cap (R398) -/

/-- R398: one step of withholding more above the limit, one less below 98 % of it. -/
def capStep (hold watts limit : Nat) : Nat :=
  if limit < watts then min 7 (hold + 1) else if watts * 100 ≤ limit * 98 then hold - 1 else hold

/-- R398, R410: the power controller's sample: averages, temperatures, issue withheld. -/
def sample (watts : List Nat) (rimWatts : Nat) (temps : TempSample) (s : State) : State :=
  let w (r : Nat) : Nat := watts[r]?.getD 0
  let s1 := (List.range 16).foldl (fun s r => rsetf s (rPW (0x100 + 4 * r)) 16 11 (min 2047 (w r))) s
  let s2 := rput s1 (rPW 0x400) (temps.tmax % 256 + temps.tile % 64 * 2 ^ 8 + temps.rmax % 256 * 2 ^ 14 + temps.rdie % 32 * 2 ^ 22)
  let total := ((List.range 16).map w).sum + rimWatts
  let ct := capStep s.boot.capTotal total (100 * rfld s (rPW 0x200) 0 8)
  let cr := (List.range 16).filterMap fun r =>
    let k := capStep (fget 0 r s.boot.capRegion) (w r) 1300
    if k == 0 then none else some (r, k)
  rsetf (modBoot s2 fun b => { b with capTotal := ct, capRegion := cr }) (rPW 0) 3 1 (ct != 0 || !cr.isEmpty).toNat

/-- R398: POWER_CONTROLLER_SAMPLE. -/
def execPowerControllerSample (watts : List Nat) (rimWatts : Nat) (temps : TempSample) (s : State) :
    Host.Outcome State Fault Refusal :=
  shown (sample watts rimWatts temps) s

/-! ## Protective slow mode (R404) -/

/-- Panel of a cause. -/
def causePanel : SlowCause → Nat
  | .temp t => panelOf t
  | .volt r => panelOf (2 * (r % 4))

/-- Is it a temperature? -/
def causeHot : SlowCause → Bool
  | .temp _ => true
  | .volt _ => false

/-- CK_PANEL_p.ctemp and cuv. -/
def showCauses (s : State) (p : Nat) : State :=
  let mine := s.boot.causes.filter fun c => causePanel c == p
  rsetf (rsetf s (rPanel p) 4 1 (mine.any causeHot).toNat) (rPanel p) 5 1 (mine.any fun c => !causeHot c).toNat

/-- Does a cause name a tile or region of the panel? -/
def causeFits (p : Nat) : SlowCause → Bool
  | .temp t => p < 2 && t < 64 && panelOf t == p
  | .volt r => p < 2 && r < 16 && panelOf (2 * (r % 4)) == p

/-- R404: PROTECTIVE_SLOW_ENTER. -/
def execProtectiveSlowEnter (panel : Nat) (cause : SlowCause) (s : State) : Host.Outcome State Fault Refusal :=
  shown (fun s => if !(causeFits panel cause) then s
    else rsetf (showCauses (modBoot s fun b => { b with causes := if b.causes.contains cause then b.causes else b.causes ++ [cause] }) panel)
      (rPanel panel) 2 1 1) s

/-- R404: PROTECTIVE_CAUSE_CLEAR. -/
def execProtectiveCauseClear (panel : Nat) (cause : SlowCause) (s : State) : Host.Outcome State Fault Refusal :=
  shown (fun s => if !(causeFits panel cause) then s
    else showCauses (modBoot s fun b => { b with causes := b.causes.filter (· != cause) }) panel) s

/-- R404: PROTECTIVE_SLOW_EXIT: no cause holds. -/
def execProtectiveSlowExit (panel : Nat) (s : State) : Host.Outcome State Fault Refusal :=
  shown (fun s => if 1 < panel || s.boot.causes.any (fun c => causePanel c == panel) then s else rsetf s (rPanel panel) 2 1 0) s

/-! ## Sleep tiers (R407 to R409) -/

/-- R415: the PW_SLEEP_CFG in force for the idle period of a tile. -/
def sleepCfg (s : State) (t : Nat) : Nat := (fget? t s.boot.idleCfg).getD (rget s (rPW 0x300))

/-- R415: a write of PW_SLEEP_CFG takes effect from the next idle period of each tile. -/
def sleepWrite (v : Nat) (s : State) : State :=
  let old := rget s (rPW 0x300)
  let keep (m : FMap Nat) (t : Nat) : FMap Nat := if tileBusy s t || (fget? t m).isSome then m else fset t old m
  rput { s with boot := { s.boot with idleCfg := (List.range 64).foldl keep s.boot.idleCfg } } (rPW 0x300) (v % 2 ^ 24)

/-- Does a context bind the tile? -/
def tileBound (s : State) (t : Nat) : Bool := (List.range 64).any fun n => (ctxTiles s n).contains t

/-- R408: a tile descends from one of the given tiers. -/
def descend (s : State) (t : Nat) (src : List Tier) (dst : Tier) : State :=
  if 63 < t || (tileOf s t).fenced || tileBusy s t || !(src.contains (tileOf s t).tier) then s
  else putTile s t { tileOf s t with tier := dst }

/-- R408: CLOCK_GATE. -/
def execClockGate (tile : Nat) (s : State) : Host.Outcome State Fault Refusal :=
  shown (fun s => if bitsAt (sleepCfg s tile) 0 8 == 0 then s else descend s tile [.active] .gated) s

/-- R408: PLL_OFF. -/
def execPllOff (tile : Nat) (s : State) : Host.Outcome State Fault Refusal :=
  shown (fun s => if bitsAt (sleepCfg s tile) 8 8 == 0 then s else descend s tile [.active, .gated] .pllOff) s

/-- R408: POWER_OFF: only a tile bound to no context. -/
def execPowerOff (tile : Nat) (s : State) : Host.Outcome State Fault Refusal :=
  shown (fun s => if bitsAt (sleepCfg s tile) 16 8 == 0 || tileBound s tile then s
    else descend s tile [.active, .gated, .pllOff] .off) s

/-- R180: the wells of a tile are scrubbed. -/
def scrubTile (s : State) (t : Nat) : State := (span (t * 256) 256).foldl scrubWell s

/-- R408: a wake event: the tile is active again; from powered off its wells are scrubbed. -/
def wakeTile (t : Nat) (s : State) : State :=
  let x := tileOf s t
  if 63 < t || x.fenced || x.tier == .active || rfld s (rPW (0x100 + 4 * regionOfTile t)) 0 2 != 2 then s
  else
    activate (if x.tier == .off then scrubTile s t else s) t

/-- R408: WAKE. -/
def execWake (tile : Nat) (s : State) : Host.Outcome State Fault Refusal := shown (wakeTile tile) s

/-! ## PLLs and temperatures (R352, R410) -/

/-- R352: PLL_LOCK_LOSS. -/
def execPllLockLoss (tile : Nat) (pll : Pll) (s : State) : Host.Outcome State Fault Refusal :=
  shown (fun s => let x := tileOf s tile
    if 63 < tile || x.fenced || x.pllLost.contains pll then s else putTile s tile { x with pllLost := x.pllLost ++ [pll] }) s

/-- R352, R415: PLL_RELOCK. -/
def execPllRelock (tile : Nat) (pll : Pll) (s : State) : Host.Outcome State Fault Refusal :=
  shown (fun s => let x := tileOf s tile
    if x.pllLost.contains pll then rcount (putTile s tile { x with pllLost := x.pllLost.filter (· != pll) }) (rPW 0x8020) 1 else s) s

/-- R410: CISTERN_THROTTLE: mesh requests are taken at half rate; nothing else changes. -/
def execCisternThrottle (cn : Nat) (s : State) : Host.Outcome State Fault Refusal :=
  shown (fun s => if 23 < cn then s else putCist s cn { cistOf s cn with throttled := true }) s

/-- R410: CISTERN_THROTTLE_RELEASE. -/
def execCisternThrottleRelease (cn : Nat) (s : State) : Host.Outcome State Fault Refusal :=
  shown (fun s => if 23 < cn then s else putCist s cn { cistOf s cn with throttled := false }) s

/-- R410, R416: THERMAL_TRIP. -/
def execThermalTrip (s : State) : Host.Outcome State Fault Refusal :=
  shown (fun s => rsetf (modBoot (requestReset s .warm 4) fun b => { b with tripHold := true }) (rPW 0) 4 1 1) s

end Sys2Proof.Machine
end

