-- ==== Sys2Proof/Machine/Bringup.lean ====
section
/-! DEFINITION. The bring-up sequence up to step 7, heartbeat and watchdog (R419 to R422, R425, R428, R429). Choices: log 37. -/

namespace Sys2Proof.Machine

/-! ## Steps (R419, R420) -/

/-- R419: does step `t` run now? Steps from 3 on need the rim supply, without which the module is stopped (R21, R396). -/
def stepDue (s : State) (t : Nat) : Bool :=
  (t < 3 || s.boot.rim) && rfld s 0x108 4 1 == 1 && rfld s 0x108 5 1 == 0 && bringStep s + 1 == t && t ≤ s.boot.target && s.boot.resetPending != some .cold

/-- R419, R417: step `t` has completed; bring-up stops at its target, and before a reset that is on its way. -/
def stepDone (s : State) (t : Nat) : State :=
  let go := rfld s 0x108 4 1 == 1 && t < s.boot.target && s.boot.resetPending.isNone
  rsetf (rsetf (rsetf { s with boot := { s.boot with stepAt := s.now } } 0x108 0 4 t) 0x108 4 1 go.toNat) 0x108 16 16 0

/-- R420: a step fails with a status, and bring-up stops. -/
def stepFail (s : State) (status : Nat) : State :=
  rsetf (rsetf (rsetf (rsetf s 0x108 4 1 0) 0x108 6 1 0) 0x108 5 1 1) 0x108 16 16 status

/-- Table 17.3 step 3: the boot source is taken. -/
def takeSource (s : State) : State :=
  if stepDue s 3 then stepDone (modBoot s fun b => { b with src := rfld s 0x100 0 1 == 1 }) 3 else s

/-- R419: a write to WH_BRING_CMD. After a failed step only a reset helps, so the write has no effect. -/
def bringCmd (t : Nat) (s : State) : State :=
  if rfld s 0x108 4 1 == 1 || t == 0 || 10 < t || t ≤ bringStep s then rsetf (rsetf s 0x108 7 1 1) 0x108 16 16 0x1601
  else if rfld s 0x108 5 1 == 1 then s
  else takeSource (rsetf (modBoot s fun b => { b with target := t, stepAt := s.now }) 0x108 4 1 1)

/-- R419: WH_BRING_CMD_WRITE. -/
def execWhBringCmdWrite (value : W32) (s : State) : Host.Outcome State Fault Refusal :=
  shown (bringCmd (value.toNat % 16)) s

/-! ## Steps 1 and 2 (R420, R425, Table 18.2) -/

/-- Bytes of OTP. -/
def otpBytes (s : State) (a n : Nat) : List W8 := (span a n).map fun x => cellGet 0 x s.otp

/-- Table 18.2: does the check of the identity area hold? -/
def identityOk (s : State) : Bool :=
  (crc32c (otpBytes s 0 80 ++ otpBytes s 137 115)).toNat == leNat (otpBytes s 252 4)

/-- R419, R420: after a reset that took down the always-on domain, steps 1 and 2 run without a command. -/
def selfTest (ok : Bool) (s : State) : State :=
  if 1 < bringStep s || rfld s 0x108 5 1 == 1 || !(s.boot.standby || s.boot.rim) then s
  else if !ok then stepFail s 0xF601
  else if !(identityOk s) then stepFail (stepDone s 1) 0xF604
  else takeSource (showOtp (showPower (stepDone s 2)))

/-- R420: ALWAYS_ON_SELF_TEST. -/
def execAlwaysOnSelfTest (ok : Bool) (s : State) : Host.Outcome State Fault Refusal := shown (selfTest ok) s

/-! ## Step 5 (R421, R410) -/

/-- Table 18.3: factory defect entries of a configuration generation. -/
def factoryOf (g : List W8) : List Nat := (List.range (min 100 (leAt g 2 2))).map fun i => leAt g (108 + 4 * i) 4

/-- The 512 bytes of a generation. -/
def generation (s : State) (g : Nat) : List W8 := otpBytes s (0x100 + 0x200 * g) 512

/-- R441: is a generation valid? -/
def genValid (s : State) (g : Nat) : Bool :=
  let d := generation s g
  (d.any fun b => b != 0) && (crc32c (d.take 508)).toNat == leAt d 508 4

/-- R442: the generation in use: the highest valid one whose format the running image reads; while no image runs, the highest
valid one. -/
def genInUse (s : State) : Option Nat :=
  let h := s.boot.fwHdr
  [3, 2, 1, 0].find? fun g => genValid s g &&
    (h.isEmpty || (leAt h 15 1 ≤ leAt (generation s g) 0 1 && leAt (generation s g) 0 1 ≤ leAt h 14 1))

/-- R423, R444, R445: the entries of the defect map: factory entries, journal, overflow log; torn entries are skipped. -/
def defectEntries (s : State) : List Nat :=
  ((match genInUse s with | some g => factoryOf (generation s g) | none => []) ++ djUsed s ++ s.djOver).filter fun w => bitAt w 31

/-- R421: is a region lost under R353? -/
def regionLost (s : State) (r : Nat) : Bool := (defectEntries s).any fun w => bitsAt w 27 4 == 3 && bitsAt w 23 4 == r

/-- R180, R421: a powered region's tiles come up active with their wells scrubbed. -/
def regionUp (s : State) (r : Nat) : State :=
  (regionTiles r).foldl (fun s t => let s1 := scrubTile s t
    putTile s1 t { tileOf s1 t with tier := .active }) (rsetf (rsetf s (rPW (0x100 + 4 * r)) 0 2 2) (rPW (0x100 + 4 * r)) 3 1 0)

/-- R421, R395: one region at step 5. -/
def startRegion (s : State) (e : RegionStart × Nat) : State :=
  if 15 < e.2 || regionLost s e.2 then s
  else match e.1 with
    | .inRegulation => regionUp s e.2
    | .inputOut => regionUnder e.2 s
    | .noRegulation => failRegion s e.2

/-- R410, R420, R421: step 5; after a thermal trip it waits until the hottest die is below 85 °C. -/
def powerRegions (regions : List RegionStart) (hottest : Nat) (s : State) : State :=
  if !(stepDue s 5) then s
  else if s.boot.tripHold && 85 ≤ hottest then rsetf s 0x108 6 1 1
  else stepDone ((regions.zipIdx).foldl startRegion (rsetf (modBoot s fun b => { b with tripHold := false }) 0x108 6 1 0)) 5

/-- R421: REGION_POWER_UP. -/
def execRegionPowerUp (regions : List RegionStart) (hottest : Nat) (s : State) : Host.Outcome State Fault Refusal :=
  shown (powerRegions regions hottest) s

/-! ## Step 6 (R422, R425) -/

/-- R422: an Akgon port trains its lanes: the spare replaces one failing lane; two fail the port. -/
def trainPort (l : List PortLanes) (s : State) (n : Nat) : State :=
  if rfld s (rAK n 0) 0 2 == 3 then s
  else
    let bad := ((l.filter fun e => e.port == n).flatMap (·.failing)).eraseDups.filter (· < 9)
    if 2 ≤ bad.length then failPort s n
    else
      let u := !bad.isEmpty
      rsetf (rsetf (putPort s n { portOf s n with laneBad := bad, spareUsed := u }) (rAK n 0) 2 4 (if u then 8 else 9)) (rAK n 0) 6 1 u.toNat

/-- R422, R425: step 6: carrier links and Akgon lanes. -/
def trainLinks (down : List CarrierLink) (l : List PortLanes) (s : State) : State :=
  if !(stepDue s 6) then s
  else
    let s1 := (List.range 64).foldl (trainPort l) (down.foldl failLink s)
    if s1.boot.linksDown.contains (.wellHead 0) && s1.boot.linksDown.contains (.wellHead 23) then stepFail s1 0xF603
    else stepDone s1 6

/-- R422: LINK_TRAINING. -/
def execLinkTraining (linksDown : List CarrierLink) (portLanes : List PortLanes) (s : State) : Host.Outcome State Fault Refusal :=
  shown (trainLinks linksDown portLanes) s

/-! ## Step 7 (R225 to R227, R229, R230) -/

/-- R225: permanent redirections are rebuilt from the retirement journal. -/
def rebuildPerm (s : State) (c : Nat) : State :=
  let perm := ((mrOf s c).zipIdx).foldl (fun m e => fset (bitsAt e.1 0 23) e.2 m) []
  countSpares (putChan s c { chanSt s c with perm := perm }) c

/-- R226: the oldest queued row of a channel is repaired, or, where the device reports a failed repair, its pages retire. -/
def repairQueued (unrepaired : List Nat) (s : State) (c : Nat) : State :=
  match (chanSt s c).queue with
  | [] => s
  | row :: _ => if chanState s c != 0 then s else if unrepaired.contains c then rowUnrepaired s c row else rowRepaired s c row

/-- R420, R226, R227: step 7: channels train, leave self-refresh, take their redirections again and repair one row each. -/
def trainMem (failed unrepaired : List Nat) (s : State) : State :=
  if !(stepDue s 7) then s
  else
    let s1 := (List.range 384).foldl rebuildPerm (failed.foldl (fun s c => failChan s c 1) s)
    let s2 := (List.range 384).foldl (repairQueued unrepaired) s1
    stepDone { s2 with selfRefresh := false, boot := { s2.boot with past7 := true } } 7

/-- R420: LPDDR_TRAINING. -/
def execLpddrTraining (failed unrepaired : List Nat) (s : State) : Host.Outcome State Fault Refusal :=
  shown (trainMem failed unrepaired) s

/-! ## Steps that take too long (R425) -/

/-- Table 17.3: bound of a step in ms; step 2 is part of step 1 and step 3 of step 4. Step 7 has more where a repair is queued, and after a
cold reset, which fills LPDDR with zero (R420). -/
def stepBound (s : State) (t : Nat) : Nat :=
  match t with
  | 1 => 50
  | 2 => 50
  | 3 => 1500
  | 4 => 1500
  | 5 => 200 + 16 * rfld s 0x10C 0 7
  | 6 => 1200
  | 7 => 2000 + (if s.chans.any fun e => !e.2.queue.isEmpty then 1100 else 0) + (if s.boot.lastWarm then 0 else 600)
  | 8 => 100
  | 9 => 3000
  | _ => 1500

/-- R425: a step that exceeds twice its bound fails; the wait of step 5 for the temperature does not count. -/
def lateStep (s : State) : State :=
  if rfld s 0x108 6 1 == 1 then modBoot s fun b => { b with stepAt := s.now }
  else if (rfld s 0x108 4 1 == 1 || bringStep s < 2) && rfld s 0x108 5 1 == 0 && s.boot.resetPending != some .cold &&
      2 * stepBound s (bringStep s + 1) * 850000 < s.now - s.boot.stepAt then stepFail s 0xF605
  else s

/-- What an empty queue leaves to do: one nominal core cycle passes (log 1). -/
def idleTick (s : State) : State := lateStep (coreTick s)

/-! ## Heartbeat and watchdog (R428, R429) -/

/-- Does the firmware run? -/
def fwRuns (s : State) : Bool := 4 ≤ bringStep s && !s.boot.recovery

/-- R428: a beat. -/
def beat (s : State) : State :=
  if !(fwRuns s) then s
  else rsetf (modBoot (rput64 s 0x124 (rget64 s 0x124 + 1)) fun b => { b with beatSeen := true }) 0x120 4 4 0

/-- R428: HEARTBEAT. -/
def execHeartbeat (s : State) : Host.Outcome State Fault Refusal := shown beat s

/-- R428, R429: the end of a 10 ms period. -/
def watchdog (s : State) : State :=
  if !s.boot.wdogArmed then s
  else if s.boot.beatSeen then modBoot s fun b => { b with beatSeen := false }
  else
    let s1 := rcountF s 0x120 4 4 1
    if rfld s1 0x120 0 4 != 0 && rfld s1 0x120 0 4 ≤ rfld s1 0x120 4 4 then requestReset s1 .warm 2 else s1

/-- R428: WATCHDOG_CHECK. -/
def execWatchdogCheck (s : State) : Host.Outcome State Fault Refusal := shown watchdog s

end Sys2Proof.Machine
end

