-- ==== Sys2Proof/Machine/Control.lean ====
section
/-! DEFINITION. Control instructions (R98 to R100, Table 4.6). -/

namespace Sys2Proof.Machine

/-- Table 4.6: the condition of `br`, none for the reserved codes 6 and 7. -/
def brTaken (c : Nat) (a b : W64) : Option Bool :=
  match c with
  | 0 => some (a == b)
  | 1 => some (a != b)
  | 2 => some (a.slt b)
  | 3 => some (!(a.slt b))
  | 4 => some (a.ult b)
  | 5 => some (!(a.ult b))
  | _ => none

/-- R98: a target relative to the pc. -/
def relTarget (a : Arch) (f : Fields) : W64 := a.pc + immSx f * 8

/-- R98: `br.cond`. -/
def brBody (u : StreamId) (f : Fields) (s : State) : Res :=
  let a := (slotOf s u).arch
  match brTaken f.mod.toNat (a.sget f.src1) (a.sget f.src2) with
  | none => .fault 0x2002
  | some taken =>
    if f.dst != 0 then .fault 0x2002
    else if !taken then .ok s
    else if inCode a (relTarget a f) then .jump (setArch s u (a.branch (relTarget a f)))
    else .fault 0x2003

/-- Table 4.6: `br.cond`; cond in mod[2:0], the other mod bits and dst zero. -/
def execBrCond (u : StreamId) (f : Fields) (s : State) : Host.Outcome State Fault Refusal :=
  .next (issue u .lane0 f [.s f.src1, .s f.src2] (brBody u f) s)

/-- Table 4.6: `jal`; s[dst] receives pc + 8. -/
def execJal (u : StreamId) (f : Fields) (s : State) : Host.Outcome State Fault Refusal :=
  .next (issue u .lane0 f [.s f.dst] (fun s =>
    let a := (slotOf s u).arch
    if f.src1 != 0 || f.src2 != 0 || f.mod != 0 then .fault 0x2002
    else if inCode a (relTarget a f) then
      .jump (setArch s u ((a.sput f.dst (a.pc + 8)).branch (relTarget a f)))
    else .fault 0x2003) s)

/-- Table 4.6: `jalr`; the target is s[src1] + sext(imm), read before s[dst] is written. -/
def execJalr (u : StreamId) (f : Fields) (s : State) : Host.Outcome State Fault Refusal :=
  .next (issue u .lane0 f [.s f.src1, .s f.dst] (fun s =>
    let a := (slotOf s u).arch
    let t := memOff a f
    if f.src2 != 0 || f.mod != 0 then .fault 0x2002
    else if !(inCode a t) then .fault 0x2003
    else if t.toNat % 8 != 0 then .fault 0x2004
    else .jump (setArch s u ((a.sput f.dst (a.pc + 8)).branch t))) s)

/-- R99: the body of `loop` and `loop.vl`. -/
def loopBody (u : StreamId) (f : Fields) (vl : Bool) (s : State) : Res :=
  let a := (slotOf s u).arch
  let n := f.imm.toNat
  let cnt := a.sget f.src1
  let iters : W64 := if vl then BitVec.ofNat 64 (ceilDiv cnt.toNat 32) else cnt
  let stop := a.pc + BitVec.ofNat 64 (8 * (n + 1))
  if f.mod != (if vl then 1 else 0) || f.dst != 0 || f.src2 != 0 then .fault 0x2002
  else if n == 0 || n > 4096 || a.loops.length ≥ 2 then .fault 0x2002
  else if a.pc.toNat + 8 * (n + 1) > (a.bget 0).len.toNat then .fault 0x2003
  else if iters == 0 then .jump (setArch s u (loopBack a stop a.loops))
  else
    let l : LoopRec := ⟨a.pc + 8, stop, iters, if vl then some cnt else none⟩
    .jump (setArch s u { a with pc := a.pc + 8, loops := l :: a.loops,
                                vl := if vl then min 32 cnt.toNat else a.vl })

/-- R99: `loop`. -/
def execLoop (u : StreamId) (f : Fields) (s : State) : Host.Outcome State Fault Refusal :=
  .next (issue u .needP0 f [.s f.src1] (loopBody u f false) s)

/-- R99: `loop.vl`, which sets VL at each iteration. -/
def execLoopVl (u : StreamId) (f : Fields) (s : State) : Host.Outcome State Fault Refusal :=
  .next (issue u .needP0 f [.s f.src1] (loopBody u f true) s)

/-- R100: `done` closes the OPEN stitch, ends every active loop, and the slot issues nothing more. -/
def execDone (u : StreamId) (f : Fields) (s : State) : Host.Outcome State Fault Refusal :=
  .next (issue u .needP0 f [] (fun s =>
    if f != {} then .fault 0x2002 else closeBody u true s) s)

end Sys2Proof.Machine
end

