-- ==== Sys2Proof/Machine/Firmware.lean ====
section
/-! DEFINITION. Packages, banks, the start of firmware, recovery and attestation (R441 to R443, R447 to R456). Choices: log 38. -/

namespace Sys2Proof.Machine

/-! ## Packages (R450, Table 18.5) -/

/-- Serial numbers in a package. -/
def pkgUnits (p : List W8) : Nat := leAt p 6 2

/-- Bytes before the body. -/
def pkgHead (p : List W8) : Nat := 256 + 8 * pkgUnits p + 128

/-- The body. -/
def pkgBody (p : List W8) : List W8 := (p.drop (pkgHead p)).take (leAt p 16 8 - pkgHead p)

/-- Greatest image (R450). -/
def imageMax : Nat := 0x4000000 - 4096

/-- R450: a difference body over the running image, by steps: none where an operation is invalid or the end is missing. -/
def applyOps (base : List W8) : Nat → List W8 → List W8 → Option (List W8)
  | 0, _, _ => none
  | n + 1, d, out =>
    let len := leAt d 4 4
    let off := leAt d 8 8
    if d.length < 16 then none
    else match leAt d 0 4 with
      | 0 => if base.length < off + len then none else applyOps base n (d.drop 16) (out ++ (base.drop off).take len)
      | 1 =>
        let pad := ceilDiv len 16 * 16
        if off != 0 || (d.drop 16).length < pad then none else applyOps base n (d.drop (16 + pad)) (out ++ (d.drop 16).take len)
      | 2 => some out
      | _ => none

/-- The image that a package makes from the running image. -/
def pkgImage (base p : List W8) : Option (List W8) :=
  let r := if leAt p 1 1 == 1 then some (pkgBody p) else applyOps base ((pkgBody p).length / 16 + 1) (pkgBody p) []
  match r with
  | some i => if i.length ≤ imageMax then some i else none
  | none => none

/-- R451 check 1 of the header alone. -/
def headForm (p : List W8) : Bool :=
  leAt p 0 1 == 1 && leAt p 1 1 ≤ 1 && leAt p 5 1 ≤ 7 && pkgUnits p ≤ 256 && leAt p 12 2 ≤ 256 && pkgHead p ≤ leAt p 16 8 &&
  leAt p 16 8 ≤ 0x4000000 && zeroAt p 216 40

/-- R451 check 1. -/
def pkgForm (base p : List W8) : Bool :=
  headForm p && p.length == leAt p 16 8 && zeroAt p (pkgHead p - 14) 14 && (leAt p 1 1 == 0 || zeroAt p 24 64) && (pkgImage base p).isSome

/-- R447: value of an anti-rollback counter: its programmed bits. -/
def counter (s : State) (k : Nat) : Nat := ((List.range 8).map fun i => popCount 32 (otpWord s ((0x3900 + 0x20 * k) / 4 + i))).sum

/-- The unit's serial number (Table 18.2). -/
def serial (s : State) : Nat := leNat (otpBytes s 4 8)

/-- R451 check 2: part, stepping, unit list. -/
def pkgForUnit (s : State) (p : List W8) : Bool :=
  leAt p 2 2 == 0x6400 && leAt p 4 1 == 0xA1 &&
  (pkgUnits p == 0 || (List.range (pkgUnits p)).any fun i => leAt p (256 + 8 * i) 8 == serial s)

/-- R450, R451 check 3 without the body: signature and key index. -/
def pkgSigned (s : State) (p : List W8) : Bool :=
  let n := 256 + 8 * pkgUnits p
  Config.ed448Verify (leAt p 5 1) (Config.shake256 (p.take n)) ((p.drop n).take 114) && counter s 1 ≤ leAt p 5 1

/-- R451 check 3: bodyd. -/
def pkgBodyOk (p : List W8) : Bool := Config.shake256 (pkgBody p) == (p.drop 152).take 64

/-- Digest of an image that a package or a stored header states. -/
def resd (p : List W8) : List W8 := (p.drop 88).take 64

/-- R443: can an image read a valid generation, or is a blank one left? -/
def genOk (s : State) (p : List W8) : Bool :=
  (List.range 4).any fun g => (genValid s g && leAt p 15 1 ≤ leAt (generation s g) 0 1 && leAt (generation s g) 0 1 ≤ leAt p 14 1) ||
    (generation s g).all (· == 0)

/-- R451 checks 1 to 4. -/
def pkgChecks (s : State) (base p : List W8) : Option Nat :=
  if !(pkgForm base p) then some 0x1801
  else if !(pkgForUnit s p) then some 0x1802
  else if !(pkgSigned s p && pkgBodyOk p) then some 0x1803
  else if leAt p 12 2 < counter s 0 then some 0x1804
  else none

/-! ## Banks (R448, R452) -/

/-- Bytes of flash. -/
def flashBytes (s : State) (a n : Nat) : List W8 := (span a n).map (flashByte s)

/-- State of a bank: 0 EMPTY, 1 TRIAL, 2 GOOD, 3 FAILED, 4 for another value. -/
def bankState (s : State) (b : Nat) : Nat :=
  match (flashByte s (bankBase b)).toNat with | 0xFF => 0 | 0x7F => 1 | 0x3F => 2 | 0x1F => 3 | _ => 4

/-- Write sequence number of a bank. -/
def bankSeq (s : State) (b : Nat) : Nat := leNat (flashBytes s (bankBase b + 8) 8)

/-- The stored package header with unit list and signature. -/
def bankHead (s : State) (b : Nat) : List W8 :=
  let h := flashBytes s (bankBase b + 64) 256
  flashBytes s (bankBase b + 64) (pkgHead h)

/-- The image of a bank; its length stands in bytes 16 to 23 of the bank header (log 38). -/
def bankImage (s : State) (b : Nat) : List W8 :=
  flashBytes s (bankBase b + 4096) (min imageMax (leNat (flashBytes s (bankBase b + 16) 8)))

/-- R452: is a bank a candidate? -/
def candidate (s : State) (b : Nat) : Bool :=
  let h := bankHead s b
  (bankState s b == 1 || bankState s b == 2) && pkgUnits h ≤ 256 && pkgForUnit s h && pkgSigned s h && counter s 0 ≤ leAt h 12 2 &&
  Config.shake256 (bankImage s b) == resd h

/-- R452: candidates in the order of trial: TRIAL first, then the higher sequence number. -/
def bankOrder (s : State) : List Nat :=
  let key (b : Nat) : Nat := (if bankState s b == 1 then 2 ^ 64 else 0) + bankSeq s b
  let l := if key 0 < key 1 then [1, 0] else [0, 1]
  l.filter (candidate s)

/-- Erase an area of flash. -/
def flashErase (s : State) (a n : Nat) : State := { s with flash := s.flash.filter fun e => e.1 < a || a + n ≤ e.1 }

/-- R451: an image with its header is written to a bank, which becomes TRIAL with the next sequence number. -/
def writeBank (s : State) (b : Nat) (p image : List W8) : State :=
  let seq := (([0, 1].filter fun k => bankState s k != 0).map (bankSeq s)).foldl max 0 + 1
  let base := bankBase b
  let cells := (base, 0x7F#8) :: atAddr (base + 8) (leBytes 8 seq ++ leBytes 8 image.length) ++ atAddr (base + 64) (p.take (pkgHead p)) ++
    atAddr (base + 4096) image
  let s1 := flashErase s base 0x4000000
  { s1 with flash := cellSets 0xFF cells s1.flash }

/-! ## The start of firmware (R443, R452) -/

/-- R443: the data of the next generation, in the image's format. -/
def nextGeneration (old : List W8) (g fmt : Nat) : List W8 :=
  let t := (Config.translateConfig old fmt ++ List.replicate 506 0).take 506
  let d := leBytes 1 fmt ++ leBytes 1 g ++ t
  d ++ leBytes 4 (crc32c d).toNat

/-- R443: an image that can read no valid generation writes the next blank one. -/
def spendGeneration (s : State) : State :=
  if (genInUse s).isSome then s
  else match [3, 2, 1, 0].find? (genValid s), (List.range 4).find? fun g => (generation s g).all (· == 0) with
    | some o, some g =>
      let d := nextGeneration (generation s o) g (leAt s.boot.fwHdr 14 1)
      ((chunks 4 d).zipIdx).foldl (fun s e => otpProgram s ((0x100 + 0x200 * g) / 4 + e.2) (leNat e.1)) s
    | _, _ => s

/-- R366 reason 5, R443: generation 3 is in use. -/
def lastGeneration (s : State) : State := if genInUse s == some 3 then raiseReason s 5 else s

/-- R452: an image runs: its header, bank, version; the watchdog is armed. -/
def runImage (s : State) (h : List W8) (bank : Nat) (host : Option (List W8)) : State :=
  let trial := if host.isNone && bankState s bank == 1 then some bank else none
  let s1 := modBoot s fun b => { b with fwHdr := h, fwHost := host, trialRun := trial, wdogArmed := true, beatSeen := false, recovery := false,
                                        mboxBy := none, mbox := [], mboxDone := false }
  stepDone (lastGeneration (spendGeneration (rput (rput (rsetf s1 0x120 4 4 0) (rFW 0) (bank + 2 * host.isSome.toNat)) (rFW 4) (leAt h 8 4)))) 4

/-! ## The firmware data area (R449) -/

/-- The newest half as it stands. -/
def dataHalf (s : State) : DataHalf := { writer := s.dataWriter, rows := s.chans.map (fun e => (e.1, e.2.queue, e.2.repaired)), log := s.djOver }

/-- The records of a half come into use: queue, repaired rows, overflow log. -/
def useHalf (s : State) (h : DataHalf) : State :=
  let s1 := (List.range 384).foldl (fun s c =>
    let r := fget ([], []) c h.rows
    let x := chanSt s c
    if x.queue == r.1 && x.repaired == r.2 then s else putChan s c { x with queue := r.1, repaired := r.2 }) s
  { s1 with djOver := h.log }

/-- R449: rows of the newest queue, as the journal slices hold it (R229), with a page on a temporary spare. -/
def redirectedRows (x : ChanSt) : List Nat := x.queue.filter fun r => (rowPages r).any fun p => (fget? p x.temp).isSome

/-- R449: a fallback boot takes the old half, and rebuilds the queue where entries are missing from it. -/
def rebuiltHalf (s : State) (o : DataHalf) : DataHalf :=
  { o with rows := (List.range 384).foldl (fun m c =>
      let r := fget ([], []) c o.rows
      let missing := (redirectedRows (chanSt s c)).filter fun q => !(r.1.contains q)
      if missing.isEmpty then m else fset c (r.1 ++ missing, r.2) m) o.rows }

/-- R449: an image from flash starts. At its first start it copies the newest half whose versions it can read into the other
half and keeps the half it read; the image before it, started again, reads the newest half or else the old one (log 38). -/
def openData (s : State) (h : List W8) : State :=
  let reads := Config.readsData h s.dataWriter
  if h == s.dataWriter then s
  else match s.dataOld with
    | none => { s with dataWriter := h, dataOld := some (dataHalf s) }
    | some o =>
      if o.writer == h then (if reads then s else { useHalf s (rebuiltHalf s o) with dataWriter := h, dataOld := none })
      else if reads then { s with dataWriter := h, dataOld := some (dataHalf s) }
      else { useHalf s o with dataWriter := h }

/-- R420, R454: no image verifies: the ROM stays in recovery mode. -/
def noImage (s : State) : State :=
  stepFail (modBoot s fun b => { b with recovery := true, mboxBy := none, mbox := [], mboxDone := false }) 0xF602

/-- R452: step 4, from flash. A bank that is chosen and does not start gives way to the other. -/
def startFlash (startsA startsB : Bool) (s : State) : State :=
  match (bankOrder s).find? fun b => if b == 0 then startsA else startsB with
  | some b => runImage (openData s (bankHead s b)) (bankHead s b) b none
  | none => noImage s

/-- R452: step 4, with the full package that came through the mailbox; without it the step waits. -/
def startHost (starts : Bool) (s : State) : State :=
  let p := s.boot.mbox
  if !s.boot.mboxDone then s
  else if starts && leAt p 1 1 == 1 && (pkgChecks s [] p).isNone && Config.shake256 (pkgBody p) == resd p then
    runImage s (p.take (pkgHead p)) 0 (some (pkgBody p))
  else noImage s

/-- R452: FIRMWARE_START. -/
def execFirmwareStart (startsA startsB : Bool) (s : State) : Host.Outcome State Fault Refusal :=
  shown (fun s => if !(stepDue s 4) then s else if s.boot.src then startHost startsA s else startFlash startsA startsB s) s

/-! ## Apply and commit (R451, R453) -/

/-- The image that runs. -/
def runningImage (s : State) : List W8 := match s.boot.fwHost with | some i => i | none => bankImage s (rfld s (rFW 0) 0 1)

/-- Bank that apply writes: the one that does not run. -/
def otherBank (s : State) : Nat := 1 - rfld s (rFW 0) 0 1

/-- FW_STAT after a command. -/
def fwEnd (s : State) (status : Nat) : State :=
  let o := rFW 0x20
  rsetf (rsetf (rsetf (rsetf s o 0 1 0) o 1 1 1) o 2 1 (status != 0).toNat) o 16 16 status

/-- The package that FW_PKG names: its header, and all of it where the header's form holds. -/
def readPkg (s : State) : List W8 :=
  let a := rget64 s (rFW 0x10)
  let h := bytesAt s a 256
  if headForm h then bytesAt s a (leAt h 16 8) else h

/-- R451: does a package lie at a multiple of 64 in LPDDR or in host memory? -/
def pkgPlace (a n : Nat) : Bool :=
  a % 64 == 0 && (a + n ≤ 0x30000000000 || (0x400000000000 ≤ a && a + n ≤ 0x800000000000))

/-- R451: the checks of an apply, in order. -/
def applyRefusal (s : State) (p : List W8) : Option Nat :=
  if !(pkgPlace (rget64 s (rFW 0x10)) p.length) then some 0x1801
  else match pkgChecks s (runningImage s) p with
    | some st => some st
    | none =>
      if leAt p 1 1 == 0 && (p.drop 24).take 64 != resd s.boot.fwHdr then some 0x1805
      else if !(genOk s p) then some 0x1806
      else none

/-- R457: a command while an apply runs: FW_STAT shows 0x1807, and the apply goes on. -/
def fwTurnedAway (s : State) : State := rsetf (fwEnd s 0x1807) (rFW 0x20) 0 1 1

/-- R451: an apply begins: the other bank's header is erased. -/
def fwApply (s : State) : State :=
  if rfld s (rFW 0x20) 0 1 == 1 then fwTurnedAway s
  else if !(ready s) || (s.boot.fwHost.isNone && bankState s (rfld s (rFW 0) 0 1) == 1) then fwEnd s 0x1807
  else
    let p := readPkg s
    match applyRefusal s p with
    | some st => fwEnd s st
    | none => rsetf (modBoot (flashErase s (bankBase (otherBank s)) 4096) fun b => { b with applyPkg := some p }) (rFW 0x20) 0 1 1

/-- R451: FW_APPLY: FW_CMD with apply and not commit. -/
def execFwApply (value : W32) (s : State) : Host.Outcome State Fault Refusal :=
  shown (fun s => if value.toNat % 4 == 1 then fwApply s else s) s

/-- R451: the image is written and compared with resd. -/
def fwApplied (s : State) : State :=
  match s.boot.applyPkg with
  | none => s
  | some p =>
    let s1 := modBoot s fun b => { b with applyPkg := none }
    match pkgImage (runningImage s) p with
    | some i => if Config.shake256 i == resd p then fwEnd (writeBank s1 (otherBank s) p i) 0 else fwEnd s1 0xF801
    | none => fwEnd s1 0xF801

/-- R451: FW_APPLY_COMPLETE. -/
def execFwApplyComplete (s : State) : Host.Outcome State Fault Refusal := shown fwApplied s

/-- R447: a counter rises to a value: bits are programmed in ascending order; it never falls. -/
def raiseCounter (s : State) (k v : Nat) : State :=
  (List.range 8).foldl (fun s i => otpProgram s ((0x3900 + 0x20 * k) / 4 + i) (2 ^ min 32 (v - 32 * i) - 1)) s

/-- R453: FW_CMD.commit: both counters advance and the data area's old half is erased. -/
def fwCommit (s : State) : State :=
  if rfld s (rFW 0x20) 0 1 == 1 then fwTurnedAway s
  else if s.boot.fwHost.isSome || !(fwRuns s) || bankState s (rfld s (rFW 0) 0 1) != 2 then fwEnd s 0x1808
  else fwEnd { raiseCounter (raiseCounter s 0 (leAt s.boot.fwHdr 12 2)) 1 (leAt s.boot.fwHdr 5 1) with dataOld := none } 0

/-- R453: FW_COMMIT: FW_CMD with commit and not apply. -/
def execFwCommit (value : W32) (s : State) : Host.Outcome State Fault Refusal :=
  shown (fun s => if value.toNat % 4 == 2 then fwCommit s else s) s

/-! ## Recovery and the mailbox (R452, R454) -/

/-- Does the module take a package in chunks now? -/
def takesChunks (s : State) : Bool := (s.boot.recovery || (stepDue s 4 && s.boot.src)) && !s.boot.mboxDone

/-- R454: a whole package has come in recovery mode: checks 1 to 4, then its image goes to bank A, or B where A is GOOD. -/
def recoverPkg (s : State) : State × Nat :=
  let p := s.boot.mbox
  let again := modBoot s fun b => { b with mboxBy := none, mbox := [], mboxDone := false }
  match if leAt p 1 1 == 1 then pkgChecks s [] p else some 0x1801 with
  | some st => (again, st)
  | none =>
    let b := if bankState s 0 == 2 then 1 else 0
    if Config.shake256 (pkgBody p) == resd p then (writeBank s b p (pkgBody p), 0)
    else (flashErase again (bankBase b) 4096, 0xF801)

/-- R454: one chunk by a path (`true`: the window): the state and the status it answers. -/
def takeChunk (path : Bool) (data : List W8) (last : Bool) (s : State) : State × Nat :=
  if !(takesChunks s) || s.boot.mboxBy == some !path then (s, 0x1807)
  else
    let s1 := modBoot s fun b => { b with mboxBy := if last then none else some path, mbox := b.mbox ++ data, mboxDone := last }
    if last && s.boot.recovery then recoverPkg s1 else (s1, 0)

/-- Bytes of the mailbox window. -/
def windowBytes (s : State) (n : Nat) : List W8 :=
  ((List.range (ceilDiv n 4)).flatMap fun i => leBytes 4 (rget s (rFW (0x1000 + 4 * i)))).take n

/-- R454: FW_MBOX_CTL is written with push. -/
def mboxPush (v : Nat) (s : State) : State :=
  let n := bitsAt v 0 13
  if n == 0 || 4096 < n then s
  else
    let s1 := rsetf s (rFW 0x100) 0 13 n
    if !(bitAt v 13) then s1
    else
      let r := takeChunk true (windowBytes s1 n) (bitAt v 14) s1
      rsetf r.1 (rFW 0x100) 16 16 r.2

/-- R454: FW_MBOX_PUSH. -/
def execFwMboxPush (value : W32) (s : State) : Host.Outcome State Fault Refusal := shown (mboxPush value.toNat) s

/-- R454: MCTP_FIRMWARE_CHUNK: at most 4 KiB; the answer is the status. -/
def execMctpFirmwareChunk (data : List W8) (last : Bool) (s : State) : Host.Outcome State Fault Refusal :=
  shown (fun s =>
    let r := if data.isEmpty || 4096 < data.length then (s, 0x1801) else takeChunk false data last s
    if s.boot.standby || s.boot.rim then answer r.1 (leBytes 2 r.2) false else s) s

/-- R454: MAILBOX_IDLE_TIMEOUT: a transfer under way is abandoned. -/
def execMailboxIdleTimeout (s : State) : Host.Outcome State Fault Refusal :=
  shown (fun s => if s.boot.mboxDone then s else modBoot s fun b => { b with mboxBy := none, mbox := [] }) s

/-! ## Attestation (R455, R456) -/

/-- A digest field of 64 bytes. -/
def digest64 (l : List W8) : List W8 := (l ++ List.replicate 64 0).take 64

/-- R456: contexts that a report lists: LOADED, with no `load` that runs. -/
def attCtxs (s : State) : List Nat :=
  (List.range 64).filter fun n => ctxState s n == 2 && !(s.accepted.any fun e => e.op == 0xE1 && e.ctx == n && e.phase != .queued)

/-- Table 18.8: a context's entry. -/
def attCtx (s : State) (n : Nat) : List W8 :=
  leBytes 1 n ++ leBytes 1 0 ++ leBytes 2 (ctxGen s n) ++ leBytes 4 0 ++
  digest64 (match (ctxOf s n).pat with | some p => p.measure | none => [])

/-- Table 18.8: the report without its signature. -/
def attBody (s : State) (nonce : List W8) : List W8 :=
  let l := attCtxs s
  leBytes 1 1 ++ leBytes 1 l.length ++ leBytes 2 0 ++ leBytes 4 (528 + 72 * l.length) ++ leBytes 8 (serial s) ++ leBytes 2 0x6400 ++
  leBytes 1 0xA1 ++ leBytes 1 ((genInUse s).getD 0) ++ leBytes 4 (rget s (rFW 4)) ++ leBytes 2 (counter s 0) ++ leBytes 2 (counter s 1) ++
  leBytes 8 (tickCount s) ++ leBytes 12 0 ++ (nonce ++ List.replicate 32 0).take 32 ++ digest64 Config.romMeasurement ++
  digest64 (resd s.boot.fwHdr) ++ digest64 (Config.shake256 (generation s ((genInUse s).getD 0))) ++
  digest64 (Config.shake256 ((defectEntries s).flatMap (leBytes 4))) ++ leBytes 64 0 ++ l.flatMap (attCtx s)

/-- R456: the signed report. The signature covers bytes 0 to 399 + 72n − 1, as the rule counts them. -/
def attReport (s : State) (nonce : List W8) : List W8 :=
  let b := attBody s nonce
  b ++ (Config.ed448Sign (otpBytes s 80 57) (Config.shake256 (b.take (b.length - 1))) ++ List.replicate 128 0).take 114 ++ List.replicate 14 0

/-- FW_ATT_STAT. -/
def attEnd (s : State) (status : Nat) : State := rput s (rFW 0x22C) (2 + status * 2 ^ 16)

/-- R456: FW_ATT_CMD.go. -/
def attGo (s : State) : State :=
  let a := rget64 s (rFW 0x220)
  let r := attReport s ((List.range 8).flatMap fun i => leBytes 4 (rget s (rFW (0x200 + 4 * i))))
  if a % 64 != 0 || a < 0x400000000000 || 0x800000000000 < a + r.length then attEnd s 0x1809
  else attEnd (hostStore s (atAddr a r)) 0

/-- R456: FW_ATT_GO. -/
def execFwAttGo (value : W32) (s : State) : Host.Outcome State Fault Refusal :=
  shown (fun s => if value.getLsbD 0 then attGo s else s) s

/-- R456: MCTP_ATTESTATION: the report is returned. -/
def execMctpAttestation (nonce : List W8) (s : State) : Host.Outcome State Fault Refusal :=
  shown (fun s => if s.boot.standby || s.boot.rim then answer s (attReport s nonce) false else s) s

end Sys2Proof.Machine
end

