-- ==== Sys2Proof/Machine/Reads.lean ====
section
/-! DEFINITION. Instructions and events that may consume poison, with the loss of R249 that follows (R65, R166, R249, R360). -/

namespace Sys2Proof.Machine

/-- Table 4.8: `ld.w[.u]`. -/
def execLd (u : StreamId) (f : Fields) (errs : List SymErr) (s : State) : Host.Outcome State Fault Refusal :=
  shown (withLoss u (fun s => issue u .lane0 f [.s f.src1, .s f.dst] (ldBody u f errs) s)) s

/-- Table 4.8: `vld`. -/
def execVld (u : StreamId) (f : Fields) (errs : List SymErr) (s : State) : Host.Outcome State Fault Refusal :=
  shown (withLoss u (fun s => issueOver u .lanes f [.s f.src1, .w f.dst] (activeBits (slotOf s u).arch f) (vldBody u f errs) s)) s

/-- R162: `vgather`. -/
def execVgather (u : StreamId) (f : Fields) (errs : List SymErr) (s : State) : Host.Outcome State Fault Refusal :=
  shown (withLoss u (fun s => issueOver u .lanes f [.s f.src1, .v f.src2, .w f.dst] (activeBits (slotOf s u).arch f)
    (vgatherBody u f errs) s)) s

/-- R124: `mma`. -/
def execMma (u : StreamId) (f : Fields) (errs : List SymErr) (s : State) : Host.Outcome State Fault Refusal :=
  shown (withLoss u (fun s => issue u .lane0 f [.s f.src1, .s f.src2, .s f.dst] (mmaBody u f errs) s)) s

/-- R133: `mld`. -/
def execMld (u : StreamId) (f : Fields) (errs : List SymErr) (s : State) : Host.Outcome State Fault Refusal :=
  shown (withLoss u (fun s => issue u .lane0 f [.s f.src1] (mldBody u f errs) s)) s

/-- R106, R170: the data of an outstanding load return. -/
def execLoadReturn (u : StreamId) (id : Nat) (s : State) : Host.Outcome State Fault Refusal :=
  shown (withLoss u (loadReturn u id)) s

end Sys2Proof.Machine
end

