-- ==== Sys2Proof/Machine/Reduce.lean ====
section
/-! DEFINITION. The reduction unit (R154 `rscale`, R156 to R159, Table 6.5). -/

namespace Sys2Proof.Machine

/-- Active lanes of v[src1] with their numbers. -/
def activeVals (a : Arch) (f : Fields) : List (Nat × W32) :=
  (activeLanes a f.mask).map fun i => (i, lane (a.vget f.src1) i)

/-- R156: low word of the running value. -/
def priorLo (a : Arch) (f : Fields) : W32 := (a.sget f.dst).setWidth 32

/-- R158: one level of the tree: the first half of a list added to its second half. -/
def treeLevel (l : List (W32 × FFlags)) : List (W32 × FFlags) :=
  let h := l.length / 2
  ((l.take h).zip (l.drop h)).map fun e =>
    let r := w32 (f32.addB .rne e.1.1.toNat e.2.1.toNat)
    (r.1, (e.1.2.or e.2.2).or r.2)

/-- R158: the fixed tree over 32 lanes, inactive lanes +0. -/
def treeSum (a : Arch) (f : Fields) : W32 × FFlags :=
  let l := (List.range 32).map fun i => (if laneOn a f.mask i then lane (a.vget f.src1) i else 0, ({} : FFlags))
  (treeLevel (treeLevel (treeLevel (treeLevel (treeLevel l)))))[0]?.getD (0, {})

/-- R156, R158: `rsum.f32` on the register image. -/
def rsumArch (f : Fields) (a : Arch) : Arch :=
  let prior : W32 := if f.mod.getLsbD 0 then 0 else priorLo a f
  if (activeLanes a f.mask).isEmpty then a.sput f.dst (prior.zeroExtend 64)
  else
    let t := treeSum a f
    let r := w32 (f32.addB .rne prior.toNat t.1.toNat)
    (a.sput f.dst (r.1.zeroExtend 64)).raiseV (t.2.or r.2)

/-- R159: one step of a maximum or minimum with an index: NaN beats every number, the lowest index wins among NaN lanes,
ties keep the earlier value. `pri` marks the prior value, whose NaN stays. -/
def pickExt (isMax : Bool) (acc : W32 × W32 × Bool) (x : W32 × W32) : W32 × W32 × Bool :=
  let (v, i, pri) := acc
  if isNan32 v then (if !pri && isNan32 x.1 && x.2.ult i then (v, x.2, false) else acc)
  else if isNan32 x.1 || (if isMax then lt32 v x.1 else lt32 x.1 v) then (x.1, x.2, false)
  else acc

/-- R156, R159: value and index of `rmax`, `rmin`, `rargmax` from the prior ones. -/
def extreme (isMax abs : Bool) (pv pi base : W32) (l : List (Nat × W32)) : W32 × W32 :=
  if l.isEmpty then (pv, pi)
  else
    let mag (w : W32) : W32 := if abs then w &&& 0x7FFFFFFF#32 else w
    let r := l.foldl (fun acc e => pickExt isMax acc (mag e.2, base + BitVec.ofNat 32 e.1)) (mag pv, pi, true)
    (if isNan32 r.1 then nan32 else r.1, r.2.1)

/-- Table 6.5: identity under `.bx`. -/
def extIdent (isMax abs : Bool) : W32 := if isMax then (if abs then 0 else inf32 true) else inf32 false

/-- R159: `rmax.f32` and `rmin.f32` on the register image. -/
def rextArch (isMax : Bool) (f : Fields) (a : Arch) : Arch :=
  let abs := f.mod.getLsbD 1
  let pv := if f.mod.getLsbD 0 then extIdent isMax abs else priorLo a f
  a.sput f.dst ((extreme isMax abs pv 0 0 (activeVals a f)).1.zeroExtend 64)

/-- R159: `rargmax.f32` on the register image. -/
def rargArch (f : Fields) (a : Arch) : Arch :=
  let abs := f.mod.getLsbD 1
  let p := a.sget f.dst
  let pv := if f.mod.getLsbD 0 then extIdent true abs else p.setWidth 32
  let pi : W32 := if f.mod.getLsbD 0 then BitVec.allOnes 32 else (p >>> 32).setWidth 32
  let r := extreme true abs pv pi ((a.sget f.src2).setWidth 32) (activeVals a f)
  a.sput f.dst (r.1.zeroExtend 64 ||| (r.2.zeroExtend 64 <<< 32))

/-- R157: lanes below VL set in both p[src1] and the mask. -/
def maskLanes (a : Arch) (f : Fields) : List Nat :=
  (activeLanes a f.mask).filter fun i => (a.pget (f.src1.extractLsb' 0 3)).getLsbD i

/-- A reduction of vector lanes into s[dst]. -/
def reduce (u : StreamId) (f : Fields) (ok : Bool) (g : Arch → Arch) (s : State) : State :=
  issueArch u .lanes f [.v f.src1, .s f.dst] (ok && f.src2 == 0 && f.imm == 0) g s

/-- R156, R158: `rsum.f32`. -/
def execRsumF32 (u : StreamId) (f : Fields) (s : State) : Host.Outcome State Fault Refusal :=
  .next (reduce u f (f.mod.toNat < 2) (rsumArch f) s)

/-- R159: `rmax.f32`. -/
def execRmaxF32 (u : StreamId) (f : Fields) (s : State) : Host.Outcome State Fault Refusal :=
  .next (reduce u f (f.mod.toNat < 4) (rextArch true f) s)

/-- R159: `rmin.f32`. -/
def execRminF32 (u : StreamId) (f : Fields) (s : State) : Host.Outcome State Fault Refusal :=
  .next (reduce u f (f.mod.toNat < 4) (rextArch false f) s)

/-- R159: `rargmax.f32`; src2 names the s-register of the index base. -/
def execRargmaxF32 (u : StreamId) (f : Fields) (s : State) : Host.Outcome State Fault Refusal :=
  .next (issueArch u .lanes f [.v f.src1, .s f.src2, .s f.dst] (decide (f.mod.toNat < 4) && f.imm == 0) (rargArch f) s)

/-- Table 6.5: `rsum.i32`. -/
def execRsumI32 (u : StreamId) (f : Fields) (s : State) : Host.Outcome State Fault Refusal :=
  .next (reduce u f (f.mod.toNat < 2) (fun a =>
    let prior : W64 := if f.mod.getLsbD 0 then 0 else a.sget f.dst
    a.sput f.dst ((activeVals a f).foldl (fun x e => x + e.2.signExtend 64) prior)) s)

/-- R157: `rmcnt`. -/
def execRmcnt (u : StreamId) (f : Fields) (s : State) : Host.Outcome State Fault Refusal :=
  .next (issueArch u .lanes f [.s f.dst] (f.mod == 0 && f.src2 == 0 && f.imm == 0 && decide (f.src1.toNat < 8))
    (fun a => a.sput f.dst (BitVec.ofNat 64 (maskLanes a f).length)) s)

/-- R157: `rmfirst`. -/
def execRmfirst (u : StreamId) (f : Fields) (s : State) : Host.Outcome State Fault Refusal :=
  .next (issueArch u .lanes f [.s f.dst] (f.mod == 0 && f.src2 == 0 && f.imm == 0 && decide (f.src1.toNat < 8))
    (fun a => a.sput f.dst (BitVec.ofNat 64 ((maskLanes a f).head?.getD 32))) s)

/-- R36, R154: `rscale`: scale byte of the active lanes, inactive lanes zero. -/
def execRscale (u : StreamId) (f : Fields) (s : State) : Host.Outcome State Fault Refusal :=
  .next (issueArch u .lanes f [.v f.src1, .s f.dst]
    (f.mod == 0 && f.src2 == 0 && mxCode (cvtDst f) && f.imm.toNat == 16 * cvtDst f)
    (fun a => match vfmt (cvtDst f) with
      | some (el, _) =>
        let r := scaleByte el ((List.range 32).map fun i =>
          if laneOn a f.mask i then f32.decode (lane (a.vget f.src1) i).toNat else .fin false 0 0)
        (a.sput f.dst (BitVec.ofNat 64 r.1)).raiseV { nv := r.2 }
      | none => a) s)

end Sys2Proof.Machine
end

