-- ==== Sys2Proof/Machine/Replay.lean ====
section
/-! DEFINITION. Bring-up steps 8 to 10: the defect map, the known-answer run, the replay of the journal (R423, R424, R426,
R347 to R349, R354 to R356). Choices: log 37. -/

namespace Sys2Proof.Machine

/-! ## Step 8 (R423, R444, R445) -/

/-- Table 18.4: the carrier link of an entry. -/
def linkOf (w : Nat) : CarrierLink :=
  match bitsAt w 25 2 with
  | 0 => .mesh (bitsAt w 24 1) (bitsAt w 17 7) (bitsAt w 10 7) (bitsAt w 8 2)
  | 1 => .edge (bitsAt w 24 1) (bitsAt w 19 5) (bitsAt w 14 5)
  | 2 => .wellHead (bitsAt w 19 5)
  | _ => .seam (bitsAt w 24 1) (bitsAt w 10 7) (bitsAt w 9 1 == 0)

/-- A core is fenced by the defect map. -/
def mapCore (s : State) (t p cause : Nat) : State :=
  if 263 < p then s else rput s (rPcore t p) (0x1FF + 2 * 2 ^ 9 + cause % 256 * 2 ^ 16)

/-- A tile is fenced by the defect map. -/
def mapTile (s : State) (t : Nat) : State := putTile s t { tileOf s t with fenced := true, tier := .off }

/-- A region is lost by the defect map: its tiles and ports are fenced (R353). -/
def mapRegion (s : State) (r : Nat) : State :=
  raiseReason ((regionTiles r).foldl (fun s t => portOut (mapTile s t) t) (rsetf (regionOut s r) 0x800C r 1 1)) 2

/-- A channel is failed by the defect map; the memory-map function retires it (R227, R426). -/
def mapChan (s : State) (c cause : Nat) : State :=
  if 383 < c || chanState s c != 0 then s else rsetf (rsetf s (rChan c) 0 2 1) (rChan c) 4 4 cause

/-- Table 18.4: one entry is applied. -/
def mapEntry (s : State) (w : Nat) : State :=
  match bitsAt w 27 4 with
  | 0 => mapCore s (bitsAt w 21 6) (bitsAt w 12 9) (bitsAt w 4 8)
  | 1 => let t := bitsAt w 21 6
    putTile s t { tileOf s t with failedWells := nins (bitsAt w 12 9) (tileOf s t).failedWells }
  | 2 => mapTile s (bitsAt w 21 6)
  | 3 => mapRegion s (bitsAt w 23 4)
  | 4 => let j := bitsAt w 22 5
    if 23 < j then s else rsetf (putCist s j { cistOf s j with fenced := true }) 0x8014 0 1 1
  | 5 => mapChan s (4 * bitsAt w 20 7 + bitsAt w 18 2) (bitsAt w 14 4)
  | 6 => let l := linkOf w
    rsetf (modBoot s fun b => { b with linksDown := if b.linksDown.contains l then b.linksDown else b.linksDown ++ [l] }) 0x8008 24 1 1
  | 7 => portOut s (bitsAt w 21 6)
  | 8 => let j := bitsAt w 22 5
    if 23 < j then s else putCist s j { cistOf s j with engFenced := true }
  | _ => s

/-- R423 points 1 and 2: the physical well of each logical index of a tile; 0x1FF where none is left. -/
def assignWells (failed : List Nat) : List Nat → List Nat → FMap Nat
  | [], _ => []
  | c :: cs, spare =>
    if !(failed.contains c) then assignWells failed cs spare
    else match spare with
      | w :: ws => fset c w (assignWells failed cs ws)
      | [] => fset c 0x1FF (assignWells failed cs [])

/-- R423 points 3 and 4: the physical core of each assigned well whose own core is fenced. -/
def assignCores : List Nat → List Nat → FMap Nat
  | [], _ => []
  | w :: ws, p :: ps => fset w p (assignCores ws ps)
  | w :: ws, [] => fset w 0x1FF (assignCores ws [])

/-- R423: wells and cores of a tile, TL_PCORE_n and TL_CORE_SUMMARY. -/
def assignTile (s : State) (t : Nat) : State :=
  let x := tileOf s t
  let out (p : Nat) : Bool := pcoreState s t p == 2
  let wells := assignWells x.failedWells (List.range 256) ((span 256 8).filter fun w => !(x.failedWells.contains w))
  let held := ((List.range 256).map fun c => fget c c wells).filter (· != 0x1FF)
  let left := (List.range 264).filter fun w => held.contains w && out w
  let serv := assignCores left ((span 256 8).filter fun p => !(out p) && !(held.contains p))
  let bad := (List.range 256).filter fun c => let w := fget c c wells; w == 0x1FF || fget w w serv == 0x1FF
  let s1 := putTile s t { x with wells := wells, serv := serv, badIdx := bad }
  let user (p : Nat) : Option Nat := held.find? fun w => fget w w serv == p
  let s2 := (List.range 264).foldl (fun s p => if out p then s else match user p with
    | some w => rput s (rPcore t p) (w + (if w == p then 0 else 2 ^ 11))
    | none => rput s (rPcore t p) (0x1FF + 2 ^ 9)) s1
  let s3 := coreSummary s2 t
  if left.any fun w => fget w w serv == 0x1FF then raiseReason s3 1 else s3

/-- R366: reasons that the defect map holds. -/
def mapReasons (s : State) : State :=
  let s1 := portReason (countChans (showOtp s))
  if 922 ≤ (djUsed s1).length then raiseReason s1 0 else s1

/-- R423: step 8; without a generation that the image can read it fails (R443). -/
def buildMap (s : State) : State :=
  if !(stepDue s 8) then s
  else if (genInUse s).isNone then stepFail s 0xF604
  else
    let s1 := (defectEntries s).foldl mapEntry s
    stepDone (mapReasons (writeDetours ((List.range 64).foldl assignTile s1))) 8

/-- R423: DEFECT_MAP. -/
def execDefectMap (s : State) : Host.Outcome State Fault Refusal := shown buildMap s

/-! ## Step 9 (R424) -/

/-- R81, R83, R424: a core fails its test: fenced with cause 4; a spare adopts its well, else its index is without a core. -/
def katCore (s : State) (t p : Nat) : State :=
  if 63 < t || 263 < p || pcoreState s t p == 2 || (tileOf s t).fenced then s
  else
    let l := servedBy s t p
    let s1 := setPcore s t p 2 4
    match l with
    | none => s1
    | some l => match freeSpare s1 t with
      | some q => adopt s1 t q (pwellOf s l)
      | none =>
        let x := tileOf s1 t
        raiseReason (putTile s1 t { x with serv := fset (pwellOf s l) 0x1FF x.serv, badIdx := nins (l % 256) x.badIdx }) 1

/-- Table 17.4: a unit fails its known-answer test. -/
def katFail (s : State) : KatUnit → State
  | .core t p => katCore s t p
  | .well t w => if (tileOf s t).fenced then s else failWell s t w
  | .cistern j =>
    if 23 < j || (cistOf s j).fenced || (cistOf s j).engFenced then s
    else putCist (defectAppend s 8 (j * 2 ^ 22)) j { cistOf s j with engFenced := true }
  | .port n => failPort s n

/-- R424: KNOWN_ANSWER_RUN: step 9. -/
def execKnownAnswerRun (fails : List KatUnit) (s : State) : Host.Outcome State Fault Refusal :=
  shown (fun s => if stepDue s 9 then stepDone (fails.foldl katFail s) 9 else s) s

/-! ## Step 10: contexts (R319, R344, R347, R348) -/

/-- The COMMIT record of a context. -/
def commitRec (s : State) (n : Nat) : Option (Nat × FMap Nat) :=
  s.journal.findSome? fun r => match r with | .commit m e _ _ a => if m == n then some (e, a) else none | _ => none

/-- The SETTLE record of a context. -/
def settleRec (s : State) (n : Nat) : Option (Nat × Nat) :=
  s.journal.findSome? fun r => match r with | .settle m e l => if m == n then some (e, l) else none | _ => none

/-- The START record of a context. -/
def startRec (s : State) (n : Nat) : Option StepRun :=
  s.journal.findSome? fun r => match r with | .start m q => if m == n then some q else none | _ => none

/-- The object values of the SO record of a context. -/
def soRec (s : State) (n : Nat) : List (Nat × W64) :=
  (s.journal.findSome? fun r => match r with | .so m v => if m == n then some v else none | _ => none).getD []

/-- R344: pointers and settle of a context as CTX, COMMIT and SETTLE give them. -/
def replayedCtx (s : State) (n : Nat) (c : CtxSt) : CtxSt :=
  let from0 : Nat × FMap Nat × List Nat := match commitRec s n with
    | some (e, a) => (e, a, ({ c with run := none } : CtxSt).layers.reverse)
    | none => (c.settleEpoch, c.active, c.settle)
  let left := match settleRec s n with
    | some (e, l) => if e == from0.1 then from0.2.2.filter (· < l) else from0.2.2
    | none => from0.2.2
  { ctxOf s n with bind := c.bind, held := ctxGen s n, pat := c.pat, active := from0.2.1, settle := left, settleEpoch := from0.1 }

/-- R347, R348: a context comes back: binding, objects with their SO values, wells and cores as a `load` leaves them. -/
def replayCtx (s : State) (n state : Nat) (c : CtxSt) : State :=
  match c.bind with
  | none => s
  | some b =>
    if state == 0 then s
    else
      let st := ctxStamp s n
      let s1 := b.cores.foldl (fun s l => putCore s l { st := st, t0 := s.now }) (putCtx s n (replayedCtx s n c))
      let s2 := setSos (showSettle (stampObjects (showEngines s1 b (some n)) b st) n) (soRec s n)
      rebuild s2 n b.cores

/-- R356, R423: a logical core whose well works and whose core is lost becomes a core guest. -/
def coreGuest (s : State) (l : Nat) : State :=
  if (tileOf s (tileOfCore l)).fenced || pwellOf s l == 0x1FF || pcoreOf s l != 0x1FF then s
  else match guestHost s l with
    | some h => countGuests (putCore s l { coreOf s l with guest := some (h, false), out := true })
    | none => s

/-- R354, R356: guests of a context after the defect map; without room for them its steps retire with 0x7502. -/
def replayGuests (s : State) (n : Nat) : State :=
  let ls := (ctxCores s n).filter fun l => (tileOf s (tileOfCore l)).fenced || pwellOf s l == 0x1FF
  let s1 := if ls.isEmpty then s else match placeGuests s n ls with
    | some t => t
    | none => noRoom s n
  (ctxCores s1 n).foldl coreGuest s1

/-! ## Step 10: entries (R343, R346, R347) -/

/-- Has an entry its RETIRE record? -/
def hasRetire (s : State) (r seq : Nat) : Bool :=
  s.journal.any fun x => match x with | .retire q k _ => q == r && k == seq | _ => false

/-- Entries accepted and not retired, in acceptance order. -/
def openEntries (s : State) : List Entry :=
  s.journal.filterMap fun x => match x with | .accept e => if hasRetire s e.ring e.seq then none else some e | _ => none

/-- Does an entry ask for a vector at retirement? -/
def retireIrq (s : State) (r seq : Nat) : Bool :=
  s.journal.any fun x => match x with | .accept e => e.ring == r && e.seq == seq && bitAt (leAt e.raw 8 1) 1 | _ => false

/-- R347: RETIRE present: the record is written again at its place, or in its ring's order where it had not been written. -/
def rewriteRetire (s : State) (x : JRec) : State :=
  match x with
  | .retire r seq b =>
    let h := hringOf s r
    if seq < h.retired then putRecord s r seq b
    else putHring s r { h with done := h.done ++ [⟨r, seq, b, leAt b 8 2, retireIrq s r seq, none⟩] }
  | _ => s

/-- R347: the accept record of an entry is written again. -/
def rewriteAccept (s : State) (e : Entry) : State := putRecord s e.ring e.seq e.acc

/-! ## Step 10: steps and requests (R347, R354, R355, R315) -/

/-- The accepted training step whose START record the journal holds. -/
def openStep (s : State) (n : Nat) : Option (Entry × StepRun) :=
  match startRec s n with
  | none => none
  | some r => match entryOf s r.ring r.seq with
    | some e => if e.op == 0xE2 && e.ctx == n && e.epoch == r.epoch then some (e, r) else none
    | none => none

/-- R313, R315: a step of the cascade that was prepared before the reset: its gradients are in LPDDR, its pass is over, and its
update is done again when PREPARE comes. -/
def preparedAgain (s : State) (n : Nat) (r : StepRun) : State :=
  let x := ctxOf s n
  let blocks := x.layers.foldl (fun m l => fset l ((gradAreas x l).flatMap areaBlocks) m) []
  let r1 := { r.again with layer := 1, pass := 1, gradBlocks := blocks, areaRead := x.layers, reported := true }
  (ctxCores s n).foldl (fun s l =>
    let c := coreOf s l
    putCore s l { c with slots := c.slots.map fun y => if y.bound then { y with phase := .partDone } else y })
    (putCtx s n { x with run := some r1 })

/-- Was the step of an epoch prepared? -/
def wasPrepared (s : State) (n e : Nat) : Bool :=
  onCascade s n && match cascadeRec s with | some q => q.1 == e && 1 ≤ q.2.2.2 | none => false

/-- R347: a step that was committed and had not retired: R270 from step 2 on. What its COMMIT, tables and settle brought stands in LPDDR
and in the context's records; the retirement record is left. -/
def finishCommitted (s : State) (n : Nat) (r : StepRun) : State :=
  finishStep (putCtx s n { ctxOf s n with run := some { r with committed := true } }) n
    (if onCascade s n then s.casc.comOutcome else r.status)

/-- Was the step of an epoch committed (R345)? -/
def wasCommitted (s : State) (n e : Nat) : Bool := match commitRec s n with | some q => q.1 == e | none => false

/-- R347: a training step that ran begins again from its START record. -/
def replayRun (s : State) (n : Nat) : State :=
  match openStep s n with
  | none => s
  | some (e, r) =>
    let x := ctxOf s n
    putEntry (rsetf (putCtx s n { x with run := some r }) (rFnCtx n) 2 1 1) { e with phase := .running }

/-- R347, R354, R355: what the commands of a context do after its cores are back. -/
def replaySteps (s : State) (n : Nat) : State :=
  match (ctxOf s n).pat with
  | none => s
  | some p =>
    if !p.training then
      let asked := s.accepted.filter fun e => e.op == 0xE2 && e.ctx == n && e.phase != .queued
      let x := ctxOf s n
      loseStreams (putCtx s n { x with forming := asked.map fun e => ⟨e.ring, e.seq, leAt e.copy1 2 2, leAt e.copy1 8 4⟩ }) n p
    else
      let s1 := replayRun s n
      if p.uplace == 0 then deaden s1 n 0x7502
      else match (ctxOf s1 n).run with
        | none => s1
        | some r => if wasCommitted s1 n r.epoch then finishCommitted s1 n r
          else if (ctxOf s1 n).dead.isNone && wasPrepared s1 n r.epoch then preparedAgain s1 n r else finishRestart s1 n

/-- Every entry is queued again but those that hold a running step. -/
def requeue (s : State) : State :=
  { s with accepted := s.accepted.map fun e => if e.phase == .waiting then { e with phase := .queued } else e }

/-! ## Step 10: functions (R426) -/

/-- R315, R347: the cascade function resumes from its CASCADE record. -/
def resumeCascade (s : State) : State :=
  let q := (cascadeRec s).getD (0, 0, 0, 0)
  modCasc s fun c => { c with active := true, back := true, epoch := q.1, k := q.2.1, term := max c.term q.2.2.1,
                              comEpoch := if q.2.2.2 == 2 then q.1 else c.comEpoch }

/-- R426 points 2 and 3: the memory map, clock plan and port groups start; functions that were ON are ON again, those that were
STARTING start. -/
def restartFns (s : State) : State :=
  let on := s.boot.fnOn.filter (3 < ·)
  let s1 := onWork (startWork (onWork (onWork (setFnState (setFnState (setFnState s 1 2) 2 2) 3 2) 1) 2) 3) 3
  let s2 := on.foldl (fun s f => setFnState s f 2) s1
  let s3 := if s.boot.fnOn.contains 0 then resumeCascade (setFnState s2 0 2) else s2
  (s.boot.fnStart.filter fun f => f == 0 || 3 < f).foldl (fun s f => beginStart s f {}) s3

/-! ## Step 10 -/

/-- R452 point 3: the bank that started this bring-up becomes GOOD. -/
def trialGood (s : State) : State :=
  match s.boot.trialRun with
  | some b => modBoot (flashClear s (bankBase b) 0x3F) fun b => { b with trialRun := none }
  | none => s

/-- R343: entries of rings with an unreadable record retire with 0xF501. -/
def loseRings (s : State) (rings : List Nat) : State :=
  (s.accepted.filter fun e => rings.contains e.ring).foldl (fun s e => retire s e { status := 0xF501 }) s

/-- R231: can both copies of some record be lost, or are they of all: of channel `k` and of its partner 48 stacks on? A channel that is
not active has lost its copies, and so has a marked codeword. -/
def journalLost (s : State) (all : Bool) : Bool :=
  let base := 2 ^ 40 + 1024 * 2 ^ 32
  let dead (c : Nat) : Bool := chanState s c != 0
  let marks := (s.lpPoison.filter fun k => base ≤ k && k < base + 2 ^ 40).map (· - base)
  let pair (k : Nat) : Bool := dead k && dead (k + 192)
  if all then (List.range 192).all pair
  else (List.range 192).any pair || marks.any fun m =>
    let k := m / 2 ^ 19
    let q := (k + 192) % 384
    dead q || marks.contains (q * 2 ^ 19 + m % 2 ^ 19)

/-- R231, R343: rings with a record that neither copy gives. Which records lie on which channels the spec does not say, so the command
names the rings; it can name none while one copy of every record is whole, and names all when no copy is left (log 64). -/
def lostRings (s : State) (named : List Nat) : List Nat :=
  if journalLost s true then List.range 64 else if journalLost s false then named else []

/-- R347: the replay: contexts, records, functions, entries. -/
def replay (unreadable : List Nat) (s : State) : State :=
  let s1 := rsetf (if unreadable.isEmpty then s else rsetf s 0x8014 2 1 1) 0x8014 1 1 1
  let s2 := s1.journal.foldl (fun s r => match r with | .ctx n st _ c => replayCtx s n st c | _ => s) { s1 with accepted := openEntries s1 }
  let s3 := s2.journal.foldl rewriteRetire ((s2.accepted.filter fun e => !(unreadable.contains e.ring)).foldl rewriteAccept s2)
  let s4 := loseRings s3 unreadable
  let s5 := restartFns s4
  let s6 := (List.range 64).foldl (fun s n => replayGuests (replaySteps s n) n) s5
  (List.range 64).foldl (fun s r => flushRing ((hringOf s r).done.length + 1) s r) (requeue s6)

/-- R426: step 10: the replay after a warm reset, functions, READY, tail lines. -/
def finishBringup (unreadable : List Nat) (s : State) : State :=
  if !(stepDue s 10) then s
  else
    let s1 := if s.boot.lastWarm then replay (lostRings s unreadable) s else restartFns s
    let s2 := trialGood (modBoot s1 fun b => { b with fnOn := [], fnStart := [] })
    let s3 := stepDone s2 10
    sendRejoin (if s3.boot.cxlUp then readTails s3 else s3)

/-- R426: JOURNAL_REPLAY. -/
def execJournalReplay (unreadable : List Nat) (s : State) : Host.Outcome State Fault Refusal :=
  shown (finishBringup unreadable) s

end Sys2Proof.Machine
end

