-- ==== Sys2Proof/Machine/Registers.lean ====
section
/-! DEFINITION. Reads and writes of BAR0 registers and the TAP (R12 to R16, R413, R427, R440). Choices: log 39. -/

namespace Sys2Proof.Machine

/-! ## What registers show -/

/-- R396, R427: does a register's block answer? -/
def blockOpen (s : State) (o : Nat) : Bool :=
  if !(s.boot.standby || s.boot.rim) then false
  else if (0x1000000 ≤ o && o < 0x1400000) || (0x2000000 ≤ o && o < 0x2100000) then 5 ≤ bringStep s
  else if 0x800000 ≤ o && o < 0x980000 then 7 ≤ bringStep s
  else true

/-- TL_PUMP_STAT of a tile (Table 8.11). -/
def pumpStat (s : State) (t : Nat) : Nat :=
  let x := tileOf s t
  let run := (x.jobs.filter fun j => j.phase == .running).length
  let seam := (t % 8 == 3 || t % 8 == 4) && crossingHolds s t
  min 511 (x.jobs.length - run) + min 127 run * 2 ^ 9 + min 2047 x.fwd.length * 2 ^ 16 + rfld s (rTL t 0x3810) 27 1 * 2 ^ 27 +
    seam.toNat * 2 ^ 28

/-- CS_UPD_STAT of a cistern: deferred updates of its context wait for the governor (R269). -/
def updStat (s : State) (j : Nat) : Nat :=
  let o := rCS j 0x400
  let wait := rfld s o 11 1 == 1 && match (ctxOf s (rfld s o 5 6)).run with
    | some r => r.deferred && r.decision.isNone && r.pass == 1
    | none => false
  putBits (rget s o) 4 1 wait.toNat

/-- AK_CAS_STAT (Table 12.9). -/
def casStat (s : State) : Nat :=
  if s.casc.active then casRole s.casc + s.casc.master % 1024 * 2 ^ 2 + s.casc.term % 65536 * 2 ^ 12
  else if ready s then 3 else 0

/-- AK_CAS_LIVE. -/
def casLive (s : State) : Nat :=
  if s.casc.active then s.casc.live.length % 2048 + s.casc.leftMods.length % 2048 * 2 ^ 11 + s.casc.lost.length % 1024 * 2 ^ 22 else 0

/-- R402: highest compute-rail setpoint of a panel, in mV. -/
def railMv (s : State) (p : Nat) : Nat :=
  if rfld s (rPanel p) 0 1 == 1 then 550
  else
    let d := generation s ((genInUse s).getD 0)
    700 + (((List.range 64).filter fun t => panelOf t == p).map fun t => leAt d (16 + t) 1).foldl max 0 +
      5 * (if p == 0 then s.boot.margin.1 else s.boot.margin.2)

/-- CK_PANEL_p (Table 16.10). -/
def panelStat (s : State) (p : Nat) : Nat :=
  putBits (putBits (putBits (rget s (rPanel p)) 1 1 (panelReq s p)) 3 1 (panelChanging s p).toNat) 16 10 (railMv s p)

/-- OT_CFG (Table 18.9). -/
def otpCfg (s : State) : Nat :=
  let g := (genInUse s).getD 0
  let set (q : Nat → Bool) : Nat := ((List.range 4).map fun k => if q k then 2 ^ k else 0).sum
  g + set (genValid s) * 4 + set (fun k => !(genValid s k) && (generation s k).any (· != 0)) * 2 ^ 6 + leAt (generation s g) 0 1 * 2 ^ 10

/-- R440: a word of OTP; locked bytes read as zero. -/
def otpShown (s : State) (i : Nat) : Nat :=
  leNat ((span (4 * i) 4).map fun a => if 80 ≤ a && a ≤ 136 then 0 else cellGet 0 a s.otp)

/-- FW_BANK (Table 18.9). -/
def bankStat (s : State) : Nat := rfld s (rFW 0) 0 2 + bankState s 0 % 8 * 4 + bankState s 1 % 8 * 32

/-- The value of a register whose word the state does not hold as such; `none`: it does. -/
def regView (s : State) (o : Nat) : Option Nat :=
  if o == 0 then some (0xA16400 + (genInUse s).getD 0 * 2 ^ 24)
  else if o == 8 then some (serial s % 2 ^ 32)
  else if o == 12 then some (serial s / 2 ^ 32)
  else if o == rPW 0x8010 then some (tickCount s % 2 ^ 32)
  else if o == rPW 0x8014 then some (tickCount s / 2 ^ 32 % 2 ^ 32)
  else if o == rPanel 0 then some (panelStat s 0)
  else if o == rPanel 1 then some (panelStat s 1)
  else if o == rAK 0 0x1000 then some (casStat s)
  else if o == rAK 0 0x1004 then some (casLive s)
  else if o == rAK 0 0x1008 then some (s.casc.comEpoch % 2 ^ 32)
  else if o == rAK 0 0x100C then some (s.casc.comEpoch / 2 ^ 32 % 2 ^ 32)
  else if o == 0x8024 then some (putBits (putBits (rget s o) 0 16 (stallCount s)) 16 7 (stallUnit s))
  else if o == rOT 0 then some (otpCfg s)
  else if o == rOT 4 then some (counter s 0 + counter s 1 * 2 ^ 9)
  else if o == rOT 0xC then some (otpShown s (rget s (rOT 8)))
  else if o == rFW 0 then some (bankStat s)
  else if 0x1000000 ≤ o && o < 0x1400000 && o % 0x10000 == 0x3810 then some (pumpStat s (o / 0x10000 % 256))
  else if 0x800000 ≤ o && o < 0x980000 && o % 0x10000 == 0x400 then some (updStat s (o / 0x10000 % 128))
  else none

/-- R13, R14, R427: the word that a read of an offset sees, before any read latch. -/
def regRead (s : State) (o : Nat) : Nat :=
  match regRow? o with
  | none => 0
  | some r => if blockOpen s o then ((regView s o).getD (rget s o)) &&& r.rd else 0

/-- R12, R13: a read of `n` bytes at an offset: an aligned 32-bit read sees a word, a word of a register pair through the pair's read
latch; every other read returns zero. -/
def pairRead (o n : Nat) (s : State) : State :=
  let give (s : State) (v : Nat) : State := answer s (leBytes 4 v) false
  if n != 4 || o % 4 != 0 then answer s (List.replicate n 0) false
  else match regRow? o with
  | none => give s 0
  | some r =>
    if !(blockOpen s o) then give s 0
    else if r.pair == 1 then give { s with rlatch := fset o (BitVec.ofNat 32 (regRead s (o + 4))) s.rlatch } (regRead s o)
    else if r.pair == 2 then match fget? (o - 4) s.rlatch with
      | some w => give { s with rlatch := ferase (o - 4) s.rlatch } w.toNat
      | none => give s (regRead s o)
    else give s (regRead s o)

/-- R12: REGISTER_PAIR_READ. -/
def execRegisterPairRead (access : HostAccess) (s : State) : Host.Outcome State Fault Refusal :=
  shown (pairRead access.offset access.size) s

/-! ## Writes (R12 to R16) -/

/-- R16: does a value place no reserved encoding in an RW field? -/
def rwOk (o v : Nat) : Bool :=
  if o == 0x10C then 10 ≤ v % 128 && v % 128 ≤ 100
  else if o == rPW 0x200 then 60 ≤ v % 256 && v % 256 ≤ 180
  else true

/-- R14: fields change by their access codes. -/
def fieldWrite (r : RegRow) (o v : Nat) (s : State) : State :=
  let old := rget s o
  let kept := old - (old &&& r.rw) + (v &&& r.rw)
  rput s o (kept - (kept &&& (v &&& r.w1c)))

/-- Writes to registers of the well-head block that act. -/
def writeWH (o v : Nat) (s : State) : Option State :=
  if o == 0x104 then some (bringCmd (v % 16) s)
  else if o == 0x110 then
    let w := if bitAt v 0 then requestReset s .warm 0 else s
    some (if bitAt v 1 then requestReset w .cold 1 else w)
  else none

/-- Writes to registers of the function block that act. -/
def writeFN (o v : Nat) (s : State) : Option State :=
  if rFN 0x400 ≤ o && o < rFN 0x800 then
    some (if v % 4 == 1 then fnCtrl ((o - rFN 0x400) / 4) true s else if v % 4 == 2 then fnCtrl ((o - rFN 0x400) / 4) false s else s)
  else if rFN 0x10000 ≤ o && o < rFN 0x20000 then some (fnSetWrite ((o - rFN 0x10000) / 256) (o % 256 / 4) (BitVec.ofNat 32 v) s)
  else none

/-- Writes to registers of the power block that act. -/
def writePW (o v : Nat) (s : State) : Option State := if o == rPW 0x300 then some (sleepWrite v s) else none

/-- Writes to registers of cisterns and tiles that act. -/
def writeUnits (o v : Nat) (s : State) : Option State :=
  let x := o % 0x10000
  if 0x800000 ≤ o && o < 0x980000 then
    let j := (o - 0x800000) / 0x10000
    if 0x100 ≤ x && x < 0x140 then some (if bitAt v 31 then failChan s (16 * j + (x - 0x100) / 4) 5 else s)
    else if x == 0x304 then
      let s1 := if bitAt v 0 then pprTake j true s else s
      some (if bitAt v 1 then pprTake j false s1 else s1)
    else none
  else if 0x1000000 ≤ o && o < 0x1400000 then
    let t := (o - 0x1000000) / 0x10000
    if 0x2100 ≤ x && x < 0x2520 then some (if bitAt v 31 then failCore s t ((x - 0x2100) / 4) 5 else s)
    else if x == 0x280C then some (armInjection t (BitVec.ofNat 32 v) s)
    else none
  else none

/-- Writes to registers of the dump and firmware blocks that act. -/
def writeDG (o v : Nat) (s : State) : Option State :=
  if o == rDG 0x24 then some (if bitAt v 0 then dumpCopy s else s)
  else if o == rFW 0x1C then some (if v % 4 == 1 then fwApply s else if v % 4 == 2 then fwCommit s else s)
  else if o == rFW 0x100 then some (mboxPush v s)
  else if o == rFW 0x228 then some (if bitAt v 0 then attGo s else s)
  else none

/-- A write whose register acts, whichever block it lies in. -/
def writeActs (o v : Nat) (s : State) : Option State :=
  if 0x200000 ≤ o && o < 0x201000 then some (ringConfig ((o - 0x200000) / 0x40) (o % 0x40) (BitVec.ofNat 32 v) s)
  else ((writeWH o v s).orElse fun _ => writeFN o v s).orElse fun _ => ((writeUnits o v s).orElse fun _ => writePW o v s).orElse fun _ => writeDG o v s

/-- R12 to R16, R427: a 32-bit write of BAR0. -/
def regWrite (o v : Nat) (s : State) : State :=
  match regRow? o with
  | none => s
  | some r =>
    if !(blockOpen s o) then s
    else match writeActs o v s with
      | some s1 => s1
      | none =>
        if r.pair != 0 && r.rw != 0 then
          pairWrite s (if r.pair == 2 then o - 4 else o) (r.pair == 2) (BitVec.ofNat 32 v) fun s n => rput64 s (o - 4) n
        else if rwOk o v then fieldWrite r o v s else s

/-- R14: REGISTER_WRITE: an access that is no aligned 32-bit access has no effect (R13). -/
def execRegisterWrite (offset size : Nat) (value : W64) (s : State) : Host.Outcome State Fault Refusal :=
  shown (fun s => if size == 4 && offset % 4 == 0 then regWrite offset (value.toNat % 2 ^ 32) s else s) s

/-! ## The TAP (R413) -/

/-- Bits packed into bytes, first bit lowest. -/
def packBits (l : List Bool) : List W8 := (chunks 8 l).map fun g => BitVec.ofNat 8 (flagByte g)

/-- Bits that a scan of `data` shifts out of a register of the chain. -/
def scanOut (reg data : List Bool) : List Bool := (reg ++ data).take data.length

/-- R413: a TAP instruction with a scan: the boundary-scan chain has as many cells as the scan shifts. -/
def tapRun (i : TapInstr) (data : List Bool) (s : State) : State :=
  let s1 := modBoot s fun b => { b with tapIr := i }
  if !(s.boot.standby || s.boot.rim) then s
  else match i with
    | .bypass => answer s1 (packBits (scanOut [false] data)) false
    | .idcode => answer s1 (packBits (scanOut ((List.range 32).map (bitAt 0x16400567)) data)) false
    | .samplePreload | .extest =>
      answer (useFree (modBoot s1 fun b => { b with tapCells := data }))
        (packBits ((List.range data.length).map (Config.tapPins s.freeCtr))) false

/-- R413: TAP_INSTRUCTION. -/
def execTapInstruction (i : TapInstr) (data : List Bool) (s : State) : Host.Outcome State Fault Refusal := shown (tapRun i data) s

end Sys2Proof.Machine
end

