-- ==== Sys2Proof/Machine/Dispatch.lean ====
section
/-! DEFINITION. The dispatcher: one arm for each command. -/

namespace Sys2Proof.Machine

/-- The effect of a command on everything but the queue. -/
def exec (i : Instr) (s : State) : Host.Outcome State Fault Refusal :=
  match i with
  | .nop u f => Sys2Proof.Machine.execNop u f s
  | .add u f => Sys2Proof.Machine.execAdd u f s
  | .sub u f => Sys2Proof.Machine.execSub u f s
  | .and u f => Sys2Proof.Machine.execAnd u f s
  | .or u f => Sys2Proof.Machine.execOr u f s
  | .xor u f => Sys2Proof.Machine.execXor u f s
  | .shl u f => Sys2Proof.Machine.execShl u f s
  | .shr u f => Sys2Proof.Machine.execShr u f s
  | .sra u f => Sys2Proof.Machine.execSra u f s
  | .slt u f => Sys2Proof.Machine.execSlt u f s
  | .sltu u f => Sys2Proof.Machine.execSltu u f s
  | .min u f => Sys2Proof.Machine.execMin u f s
  | .max u f => Sys2Proof.Machine.execMax u f s
  | .minu u f => Sys2Proof.Machine.execMinu u f s
  | .maxu u f => Sys2Proof.Machine.execMaxu u f s
  | .mul u f => Sys2Proof.Machine.execMul u f s
  | .mulh u f => Sys2Proof.Machine.execMulh u f s
  | .mulhu u f => Sys2Proof.Machine.execMulhu u f s
  | .div u f => Sys2Proof.Machine.execDiv u f s
  | .divu u f => Sys2Proof.Machine.execDivu u f s
  | .rem u f => Sys2Proof.Machine.execRem u f s
  | .remu u f => Sys2Proof.Machine.execRemu u f s
  | .movhi u f => Sys2Proof.Machine.execMovhi u f s
  | .pop u f => Sys2Proof.Machine.execPop u f s
  | .clz u f => Sys2Proof.Machine.execClz u f s
  | .brCond u f => Sys2Proof.Machine.execBrCond u f s
  | .jal u f => Sys2Proof.Machine.execJal u f s
  | .jalr u f => Sys2Proof.Machine.execJalr u f s
  | .loop u f => Sys2Proof.Machine.execLoop u f s
  | .loopVl u f => Sys2Proof.Machine.execLoopVl u f s
  | .done u f => Sys2Proof.Machine.execDone u f s
  | .ld u f errs => Sys2Proof.Machine.execLd u f errs s
  | .st u f errs => Sys2Proof.Machine.execSt u f errs s
  | .vld u f errs => Sys2Proof.Machine.execVld u f errs s
  | .vst u f errs => Sys2Proof.Machine.execVst u f errs s
  | .amoadd u f => Sys2Proof.Machine.execAmoadd u f s
  | .fence u f => Sys2Proof.Machine.execFence u f s
  | .racqW u f => Sys2Proof.Machine.execRacqW u f s
  | .racqR u f => Sys2Proof.Machine.execRacqR u f s
  | .rrelW u f => Sys2Proof.Machine.execRrelW u f s
  | .rrelR u f => Sys2Proof.Machine.execRrelR u f s
  | .sow u f => Sys2Proof.Machine.execSow u f s
  | .sos u f => Sys2Proof.Machine.execSos u f s
  | .sord u f => Sys2Proof.Machine.execSord u f s
  | .sowC u f => Sys2Proof.Machine.execSowC u f s
  | .sosC u f => Sys2Proof.Machine.execSosC u f s
  | .sordC u f => Sys2Proof.Machine.execSordC u f s
  | .ppost u f => Sys2Proof.Machine.execPpost u f s
  | .stitch u f => Sys2Proof.Machine.execStitch u f s
  | .cget u f => Sys2Proof.Machine.execCget u f s
  | .cset u f => Sys2Proof.Machine.execCset u f s
  | .bnar u f => Sys2Proof.Machine.execBnar u f s
  | .bget u f => Sys2Proof.Machine.execBget u f s
  | .vaddF32 u f => Sys2Proof.Machine.execVaddF32 u f s
  | .vsubF32 u f => Sys2Proof.Machine.execVsubF32 u f s
  | .vmulF32 u f => Sys2Proof.Machine.execVmulF32 u f s
  | .vfmaF32 u f => Sys2Proof.Machine.execVfmaF32 u f s
  | .vminF32 u f => Sys2Proof.Machine.execVminF32 u f s
  | .vmaxF32 u f => Sys2Proof.Machine.execVmaxF32 u f s
  | .vabs u f => Sys2Proof.Machine.execVabs u f s
  | .vneg u f => Sys2Proof.Machine.execVneg u f s
  | .vcsgn u f => Sys2Proof.Machine.execVcsgn u f s
  | .vcmpF32 u f => Sys2Proof.Machine.execVcmpF32 u f s
  | .vaddI32 u f => Sys2Proof.Machine.execVaddI32 u f s
  | .vsubI32 u f => Sys2Proof.Machine.execVsubI32 u f s
  | .vmulI32 u f => Sys2Proof.Machine.execVmulI32 u f s
  | .vand u f => Sys2Proof.Machine.execVand u f s
  | .vor u f => Sys2Proof.Machine.execVor u f s
  | .vxor u f => Sys2Proof.Machine.execVxor u f s
  | .vandn u f => Sys2Proof.Machine.execVandn u f s
  | .vshl u f => Sys2Proof.Machine.execVshl u f s
  | .vshr u f => Sys2Proof.Machine.execVshr u f s
  | .vsra u f => Sys2Proof.Machine.execVsra u f s
  | .vcmpI32 u f => Sys2Proof.Machine.execVcmpI32 u f s
  | .vminI32 u f => Sys2Proof.Machine.execVminI32 u f s
  | .vmaxI32 u f => Sys2Proof.Machine.execVmaxI32 u f s
  | .vminu u f => Sys2Proof.Machine.execVminu u f s
  | .vmaxu u f => Sys2Proof.Machine.execVmaxu u f s
  | .vsel u f => Sys2Proof.Machine.execVsel u f s
  | .vbcast u f => Sys2Proof.Machine.execVbcast u f s
  | .vext u f => Sys2Proof.Machine.execVext u f s
  | .vins u f => Sys2Proof.Machine.execVins u f s
  | .vperm u f => Sys2Proof.Machine.execVperm u f s
  | .vshuf u f => Sys2Proof.Machine.execVshuf u f s
  | .vcompress u f => Sys2Proof.Machine.execVcompress u f s
  | .vexpand u f => Sys2Proof.Machine.execVexpand u f s
  | .vcvt u f => Sys2Proof.Machine.execVcvt u f s
  | .vquant u f => Sys2Proof.Machine.execVquant u f s
  | .pand u f => Sys2Proof.Machine.execPand u f s
  | .por u f => Sys2Proof.Machine.execPor u f s
  | .pxor u f => Sys2Proof.Machine.execPxor u f s
  | .pandn u f => Sys2Proof.Machine.execPandn u f s
  | .pmov u f => Sys2Proof.Machine.execPmov u f s
  | .vgather u f errs => Sys2Proof.Machine.execVgather u f errs s
  | .vscatter u f errs => Sys2Proof.Machine.execVscatter u f errs s
  | .setvl u f => Sys2Proof.Machine.execSetvl u f s
  | .vfn u f => Sys2Proof.Machine.execVfn u f s
  | .rsumF32 u f => Sys2Proof.Machine.execRsumF32 u f s
  | .rmaxF32 u f => Sys2Proof.Machine.execRmaxF32 u f s
  | .rminF32 u f => Sys2Proof.Machine.execRminF32 u f s
  | .rargmaxF32 u f => Sys2Proof.Machine.execRargmaxF32 u f s
  | .rsumI32 u f => Sys2Proof.Machine.execRsumI32 u f s
  | .rmcnt u f => Sys2Proof.Machine.execRmcnt u f s
  | .rmfirst u f => Sys2Proof.Machine.execRmfirst u f s
  | .rscale u f => Sys2Proof.Machine.execRscale u f s
  | .mma u f errs => Sys2Proof.Machine.execMma u f errs s
  | .mclr u f => Sys2Proof.Machine.execMclr u f s
  | .mld u f errs => Sys2Proof.Machine.execMld u f errs s
  | .mdrain u f => Sys2Proof.Machine.execMdrain u f s
  | .mdrainG u f => Sys2Proof.Machine.execMdrainG u f s
  | .witnessVerdict lcid slot pass => Sys2Proof.Machine.execWitnessVerdict lcid slot pass s
  | .faultReport u status st => Sys2Proof.Machine.execFaultReport u status st s
  | .haltArrive lcid st => Sys2Proof.Machine.execHaltArrive lcid st s
  | .stitchRetire u => Sys2Proof.Machine.execStitchRetire u s
  | .stitchTooLong u => Sys2Proof.Machine.execStitchTooLong u s
  | .loadReturn u id => Sys2Proof.Machine.execLoadReturn u id s
  | .loadWaitLimit u id => Sys2Proof.Machine.execLoadWaitLimit u id s
  | .racqWaitLimit u => Sys2Proof.Machine.execRacqWaitLimit u s
  | .soWaitLimit u => Sys2Proof.Machine.execSoWaitLimit u s
  | .soSignalArrive so amount sender => Sys2Proof.Machine.execSoSignalArrive so amount sender s
  | .vouchSend tile entry => Sys2Proof.Machine.execVouchSend tile entry s
  | .vouchArrive lcid tags ord st => Sys2Proof.Machine.execVouchArrive lcid tags ord st s
  | .confirmationArrive lcid tags blocks st => Sys2Proof.Machine.execConfirmationArrive lcid tags blocks st s
  | .retractionArrive lcid tags blocks st => Sys2Proof.Machine.execRetractionArrive lcid tags blocks st s
  | .vouchTimeout lcid tags => Sys2Proof.Machine.execVouchTimeout lcid tags s
  | .coreHang u => Sys2Proof.Machine.execCoreHang u s
  | .coreFailure tile pcore cause => Sys2Proof.Machine.execCoreFailure tile pcore cause s
  | .quarantineResult tile pcore pass => Sys2Proof.Machine.execQuarantineResult tile pcore pass s
  | .tlPcoreFence tile pcore value => Sys2Proof.Machine.execTlPcoreFence tile pcore value s
  | .tlWitInjArm tile value => Sys2Proof.Machine.execTlWitInjArm tile value s
  | .wellPatrol tile errs missed => Sys2Proof.Machine.execWellPatrol tile errs missed s
  | .gatherLineFlush lcid line errs => Sys2Proof.Machine.execGatherLineFlush lcid line errs s
  | .flitRetry tile => Sys2Proof.Machine.execFlitRetry tile s
  | .pumpDescriptorStart unit job errs => Sys2Proof.Machine.execPumpDescriptorStart unit job errs s
  | .pumpDescriptorEnd unit job status => Sys2Proof.Machine.execPumpDescriptorEnd unit job status s
  | .tensorBlockArrive d b => Sys2Proof.Machine.execTensorBlockArrive d b s
  | .resendRequest unit job bidx st => Sys2Proof.Machine.execResendRequest unit job bidx st s
  | .cisternRequest cn r errs => Sys2Proof.Machine.execCisternRequest cn r errs s
  | .cisternAmoadd cn src addr add st errs => Sys2Proof.Machine.execCisternAmoadd cn src addr add st errs s
  | .blockAdd cn d b errs => Sys2Proof.Machine.execBlockAdd cn d b errs s
  | .zeroFill ctx addr blocks => Sys2Proof.Machine.execZeroFill ctx addr blocks s
  | .cisternPatrol cn errs missed => Sys2Proof.Machine.execCisternPatrol cn errs missed s
  | .csChanRetire cn chan value => Sys2Proof.Machine.execCsChanRetire cn chan value s
  | .pprRepair cn => Sys2Proof.Machine.execPprRepair cn s
  | .pprQuery cn => Sys2Proof.Machine.execPprQuery cn s
  | .pprComplete cn deviceOk avail => Sys2Proof.Machine.execPprComplete cn deviceOk avail s
  | .entryAcceptance ring => Sys2Proof.Machine.execEntryAcceptance ring s
  | .bind ring seq => Sys2Proof.Machine.execBind ring seq s
  | .load ring seq => Sys2Proof.Machine.execLoad ring seq s
  | .step ring seq => Sys2Proof.Machine.execStep ring seq s
  | .xfer ring seq errs => Sys2Proof.Machine.execXfer ring seq errs s
  | .syncWait ring seq => Sys2Proof.Machine.execSyncWait ring seq s
  | .syncSignal ring seq => Sys2Proof.Machine.execSyncSignal ring seq s
  | .fnStart ring seq => Sys2Proof.Machine.execFnStart ring seq s
  | .fnStop ring seq => Sys2Proof.Machine.execFnStop ring seq s
  | .query ring seq => Sys2Proof.Machine.execQuery ring seq s
  | .generationDrainComplete ctx => Sys2Proof.Machine.execGenerationDrainComplete ctx s
  | .governorDecision ctx => Sys2Proof.Machine.execGovernorDecision ctx s
  | .layerUpdate ctx layer errs => Sys2Proof.Machine.execLayerUpdate ctx layer errs s
  | .stepCommit ctx => Sys2Proof.Machine.execStepCommit ctx s
  | .settle ctx layer => Sys2Proof.Machine.execSettle ctx layer s
  | .batchRelease ctx cause => Sys2Proof.Machine.execBatchRelease ctx cause s
  | .batchComplete ctx => Sys2Proof.Machine.execBatchComplete ctx s
  | .energyReport r => Sys2Proof.Machine.execEnergyReport r s
  | .mirrorImageComplete ctx => Sys2Proof.Machine.execMirrorImageComplete ctx s
  | .mirrorRestore ctx image => Sys2Proof.Machine.execMirrorRestore ctx image s
  | .mirrorDataFrame smod area part => Sys2Proof.Machine.execMirrorDataFrame smod area part s
  | .linkFrame port lack resendFrom => Sys2Proof.Machine.execLinkFrame port lack resendFrom s
  | .akgonFrameReceive port fr fec => Sys2Proof.Machine.execAkgonFrameReceive port fr fec s
  | .laneFail port lane => Sys2Proof.Machine.execLaneFail port lane s
  | .portFail port => Sys2Proof.Machine.execPortFail port s
  | .hello fr => Sys2Proof.Machine.execHello fr s
  | .cascadeStartTimeout => Sys2Proof.Machine.execCascadeStartTimeout s
  | .beatSend => Sys2Proof.Machine.execBeatSend s
  | .beat fr => Sys2Proof.Machine.execBeat fr s
  | .moduleLost module_ => Sys2Proof.Machine.execModuleLost module_ s
  | .deputyTakeover => Sys2Proof.Machine.execDeputyTakeover s
  | .takeover fr => Sys2Proof.Machine.execTakeover fr s
  | .cascadeSignal fr => Sys2Proof.Machine.execCascadeSignal fr s
  | .cascadeWaitRead fr => Sys2Proof.Machine.execCascadeWaitRead fr s
  | .cascadeAnswer fr => Sys2Proof.Machine.execCascadeAnswer fr s
  | .akgonVouch lcid fr => Sys2Proof.Machine.execAkgonVouch lcid fr s
  | .akgonConfirmation lcid fr => Sys2Proof.Machine.execAkgonConfirmation lcid fr s
  | .akgonRetraction lcid fr => Sys2Proof.Machine.execAkgonRetraction lcid fr s
  | .akgonResend fr => Sys2Proof.Machine.execAkgonResend fr s
  | .confirmationAck fr => Sys2Proof.Machine.execConfirmationAck fr s
  | .dropNotice fr => Sys2Proof.Machine.execDropNotice fr s
  | .akgonProvTimeout lcid tags smod port => Sys2Proof.Machine.execAkgonProvTimeout lcid tags smod port s
  | .windowData port fr lcid => Sys2Proof.Machine.execWindowData port fr lcid s
  | .exchangeData port fr gather => Sys2Proof.Machine.execExchangeData port fr gather s
  | .fdone fr => Sys2Proof.Machine.execFdone fr s
  | .turn fr => Sys2Proof.Machine.execTurn fr s
  | .loss fr => Sys2Proof.Machine.execLoss fr s
  | .restart fr => Sys2Proof.Machine.execRestart fr s
  | .xdone fr => Sys2Proof.Machine.execXdone fr s
  | .prepare fr => Sys2Proof.Machine.execPrepare fr s
  | .ready fr => Sys2Proof.Machine.execReady fr s
  | .commit fr => Sys2Proof.Machine.execCommit fr s
  | .crec fr => Sys2Proof.Machine.execCrec fr s
  | .ack fr => Sys2Proof.Machine.execAck fr s
  | .release fr => Sys2Proof.Machine.execRelease fr s
  | .rejoin fr => Sys2Proof.Machine.execRejoin fr s
  | .stragglerWindowExpiry => Sys2Proof.Machine.execStragglerWindowExpiry s
  | .rwinExpiry module_ => Sys2Proof.Machine.execRwinExpiry module_ s
  | .fnCtrlEn f => Sys2Proof.Machine.execFnCtrlEn f s
  | .fnCtrlDis f => Sys2Proof.Machine.execFnCtrlDis f s
  | .fnSetWrite f w value => Sys2Proof.Machine.execFnSetWrite f w value s
  | .functionStartComplete f => Sys2Proof.Machine.execFunctionStartComplete f s
  | .functionStartFail f status => Sys2Proof.Machine.execFunctionStartFail f status s
  | .functionStopComplete f => Sys2Proof.Machine.execFunctionStopComplete f s
  | .panelModeChange panel => Sys2Proof.Machine.execPanelModeChange panel s
  | .wellFailure tile pwell => Sys2Proof.Machine.execWellFailure tile pwell s
  | .tileFailure tile => Sys2Proof.Machine.execTileFailure tile s
  | .powerRegionFault region => Sys2Proof.Machine.execPowerRegionFault region s
  | .cisternFailure cn => Sys2Proof.Machine.execCisternFailure cn s
  | .carrierLinkFailure link => Sys2Proof.Machine.execCarrierLinkFailure link s
  | .hostCoreSwitch host => Sys2Proof.Machine.execHostCoreSwitch host s
  | .stalledBurst unit job => Sys2Proof.Machine.execStalledBurst unit job s
  | .stalledEvent => Sys2Proof.Machine.execStalledEvent s
  | .stallResume unit job => Sys2Proof.Machine.execStallResume unit job s
  | .tailLineInvalidate ring line host => Sys2Proof.Machine.execTailLineInvalidate ring line host s
  | .cxlLinkDown => Sys2Proof.Machine.execCxlLinkDown s
  | .cxlLinkUp => Sys2Proof.Machine.execCxlLinkUp s
  | .cxlReset => Sys2Proof.Machine.execCxlReset s
  | .stagingRead dpa len errs => Sys2Proof.Machine.execStagingRead dpa len errs s
  | .stagingWrite dpa data errs => Sys2Proof.Machine.execStagingWrite dpa data errs s
  | .mirrorRead line => Sys2Proof.Machine.execMirrorRead line s
  | .mirrorWrite offset => Sys2Proof.Machine.execMirrorWrite offset s
  | .birsp target => Sys2Proof.Machine.execBirsp target s
  | .hcCplConsWrite ring high value => Sys2Proof.Machine.execHcCplConsWrite ring high value s
  | .ringEnable ring value => Sys2Proof.Machine.execRingEnable ring value s
  | .ringDisable ring value => Sys2Proof.Machine.execRingDisable ring value s
  | .hcRingConfigWrite ring offset value => Sys2Proof.Machine.execHcRingConfigWrite ring offset value s
  | .mctpHealthRead => Sys2Proof.Machine.execMctpHealthRead s
  | .regionUndervoltage region => Sys2Proof.Machine.execRegionUndervoltage region s
  | .protectiveSlowEnter panel cause => Sys2Proof.Machine.execProtectiveSlowEnter panel cause s
  | .protectiveSlowExit panel => Sys2Proof.Machine.execProtectiveSlowExit panel s
  | .rimLoss => Sys2Proof.Machine.execRimLoss s
  | .standbyLoss => Sys2Proof.Machine.execStandbyLoss s
  | .standbyArrive => Sys2Proof.Machine.execStandbyArrive s
  | .rimReturn => Sys2Proof.Machine.execRimReturn s
  | .powerControllerSample watts rimWatts temps => Sys2Proof.Machine.execPowerControllerSample watts rimWatts temps s
  | .thermalTrip => Sys2Proof.Machine.execThermalTrip s
  | .cisternThrottle cn => Sys2Proof.Machine.execCisternThrottle cn s
  | .pllLockLoss tile pll => Sys2Proof.Machine.execPllLockLoss tile pll s
  | .clockGate tile => Sys2Proof.Machine.execClockGate tile s
  | .pllOff tile => Sys2Proof.Machine.execPllOff tile s
  | .powerOff tile => Sys2Proof.Machine.execPowerOff tile s
  | .wake tile => Sys2Proof.Machine.execWake tile s
  | .whBringCmdWrite value => Sys2Proof.Machine.execWhBringCmdWrite value s
  | .alwaysOnSelfTest ok => Sys2Proof.Machine.execAlwaysOnSelfTest ok s
  | .firmwareStart startsA startsB => Sys2Proof.Machine.execFirmwareStart startsA startsB s
  | .regionPowerUp regions hottest => Sys2Proof.Machine.execRegionPowerUp regions hottest s
  | .linkTraining linksDown portLanes => Sys2Proof.Machine.execLinkTraining linksDown portLanes s
  | .lpddrTraining failed unrepaired => Sys2Proof.Machine.execLpddrTraining failed unrepaired s
  | .defectMap => Sys2Proof.Machine.execDefectMap s
  | .knownAnswerRun fails => Sys2Proof.Machine.execKnownAnswerRun fails s
  | .journalReplay unreadable => Sys2Proof.Machine.execJournalReplay unreadable s
  | .warmResetRequest => Sys2Proof.Machine.execWarmResetRequest s
  | .coldResetRequest warmAlso => Sys2Proof.Machine.execColdResetRequest warmAlso s
  | .firmwareResetRequest => Sys2Proof.Machine.execFirmwareResetRequest s
  | .dump => Sys2Proof.Machine.execDump s
  | .warmReset => Sys2Proof.Machine.execWarmReset s
  | .coldReset => Sys2Proof.Machine.execColdReset s
  | .heartbeat => Sys2Proof.Machine.execHeartbeat s
  | .watchdogCheck => Sys2Proof.Machine.execWatchdogCheck s
  | .dumpCopy value => Sys2Proof.Machine.execDumpCopy value s
  | .dumpCopyComplete => Sys2Proof.Machine.execDumpCopyComplete s
  | .dumpRelease value => Sys2Proof.Machine.execDumpRelease value s
  | .fwApply value => Sys2Proof.Machine.execFwApply value s
  | .fwApplyComplete => Sys2Proof.Machine.execFwApplyComplete s
  | .fwCommit value => Sys2Proof.Machine.execFwCommit value s
  | .fwMboxPush value => Sys2Proof.Machine.execFwMboxPush value s
  | .mctpFirmwareChunk data last => Sys2Proof.Machine.execMctpFirmwareChunk data last s
  | .mailboxIdleTimeout => Sys2Proof.Machine.execMailboxIdleTimeout s
  | .fwAttGo value => Sys2Proof.Machine.execFwAttGo value s
  | .mctpAttestation nonce => Sys2Proof.Machine.execMctpAttestation nonce s
  | .registerWrite offset size value => Sys2Proof.Machine.execRegisterWrite offset size value s
  | .standbyReturn => Sys2Proof.Machine.execStandbyReturn s
  | .registerPairRead access => Sys2Proof.Machine.execRegisterPairRead access s
  | .tapInstruction ir data => Sys2Proof.Machine.execTapInstruction ir data s
  | .mctpControlMessage data => Sys2Proof.Machine.execMctpControlMessage data s
  | .pllRelock tile pll => Sys2Proof.Machine.execPllRelock tile pll s
  | .cisternThrottleRelease cn => Sys2Proof.Machine.execCisternThrottleRelease cn s
  | .protectiveCauseClear panel cause => Sys2Proof.Machine.execProtectiveCauseClear panel cause s

end Sys2Proof.Machine
end

