-- ==== Sys2Proof/WellFormed.lean ====
section
/-! DEFINITION. Which commands a sender can form: numbers of units, registers and lines inside the ranges that the spec
gives them (R11, R57, R173, R203, R288). A meaning is total all the same: a command outside these ranges changes nothing. -/

namespace Sys2Proof

/-- R57: 16,384 logical cores of three slots. -/
def streamOk (u : StreamId) : Bool := u.lcid < 16384 && u.slot < 3

/-- R173: the fields of the four tags. -/
def tagsOk (t : Tags) : Bool := t.lcid < 16384 && t.slot < 3 && t.seq < 2 ^ 64 && t.replay < 2 ^ 32

/-- R203, Table 8.7: the fields of a block fit their places. -/
def blockOk (b : Block) : Bool :=
  b.fmt < 256 && b.nblk ≤ 240 && b.vbytes ≤ 4096 && b.gen < 2 ^ 16 && b.ctx < 64 && b.pslot < 4 && b.plcid < 2 ^ 32 &&
  b.preplay < 2 ^ 32 && b.pseq < 2 ^ 64 && b.bidx < 2 ^ 64 && b.wgen < 2 ^ 16 && b.pord < 2 ^ 32 && b.payload.length ≤ 4096

/-- R218: a request lies in the engine address space. -/
def memReqOk : MemReq → Bool
  | .load u _ _ => streamOk u
  | .store src ps _ => src < 16384 && ps.all fun p => p.1 + p.2.length ≤ 2 ^ 64
  | .block d b => d.unit < 88 && blockOk b

/-- R288, Table 12.2: module numbers below 1,024, 0xFFFF for link and beat frames, and types 0 to 6. -/
def frameOk (fr : Frame) : Bool := (fr.dmod < 1024 || fr.dmod == 0xFFFF) && fr.smod < 1024 && fr.ty < 7 && fr.hops ≤ 4 && fr.cgen < 2 ^ 16 &&
  fr.lseq < 2 ^ 32 && fr.lack < 2 ^ 32 && fr.dseq < 2 ^ 32 && fr.term < 2 ^ 16 && fr.win < 256 && fr.wblk < 2 ^ 32

/-- R184, Table 18.4: links of the two planes, of the well-head edges, of the seam and of the stacks. -/
def linkOk : CarrierLink → Bool
  | .mesh plane x y dir => plane < 2 && x < 128 && y < 128 && dir < 4
  | .edge plane cn link => plane < 2 && cn < 24 && link < 20
  | .wellHead cn => cn < 24
  | .seam plane y _ => plane < 2 && y < 128
  | .stack n c => n < 96 && c < 4

/-- A place at the mesh. -/
def siteOk : Site → Bool
  | .core l => l < 16384
  | .unit k => k < 88
  | .head => true

/-- R404: a tile or a region. -/
def causeOk : SlowCause → Bool
  | .temp tile => tile < 64
  | .volt region => region < 16

/-- Table 17.4: a unit of the module. -/
def katOk : KatUnit → Bool
  | .core tile pcore => tile < 64 && pcore < 264
  | .well tile pwell => tile < 64 && pwell < 264
  | .cistern cn => cn < 24
  | .port n => n < 64

/-- A command whose operands lie in their ranges. -/
def Instr.wf : Instr → Bool
  | .nop u _ | .add u _ | .sub u _ | .and u _ | .or u _ | .xor u _ | .shl u _ | .shr u _ | .sra u _
  | .slt u _ | .sltu u _ | .min u _ | .max u _ | .minu u _ | .maxu u _ | .mul u _ | .mulh u _ | .mulhu u _
  | .div u _ | .divu u _ | .rem u _ | .remu u _ | .movhi u _ | .pop u _ | .clz u _ | .brCond u _ | .jal u _
  | .jalr u _ | .loop u _ | .loopVl u _ | .done u _ | .amoadd u _ | .fence u _ | .racqW u _ | .racqR u _
  | .rrelW u _ | .rrelR u _ | .sow u _ | .sos u _ | .sord u _ | .sowC u _ | .sosC u _ | .sordC u _
  | .ppost u _ | .stitch u _ | .cget u _ | .cset u _ | .bnar u _ | .bget u _ | .vaddF32 u _ | .vsubF32 u _
  | .vmulF32 u _ | .vfmaF32 u _ | .vminF32 u _ | .vmaxF32 u _ | .vabs u _ | .vneg u _ | .vcsgn u _
  | .vcmpF32 u _ | .vaddI32 u _ | .vsubI32 u _ | .vmulI32 u _ | .vand u _ | .vor u _ | .vxor u _
  | .vandn u _ | .vshl u _ | .vshr u _ | .vsra u _ | .vcmpI32 u _ | .vminI32 u _ | .vmaxI32 u _
  | .vminu u _ | .vmaxu u _ | .vsel u _ | .vbcast u _ | .vext u _ | .vins u _ | .vperm u _ | .vshuf u _
  | .vcompress u _ | .vexpand u _ | .vcvt u _ | .vquant u _ | .pand u _ | .por u _ | .pxor u _ | .pandn u _
  | .pmov u _ | .setvl u _ | .vfn u _ | .rsumF32 u _ | .rmaxF32 u _ | .rminF32 u _ | .rargmaxF32 u _
  | .rsumI32 u _ | .rmcnt u _ | .rmfirst u _ | .rscale u _ | .mclr u _ => streamOk u
  | .ld u _ _ | .st u _ _ | .vld u _ _ | .vst u _ _ | .vgather u _ _ | .vscatter u _ _ | .mma u _ _
  | .mld u _ _ | .mdrain u _ | .mdrainG u _ => streamOk u
  | .witnessVerdict lcid slot _ => streamOk ⟨lcid, slot⟩
  | .faultReport u status _ => streamOk u && status < 2 ^ 16
  | .haltArrive lcid _ => lcid < 16384
  | .stitchRetire u | .stitchTooLong u | .racqWaitLimit u | .soWaitLimit u | .coreHang u => streamOk u
  | .loadReturn u _ | .loadWaitLimit u _ => streamOk u
  | .soSignalArrive so _ sender => siteOk sender.site && so < 65536
  | .vouchSend tile _ => tile < 64
  | .vouchArrive lcid tags _ _ => lcid < 16384 && tagsOk tags
  | .confirmationArrive lcid tags _ _ | .retractionArrive lcid tags _ _ => lcid < 16384 && tagsOk tags
  | .vouchTimeout lcid tags => lcid < 16384 && tagsOk tags
  | .coreFailure tile pcore cause => tile < 64 && pcore < 264 && 1 ≤ cause && cause ≤ 5
  | .quarantineResult tile pcore _ => tile < 64 && pcore < 264
  | .tlPcoreFence tile pcore _ => tile < 64 && pcore < 264
  | .tlWitInjArm tile _ => tile < 64
  | .wellPatrol tile _ _ => tile < 64
  | .gatherLineFlush lcid line _ => lcid < 16384 && line < 65536
  | .flitRetry tile | .tileFailure tile | .clockGate tile | .pllOff tile | .powerOff tile | .wake tile => tile < 64
  | .pumpDescriptorStart unit _ _ => unit < 88
  | .pumpDescriptorEnd unit _ status => unit < 88 && status < 2 ^ 16
  | .tensorBlockArrive d b => d.unit < 88 && blockOk b
  | .resendRequest unit _ _ _ => unit < 88
  | .cisternRequest cn r _ => cn < 24 && memReqOk r
  | .cisternAmoadd cn src addr w _ _ => cn < 24 && src < 16384 && addr % (if w.ty == .int64 then 8 else 4) == 0
  | .blockAdd cn d b _ => cn < 24 && d.unit < 88 && blockOk b
  | .zeroFill ctx addr _ => ctx < 64 && addr < 2 ^ 64
  | .cisternPatrol cn _ _ => cn < 24
  | .csChanRetire cn chan _ => cn < 24 && chan < 16
  | .pprRepair cn | .pprQuery cn | .cisternFailure cn | .cisternThrottle cn | .cisternThrottleRelease cn => cn < 24
  | .pprComplete cn _ _ => cn < 24
  | .entryAcceptance ring => ring.arg < 64
  | .load ring seq => ring < 64 && seq.arg < 2 ^ 64
  | .bind ring seq | .step ring seq | .syncWait ring seq | .syncSignal ring seq
  | .fnStart ring seq | .fnStop ring seq | .query ring seq => ring < 64 && seq < 2 ^ 64
  | .xfer ring seq _ => ring < 64 && seq < 2 ^ 64
  | .governorDecision ctx => ctx.arg < 64
  | .generationDrainComplete ctx | .stepCommit ctx | .batchComplete ctx
  | .mirrorImageComplete ctx => ctx < 64
  | .layerUpdate ctx layer _ => ctx < 64 && 1 ≤ layer && layer ≤ 4096
  | .settle ctx layer => ctx < 64 && 1 ≤ layer.arg && layer.arg ≤ 4096
  | .batchRelease ctx _ => ctx < 64
  | .energyReport r => r.regions.length == 16 && r.moved.all fun e => e.1 < 64
  | .mirrorRestore ctx _ => ctx < 64
  | .mirrorDataFrame smod _ _ => smod < 1024
  | .linkFrame port lack resendFrom =>
    port < 64 && lack < 2 ^ 32 && (match resendFrom with | some n => decide (n < 2 ^ 32) | none => true)
  | .akgonFrameReceive port fr _ => port < 64 && frameOk fr
  | .laneFail port lane => port < 64 && lane < 9
  | .portFail port => port < 64
  | .hello fr | .beat fr | .takeover fr | .cascadeSignal fr | .cascadeWaitRead fr | .cascadeAnswer fr
  | .akgonResend fr | .confirmationAck fr | .dropNotice fr | .fdone fr | .turn fr | .loss fr | .restart fr
  | .xdone fr | .prepare fr | .ready fr | .commit fr | .crec fr | .ack fr | .release fr | .rejoin fr => frameOk fr
  | .cascadeStartTimeout | .beatSend | .deputyTakeover | .stragglerWindowExpiry | .stalledEvent
  | .cxlLinkDown | .cxlLinkUp | .cxlReset | .mctpHealthRead | .rimLoss | .standbyLoss | .standbyArrive
  | .rimReturn | .thermalTrip | .defectMap | .warmResetRequest | .firmwareResetRequest | .dump | .warmReset
  | .coldReset | .heartbeat | .watchdogCheck | .dumpCopyComplete | .fwApplyComplete | .mailboxIdleTimeout
  | .standbyReturn => true
  | .moduleLost m | .rwinExpiry m => m < 1024
  | .akgonVouch lcid fr | .akgonConfirmation lcid fr | .akgonRetraction lcid fr => lcid < 16384 && frameOk fr
  | .akgonProvTimeout lcid tags smod port => lcid < 16384 && tagsOk tags && smod < 1024 && port < 64
  | .windowData _ fr lcid => frameOk fr && lcid < 16384
  | .exchangeData port fr _ => port < 64 && frameOk fr
  | .fnCtrlEn f | .fnCtrlDis f | .functionStartComplete f | .functionStopComplete f => f < 256
  | .fnSetWrite f w _ => f < 256 && w < 64
  | .functionStartFail f status => f < 256 && status < 2 ^ 16
  | .panelModeChange panel | .protectiveSlowExit panel => panel < 2
  | .wellFailure tile pwell => tile < 64 && pwell < 264
  | .powerRegionFault region | .regionUndervoltage region => region < 16
  | .carrierLinkFailure link => linkOk link
  | .hostCoreSwitch host => host < 16384
  | .stalledBurst unit _ | .stallResume unit _ => unit < 88
  | .tailLineInvalidate ring line _ => ring < 64 && line.length == 64
  | .stagingRead dpa len _ => dpa % 64 + len ≤ 64
  | .stagingWrite dpa data _ => dpa % 64 + data.length ≤ 64
  | .mirrorRead line => line < 1024
  | .mirrorWrite offset => offset < 0x10000
  | .registerPairRead access =>
    access.offset < 0x4000000 && (access.size == 1 || access.size == 2 || access.size == 4 || access.size == 8)
  | .birsp target => match target with | .mirror k => decide (k < 1024) | .staging _ => true
  | .hcCplConsWrite ring _ _ => ring < 64
  | .ringEnable ring _ | .ringDisable ring _ => ring < 64
  | .hcRingConfigWrite ring offset _ => ring < 64 && offset % 4 == 0 && offset < 0x30
  | .protectiveSlowEnter panel cause | .protectiveCauseClear panel cause => panel < 2 && causeOk cause
  | .powerControllerSample watts _ _ => watts.length == 16
  | .pllLockLoss tile _ | .pllRelock tile _ => tile < 64
  | .whBringCmdWrite _ | .dumpCopy _ | .dumpRelease _ | .fwApply _ | .fwCommit _ | .fwMboxPush _
  | .fwAttGo _ => true
  | .alwaysOnSelfTest _ => true
  | .firmwareStart _ _ => true
  | .regionPowerUp regions _ => regions.length == 16
  | .linkTraining links lanes => links.all linkOk && lanes.all fun p => p.port < 64 && p.failing.all (· < 9)
  | .lpddrTraining failed unrepaired => failed.all (· < 384) && unrepaired.all (· < 384)
  | .knownAnswerRun fails => fails.all katOk
  | .journalReplay _ => true
  | .coldResetRequest _ => true
  | .mctpFirmwareChunk data _ => data.length ≤ 4096
  | .mctpAttestation nonce => nonce.length == 32
  | .registerWrite offset size _ => offset < 0x4000000 && (size == 1 || size == 2 || size == 4 || size == 8)
  | .tapInstruction _ _ => true
  | .mctpControlMessage _ => true

end Sys2Proof
end

