-- ==== Sys2Proof/Safety.lean ====
section
/-! DEFINITION. The terms that claims are stated in: when a stream slot issues an instruction, the state after one, and
the agreement of two states outside a slot. -/

namespace Sys2Proof.Machine

/-- R58, R60, R78, R89, R90, R92, R408: slot `u` issues an instruction with these fields. The slot is bound and running on a
tile that runs, its pc lies in code at a word whose opcode a core stream may hold, the mask field allows the instruction, and no
load still writes a register that it names. -/
def issues (u : StreamId) (mu : MaskUse) (f : Fields) (refs : List RegRef) (s : State) : Bool :=
  canIssue s u && inCode (slotOf s u).arch (slotOf s u).arch.pc &&
  streamOpcode (wordOp (codeWord s (slotOf s u).arch (slotOf s u).arch.pc)) &&
  !(mu == .needP0 && f.mask != 0) && !(mu == .lane0 && !(((slotOf s u).arch.pget f.mask).getLsbD 0)) &&
  !(refs.any (loadPending (slotOf s u)))

/-- The register image of a slot. -/
def archOf (s : State) (u : StreamId) : Arch := (slotOf s u).arch

/-- The state after slot `u` has completed an instruction that leaves the register image `a`: the pc moves past it, and
nothing else changes. -/
def ran (s : State) (u : StreamId) (a : Arch) : State := putSlot s u { slotOf s u with wait := none, arch := a.advance }

/-- The state after slot `u` has completed an instruction that placed the pc itself. -/
def jumped (s : State) (u : StreamId) (a : Arch) : State := putSlot s u { slotOf s u with wait := none, arch := a }

/-- R78, R79: the state after a program fault of slot `u`. -/
def faulted (s : State) (u : StreamId) (status : Nat) : State := raiseFault s u status

/-- R144: a vector instruction leaves v[d] with these lanes where they are active and its old lanes elsewhere. -/
def lanesBecome (a : Arch) (f : Fields) (g : Nat → W32) : Arch :=
  a.vput f.dst (Vector.ofFn fun i => if laneOn a f.mask i then g i else (a.vget f.dst)[i])

/-- R148: the flags that the active lanes raise. -/
def laneFlags (a : Arch) (f : Fields) (g : Nat → FFlags) : FFlags := orFlags ((activeLanes a f.mask).map g)

/-- Two states that agree in everything but the cores. -/
def sameButCores (s t : State) : Prop := t = { s with cores := t.cores }

end Sys2Proof.Machine
end

