-- ==== Sys2Proof/Certificates/Slice0/Obligations.lean ====
section
/-! DEFINITION. The statements for the provers. -/

open Sys2Proof Sys2Proof.Machine

/-! ## The block as a whole -/

/-- Step of a state with command `c` at the front of its queue is `exec` of `c` on the state with the rest of the queue, and
an empty queue lets one nominal core cycle pass (the model's choice, log 1), which changes no register unless bring-up is under way. -/
def Obligations.StepTakesFrontCommand : Prop :=
  (∀ (c : Instr) (rest : List Instr) (s : State), s.pending = c :: rest → step s = exec c { s with pending := rest }) ∧
  ∀ s : State, s.pending = [] → step s = .next (idleTick s) ∧ (idleTick s).now = s.now + 1 ∧ (idleTick s).mem = s.mem ∧
    (rfld s 0x108 4 1 = 0 → 2 ≤ rfld s 0x108 0 4 → (idleTick s).regs = s.regs)

/-! ## Scalar instructions -/

/-- R96, Table 4.5: `add` to `mulhu`. A is s[src1], B is s[src2] + sext(imm); the result goes to s[dst], the pc moves past the
instruction and nothing else changes. -/
def Obligations.ScalarArithmeticResult : Prop :=
  ∀ (u : StreamId) (f : Fields) (s : State),
    issues u .lane0 f [.s f.src1, .s f.src2, .s f.dst] s = true → f.mod = 0 →
    let a := archOf s u
    let x := a.sget f.src1
    let y := a.sget f.src2 + f.imm.signExtend 64
    exec (.add u f) s = .next (ran s u (a.sput f.dst (x + y))) ∧
    exec (.sub u f) s = .next (ran s u (a.sput f.dst (x - y))) ∧
    exec (.and u f) s = .next (ran s u (a.sput f.dst (x &&& y))) ∧
    exec (.or u f) s = .next (ran s u (a.sput f.dst (x ||| y))) ∧
    exec (.xor u f) s = .next (ran s u (a.sput f.dst (x ^^^ y))) ∧
    exec (.shl u f) s = .next (ran s u (a.sput f.dst (x <<< (y.toNat % 64)))) ∧
    exec (.shr u f) s = .next (ran s u (a.sput f.dst (x >>> (y.toNat % 64)))) ∧
    exec (.sra u f) s = .next (ran s u (a.sput f.dst (x.sshiftRight (y.toNat % 64)))) ∧
    exec (.slt u f) s = .next (ran s u (a.sput f.dst (if x.toInt < y.toInt then 1 else 0))) ∧
    exec (.sltu u f) s = .next (ran s u (a.sput f.dst (if x.toNat < y.toNat then 1 else 0))) ∧
    exec (.min u f) s = .next (ran s u (a.sput f.dst (BitVec.ofInt 64 (Min.min x.toInt y.toInt)))) ∧
    exec (.max u f) s = .next (ran s u (a.sput f.dst (BitVec.ofInt 64 (Max.max x.toInt y.toInt)))) ∧
    exec (.minu u f) s = .next (ran s u (a.sput f.dst (BitVec.ofNat 64 (Min.min x.toNat y.toNat)))) ∧
    exec (.maxu u f) s = .next (ran s u (a.sput f.dst (BitVec.ofNat 64 (Max.max x.toNat y.toNat)))) ∧
    exec (.mul u f) s = .next (ran s u (a.sput f.dst (x * y))) ∧
    exec (.mulh u f) s = .next (ran s u (a.sput f.dst (BitVec.ofInt 64 (x.toInt * y.toInt / 2 ^ 64)))) ∧
    exec (.mulhu u f) s = .next (ran s u (a.sput f.dst (BitVec.ofNat 64 (x.toNat * y.toNat / 2 ^ 64))))

/-- R97: The four divisions. A zero divisor gives a quotient of all ones, a remainder equal to A, and sets c.sstat.dz (bit 0);
a signed division of −2^63 by −1 gives −2^63 with remainder 0 and sets nothing.
R89, R96, Table 4.5: `nop`, and the instructions of one operand: `movhi` replaces the upper half of A by imm, `pop` counts
its 1 bits, `clz` counts its leading zero bits. -/
def Obligations.ScalarDivisionAndUnary : Prop :=
  (∀ (u : StreamId) (f : Fields) (s : State),
    issues u .lane0 f [.s f.src1, .s f.src2, .s f.dst] s = true → f.mod = 0 →
    let a := archOf s u
    let x := a.sget f.src1
    let y := a.sget f.src2 + f.imm.signExtend 64
    (y = 0 →
      exec (.div u f) s = .next (ran s u { a.sput f.dst (BitVec.allOnes 64) with sstat := a.sstat ||| 1 }) ∧
      exec (.divu u f) s = .next (ran s u { a.sput f.dst (BitVec.allOnes 64) with sstat := a.sstat ||| 1 }) ∧
      exec (.rem u f) s = .next (ran s u { a.sput f.dst x with sstat := a.sstat ||| 1 }) ∧
      exec (.remu u f) s = .next (ran s u { a.sput f.dst x with sstat := a.sstat ||| 1 })) ∧
    (y ≠ 0 →
      exec (.div u f) s = .next (ran s u (a.sput f.dst (BitVec.ofInt 64 (x.toInt.tdiv y.toInt)))) ∧
      exec (.divu u f) s = .next (ran s u (a.sput f.dst (BitVec.ofNat 64 (x.toNat / y.toNat)))) ∧
      exec (.rem u f) s = .next (ran s u (a.sput f.dst (BitVec.ofInt 64 (x.toInt.tmod y.toInt)))) ∧
      exec (.remu u f) s = .next (ran s u (a.sput f.dst (BitVec.ofNat 64 (x.toNat % y.toNat))))) ∧
    (x = BitVec.ofInt 64 (-2 ^ 63) → y = BitVec.allOnes 64 →
      exec (.div u f) s = .next (ran s u (a.sput f.dst x)) ∧ exec (.rem u f) s = .next (ran s u (a.sput f.dst 0)))) ∧
  (∀ (u : StreamId) (f : Fields) (s : State),
    (issues u .lanes {} [] s = true → exec (.nop u {}) s = .next (ran s u (archOf s u))) ∧
    (issues u .lane0 f [.s f.src1, .s f.dst] s = true → f.mod = 0 → f.src2 = 0 →
      let a := archOf s u
      let x := a.sget f.src1
      exec (.movhi u f) s = .next (ran s u (a.sput f.dst (f.imm ++ x.extractLsb' 0 32))) ∧
      (f.imm = 0 →
        exec (.pop u f) s = .next (ran s u (a.sput f.dst
          (BitVec.ofNat 64 (((List.range 64).filter fun i => x.getLsbD i).length)))) ∧
        exec (.clz u f) s = .next (ran s u (a.sput f.dst
          (BitVec.ofNat 64 (((List.range 64).takeWhile fun i => !(x.getLsbD (63 - i))).length)))))))

/-- R89, R96: A reserved field of a scalar instruction that is not zero stops the slot with 0x2002, lane 0 of the mask off
leaves nothing but the pc's advance, and a word at the pc with an opcode that no core stream may hold raises 0x2001. -/
def Obligations.ScalarReservedAndMasked : Prop :=
  ∀ (u : StreamId) (f : Fields) (s : State), ∀ c ∈ ([.add u f, .sub u f, .and u f, .or u f, .xor u f, .shl u f, .shr u f,
      .sra u f, .slt u f, .sltu u f, .min u f, .max u f, .minu u f, .maxu u f, .mul u f, .mulh u f, .mulhu u f, .div u f,
      .divu u f, .rem u f, .remu u f] : List Instr),
    (issues u .lane0 f [.s f.src1, .s f.src2, .s f.dst] s = true → f.mod ≠ 0 → exec c s = .next (faulted s u 0x2002)) ∧
    (canIssue s u = true → inCode (archOf s u) (archOf s u).pc = true →
      (streamOpcode (wordOp (codeWord s (archOf s u) (archOf s u).pc)) = true → ((archOf s u).pget f.mask).getLsbD 0 = false →
        exec c s = .next (ran s u (archOf s u))) ∧
      (streamOpcode (wordOp (codeWord s (archOf s u) (archOf s u).pc)) = false → exec c s = .next (faulted s u 0x2001)))

/-- R91, R142: s0 reads as zero and p0 as all ones, writes to them are discarded, and a write to another scalar, mask or vector
register reads back and leaves the other registers of its kind alone. -/
def Obligations.HardWiredRegisters : Prop :=
  ∀ (a : Arch), (∀ v, a.sget 0 = 0 ∧ a.sput 0 v = a) ∧ (∀ v, a.pget 0 = BitVec.allOnes 32 ∧ a.pput 0 v = a) ∧
    (∀ r q v, r ≠ 0 → (a.sput r v).sget r = v ∧ (q ≠ r → (a.sput r v).sget q = a.sget q)) ∧
    (∀ r q v, r ≠ 0 → (a.pput r v).pget r = v ∧ (q ≠ r → (a.pput r v).pget q = a.pget q)) ∧
    (∀ r q x, (a.vput r x).vget r = x ∧ (q ≠ r → (a.vput r x).vget q = a.vget q))

/-- The frame of every instruction whose statement answers `ran` or `jumped`: of the whole state only slot `u` changes, in its
wait and its register image, and of the image beside the named result only the pc, the loops and (under `loop.vl`) VL. -/
def Obligations.RegisterInstructionFrame : Prop :=
  ∀ (u : StreamId) (s : State) (a : Arch), u.slot < 3 → ∀ t ∈ [ran s u a, jumped s u a],
    sameButCores s t ∧ (∀ l, l ≠ u.lcid → coreOf t l = coreOf s l) ∧ (∀ w, w ≠ u → slotOf t w = slotOf s w) ∧
    (∀ l, coreOf t l = { coreOf s l with slots := (coreOf t l).slots }) ∧
    (∀ addr, byteAt t addr = byteAt s addr) ∧
    slotOf t u = { slotOf s u with wait := none, arch := (slotOf t u).arch } ∧
    (slotOf t u).arch = { a with pc := (slotOf t u).arch.pc, loops := (slotOf t u).arch.loops, vl := (slotOf t u).arch.vl } ∧
    (a.loops = [] → slotOf (ran s u a) u = { slotOf s u with wait := none, arch := { a with pc := a.pc + 8 } })

/-- R88 to R90, R161, Tables 4.1, 4.2, 5.8 and 6.7: the words of core streams. The fields lie where Table 4.1 places them; a word
spells a row exactly where its opcode is one that a core stream may hold; the word of the worked example is its load. -/
def Obligations.StreamWords : Prop :=
  (∀ (op : Nat) (f : Fields), op < 256 →
    let w := op * 2 ^ 56 + f.dst.toNat * 2 ^ 51 + f.src1.toNat * 2 ^ 46 + f.src2.toNat * 2 ^ 41 + f.mask.toNat * 2 ^ 38 +
      f.mod.toNat * 2 ^ 32 + f.imm.toNat
    wordOp w = op ∧ wordFields w = f ∧ ∀ u errs, (streamWord u w errs).isSome = streamOpcode op) ∧
  (∀ (u : StreamId) (errs : List SymErr), streamWord u 0x3052400D00000040 errs =
    some (.ld u { dst := 10, src1 := 9, src2 := 0, mask := 0, mod := 0x0D, imm := 0x40 } errs)) ∧
  ∀ (u : StreamId) (f : Fields) (s : State), canIssue s u = true → inCode (slotOf s u).arch (slotOf s u).arch.pc = true →
    streamOpcode (wordOp (codeWord s (slotOf s u).arch (slotOf s u).arch.pc)) = false →
    exec (.add u f) s = .next (faulted s u 0x2001)

/-- R98, Table 4.6: `br.cond`, `jal` and `jalr`. A relative target is pc + 8 × sext(imm); a taken branch outside b0 raises
0x2003 and a misaligned `jalr` target 0x2004; a reserved condition raises 0x2002. -/
def Obligations.BranchAndJump : Prop :=
  ∀ (u : StreamId) (f : Fields) (s : State),
    let a := archOf s u
    let x := a.sget f.src1
    let y := a.sget f.src2
    let t := a.pc + f.imm.signExtend 64 * 8
    let there (t : W64) (b : Arch) : Arch :=
      { b with pc := t, loops := a.loops.filter fun l => l.first ≤ t && t < l.stop }
    (issues u .lane0 f [.s f.src1, .s f.src2] s = true → f.dst = 0 →
      ∀ taken : Prop, (f.mod = 0 ∧ (taken ↔ x = y)) ∨ (f.mod = 1 ∧ (taken ↔ x ≠ y)) ∨
          (f.mod = 2 ∧ (taken ↔ x.toInt < y.toInt)) ∨ (f.mod = 3 ∧ (taken ↔ y.toInt ≤ x.toInt)) ∨
          (f.mod = 4 ∧ (taken ↔ x.toNat < y.toNat)) ∨ (f.mod = 5 ∧ (taken ↔ y.toNat ≤ x.toNat)) →
        (¬ taken → exec (.brCond u f) s = .next (ran s u a)) ∧
        (taken → inCode a t = true → exec (.brCond u f) s = .next (jumped s u (there t a))) ∧
        (taken → inCode a t = false → exec (.brCond u f) s = .next (faulted s u 0x2003))) ∧
    (issues u .lane0 f [.s f.src1, .s f.src2] s = true → 6 ≤ f.mod.toNat →
      exec (.brCond u f) s = .next (faulted s u 0x2002)) ∧
    (issues u .lane0 f [.s f.dst] s = true → f.src1 = 0 → f.src2 = 0 → f.mod = 0 →
      (inCode a t = true → exec (.jal u f) s = .next (jumped s u (there t (a.sput f.dst (a.pc + 8))))) ∧
      (inCode a t = false → exec (.jal u f) s = .next (faulted s u 0x2003))) ∧
    (issues u .lane0 f [.s f.src1, .s f.dst] s = true → f.src2 = 0 → f.mod = 0 →
      let r := x + f.imm.signExtend 64
      (inCode a r = false → exec (.jalr u f) s = .next (faulted s u 0x2003)) ∧
      (inCode a r = true → r.toNat % 8 ≠ 0 → exec (.jalr u f) s = .next (faulted s u 0x2004)) ∧
      (inCode a r = true → r.toNat % 8 = 0 →
        exec (.jalr u f) s = .next (jumped s u (there r (a.sput f.dst (a.pc + 8))))))

/-- R99: `loop` and `loop.vl`. The body of imm instructions runs s[src1] times, or for s[src1] elements 32 at a time; a count
of zero passes the body.
R99: An iteration of the innermost loop ends: with iterations left the pc returns to the first instruction, else the
loop ends and the pc goes on. -/
def Obligations.Loops : Prop :=
  (∀ (u : StreamId) (f : Fields) (s : State), issues u .needP0 f [.s f.src1] s = true → f.dst = 0 → f.src2 = 0 →
    let a := archOf s u
    let n := f.imm.toNat
    let cnt := a.sget f.src1
    let stop := a.pc + BitVec.ofNat 64 (8 * (n + 1))
    1 ≤ n → n ≤ 4096 → a.loops.length < 2 → a.pc.toNat + 8 * (n + 1) ≤ (a.bget 0).len.toNat →
    (f.mod = 0 →
      (cnt ≠ 0 → exec (.loop u f) s =
        .next (jumped s u { a with pc := a.pc + 8, loops := ⟨a.pc + 8, stop, cnt, none⟩ :: a.loops })) ∧
      (cnt = 0 → a.loops = [] → exec (.loop u f) s = .next (jumped s u { a with pc := stop }))) ∧
    (f.mod = 1 →
      (cnt ≠ 0 → exec (.loopVl u f) s =
        .next (jumped s u { a with pc := a.pc + 8, vl := Min.min 32 cnt.toNat,
                                   loops := ⟨a.pc + 8, stop, BitVec.ofNat 64 ((cnt.toNat + 31) / 32), some cnt⟩ :: a.loops })) ∧
      (cnt = 0 → a.loops = [] → exec (.loopVl u f) s = .next (jumped s u { a with pc := stop })))) ∧
  (∀ (a : Arch) (l : LoopRec) (r : List LoopRec), a.loops = l :: r → l.elems = none →
    (a.pc + 8 ≠ l.stop → a.advance = { a with pc := a.pc + 8 }) ∧
    (a.pc + 8 = l.stop → 1 < l.left.toNat →
      a.advance = { a with pc := l.first, loops := { l with left := l.left - 1 } :: r }) ∧
    (a.pc + 8 = l.stop → l.left.toNat ≤ 1 → r = [] → a.advance = { a with pc := a.pc + 8, loops := [] }))

/-- R72, R94, R100, R112, R242: `stitch` and `done` close the OPEN stitch with a snapshot taken past the instruction, and the next
stitch opens with the next sequence number and, in a training step, with a c.mb of the step's order; `done` ends the loops and the
slot's part. With a CLOSED stitch or a load outstanding they wait. -/
def Obligations.StitchAndDoneClose : Prop :=
  ∀ (u : StreamId) (s : State), issues u .needP0 {} [] s = true →
    let x := slotOf s u
    let mbOk (mb : W64) : Prop := match (ctxOf s (coreOf s u.lcid).st.ctx).run with
      | none => mb = x.arch.mb
      | some r => mb ∈ mbChoices r u.slot x.arch.mb
    (x.closed = none → x.loads = [] →
      (∃ t, exec (.stitch u {}) s = .next t ∧ (slotOf t u).phase = x.phase ∧ mbOk (slotOf t u).arch.mb ∧
        (slotOf t u).arch = { x.arch.advance with mb := (slotOf t u).arch.mb } ∧
        (slotOf t u).opn.seq = x.opn.seq + 1 ∧ (slotOf t u).opn.mb = (slotOf t u).arch.mb ∧ (slotOf t u).acyc = 0 ∧
        (∃ cl, (slotOf t u).closed = some cl ∧ cl.st = x.opn ∧ cl.image = (slotOf t u).arch) ∧
        (∀ w, w ≠ u → slotOf t w = slotOf s w) ∧ t.regs = s.regs ∧ t.out = s.out) ∧
      (∃ t, exec (.done u {}) s = .next t ∧ (slotOf t u).phase = .closing ∧ canIssue t u = false ∧ mbOk (slotOf t u).arch.mb ∧
        (slotOf t u).arch = { x.arch with pc := x.arch.pc + 8, loops := [], mb := (slotOf t u).arch.mb } ∧
        (slotOf t u).opn.seq = x.opn.seq + 1 ∧
        (∃ cl, (slotOf t u).closed = some cl ∧ cl.st = x.opn ∧ cl.image = (slotOf t u).arch) ∧
        (∀ w, w ≠ u → slotOf t w = slotOf s w) ∧ t.regs = s.regs ∧ t.out = s.out)) ∧
    (x.closed ≠ none ∨ x.loads ≠ [] →
      exec (.stitch u {}) s = .next (park s u .stitch) ∧ exec (.done u {}) s = .next (park s u .stitch))

/-! ## Memory instructions -/

/-- R101, R103, R104: `ld` and `vld` from the own well complete at once with the bytes that lie there; inactive lanes keep
their values, and nothing but the destination and the pc changes.
R101, R103, R104, R106: A load of LPDDR whose bytes are neither cached nor gated stays outstanding: a request goes to the
cistern of its channel, the destination keeps its value and the pc moves on. A 17th load waits.
R107: `fence` ends at once when the loads it waits for have returned, and waits otherwise. Own-well stores are visible
as soon as they issue. -/
def Obligations.Loads : Prop :=
  (∀ (u : StreamId) (f : Fields) (s : State),
    let a := archOf s u
    let b := a.bget (f.mod.extractLsb' 0 2)
    let off := (a.sget f.src1 + f.imm.signExtend 64).toNat
    (issues u .lane0 f [.s f.src1, .s f.dst] s = true → f.src2 = 0 → f.mod.getLsbD 5 = false →
      let w := 2 ^ (f.mod.toNat / 4 % 4)
      let ea := pairAddr b off
      accessOk s u.lcid b off w false = true → ea % w = 0 → (∀ i < w, ownWell u.lcid (ea + i) = true) →
      (∀ i < w, badAt s (ea + i) = false) →
      let v := leNat (bytesAt s ea w)
      (f.mod.getLsbD 4 = true → exec (.ld u f []) s = .next (publish s (ran s u (a.sput f.dst (BitVec.ofNat 64 v))))) ∧
      (f.mod.getLsbD 4 = false → exec (.ld u f []) s = .next (publish s (ran s u (a.sput f.dst
        (BitVec.ofInt 64 (if v < 2 ^ (8 * w - 1) then (v : Int) else (v : Int) - 2 ^ (8 * w)))))))) ∧
    (issues u .lanes f [.s f.src1, .w f.dst] s = true → f.src2 = 0 → f.mod.toNat / 4 = 2 →
      (∀ i < 32, laneOn a f.mask i = true → accessOk s u.lcid b (off + 4 * i) 4 false = true ∧
        pairAddr b (off + 4 * i) % 4 = 0 ∧ ∀ k < 4, ownWell u.lcid (pairAddr b (off + 4 * i) + k) = true ∧
          badAt s (pairAddr b (off + 4 * i) + k) = false) →
      ∃ v, exec (.vld u f []) s = .next (publish s (ran s u (a.vput f.dst v))) ∧ ∀ i (h : i < 32),
        v[i] = if laneOn a f.mask i then BitVec.ofNat 32 (leNat (bytesAt s (pairAddr b (off + 4 * i)) 4))
          else (a.vget f.dst)[i])) ∧
  (∀ (u : StreamId) (f : Fields) (s : State) (ch : Nat), issues u .lane0 f [.s f.src1, .s f.dst] s = true → f.src2 = 0 →
    f.mod.getLsbD 5 = false →
    let x := slotOf s u
    let b := x.arch.bget (f.mod.extractLsb' 0 2)
    let off := (x.arch.sget f.src1 + f.imm.signExtend 64).toNat
    let w := 2 ^ (f.mod.toNat / 4 % 4)
    let ea := pairAddr b off
    accessOk s u.lcid b off w false = true → ea % w = 0 → regionOf s ea = .lpddr ch → (coreOf s u.lcid).wcache = 0 →
    (∀ e ∈ gatedBytes x, e.1 < ea ∨ ea + w ≤ e.1) →
    (x.loads.length < 16 → ∃ t ld, exec (.ld u f []) s = .next (publish s t) ∧
      t = emit (putSlot s u { x with wait := none, arch := x.arch.advance, loads := x.loads ++ [ld], loadCtr := x.loadCtr + 1 })
        (.mem (ch / 16) (.load u x.loadCtr (coreOf s u.lcid).st)) ∧
      ld.id = x.loadCtr ∧ ld.addr = ea ∧ ld.len = w ∧ ld.dst = .sreg f.dst w (f.mod.getLsbD 4) ∧ ld.seq = x.opn.seq ∧
      ld.pc = x.arch.pc ∧ ld.data = none) ∧
    (16 ≤ x.loads.length → exec (.ld u f []) s = .next (publish s (park s u .loadSlot)))) ∧
  (∀ (u : StreamId) (f : Fields) (s : State), issues u .needP0 f [] s = true → f.mod.toNat ≤ 2 → f.imm = 0 → f.dst = 0 →
    f.src1 = 0 → f.src2 = 0 →
    ((slotOf s u).loads = [] ∨ f.mod = 2 → exec (.fence u f) s = .next (ran s u (archOf s u))) ∧
    ((slotOf s u).loads ≠ [] → f.mod ≠ 2 → exec (.fence u f) s = .next (park s u .fence)))

/-- R104, R70: `st` to the own well is visible at once. Its bytes are those of s[src2]; every other byte of the engine's
address space reads as before, and the slot changes in its pc and its undo log alone.
R146, R178: `vst` to the own well, its gather buffer empty: each active lane's word is written at its offset, every other
byte reads as before, and of the slot only the pc and the undo log change. -/
def Obligations.OwnWellStores : Prop :=
  (∀ (u : StreamId) (f : Fields) (s : State), issues u .lane0 f [.s f.src1, .s f.src2] s = true → f.dst = 0 →
    f.mod.toNat / 16 = 0 →
    let x := slotOf s u
    let b := x.arch.bget (f.mod.extractLsb' 0 2)
    let off := (x.arch.sget f.src1 + f.imm.signExtend 64).toNat
    let w := 2 ^ (f.mod.toNat / 4 % 4)
    let ea := pairAddr b off
    accessOk s u.lcid b off w true = true → ea % w = 0 → (∀ i < w, ownWell u.lcid (ea + i) = true) →
    x.opn.undo.length < 128 → s.wellPoison = [] →
    ∃ t, exec (.st u f []) s = .next t ∧
      (∀ i < w, byteAt t (ea + i) = BitVec.ofNat 8 ((x.arch.sget f.src2).toNat / 256 ^ i)) ∧
      (∀ addr, addr < ea ∨ ea + w ≤ addr → byteAt t addr = byteAt s addr) ∧
      slotOf t u = { x with wait := none, arch := x.arch.advance, opn := { x.opn with undo := (slotOf t u).opn.undo } } ∧
      (∀ v, v ≠ u → slotOf t v = slotOf s v) ∧ t.regs = s.regs ∧ t.out = s.out ∧ t.wellPoison = []) ∧
  (∀ (u : StreamId) (f : Fields) (s : State), issues u .lanes f [.s f.src1, .v f.src2] s = true → f.dst = 0 →
    f.mod.toNat / 4 = 2 →
    let x := slotOf s u
    let b := x.arch.bget (f.mod.extractLsb' 0 2)
    let off := (x.arch.sget f.src1 + f.imm.signExtend 64).toNat
    (∀ i < 32, laneOn x.arch f.mask i = true → accessOk s u.lcid b (off + 4 * i) 4 true = true ∧
      pairAddr b (off + 4 * i) % 4 = 0 ∧ ∀ k < 4, ownWell u.lcid (pairAddr b (off + 4 * i) + k) = true) →
    x.opn.undo.length + 3 ≤ 128 → s.wellPoison = [] → (coreOf s u.lcid).gather = [] →
    ∃ t, exec (.vst u f []) s = .next t ∧
      (∀ i (h : i < 32), laneOn x.arch f.mask i = true → ∀ k < 4, byteAt t (pairAddr b (off + 4 * i) + k) =
        BitVec.ofNat 8 (((x.arch.vget f.src2)[i]).toNat / 256 ^ k)) ∧
      (∀ addr, (∀ i < 32, laneOn x.arch f.mask i = true → addr < pairAddr b (off + 4 * i) ∨
        pairAddr b (off + 4 * i) + 4 ≤ addr) → byteAt t addr = byteAt s addr) ∧
      slotOf t u = { x with wait := none, arch := x.arch.advance, opn := { x.opn with undo := (slotOf t u).opn.undo } } ∧
      (∀ v, v ≠ u → slotOf t v = slotOf s v) ∧ t.regs = s.regs ∧ t.out = s.out)

/-- R68, R105, R109, R298: Gated writes. `st` outside the own well, `amoadd`, `sos` and `sos.c` join the OPEN stitch's gate
buffer and write nothing yet; a stitch that needs more than 16 KiB raises 0x2008. -/
def Obligations.GatedWritesAreHeld : Prop :=
  ∀ (u : StreamId) (f : Fields) (s : State), issues u .lane0 f [.s f.src1, .s f.src2] s = true → f.dst = 0 →
    let x := slotOf s u
    let b := x.arch.bget (f.mod.extractLsb' 0 2)
    let i := (x.arch.sget f.src1 + f.imm.signExtend 64).toNat
    let ea := pairAddr b i
    let v := x.arch.sget f.src2
    let held (g : Gated) : State := putSlot s u { x with wait := none, arch := x.arch.advance,
                                                         opn := { x.opn with gates := x.opn.gates ++ [g] } }
    let room (n : Nat) : Prop :=
      x.opn.gateBytes + n + (match x.closed with | some c => c.st.gateBytes | none => 0) ≤ 16384
    (let w := 2 ^ (f.mod.toNat / 4 % 4)
     f.mod.toNat / 16 = 0 → accessOk s u.lcid b i w true = true → ea % w = 0 → ownWell u.lcid ea = false →
      (room w → exec (.st u f []) s = .next (held (.store [(ea, leBytes w v.toNat)]))) ∧
      (16384 < x.opn.gateBytes + w → exec (.st u f []) s = .next (faulted s u 0x2008))) ∧
    (∀ ch, regionOf s ea = .lpddr ch →
      (f.mod.toNat / 4 = 0 → accessOk s u.lcid b i 4 true = true → ea % 4 = 0 → room 4 →
        exec (.amoadd u f) s = .next (held (.amo ea .fp32 v))) ∧
      (f.mod.toNat / 4 = 1 → accessOk s u.lcid b i 4 true = true → ea % 4 = 0 → room 4 →
        exec (.amoadd u f) s = .next (held (.amo ea .int32 v))) ∧
      (f.mod.toNat / 4 = 2 → accessOk s u.lcid b i 8 true = true → ea % 8 = 0 → room 8 →
        exec (.amoadd u f) s = .next (held (.amo ea .int64 v)))) ∧
    (∀ bd, (ctxOf s (coreOf s u.lcid).st.ctx).bind = some bd → room 8 →
      (f.mod = 0 → i < bd.quarters.length * 256 → exec (.sos u f) s = .next (held (.signal i false v))) ∧
      (f.mod = 1 → bd.cso = true → i < 4096 → exec (.sosC u f) s = .next (held (.signal i true v))))

/-- R101, R103, R104, Tables 4.6 and 4.8: an access outside its pair, without the right or outside its region raises 0x2003, a
misaligned one 0x2004, a reserved field 0x2002; nothing is written.
R78, R79: A program fault stops the slot at the instruction with the status, the pc and the stitch number in c.fstat, c.fpc
and c.fseq, and a report goes to the command processor; nothing else changes. -/
def Obligations.FaultsOfAccessAndProgram : Prop :=
  (∀ (u : StreamId) (f : Fields) (errs : List SymErr) (s : State),
    let x := slotOf s u
    let b := x.arch.bget (f.mod.extractLsb' 0 2)
    let off := (x.arch.sget f.src1 + f.imm.signExtend 64).toNat
    let w := 2 ^ (f.mod.toNat / 4 % 4)
    let bad (c : Instr) (st : Nat) : Prop :=
      ∃ t, exec c s = .next t ∧ t.mem = s.mem ∧ t.regs = s.regs ∧ slotOf t u = { x with
        phase := .faulted, wait := none, fstat := BitVec.ofNat 64 st, fpc := x.arch.pc, fseq := BitVec.ofNat 64 x.opn.seq }
    (issues u .lane0 f [.s f.src1, .s f.dst] s = true →
      (f.src2 ≠ 0 ∨ f.mod.getLsbD 5 = true → bad (.ld u f errs) 0x2002) ∧
      (f.src2 = 0 → f.mod.getLsbD 5 = false →
        (accessOk s u.lcid b off w false = false → bad (.ld u f errs) 0x2003) ∧
        (accessOk s u.lcid b off w false = true → pairAddr b off % w ≠ 0 → bad (.ld u f errs) 0x2004))) ∧
    (issues u .lane0 f [.s f.src1, .s f.src2] s = true →
      (f.dst ≠ 0 ∨ 16 ≤ f.mod.toNat → bad (.st u f errs) 0x2002) ∧
      (f.dst = 0 → f.mod.toNat < 16 →
        (accessOk s u.lcid b off w true = false → bad (.st u f errs) 0x2003) ∧
        (accessOk s u.lcid b off w true = true → pairAddr b off % w ≠ 0 → bad (.st u f errs) 0x2004)))) ∧
  (∀ (u : StreamId) (s : State) (st : Nat), u.slot < 3 → st < 2 ^ 16 →
    let x := slotOf s u
    let t := faulted s u st
    slotOf t u = { x with phase := .faulted, wait := none, fstat := BitVec.ofNat 64 st, fpc := x.arch.pc,
                          fseq := BitVec.ofNat 64 x.opn.seq } ∧
    t.out = s.out ++ [.faultReport u st (coreOf s u.lcid).st] ∧ (∀ v, v ≠ u → slotOf t v = slotOf s v) ∧
    t = { s with cores := t.cores, out := t.out } ∧ canIssue t u = false)

/-- R162: `vgather` and `vscatter` of the own well. Lane i names the word at s[src1] + sext(imm) + v[src2][i]; inactive lanes
keep their values, of lanes that name one word the highest is written, and every other byte reads as before. -/
def Obligations.GatherAndScatter : Prop :=
  ∀ (u : StreamId) (f : Fields) (s : State), f.mod.toNat / 4 = 0 →
    let x := slotOf s u
    let a := x.arch
    let b := a.bget (f.mod.extractLsb' 0 2)
    let at_ (i : Nat) : Nat := pairAddr b (a.sget f.src1 + f.imm.signExtend 64 +
      (((a.vget f.src2)[i]?.getD 0).zeroExtend 64)).toNat
    let offOk (write : Bool) : Prop := ∀ i < 32, laneOn a f.mask i = true →
      accessOk s u.lcid b (a.sget f.src1 + f.imm.signExtend 64 + (((a.vget f.src2)[i]?.getD 0).zeroExtend 64)).toNat 4
        write = true ∧ ownWell u.lcid (at_ i) = true ∧ at_ i % 4 = 0
    (issues u .lanes f [.s f.src1, .v f.src2, .w f.dst] s = true → offOk false →
      (∀ i < 32, laneOn a f.mask i = true → ∀ k < 4, badAt s (at_ i + k) = false) →
      ∃ v, exec (.vgather u f []) s = .next (publish s (ran s u (a.vput f.dst v))) ∧ ∀ i (h : i < 32),
        v[i] = if laneOn a f.mask i then BitVec.ofNat 32 (leNat (bytesAt s (at_ i) 4)) else (a.vget f.dst)[i]) ∧
    (issues u .lanes f [.s f.src1, .v f.src2, .v f.dst] s = true → offOk true → x.opn.undo.length + 32 ≤ 128 →
      s.wellPoison = [] → (coreOf s u.lcid).gather = [] →
      ∃ t, exec (.vscatter u f []) s = .next t ∧
        (∀ i (h : i < 32), laneOn a f.mask i = true →
          (∀ j, i < j → j < 32 → laneOn a f.mask j = true → at_ j ≠ at_ i) → ∀ k < 4,
          byteAt t (at_ i + k) = BitVec.ofNat 8 (((a.vget f.dst)[i]).toNat / 256 ^ k)) ∧
        (∀ addr, (∀ i < 32, laneOn a f.mask i = true → addr < at_ i ∨ at_ i + 4 ≤ addr) → byteAt t addr = byteAt s addr) ∧
        slotOf t u = { x with wait := none, arch := a.advance, opn := { x.opn with undo := (slotOf t u).opn.undo } } ∧
        t.regs = s.regs ∧ t.out = s.out)

/-! ## Rings, objects, pumps, c-registers and pairs -/

/-- R108, R173, R176: `racq`. The next slot of the ring in its direction is acquired when its state allows, its well offset
goes to s[dst], and a slot already acquired is answered again; otherwise the stream waits. A provisional-full slot becomes an
input of the OPEN stitch (R65).
R95, R108, R173: `rrel`. `rrel.w` turns the acquired slot provisional-full with the tags of the OPEN stitch and moves the
filling cursor on; `rrel.r` leaves the slot draining until retirement and moves the draining cursor on; without an acquired
slot c.sstat bit 1 is set. -/
def Obligations.Rings : Prop :=
  (∀ (u : StreamId) (f : Fields) (s : State) (r : RingSt), issues u .lane0 f [.s f.dst] s = true →
    let a := archOf s u
    let k := f.imm.toNat
    (ringFor s u f true = some r →
      let i := r.fillRun % r.count
      (∀ j, r.acqW = some j → exec (.racqW u f) s = .next (ran s u (a.sput f.dst (BitVec.ofNat 64 (r.base + j * r.size))))) ∧
      (r.acqW = none → (r.slot i).st = .empty → ∃ t, exec (.racqW u f) s = .next t ∧
        archOf t u = (a.sput f.dst (BitVec.ofNat 64 (r.base + i * r.size))).advance ∧ t.mem = s.mem ∧ t.regs = s.regs ∧
        (∃ r', (coreOf t u.lcid).ring? k = some r' ∧ r'.acqW = some i ∧ (r'.slot i).st = .filling ∧
          (∀ j, j ≠ i → r'.slot j = r.slot j) ∧ r'.fillRun = r.fillRun ∧ r'.drainRun = r.drainRun) ∧
        (∀ q, q ≠ k → (coreOf t u.lcid).ring? q = (coreOf s u.lcid).ring? q)) ∧
      (r.acqW = none → (r.slot i).st ≠ .empty → exec (.racqW u f) s = .next (park s u (.ring k false)))) ∧
    (ringFor s u f false = some r →
      let i := r.drainRun % r.count
      (∀ j, r.acqR = some j → exec (.racqR u f) s = .next (ran s u (a.sput f.dst (BitVec.ofNat 64 (r.base + j * r.size))))) ∧
      (r.acqR = none → (r.slot i).st = .full ∨ (r.slot i).st = .provFull → ∃ t, exec (.racqR u f) s = .next t ∧
        archOf t u = (a.sput f.dst (BitVec.ofNat 64 (r.base + i * r.size))).advance ∧ t.mem = s.mem ∧ t.regs = s.regs ∧
        (∃ r', (coreOf t u.lcid).ring? k = some r' ∧ r'.acqR = some i ∧ (r'.slot i).st = .draining ∧
          ((r'.slot i).prov = true ↔ (r.slot i).st = .provFull) ∧ (∀ j, j ≠ i → r'.slot j = r.slot j)) ∧
        ((r.slot i).st = .provFull → (k, i) ∈ (slotOf t u).opn.inputs) ∧
        ((r.slot i).st = .full → (slotOf t u).opn = (slotOf s u).opn)) ∧
      (r.acqR = none → (r.slot i).st ≠ .full → (r.slot i).st ≠ .provFull →
        exec (.racqR u f) s = .next (park s u (.ring k true)))) ∧
    (ringFor s u f true = none → exec (.racqW u f) s = .next (faulted s u 0x2002)) ∧
    (ringFor s u f false = none → exec (.racqR u f) s = .next (faulted s u 0x2002))) ∧
  (∀ (u : StreamId) (f : Fields) (s : State) (r : RingSt), issues u .lane0 f [] s = true → f.dst = 0 →
    let x := slotOf s u
    let k := f.imm.toNat
    (ringFor s u f true = some r →
      (∀ i, r.acqW = some i → ∃ t r', exec (.rrelW u f) s = .next t ∧ (coreOf t u.lcid).ring? k = some r' ∧
        (r'.slot i).st = .provFull ∧
        (r'.slot i).tags = some ⟨u.lcid, u.slot, x.opn.seq, fget 0 x.opn.seq x.replays⟩ ∧ r'.acqW = none ∧
        r'.fillRun = (r.fillRun + 1) % r.count ∧ r'.drainRun = r.drainRun ∧ (∀ j, j ≠ i → r'.slot j = r.slot j) ∧
        (slotOf t u).opn = { x.opn with filled := x.opn.filled ++ [(k, i)] } ∧ archOf t u = x.arch.advance ∧
        t.mem = s.mem ∧ t.regs = s.regs ∧ t.out = s.out) ∧
      (r.acqW = none → exec (.rrelW u f) s = .next (ran s u { x.arch with sstat := x.arch.sstat ||| 2 }))) ∧
    (ringFor s u f false = some r →
      (∀ i, r.acqR = some i → ∃ t r', exec (.rrelR u f) s = .next t ∧ (coreOf t u.lcid).ring? k = some r' ∧
        r'.acqR = none ∧ r'.drainRun = (r.drainRun + 1) % r.count ∧ r'.fillRun = r.fillRun ∧ r'.slots = r.slots ∧
        (slotOf t u).opn.drained = x.opn.drained ++ [(k, i)] ∧ archOf t u = x.arch.advance ∧ t.mem = s.mem ∧
        t.regs = s.regs ∧ t.out = s.out) ∧
      (r.acqR = none → exec (.rrelR u f) s = .next (ran s u { x.arch with sstat := x.arch.sstat ||| 2 }))))

/-- R109: `sow` passes when V − s[src2] is at least zero as a signed number, with V in s[dst], and waits otherwise; `sord`
reads V without waiting; an index that the context does not hold raises 0x2003.
R298: `sow.c` and `sord.c` of a running cascade send the master one request under a new request tag and wait for its
answer; asked again while they wait they send nothing more. Without a running cascade they wait (the model's reading, log 54). -/
def Obligations.ObjectInstructions : Prop :=
  (∀ (u : StreamId) (f : Fields) (s : State) (b : Binding),
    let a := archOf s u
    let i := (a.sget f.src1 + f.imm.signExtend 64).toNat
    (ctxOf s (coreOf s u.lcid).st.ctx).bind = some b → f.mod = 0 →
    (issues u .lane0 f [.s f.src1, .s f.src2, .s f.dst] s = true →
      (∀ n, i < b.quarters.length * 256 → b.so? i = some n →
        let v := (soOf s n).v
        (0 ≤ (v - a.sget f.src2).toInt → exec (.sow u f) s = .next (ran s u (a.sput f.dst v))) ∧
        ((v - a.sget f.src2).toInt < 0 → ∃ t, exec (.sow u f) s = .next t ∧
          slotOf t u = { slotOf s u with wait := some (.so n false f.dst (a.sget f.src2)) } ∧ (soOf t n).v = v ∧
          .slot u (a.sget f.src2) ∈ (soOf t n).waits)) ∧
      (b.quarters.length * 256 ≤ i → exec (.sow u f) s = .next (faulted s u 0x2003))) ∧
    (issues u .lane0 f [.s f.src1, .s f.dst] s = true → f.src2 = 0 →
      (∀ n, i < b.quarters.length * 256 → b.so? i = some n →
        exec (.sord u f) s = .next (ran s u (a.sput f.dst (soOf s n).v))) ∧
      (b.quarters.length * 256 ≤ i → exec (.sord u f) s = .next (faulted s u 0x2003)))) ∧
  (∀ (u : StreamId) (f : Fields) (s : State) (b : Binding),
    let a := archOf s u
    let i := (a.sget f.src1 + f.imm.signExtend 64).toNat
    (ctxOf s (coreOf s u.lcid).st.ctx).bind = some b → b.cso = true → i < 4096 → f.mod = 1 →
    let tag := s.casc.reqCtr
    let asked (kind : Nat) (target : W64) (w : Wait) : State :=
      park (sendFrame { s with casc := { s.casc with reqCtr := (tag + 1) % 2 ^ 32,
                                                     reqs := (s.casc.reqs.filter fun r => r.2.1 != u) ++ [(tag, u, f.dst)] } }
        s.casc.master { ty := 2, code := 4, spec := leBytes 2 i ++ leBytes 2 kind ++ leBytes 4 tag ++ leBytes 8 target.toNat }) u w
    (issues u .lane0 f [.s f.src1, .s f.src2, .s f.dst] s = true →
      let w : Wait := .so i true f.dst (a.sget f.src2)
      (s.casc.active = true → (slotOf s u).wait ≠ some w ∨ (∀ r ∈ s.casc.reqs, r.2.1 ≠ u) →
        exec (.sowC u f) s = .next (asked 0 (a.sget f.src2) w)) ∧
      ((slotOf s u).wait = some w → (∃ r ∈ s.casc.reqs, r.2.1 = u) → exec (.sowC u f) s = .next (park s u w)) ∧
      (s.casc.active = false → exec (.sowC u f) s = .next (park s u w))) ∧
    (issues u .lane0 f [.s f.src1, .s f.dst] s = true → f.src2 = 0 →
      let w : Wait := .soRead i f.dst
      (s.casc.active = true → (slotOf s u).wait ≠ some w ∨ (∀ r ∈ s.casc.reqs, r.2.1 ≠ u) →
        exec (.sordC u f) s = .next (asked 1 0 w)) ∧
      ((slotOf s u).wait = some w → (∃ r ∈ s.casc.reqs, r.2.1 = u) → exec (.sordC u f) s = .next (park s u w)) ∧
      (s.casc.active = false → exec (.sordC u f) s = .next (park s u w))))

/-- R111, R197, R199: `ppost` puts the descriptor at a 64-byte aligned offset of the own well into the tile's queue, where it
waits for its stitch to retire; with 256 descriptors not yet started it waits.
R17, R194, R199, R202, R206: Pump descriptors. One that waits for its posting stitch does not start; one that breaks a rule of Table
8.5 ends with the status of the rule; one whose data is all accepted ends with status 0; an end leaves the descriptor's status
and done bytes, signals, and reports a class 0x2 status. -/
def Obligations.Pumps : Prop :=
  (∀ (u : StreamId) (f : Fields) (s : State), issues u .lane0 f [.s f.src1] s = true → f.dst = 0 → f.src2 = 0 → f.mod = 0 →
    let x := slotOf s u
    let q := tileOf s (u.lcid / 256)
    let off := (x.arch.sget f.src1 + f.imm.signExtend 64).toNat
    (off % 64 = 0 → off + 64 ≤ scratch (coreOf s u.lcid) →
      ((q.jobs.filter fun j => j.phase != .running).length < 256 → ∃ t j, exec (.ppost u f) s = .next t ∧
        (tileOf t (u.lcid / 256)).jobs = q.jobs ++ [j] ∧ j.phase = .unretired ∧ j.lcid = u.lcid ∧ j.slot = u.slot ∧
        j.addr = off ∧ j.seq = x.opn.seq ∧ j.st = (coreOf s u.lcid).st ∧ j.pairs = x.arch.b ∧
        slotOf t u = { x with wait := none, arch := x.arch.advance } ∧ t.mem = s.mem ∧ t.regs = s.regs) ∧
      (256 ≤ (q.jobs.filter fun j => j.phase != .running).length → exec (.ppost u f) s = .next (park s u .pumpQueue))) ∧
    (off % 64 ≠ 0 → exec (.ppost u f) s = .next (faulted s u 0x2004)) ∧
    (off % 64 = 0 → scratch (coreOf s u.lcid) < off + 64 → exec (.ppost u f) s = .next (faulted s u 0x2003))) ∧
  (∀ (s : State) (unit id st : Nat) (j : PumpJob), jobOf s unit id = some j →
    let d := if j.sched then j.desc else descOf (bytesAt s (wellBase j.lcid + j.addr) 64)
    (j.phase = .unretired → exec (.pumpDescriptorStart unit id []) s = .next (publish s s)) ∧
    (j.phase = .ready → j.sched = false → j.st = heldStamp s j.st.ctx → (unit < 64 → (tileOf s unit).tier = .active) →
      ((jobsOf s unit).filter fun x => x.phase == .running).length < 64 →
      let s1 := putJob s unit { j with phase := .running, desc := d }
      (∀ status, descCheck s1 { j with phase := .running, desc := d } d = some status →
        exec (.pumpDescriptorStart unit id []) s =
          .next (publish s (endJob s1 unit { j with phase := .running, desc := d } status))) ∧
      (descCheck s1 { j with phase := .running, desc := d } d = none →
        exec (.pumpDescriptorStart unit id []) s = .next (publish s (pumpGo (d.len + 1) s1 unit id)))) ∧
    (j.phase = .running → st ∈ pumpStatuses ∨ (st = 0 ∧ jobComplete j = true) → ∃ t,
      exec (.pumpDescriptorEnd unit id st) s = .next (publish s t) ∧ t = endJob s unit j st ∧ (∀ x ∈ jobsOf t unit, x.id ≠ id) ∧
      (st / 4096 = 2 → .faultReport ⟨j.lcid, j.slot⟩ st j.st ∈ t.out)) ∧
    (j.phase = .running → st ∉ pumpStatuses → st ≠ 0 ∨ jobComplete j = false → exec (.pumpDescriptorEnd unit id st) s = .next (publish s s)) ∧
    (∀ w b, j.wait = [w] → w.place = b → w.prov = none → j.desc.dkind ≠ 3 → ∀ l k, w.d.dest = .ring l k →
      exec (.resendRequest unit id ⟨b, []⟩ j.st) s = .next (publish s (emit { s with out := eraseOne (.resend unit id b j.st) s.out }
        (.block w.d (buildBlock { s with out := eraseOne (.resend unit id b j.st) s.out } j w.piece w.prod w.bidx).1)))))

/-- R94, R95, R148, Table 4.3: `cget` reads each c-register and `cset` writes the two that can be written, whose reserved bits
stay zero; any other number raises 0x2002. -/
def Obligations.ControlRegisterAccess : Prop :=
  ∀ (u : StreamId) (f : Fields) (s : State), f.src2 = 0 → f.mod = 0 → f.imm = 0 →
    let c := coreOf s u.lcid
    let x := slotOf s u
    (issues u .lane0 f [.s f.dst] s = true →
      let reads (v : W64) : Prop := exec (.cget u f) s = .next (ran s u (x.arch.sput f.dst v))
      (f.src1 = 0 → reads (BitVec.ofNat 64 u.slot)) ∧ (f.src1 = 1 → reads (BitVec.ofNat 64 u.lcid)) ∧
      (f.src1 = 2 → reads (BitVec.ofNat 64 c.st.ctx)) ∧ (f.src1 = 3 → reads (BitVec.ofNat 64 c.st.gen)) ∧
      (f.src1 = 4 → reads (BitVec.ofNat 64 x.opn.seq)) ∧ (f.src1 = 5 → reads (BitVec.ofNat 64 x.acyc)) ∧
      (f.src1 = 6 → reads (BitVec.ofNat 64 (s.now - c.t0))) ∧ (f.src1 = 7 → reads x.wlim) ∧ (f.src1 = 8 → reads x.fstat) ∧
      (f.src1 = 9 → reads x.fpc) ∧ (f.src1 = 10 → reads x.fseq) ∧ (f.src1 = 11 → reads x.arch.sstat) ∧
      (f.src1 = 12 → reads x.arch.vstat) ∧ (f.src1 = 13 → reads x.arch.srctr) ∧
      (f.src1 = 14 → x.arch.loops = [] → reads 0) ∧ (f.src1 = 15 → x.arch.loops = [] → reads 0) ∧
      (∀ o, x.arch.loops = [o] → (f.src1 = 14 → reads o.left) ∧ (f.src1 = 15 → reads 0)) ∧
      (∀ i o, x.arch.loops = [i, o] → (f.src1 = 14 → reads o.left) ∧ (f.src1 = 15 → reads i.left)) ∧
      (f.src1 = 16 → reads x.arch.epoch) ∧ (f.src1 = 17 → reads x.arch.mb) ∧
      (18 ≤ f.src1.toNat → exec (.cget u f) s = .next (faulted s u 0x2002))) ∧
    (issues u .lane0 f [.s f.src1] s = true →
      let v := x.arch.sget f.src1
      (f.dst = 11 → exec (.cset u f) s = .next (ran s u { x.arch with sstat := v &&& 3 })) ∧
      (f.dst = 12 → exec (.cset u f) s = .next (ran s u { x.arch with vstat := v &&& 0x3F })) ∧
      (f.dst ≠ 11 → f.dst ≠ 12 → exec (.cset u f) s = .next (faulted s u 0x2002)))

/-- R93: `bnar` narrows a pair within its range and keeps its rights, and raises 0x2003 beyond it; `bget` reads the base or the
length of a pair. A field of either that names no pair, and another mod value, raise 0x2002. -/
def Obligations.PairNarrowAndRead : Prop :=
  ∀ (u : StreamId) (f : Fields) (s : State), f.imm = 0 →
    let a := archOf s u
    (∀ k : BitVec 2, f.dst = k.zeroExtend 5 → f.mod = 0 → issues u .lane0 f [.s f.src1, .s f.src2] s = true →
      let b := a.bget k
      let o := a.sget f.src1
      let n := a.sget f.src2
      (o.toNat + n.toNat ≤ b.len.toNat →
        exec (.bnar u f) s = .next (ran s u (a.bput k { b with base := b.base + o, len := n }))) ∧
      (b.len.toNat < o.toNat + n.toNat → exec (.bnar u f) s = .next (faulted s u 0x2003))) ∧
    (∀ k : BitVec 2, f.src1 = k.zeroExtend 5 → f.src2 = 0 → issues u .lane0 f [.s f.dst] s = true →
      (f.mod = 0 → exec (.bget u f) s = .next (ran s u (a.sput f.dst (a.bget k).base))) ∧
      (f.mod = 1 → exec (.bget u f) s = .next (ran s u (a.sput f.dst (a.bget k).len)))) ∧
    (4 ≤ f.dst.toNat ∨ f.mod ≠ 0 → issues u .lane0 f [.s f.src1, .s f.src2] s = true →
      exec (.bnar u f) s = .next (faulted s u 0x2002)) ∧
    (4 ≤ f.src1.toNat ∨ 2 ≤ f.mod.toNat → issues u .lane0 f [.s f.dst] s = true →
      exec (.bget u f) s = .next (faulted s u 0x2002))

/-! ## The vector engine -/

/-- R30, R144, R148, R149: FP32 lane arithmetic. Each active lane takes the operation's result rounded by RNE, or by RZ under
`.rz`, the other lanes keep their bits, and the flags join c.vstat.
R30, R31, R149, Table 6.7: FP32 minimum, maximum and sign operations. A NaN operand gives the canonical NaN, and of values
that compare equal (zeros of both signs do) the first source is kept. -/
def Obligations.VectorFloat : Prop :=
  (∀ (u : StreamId) (f : Fields) (s : State),
    f.imm = 0 → f.mod.toNat < 2 →
    let a := archOf s u
    let x (i : Nat) : Nat := (lane (a.vget f.src1) i).toNat
    let y (i : Nat) : Nat := (lane (a.vget f.src2) i).toNat
    let z (i : Nat) : Nat := (lane (a.vget f.dst) i).toNat
    let m : RMode := if f.mod = 1 then .rz else .rne
    let give (r : Nat → Nat × FFlags) : State :=
      ran s u ((lanesBecome a f fun i => BitVec.ofNat 32 (r i).1).raiseV (laneFlags a f fun i => (r i).2))
    (issues u .lanes f [.v f.src1, .v f.src2, .w f.dst] s = true →
      exec (.vaddF32 u f) s = .next (give fun i => f32.addB m (x i) (y i)) ∧
      exec (.vsubF32 u f) s = .next (give fun i => f32.subB m (x i) (y i)) ∧
      exec (.vmulF32 u f) s = .next (give fun i => f32.mulB m (x i) (y i))) ∧
    (issues u .lanes f [.v f.src1, .v f.src2, .v f.dst] s = true →
      exec (.vfmaF32 u f) s = .next (give fun i => f32.fmaB m (x i) (y i) (z i)))) ∧
  (∀ (u : StreamId) (f : Fields) (s : State), f.imm = 0 →
    let a := archOf s u
    let x (i : Nat) : W32 := lane (a.vget f.src1) i
    let y (i : Nat) : W32 := lane (a.vget f.src2) i
    let nan (w : W32) : Prop := f32.decode w.toNat = .nan
    let less (v w : W32) : Prop := (f32.decode v.toNat).lt (f32.decode w.toNat) = true
    (issues u .lanes f [.v f.src1, .v f.src2, .w f.dst] s = true →
      (f.mod = 0 → ∃ r : Nat → W32, exec (.vminF32 u f) s = .next (ran s u (lanesBecome a f r)) ∧ ∀ i,
        (nan (x i) ∨ nan (y i) → r i = 0x7FC00000#32) ∧
        (¬ nan (x i) → ¬ nan (y i) → (less (y i) (x i) → r i = y i) ∧ (¬ less (y i) (x i) → r i = x i))) ∧
      (f.mod = 0 → ∃ r : Nat → W32, exec (.vmaxF32 u f) s = .next (ran s u (lanesBecome a f r)) ∧ ∀ i,
        (nan (x i) ∨ nan (y i) → r i = 0x7FC00000#32) ∧
        (¬ nan (x i) → ¬ nan (y i) → (less (x i) (y i) → r i = y i) ∧ (¬ less (x i) (y i) → r i = x i))) ∧
      (f.mod = 2 → ∃ r : Nat → W32, exec (.vcsgn u f) s = .next (ran s u (lanesBecome a f r)) ∧ ∀ i,
        (nan (x i) → r i = 0x7FC00000#32) ∧
        (¬ nan (x i) → r i = (y i).extractLsb' 31 1 ++ (x i).extractLsb' 0 31))) ∧
    (issues u .lanes f [.v f.src1, .w f.dst] s = true → f.src2 = 0 →
      (f.mod = 0 → ∃ r : Nat → W32, exec (.vabs u f) s = .next (ran s u (lanesBecome a f r)) ∧ ∀ i,
        (nan (x i) → r i = 0x7FC00000#32) ∧ (¬ nan (x i) → r i = 0#1 ++ (x i).extractLsb' 0 31)) ∧
      (f.mod = 1 → ∃ r : Nat → W32, exec (.vneg u f) s = .next (ran s u (lanesBecome a f r)) ∧ ∀ i,
        (nan (x i) → r i = 0x7FC00000#32) ∧
        (¬ nan (x i) → r i = ~~~((x i).extractLsb' 31 1) ++ (x i).extractLsb' 0 31))))

/-- R144, R149, R161, Table 6.7: INT32 and bitwise lane operations; no flag changes.
R144, R149, Table 6.7: `vcmp.f32` and `vcmp.i32` write the active bits of p[d] and keep the others; a NaN compares equal
to nothing, and condition 6 of `vcmp.f32` is unordered. -/
def Obligations.VectorIntegerAndCompare : Prop :=
  (∀ (u : StreamId) (f : Fields) (s : State),
    issues u .lanes f [.v f.src1, .v f.src2, .w f.dst] s = true → f.imm = 0 →
    let a := archOf s u
    let x (i : Nat) : W32 := lane (a.vget f.src1) i
    let y (i : Nat) : W32 := lane (a.vget f.src2) i
    let sh (i : Nat) : Nat := (y i).toNat % 32
    let gives (c : Instr) (g : Nat → W32) : Prop := exec c s = .next (ran s u (lanesBecome a f g))
    (f.mod = 0 →
      gives (.vaddI32 u f) (fun i => x i + y i) ∧ gives (.vsubI32 u f) (fun i => x i - y i) ∧
      gives (.vmulI32 u f) (fun i => x i * y i) ∧ gives (.vand u f) (fun i => x i &&& y i) ∧
      gives (.vshl u f) (fun i => x i <<< sh i) ∧
      gives (.vminI32 u f) (fun i => if (y i).toInt < (x i).toInt then y i else x i)) ∧
    (f.mod = 1 →
      gives (.vor u f) (fun i => x i ||| y i) ∧ gives (.vshr u f) (fun i => x i >>> sh i) ∧
      gives (.vmaxI32 u f) (fun i => if (x i).toInt < (y i).toInt then y i else x i)) ∧
    (f.mod = 2 →
      gives (.vxor u f) (fun i => x i ^^^ y i) ∧ gives (.vsra u f) (fun i => (x i).sshiftRight (sh i)) ∧
      gives (.vminu u f) (fun i => if (y i).toNat < (x i).toNat then y i else x i)) ∧
    (f.mod = 3 →
      gives (.vandn u f) (fun i => x i &&& ~~~(y i)) ∧
      gives (.vmaxu u f) (fun i => if (x i).toNat < (y i).toNat then y i else x i))) ∧
  (∀ (u : StreamId) (f : Fields) (s : State), issues u .lanes f [.v f.src1, .v f.src2] s = true → f.imm = 0 →
    ∀ k : BitVec 3, f.dst = k.zeroExtend 5 →
    let a := archOf s u
    let x (i : Nat) : W32 := lane (a.vget f.src1) i
    let y (i : Nat) : W32 := lane (a.vget f.src2) i
    let fx (i : Nat) : FV := f32.decode (x i).toNat
    let fy (i : Nat) : FV := f32.decode (y i).toNat
    let gives (c : Instr) (g : Nat → Prop) : Prop :=
      ∃ w, exec c s = .next (ran s u (a.pput k w)) ∧ ∀ i < 32,
        if laneOn a f.mask i then (w.getLsbD i = true ↔ g i) else w.getLsbD i = (a.pget k).getLsbD i
    (f.mod = 0 → gives (.vcmpF32 u f) (fun i => (fx i).eq (fy i) = true) ∧ gives (.vcmpI32 u f) (fun i => x i = y i)) ∧
    (f.mod = 1 → gives (.vcmpF32 u f) (fun i => (fx i).eq (fy i) = false) ∧ gives (.vcmpI32 u f) (fun i => x i ≠ y i)) ∧
    (f.mod = 2 → gives (.vcmpF32 u f) (fun i => (fx i).lt (fy i) = true) ∧
      gives (.vcmpI32 u f) (fun i => (x i).toInt < (y i).toInt)) ∧
    (f.mod = 3 → gives (.vcmpF32 u f) (fun i => (fx i).lt (fy i) = true ∨ (fx i).eq (fy i) = true) ∧
      gives (.vcmpI32 u f) (fun i => (y i).toInt ≤ (x i).toInt)) ∧
    (f.mod = 4 → gives (.vcmpF32 u f) (fun i => (fy i).lt (fx i) = true) ∧
      gives (.vcmpI32 u f) (fun i => (x i).toNat < (y i).toNat)) ∧
    (f.mod = 5 → gives (.vcmpF32 u f) (fun i => (fy i).lt (fx i) = true ∨ (fx i).eq (fy i) = true) ∧
      gives (.vcmpI32 u f) (fun i => (y i).toNat ≤ (x i).toNat)) ∧
    (f.mod = 6 → gives (.vcmpF32 u f) (fun i => fx i = .nan ∨ fy i = .nan) ∧
      exec (.vcmpI32 u f) s = .next (faulted s u 0x2002)) ∧
    (f.mod = 7 → exec (.vcmpF32 u f) s = .next (faulted s u 0x2002) ∧
      exec (.vcmpI32 u f) s = .next (faulted s u 0x2002)))

/-- R144, R145, R151, Table 6.7: `vsel`, `vbcast`, `vext`, `vins` and `setvl`. `vext` from a lane at or beyond VL gives zero and
sets c.vstat.pix (bit 5).
R150 to R152, Table 6.3: `vperm`, `vshuf`, `vcompress` and `vexpand`. A source lane outside 0 to VL − 1 gives zero and sets
c.vstat.pix; `vcompress` fills the lanes beyond its selection, below VL, with zero. -/
def Obligations.VectorMoveAndPermute : Prop :=
  (∀ (u : StreamId) (f : Fields) (s : State), f.mod = 0 →
    let a := archOf s u
    let n := f.imm.toNat
    (issues u .lanes f [.v f.src1, .v f.src2, .w f.dst] s = true → f.imm = 0 →
      exec (.vsel u f) s = .next (ran s u (a.vput f.dst (Vector.ofFn fun i =>
        if i.val < a.vl then (if (a.pget f.mask).getLsbD i then lane (a.vget f.src1) i else lane (a.vget f.src2) i)
        else (a.vget f.dst)[i])))) ∧
    (f.src2 = 0 →
      (issues u .lanes f [.s f.src1, .w f.dst] s = true →
        exec (.vbcast u f) s = .next (ran s u (lanesBecome a f fun _ => (a.sget f.src1 + f.imm.signExtend 64).setWidth 32))) ∧
      (issues u .needP0 f [.v f.src1, .s f.dst] s = true → n < 32 →
        (n < a.vl → exec (.vext u f) s = .next (ran s u (a.sput f.dst ((lane (a.vget f.src1) n).zeroExtend 64)))) ∧
        (a.vl ≤ n → exec (.vext u f) s = .next (ran s u { a.sput f.dst 0 with vstat := a.vstat ||| 32 }))) ∧
      (issues u .needP0 f [.s f.src1, .w f.dst] s = true → n < 32 →
        (n < a.vl → exec (.vins u f) s = .next (ran s u (a.vput f.dst (Vector.ofFn fun i =>
          if i.val = n then (a.sget f.src1).setWidth 32 else (a.vget f.dst)[i])))) ∧
        (a.vl ≤ n → exec (.vins u f) s = .next (ran s u a))) ∧
      (issues u .lane0 f [.s f.src1, .s f.dst] s = true → f.imm = 0 →
        exec (.setvl u f) s = .next (ran s u { a.sput f.dst (BitVec.ofNat 64 (Min.min 32 (a.sget f.src1).toNat)) with
          vl := Min.min 32 (a.sget f.src1).toNat })))) ∧
  (∀ (u : StreamId) (f : Fields) (s : State),
    let a := archOf s u
    let src := a.vget f.src1
    let n := f.imm.toNat
    let act := (List.range 32).filter (laneOn a f.mask)
    let inside (j : Int) : Prop := 0 ≤ j ∧ j < a.vl
    let gives (c : Instr) (j : Nat → Int) : Prop := ∃ (g : Nat → W32) (fl : FFlags),
      exec c s = .next (ran s u ((lanesBecome a f g).raiseV fl)) ∧
      (∀ i ∈ act, (inside (j i) → g i = lane src (j i).toNat) ∧ (¬ inside (j i) → g i = 0)) ∧
      fl = { pix := fl.pix } ∧ (fl.pix = true ↔ ∃ i ∈ act, ¬ inside (j i))
    (issues u .lanes f [.v f.src1, .v f.src2, .w f.dst] s = true → f.mod = 0 → f.imm = 0 →
      gives (.vperm u f) (fun i => (lane (a.vget f.src2) i).toNat)) ∧
    (issues u .lanes f [.v f.src1, .w f.dst] s = true → f.src2 = 0 →
      (n < 32 → (f.mod = 0 → gives (.vshuf u f) (fun i => ((i + n) % a.vl : Nat))) ∧
        (f.mod = 1 → gives (.vshuf u f) (fun i => (i + n : Nat))) ∧
        (f.mod = 2 → gives (.vshuf u f) (fun i => (i : Int) - n)) ∧
        (f.mod = 3 → gives (.vshuf u f) (fun i => (a.vl : Int) - 1 - i)) ∧
        (f.mod = 4 → gives (.vshuf u f) (fun i => (i ^^^ n : Nat)))) ∧
      (f.mod = 0 → f.imm = 0 →
        (∃ v, exec (.vcompress u f) s = .next (ran s u (a.vput f.dst v)) ∧ ∀ i (h : i < 32),
          (i < act.length → v[i] = lane src (act[i]?.getD 0)) ∧ (act.length ≤ i → i < a.vl → v[i] = 0) ∧
          (act.length ≤ i → a.vl ≤ i → v[i] = (a.vget f.dst)[i])) ∧
        ∃ v, exec (.vexpand u f) s = .next (ran s u (a.vput f.dst v)) ∧ ∀ i (h : i < 32),
          (∀ k, act[k]? = some i → v[i] = lane src k) ∧ (i ∉ act → v[i] = (a.vget f.dst)[i]))))

/-- R142, Table 6.7: mask register operations on all 32 bits, p0 reading as all ones and discarding writes, and `pmov` both
ways. -/
def Obligations.MaskRegisterResult : Prop :=
  ∀ (u : StreamId) (f : Fields) (s : State), f.imm = 0 →
    let a := archOf s u
    (∀ d p q : BitVec 3, f.dst = d.zeroExtend 5 → f.src1 = p.zeroExtend 5 → f.src2 = q.zeroExtend 5 →
      issues u .needP0 f [] s = true →
      (f.mod = 0 → exec (.pand u f) s = .next (ran s u (a.pput d (a.pget p &&& a.pget q)))) ∧
      (f.mod = 1 → exec (.por u f) s = .next (ran s u (a.pput d (a.pget p ||| a.pget q)))) ∧
      (f.mod = 2 → exec (.pxor u f) s = .next (ran s u (a.pput d (a.pget p ^^^ a.pget q)))) ∧
      (f.mod = 3 → exec (.pandn u f) s = .next (ran s u (a.pput d (a.pget p &&& ~~~(a.pget q)))))) ∧
    (∀ d : BitVec 3, f.mod = 0 → f.src2 = 0 → f.dst = d.zeroExtend 5 → issues u .needP0 f [.s f.src1] s = true →
      exec (.pmov u f) s = .next (ran s u (a.pput d ((a.sget f.src1).extractLsb' 0 32)))) ∧
    (∀ p : BitVec 3, f.mod = 1 → f.src2 = 0 → f.src1 = p.zeroExtend 5 → issues u .needP0 f [.s f.dst] s = true →
      exec (.pmov u f) s = .next (ran s u (a.sput f.dst ((a.pget p).zeroExtend 64))))

/-- R40, R143, R153, R154: `vcvt` and `vquant`. Element i of the destination part takes the converted value where lane i is
active and the two codes differ, and keeps its old value where it is not; scale byte 0xFF quantises to zero; a stochastic
conversion uses one counter value. -/
def Obligations.VectorConversion : Prop :=
  ∀ (u : StreamId) (f : Fields) (s : State),
    let a := archOf s u
    let key := (coreOf s u.lcid).key
    let mode (i : Nat) : RMode :=
      if f.mod = 0 then .rne else if f.mod = 1 then .rz
      else .sr ((mix (key ^^^ (a.srctr * 32#64 + BitVec.ofNat 64 i))).toNat % 2 ^ 32)
    let used (b : Arch) : Arch := if f.mod = 2 then { b with srctr := b.srctr + 1 } else b
    (issues u .lanes f [.v f.src1, .w f.dst] s = true → cvtOk f = true →
      ∀ es ws ed wd, vfmt (f.imm.toNat % 16) = some (es, ws) → vfmt (f.imm.toNat / 16 % 16) = some (ed, wd) →
      let el (v : Vector W32 32) (w p i : Nat) : Nat := partGet v w p i
      let sp := f.imm.toNat / 256 % 8
      let dp := f.imm.toNat / 4096 % 8
      ∃ v fl, exec (.vcvt u f) s = .next (ran s u (used ((a.vput f.dst v).raiseV fl))) ∧ ∀ i < 32,
        (laneOn a f.mask i = false → el v wd dp i = el (a.vget f.dst) wd dp i) ∧
        (laneOn a f.mask i = true → f.imm.toNat % 16 ≠ f.imm.toNat / 16 % 16 →
          el v wd dp i = (ed.encode (mode i) (es.decode (el (a.vget f.src1) ws sp i))).1 % 2 ^ wd)) ∧
    (issues u .lanes f [.v f.src1, .s f.src2, .w f.dst] s = true → quantOk f = true →
      ∀ ed wd, vfmt (f.imm.toNat / 16 % 16) = some (ed, wd) →
      let dp := f.imm.toNat / 4096 % 8
      let scale := (a.sget f.src2).toNat % 256
      ∃ v fl, exec (.vquant u f) s = .next (ran s u (used ((a.vput f.dst v).raiseV fl))) ∧ ∀ i < 32,
        (laneOn a f.mask i = false → partGet v wd dp i = partGet (a.vget f.dst) wd dp i) ∧
        (laneOn a f.mask i = true → scale = 255 → partGet v wd dp i = 0) ∧
        (laneOn a f.mask i = true → scale ≠ 255 → partGet v wd dp i =
          (ed.encode (mode i) ((f32.decode (lane (a.vget f.src1) i).toNat).scale (127 - (scale : Int)))).1 % 2 ^ wd))

/-- R155, Table 6.4: `vfn` completes on every active lane for each of its eight functions. A NaN gives the canonical NaN;
sqrt is correctly rounded; the special cases of the table at zeros, infinities and negative numbers give the values and flags
listed there. Other results stay open here (free values, log 9). -/
def Obligations.VectorFunction : Prop :=
  ∀ (u : StreamId) (f : Fields) (s : State), issues u .lanes f [.v f.src1, .w f.dst] s = true → f.mod = 0 → f.src2 = 0 →
    f.imm.toNat < 8 →
    let a := archOf s u
    let fn := f.imm.toNat
    let nan : W32 := 0x7FC00000#32
    let inf : W32 := 0x7F800000#32
    let one : W32 := 0x3F800000#32
    let sign (x : W32) : W32 := x &&& 0x80000000#32
    let big (x : W32) : W32 := x &&& 0x7FFFFFFF#32
    (∃ r : Nat → W32 × FFlags,
      exec (.vfn u f) s = .next (ran s u ((lanesBecome a f fun i => (r i).1).raiseV (laneFlags a f fun i => (r i).2))) ∧
      ∀ i, let x := lane (a.vget f.src1) i
        let v := f32.decode x.toNat
        let neg := x.getLsbD 31 = true ∧ v ≠ .nan ∧ v.isZero = false
        (v = .nan → r i = (nan, {})) ∧
        (fn = 0 → (v.isZero = true → r i = (inf ||| sign x, { dz := true })) ∧ (big x = inf → r i = (sign x, {}))) ∧
        (fn = 1 → (v.isZero = true → r i = (inf ||| sign x, { dz := true })) ∧ (neg → r i = (nan, { nv := true })) ∧
          (x = inf → r i = (0, {}))) ∧
        (fn = 2 → (v.isZero = true → r i = (x, {})) ∧ (neg → r i = (nan, { nv := true })) ∧
          (¬ neg → r i = (BitVec.ofNat 32 (f32.sqrtB .rne x.toNat).1, (f32.sqrtB .rne x.toNat).2))) ∧
        (fn = 3 ∨ fn = 5 → x = 0xFF800000#32 → r i = (0, {})) ∧
        (fn = 3 → (0x43000000 ≤ x.toNat → x.toNat < inf.toNat → r i = (inf, { ov := true, nx := true })) ∧
          (v.isZero = true → r i = (one, {}))) ∧
        (fn = 4 → (v.isZero = true → r i = (0xFF800000#32, { dz := true })) ∧ (neg → r i = (nan, { nv := true })) ∧
          (x = inf → r i = (inf, {})) ∧ (x = one → r i = (0, {}))) ∧
        (fn = 5 → v.isZero = true → r i = (one, {})) ∧
        (fn = 6 → (v.isZero = true → r i = (x, {})) ∧ (big x = inf → r i = (one ||| sign x, {}))) ∧
        (fn = 7 → (v.isZero = true → r i = (0x3F000000#32, {})) ∧ (x = inf → r i = (one, {})) ∧
          (x = 0xFF800000#32 → r i = (0, {}))))

/-! ## The reduction unit -/

/-- R156 to R158, Table 6.5: sums and mask reductions. `rsum.f32` adds the active lanes in the fixed tree and its result to the
prior value, `rsum.i32` adds modulo 2^64, `rmcnt` counts and `rmfirst` finds the lowest of the lanes set in both masks.
R156, R159, Table 6.5: `rmax.f32`, `rmin.f32` and `rargmax.f32`. Without an active lane the prior value, or the identity
under `.bx`, comes back; a NaN among the prior value and the lanes gives the canonical NaN; otherwise the result is one of them
that none of them exceeds (or undercuts), magnitudes under `.abs`, and the index is that of a lane with the result's value.
R36, R154: `rscale` writes the scale byte of the active lanes' values for an MX element format, inactive lanes counting as
zero: 0xFF where a lane is NaN, and 0 where every lane is zero. -/
def Obligations.Reductions : Prop :=
  (∀ (u : StreamId) (f : Fields) (s : State), f.imm = 0 → f.src2 = 0 →
    let a := archOf s u
    let act := (List.range 32).filter (laneOn a f.mask)
    let x0 (i : Nat) : W32 := if laneOn a f.mask i then lane (a.vget f.src1) i else 0
    let x1 (i : Nat) : W32 := add32 (x0 i) (x0 (i + 16))
    let x2 (i : Nat) : W32 := add32 (x1 i) (x1 (i + 8))
    let x3 (i : Nat) : W32 := add32 (x2 i) (x2 (i + 4))
    let x4 (i : Nat) : W32 := add32 (x3 i) (x3 (i + 2))
    let tree : W32 := add32 (x4 0) (x4 1)
    (issues u .lanes f [.v f.src1, .s f.dst] s = true → f.mod.toNat < 2 →
      let pf : W32 := if f.mod = 1 then 0 else (a.sget f.dst).setWidth 32
      let pi : W64 := if f.mod = 1 then 0 else a.sget f.dst
      (act = [] → exec (.rsumF32 u f) s = .next (ran s u (a.sput f.dst (pf.zeroExtend 64)))) ∧
      (act ≠ [] → ∃ fl, exec (.rsumF32 u f) s = .next (ran s u ((a.sput f.dst ((add32 pf tree).zeroExtend 64)).raiseV fl))) ∧
      exec (.rsumI32 u f) s = .next (ran s u (a.sput f.dst
        (pi + (act.map fun i => (lane (a.vget f.src1) i).signExtend 64).sum)))) ∧
    (∀ p : BitVec 3, f.src1 = p.zeroExtend 5 → f.mod = 0 → issues u .lanes f [.s f.dst] s = true →
      let both := act.filter fun i => (a.pget p).getLsbD i
      exec (.rmcnt u f) s = .next (ran s u (a.sput f.dst (BitVec.ofNat 64 both.length))) ∧
      exec (.rmfirst u f) s = .next (ran s u (a.sput f.dst (BitVec.ofNat 64 (both.head?.getD 32)))))) ∧
  (∀ (u : StreamId) (f : Fields) (s : State), f.imm = 0 → f.mod.toNat < 4 →
    let a := archOf s u
    let bx := f.mod.getLsbD 0
    let abs := f.mod.getLsbD 1
    let act := (List.range 32).filter (laneOn a f.mask)
    let mag (w : W32) : W32 := if abs then w &&& 0x7FFFFFFF#32 else w
    let x (i : Nat) : W32 := mag (lane (a.vget f.src1) i)
    let less (v w : W32) : Prop := (f32.decode v.toNat).lt (f32.decode w.toNat) = true
    let nan (w : W32) : Prop := f32.decode w.toNat = .nan
    let low (w : W64) : W32 := w.setWidth 32
    let pmax : W32 := if bx then (if abs then 0 else 0xFF800000#32) else low (a.sget f.dst)
    let pmin : W32 := if bx then 0x7F800000#32 else low (a.sget f.dst)
    let best (beats : W32 → W32 → Prop) (p r : W32) : Prop :=
      (act = [] → r = p) ∧ (act ≠ [] → (nan (mag p) ∨ ∃ i ∈ act, nan (x i)) → r = 0x7FC00000#32) ∧
      (act ≠ [] → ¬ nan (mag p) → (∀ i ∈ act, ¬ nan (x i)) →
        (r = mag p ∨ ∃ i ∈ act, r = x i) ∧ ¬ beats (mag p) r ∧ ∀ i ∈ act, ¬ beats (x i) r)
    (f.src2 = 0 → issues u .lanes f [.v f.src1, .s f.dst] s = true →
      (∃ r, exec (.rmaxF32 u f) s = .next (ran s u (a.sput f.dst (r.zeroExtend 64))) ∧
        best (fun v w => less w v) pmax r) ∧
      ∃ r, exec (.rminF32 u f) s = .next (ran s u (a.sput f.dst (r.zeroExtend 64))) ∧ best less pmin r) ∧
    (issues u .lanes f [.v f.src1, .s f.src2, .s f.dst] s = true →
      let p0 : W32 := if bx then BitVec.allOnes 32 else (a.sget f.dst).extractLsb' 32 32
      ∃ r k : W32, exec (.rargmaxF32 u f) s = .next (ran s u (a.sput f.dst (k ++ r))) ∧
        best (fun v w => less w v) pmax r ∧ (act = [] → k = p0) ∧
        (¬ nan (mag pmax) → (∀ i ∈ act, ¬ nan (x i)) →
          (k = p0 ∧ ∀ i ∈ act, ¬ less (mag pmax) (x i)) ∨
          ∃ i ∈ act, k = low (a.sget f.src2) + BitVec.ofNat 32 i ∧ r = x i))) ∧
  (∀ (u : StreamId) (f : Fields) (s : State) (el : Elem) (w : Nat), issues u .lanes f [.v f.src1, .s f.dst] s = true →
    f.mod = 0 → f.src2 = 0 → mxCode (f.imm.toNat / 16 % 16) = true → f.imm.toNat = 16 * (f.imm.toNat / 16 % 16) →
    vfmt (f.imm.toNat / 16 % 16) = some (el, w) →
    let a := archOf s u
    let act := (List.range 32).filter (laneOn a f.mask)
    let x (i : Nat) : FV := f32.decode (lane (a.vget f.src1) i).toNat
    let gives (n : Nat) (nv : Bool) : Prop :=
      exec (.rscale u f) s = .next (ran s u ((a.sput f.dst (BitVec.ofNat 64 n)).raiseV { nv := nv }))
    ((∃ i ∈ act, x i = .nan) → gives 255 true) ∧
    ((∀ i ∈ act, (x i).isZero = true) → gives 0 false) ∧
    (∀ i ∈ act, ∀ m e, x i = .fin false m e → 0 < m → (∀ j ∈ act, j ≠ i → (x j).isZero = true) →
      gives ((Max.max (-127) (Min.min 127 ((Nat.log2 m : Int) + e - el.emax)) + 127).toNat) false))

/-- R154 to R159, Table 6.5: every reduction completes on whatever its operands hold: the slot's pc moves on, s[dst] takes a
value, c.vstat may take flags, and nothing else changes. The values are those of the statement Reductions. -/
def Obligations.ReductionsComplete : Prop :=
  ∀ (u : StreamId) (f : Fields) (s : State), f.imm = 0 →
    let a := archOf s u
    (issues u .lanes f [.v f.src1, .s f.dst] s = true → f.src2 = 0 →
      (f.mod.toNat < 2 →
        (∃ r fl, exec (.rsumF32 u f) s = .next (ran s u ((a.sput f.dst r).raiseV fl))) ∧
        (∃ r, exec (.rsumI32 u f) s = .next (ran s u (a.sput f.dst r)))) ∧
      (f.mod.toNat < 4 →
        (∃ r, exec (.rmaxF32 u f) s = .next (ran s u (a.sput f.dst r))) ∧
        (∃ r, exec (.rminF32 u f) s = .next (ran s u (a.sput f.dst r))))) ∧
    (issues u .lanes f [.v f.src1, .s f.src2, .s f.dst] s = true → f.mod.toNat < 4 →
      ∃ r, exec (.rargmaxF32 u f) s = .next (ran s u (a.sput f.dst r))) ∧
    (issues u .lanes f [.s f.dst] s = true → f.src1.toNat < 8 → f.src2 = 0 → f.mod = 0 →
      (∃ r, exec (.rmcnt u f) s = .next (ran s u (a.sput f.dst r)) ∧ r.toNat ≤ 32) ∧
      (∃ r, exec (.rmfirst u f) s = .next (ran s u (a.sput f.dst r)) ∧ r.toNat ≤ 32)) ∧
    ∀ g : Fields, issues u .lanes g [.v g.src1, .s g.dst] s = true → g.mod = 0 → g.src2 = 0 →
      mxCode (g.imm.toNat / 16 % 16) = true → g.imm.toNat = 16 * (g.imm.toNat / 16 % 16) →
      ∃ r fl, exec (.rscale u g) s = .next (ran s u ((a.sput g.dst r).raiseV fl)) ∧ r.toNat ≤ 255

/-! ## The matrix arrays and the accumulator port -/

/-- R48, R124 to R126, R139: `mma` with its operands present and none of the faults of Table 5.7. A verdict is pending from
then on; in the default mode, up to 32,768 block sums since the output was cleared, each output adds the instruction's block sums
(R45 to R47) to its prior value, +0 under `.bx`, by FP32 additions in some order; memory and the other tiles keep their
contents.
R130, Table 5.7: the first fault of the table stops an `mma`, and an operand in a ring slot that is not there yet makes it
wait; neither changes a tile, a register or memory. -/
def Obligations.MatrixMultiply : Prop :=
  (∀ (u : StreamId) (f : Fields) (s : State), issues u .lane0 f [.s f.src1, .s f.src2, .s f.dst] s = true →
    let c := coreOf s u.lcid
    let x := slotOf s u
    let o := mmaOp f
    let a := (x.arch.sget f.src1).toNat
    let w := (x.arch.sget f.src2).toNat
    let base := wellBase u.lcid
    mmaFault c u.slot f o a w (x.arch.sget f.dst).toNat = none →
    notReady c u.slot [(a, (o.panelA a).len), (w, (o.panelW w).len)] = none →
    (∀ off ∈ mmaBytes o a w, badAt s (base + off) = false) →
    ∃ t, exec (.mma u f []) s = .next (publish s t) ∧ archOf t u = x.arch.advance ∧
      (∃ v, (slotOf t u).opn.verdicts = x.opn.verdicts ++ [v] ∧ v.aligned = pairAligned o.fa o.fw ∧
        v.tile = runTile s u.lcid ∧ v.pcore = runCore s u.lcid) ∧
      (∀ v, v ≠ u → slotOf t v = slotOf s v) ∧
      (o.dw = false → t.mem = s.mem) ∧
      (∀ k, k < o.t ∨ o.t + o.tiles ≤ k → fget {} k (coreOf t u.lcid).tiles = fget {} k c.tiles) ∧
      (o.dw = false → o.kc = false → ∀ j < o.nblocks, ∀ g < o.groups,
        let old : AccTile := if o.bx then {} else fget {} (o.tileOf j g) c.tiles
        let new : AccTile := fget {} (o.tileOf j g) (coreOf t u.lcid).tiles
        ∀ r < 64, ∀ n < 16,
          (64 * g + r < o.m → new.entered r n = old.entered r n + o.k / 32 ∧
            (blockCount old {} (o.k / 32) r n ≤ 32768 → ∃ order : List Nat, order.Perm (List.range (o.k / 32)) ∧ new.word r n =
              order.foldl (fun acc v => add32 acc
                (mmaBlock o (mmaRead o a w fun off => (byteAt s (base + off)).toNat) (64 * g + r) (16 * j + n) v))
                (old.word r n))) ∧
          (o.m ≤ 64 * g + r → new.word r n = old.word r n ∧ new.entered r n = old.entered r n))) ∧
  (∀ (u : StreamId) (f : Fields) (errs : List SymErr) (s : State),
    issues u .lane0 f [.s f.src1, .s f.src2, .s f.dst] s = true →
    let c := coreOf s u.lcid
    let x := slotOf s u
    let o := mmaOp f
    let a := (x.arch.sget f.src1).toNat
    let w := (x.arch.sget f.src2).toNat
    let d := (x.arch.sget f.dst).toNat
    (∀ st, mmaFault c u.slot f o a w d = some st → exec (.mma u f errs) s = .next (publish s (faulted s u st))) ∧
    (∀ k, mmaFault c u.slot f o a w d = none →
      notReady c u.slot [(a, (o.panelA a).len), (w, (o.panelW w).len)] = some k →
      exec (.mma u f errs) s = .next (publish s (park s u (.ring k true)))) ∧
    (o.fa < 14 → o.fw < 14 → pairExact o.fa o.fw = false → pairAligned o.fa o.fw = false →
      mmaFault c u.slot f o a w d = some 0x2001) ∧
    ((pairExact o.fa o.fw = true ∨ pairAligned o.fa o.fw = true) → o.ta = true ∨ o.tw = true → u.slot ≠ 1 →
      mmaFault c u.slot f o a w d = some 0x2001))

/-- R132 to R135: The accumulator port. `mclr` sets the masked tiles to +0, `mld` loads FP32 tile images from the own well,
`mdrain` and `mdrain.g` write images or gradient blocks into the filling slot, and with `.clr` the drained tiles become +0. -/
def Obligations.AccumulatorPort : Prop :=
  ∀ (u : StreamId) (f : Fields) (s : State),
    let c := coreOf s u.lcid
    let x := slotOf s u
    let base := wellBase u.lcid
    let at_ := (x.arch.sget f.src1).toNat
    let k0 := f.imm.toNat % 16
    let n := f.imm.toNat / 16 % 32
    let tile (t : State) (k : Nat) : AccTile := fget {} k (coreOf t u.lcid).tiles
    let frame (t : State) : Prop := archOf t u = x.arch.advance ∧ (∀ v, v ≠ u → slotOf t v = slotOf s v) ∧ t.regs = s.regs
    (issues u .lane0 f [] s = true → f.mod = 0 → f.dst = 0 → f.src1 = 0 → f.src2 = 0 → f.imm.toNat < 2 ^ 16 →
      (∀ k < 16, f.imm.getLsbD k = true → x.amask.getLsbD k = true) →
      ∃ t, exec (.mclr u f) s = .next t ∧ frame t ∧ t.mem = s.mem ∧
        (∀ k < 16, f.imm.getLsbD k = true → tile t k = {}) ∧
        ∀ k, 16 ≤ k ∨ f.imm.getLsbD k = false → tile t k = tile s k) ∧
    (issues u .lane0 f [.s f.src1] s = true → f.mod = 0 → f.dst = 0 → f.src2 = 0 → f.imm.toNat < 2 ^ 9 → 1 ≤ n →
      k0 + n ≤ 16 → at_ + 4096 * n ≤ scratch c → at_ % 64 = 0 → (∀ k, k0 ≤ k → k < k0 + n → x.amask.getLsbD k = true) →
      notReady c u.slot [(at_, 4096 * n)] = none → (∀ i < 4096 * n, badAt s (base + at_ + i) = false) →
      ∃ t, exec (.mld u f []) s = .next (publish s t) ∧ frame t ∧ t.mem = s.mem ∧
        (∀ i < n, ∀ e < 1024, (tile t (k0 + i)).w[e]? =
          some (BitVec.ofNat 32 (leNat (bytesAt s (base + at_ + 4096 * i + 4 * e) 4)))) ∧
        ∀ k, k < k0 ∨ k0 + n ≤ k → tile t k = tile s k) ∧
    (issues u .lane0 f [.s f.src1] s = true → f.dst = 0 → f.src2 = 0 → f.imm.toNat < 2 ^ 9 → f.mod.toNat < 16 → 1 ≤ n →
      at_ % 64 = 0 → s.wellPoison = [] →
      let kc := f.mod.getLsbD 0
      let bf := f.mod.getLsbD 1
      let per := if kc then 2 else 1
      k0 + n * per ≤ 16 → (kc = true → k0 % 2 = 0) → (∀ k, k0 ≤ k → k < k0 + n * per → x.amask.getLsbD k = true) →
      let left (t : State) : Prop :=
        (f.mod.getLsbD 3 = true → ∀ k, k0 ≤ k → k < k0 + n * per → tile t k = {}) ∧
        (f.mod.getLsbD 3 = false → (coreOf t u.lcid).tiles = c.tiles)
      (f.mod.getLsbD 2 = false →
        let len := if bf then 2048 else 4096
        at_ + n * len ≤ scratch c → inOneFill c u.slot at_ (n * len) = true →
        ∃ t, exec (.mdrain u ⟨f, []⟩) s = .next t ∧ frame t ∧ left t ∧
          bytesAt t (base + at_) (n * len) = (List.range n).flatMap (fun i => imageBytes bf (tileWords c.tiles (k0 + i * per) kc)) ∧
          ∀ addr, addr < base + at_ ∨ base + at_ + n * len ≤ addr → byteAt t addr = byteAt s addr) ∧
      (f.mod.getLsbD 2 = true → bf = false → u.slot = 1 →
        at_ + n * 4160 ≤ scratch c → inOneFill c u.slot at_ (n * 4160) = true →
        ∃ t, exec (.mdrainG u ⟨f, []⟩) s = .next t ∧ frame t ∧ left t ∧
          bytesAt t (base + at_) (n * 4160) = (List.range n).flatMap (fun i => Block.bytes
            (gradBlock c u x.opn.seq (fget 0 x.opn.seq x.replays) i (tileWords c.tiles (k0 + i * per) kc))) ∧
          ∀ addr, addr < base + at_ ∨ base + at_ + n * 4160 ≤ addr → byteAt t addr = byteAt s addr))

/-! ## What reaches slots and cores -/

/-- R378, R379, R389, R393: What a command shows beside its effect: snoops of cached mirror lines that changed and messages; a
command that changes no line, reason or READY shows nothing. Everything else stays. -/
def Obligations.WhatACommandShows : Prop :=
  ∀ (s t : State),
    let p := publish s t
    p = { t with snoops := p.snoops, out := p.out } ∧ (∃ more, p.out = t.out ++ more) ∧
    (∀ k, k ∈ p.snoops ↔ k ∈ t.snoops ∨ (k ∈ t.presence ∧ mirrorLine s k ≠ mirrorLine t k)) ∧
    (∀ k, k ∈ p.snoops → k ∉ t.snoops → Msg.snoop (.mirror k) ∈ p.out) ∧
    ((∀ k ∈ t.presence, mirrorLine s k = mirrorLine t k) → reasons s = reasons t → ready s = ready t → p = t) ∧
    (reasons s ≠ reasons t → Msg.mctp (moduleLine t) ∈ p.out ∧
      (rfld t 0x201000 6 1 = 1 → Msg.msix (rfld t 0x201000 0 6) ∈ p.out))

/-- R63, R65, R66, R77, R80, R82, R106, R110, R139, R177: Verdicts, retirement, and the limits of a slot's waits. A passed verdict
counts; a failed one is shown by the tile that produced the result and loses its core to quarantine; the CLOSED stitch that may
retire leaves its image as the retired one; an active-cycle or wait limit raises its fault, a load's at the load's own place. -/
def Obligations.SlotProgress : Prop :=
  ∀ (u : StreamId) (s : State),
    let x := slotOf s u
    let n := (coreOf s u.lcid).st.ctx
    (s.boot.resetPending = none → ∀ v y, takeVerdict x = some (v, y) →
      (v.injected = false →
        exec (.witnessVerdict u.lcid u.slot true) s = .next (publish s (putSlot s u { y with mPass := y.mPass + 1 }))) ∧
      ∀ pass, pass = false ∨ v.injected = true →
        let w := rput (rcount (putSlot s u y) (rTL v.tile 0x2800) 1) (rTL v.tile 0x2808)
          (v.pcore % 512 + u.slot % 4 * 2 ^ 9 + v.aligned.toNat * 2 ^ 11 + 2 ^ 31)
        (u.lcid ∈ ranBy w v.tile v.pcore →
          exec (.witnessVerdict u.lcid u.slot pass) s = .next (publish s (failWitness w v.tile v.pcore n))) ∧
        (u.lcid ∉ ranBy w v.tile v.pcore → exec (.witnessVerdict u.lcid u.slot pass) s = .next (publish s (replayLimit
          (discardSlot w u (x.closed.all fun c => c.st.verdicts.isEmpty) true) u.lcid)))) ∧
    (takeVerdict x = none → ∀ pass, exec (.witnessVerdict u.lcid u.slot pass) s = .next (publish s s)) ∧
    (∀ cl, x.closed = some cl → validStream u = true → s.boot.resetPending = none →
      (canRetire (coreOf s u.lcid) cl = false → exec (.stitchRetire u) s = .next (publish s s)) ∧
      (canRetire (coreOf s u.lcid) cl = true → ∃ t, exec (.stitchRetire u) s = .next (publish s t) ∧
        (slotOf t u).retired = cl.image ∧ (slotOf t u).closed = none ∧ (slotOf t u).retSeq = cl.st.seq + 1 ∧
        (slotOf t u).arch = x.arch ∧ (slotOf t u).opn = x.opn)) ∧
    (canIssue s u = true → x.active (coreOf s u.lcid) = true → exec (.stitchTooLong u) s =
      .next (publish s (faulted (putSlot s u { x with acyc := 2 ^ 20 }) u 0x2010))) ∧
    (waitCounts s u = true →
      (∀ id l, x.loads.find? (fun l => l.id == id) = some l → exec (.loadWaitLimit u id) s =
        .next (publish s (raiseAt s u 0x8004 l.pc l.seq))) ∧
      (∀ k read, x.wait = some (.ring k read) → racqReady (coreOf s u.lcid) k read = false →
        exec (.racqWaitLimit u) s = .next (publish s (faulted s u 0x8001))) ∧
      (∀ n d target, x.wait = some (.so n false d target) → soMet (soOf s n).v target = false →
        exec (.soWaitLimit u) s = .next (publish s (faulted (dropWait s n u) u 0x8002))) ∧
      (∀ n d target, x.wait = some (.so n true d target) → ∃ t, exec (.soWaitLimit u) s =
        .next (publish s (faulted t u 0x8003)) ∧ (∀ r ∈ t.casc.reqs, r.2.1 ≠ u) ∧ t.cores = s.cores)) ∧
    (waitCounts s u = false → ∀ id, exec (.loadWaitLimit u id) s = .next (publish s s) ∧
      exec (.racqWaitLimit u) s = .next (publish s s) ∧ exec (.soWaitLimit u) s = .next (publish s s)) ∧
    (∀ l d id, x.loads.find? (fun l => l.id == id) = some l → l.data = some d → l.bad = false → u.slot < 3 →
      seamHolds s (loadFrom s l.addr) (coreRouter u.lcid) = false → (tileOf s (runTile s u.lcid)).tier = .active →
      ∃ t, exec (.loadReturn u id) s = .next (publish s t) ∧
        archOf t u = putLoaded x.arch l.addr (fun a => (fget? a l.known).getD (fget 0 a d)) l.dst l.over_ ∧
        (slotOf t u).loads = x.loads.filter (fun k => k.id != id) ∧ (slotOf t u).phase = x.phase ∧ t.mem = s.mem ∧ t.regs = s.regs) ∧
    (canIssue s u = true → x.blocked (coreOf s u.lcid) = false → exec (.coreHang u) s =
      .next (publish s (failCore s (runTile s u.lcid) (runCore s u.lcid) 1)))

/-- R79, R110, R185, R323, R324: Fault reports, halts and signals that the mesh lets through arrive with the stamp their receiver
holds, or are dropped and counted in FN_GEN_DROP; a sender that still holds its stamp faults. A halt stops every bound slot; a
signal is added to its object, and the slot that waits for the sum goes on. The mesh keeps the order of one way (log 61). -/
def Obligations.StampedMessages : Prop :=
  ∀ (s : State) (u : StreamId) (status l so : Nat) (src : Site) (v : W64) (st : Stamp),
    let got (m : Msg) : State := { s with out := eraseOne m s.out }
    let dropped (m : Msg) : State := dropItem (got m)
    (streamStatus status = true → meshHolds s (.faultReport u status st) = false →
      (st.gen = 0 ∨ st ≠ ctxStamp s st.ctx →
        exec (.faultReport u status st) s = .next (publish s (dropped (.faultReport u status st)))) ∧
      (st.gen ≠ 0 → st = ctxStamp s st.ctx → ctxState s st.ctx = 3 →
        exec (.faultReport u status st) s = .next (publish s (got (.faultReport u status st)))) ∧
      (st.gen ≠ 0 → st = ctxStamp s st.ctx → ctxState s st.ctx ≠ 3 → exec (.faultReport u status st) s =
        .next (publish s (contextFault (got (.faultReport u status st)) st.ctx status)))) ∧
    (streamStatus status = false ∨ meshHolds s (.faultReport u status st) = true →
      exec (.faultReport u status st) s = .next (publish s s)) ∧
    (meshHolds s (.halt l st) = false → s.boot.resetPending = none →
      ((tileOf s (runTile s l)).tier = .active →
        (st.gen = 0 ∨ (coreOf s l).st ≠ st → exec (.haltArrive l st) s = .next (publish s (dropped (.halt l st)))) ∧
        (st.gen ≠ 0 → (coreOf s l).st = st → ∃ t, exec (.haltArrive l st) s = .next (publish s t) ∧
          ∀ i < 3, (slotOf t ⟨l, i⟩).bound = true → (slotOf t ⟨l, i⟩).phase = .halted ∨ (slotOf t ⟨l, i⟩).phase = .faulted)) ∧
      ((tileOf s (runTile s l)).tier = .pllOff → exec (.haltArrive l st) s = .next (publish s (rouse s (runTile s l))))) ∧
    (meshHolds s (.signal src so v st) = false →
      (st.gen ≠ 0 → (soOf s so).st = st → (∀ w ∈ (soOf s so).waits, soMet ((soOf s so).v + v) w.target = false) →
        exec (.soSignalArrive so v ⟨src, st⟩) s = .next (publish s { got (.signal src so v st) with
          sos := fset so { soOf s so with v := (soOf s so).v + v } s.sos })) ∧
      (∀ target d, st.gen ≠ 0 → (soOf s so).st = st → (soOf s so).waits = [.slot u target] →
        soMet ((soOf s so).v + v) target = true → slotLive s u = true → (slotOf s u).wait = some (.so so false d target) →
        (tileOf s (runTile s u.lcid)).tier = .active →
        exec (.soSignalArrive so v ⟨src, st⟩) s = .next (publish s (ran { got (.signal src so v st) with
            sos := fset so { soOf s so with v := (soOf s so).v + v, waits := [] } s.sos } u
          ((archOf s u).sput d ((soOf s so).v + v))))) ∧
      (st.gen = 0 ∨ ((soOf s so).st ≠ st ∧ (st ≠ heldStamp s st.ctx ∨ ctxState s st.ctx = 3)) →
        exec (.soSignalArrive so v ⟨src, st⟩) s = .next (publish s (dropped (.signal src so v st)))) ∧
      (st.gen ≠ 0 → (soOf s so).st ≠ st → st = heldStamp s st.ctx → ctxState s st.ctx ≠ 3 →
        exec (.soSignalArrive so v ⟨src, st⟩) s = .next (publish s (contextFault (dropped (.signal src so v st)) st.ctx 0x6101)))) ∧
    (meshHolds s (.signal src so v st) = true → exec (.soSignalArrive so v ⟨src, st⟩) s = .next (publish s s)) ∧
    rget (dropItem s) (rFN 0xA00) = min (rget s (rFN 0xA00) + 1) (2 ^ 32 - 1)

/-! ## Provisional data -/

/-- R74 to R77, R173, R305 to R307: Messages about provisional data, inside the module and from other modules. A vouch leaves
once its block may be vouched for; a message acts on the ring slots that hold its data, is held until its blocks are written, and
is dropped for data treated as retracted; data without a vouch in time is treated as retracted.
R297, R302, R305 to R307, R318: Control frames about data sent to other modules act while the cascade is active, with its
generation and no older term; an older one only leaves the inbox, and one of another generation is counted at its port. An
acknowledged confirmation frees the forward list; a drop notice ends the descriptor that sent the frame; a resend sends the source
block again. A newer term is kept, and what it says of the master acts before the frame does. -/
def Obligations.ProvisionalData : Prop :=
  (∀ (s : State) (l : Nat) (tags : Tags) (k smod win : Nat) (st : Stamp),
    let self := s.casc.self
    let c := coreOf s l
    let es := slotsOf c tags smod
    let got (m : Msg) : State := { s with out := eraseOne m s.out }
    let vouched (x : RSlot) : RSlot := if x.ords.contains k then x.vouch k else x
    (∀ tile i e, (tileOf s tile).fwd[i]? = some e → e.vouched = false → e.clean = true → e.remote = none →
      stitchPoisoned (slotOf s ⟨e.tags.lcid, e.tags.slot⟩) e.tags.seq = false →
      (e.mAt ≤ (slotOf s ⟨e.tags.lcid, e.tags.slot⟩).mPass → exec (.vouchSend tile i) s =
        .next (publish s (emit (putTile s tile { tileOf s tile with fwd := (tileOf s tile).fwd.set i { e with vouched := true } })
          (.vouch e.lcid e.tags e.ord e.st)))) ∧
      ((slotOf s ⟨e.tags.lcid, e.tags.slot⟩).mPass < e.mAt → exec (.vouchSend tile i) s = .next (publish s s))) ∧
    (∀ m, smod = self → c.retracted.contains tags = true → takeProv s l tags smod win m = s) ∧
    (∀ m, (smod ≠ self ∨ c.retracted.contains tags = false) → m.due (ordsOf c tags smod) = false →
      takeProv s l tags smod win m = putCore s l { c with heldMsgs := c.heldMsgs ++ [m.held tags smod win] }) ∧
    ((smod ≠ self ∨ c.retracted.contains tags = false) →
      ((ordsOf c tags smod).contains k = true →
        takeProv s l tags smod win (.vouch k) = putCore s l (modSlots vouched es c)) ∧
      (k ≤ (ordsOf c tags smod).length →
        (let s1 := rouseReady (putCore s l (modSlots confirmSlot es (forgetTags c tags smod))) l
         takeProv s l tags smod win (.confirm k) = (if smod = self then s1 else sendFrame s1 smod
            { ty := 2, code := 9, byte1 := win, n := k, spec := tagBytes tags })) ∧
        takeProv s l tags smod win (.retract k) =
          replayLimit (retractSlots (putCore s l (forgetTags c tags smod)) l es) l)) ∧
    (st.gen ≠ 0 → c.st = st → meshHolds s (.vouch l tags k st) = false → meshHolds s (.confirm l tags k st) = false →
      meshHolds s (.retract l tags k st) = false →
      exec (.vouchArrive l tags k st) s = .next (publish s (takeProv (got (.vouch l tags k st)) l tags self 0 (.vouch k))) ∧
      exec (.confirmationArrive l tags k st) s =
        .next (publish s (takeProv (got (.confirm l tags k st)) l tags self 0 (.confirm k))) ∧
      exec (.retractionArrive l tags k st) s =
        .next (publish s (takeProv (got (.retract l tags k st)) l tags self 0 (.retract k)))) ∧
    (st.gen = 0 → meshHolds s (.vouch l tags k st) = false →
      exec (.vouchArrive l tags k st) s = .next (publish s (dropItem (got (.vouch l tags k st))))) ∧
    ((∃ e ∈ slotsOf c tags self, ∃ o ∈ (c.rslot e).ords, o ∉ (c.rslot e).vords) → exec (.vouchTimeout l tags) s =
      .next (publish s (timeoutTags (putCore s l { c with retracted := c.retracted ++ [tags] }) l tags self))) ∧
    ((∀ e ∈ slotsOf c tags self, ∀ o ∈ (c.rslot e).ords, o ∈ (c.rslot e).vords) → exec (.vouchTimeout l tags) s = .next (publish s s)) ∧
    (∀ port, smod ≠ self → (∃ e ∈ es, (c.rslot e).vouched = false) → exec (.akgonProvTimeout l tags smod port) s =
      .next (publish s ((es.flatMap fun e => (c.rslot e).ords.map fun o => (o, (c.rslot e).win)).foldl (fun t a =>
          sendFrame t smod { ty := 2, code := 8, byte1 := a.2, n := a.1, spec := tagBytes tags })
        (timeoutTags (rcountF s (rAK port 0x14) 16 16 1) l tags smod))))) ∧
  (∀ (s : State) (fr : Frame) (l : Nat),
    let got : State := { s with inbox := eraseOne fr s.inbox }
    let c : State := hearTerm got fr
    let tags := tagsOf fr.spec
    let tile := tags.lcid / 256
    (fr.term = s.casc.term → fr.code ≠ 0x1C → c = got) ∧
    (s.casc.term < fr.term → fr.ty = 2 → c.casc.term = fr.term ∧ (fr.code = 0x1C → c.casc.master = fr.smod)) ∧
    (s.casc.active = true → fr.cgen ≠ s.casc.cgen → exec (.akgonVouch l fr) s =
      .next (publish s (rcountF got (rAK (fr.port.getD 0) 0x18) 0 16 1))) ∧
    ((s.casc.active = false ∨ (fr.cgen = s.casc.cgen ∧ fr.term < s.casc.term)) →
      ∀ cmd ∈ ([.akgonVouch l fr, .akgonConfirmation l fr, .akgonRetraction l fr, .akgonResend fr, .confirmationAck fr,
          .dropNotice fr, .cascadeSignal fr, .cascadeWaitRead fr, .cascadeAnswer fr, .takeover fr, .ack fr, .release fr,
          .rejoin fr] : List Instr),
        exec cmd s = .next (publish s got)) ∧
    (s.casc.active = true → fr.cgen = s.casc.cgen → s.casc.term ≤ fr.term →
      exec (.akgonVouch l fr) s = .next (publish s (takeProv c l tags fr.smod fr.byte1 (.vouch fr.n))) ∧
      exec (.akgonConfirmation l fr) s = .next (publish s (takeProv c l tags fr.smod fr.byte1 (.confirm fr.n))) ∧
      exec (.akgonRetraction l fr) s = .next (publish s (takeProv (rcountF c (rAK (fr.port.getD 0) 0x14) 0 16 1)
        l tags fr.smod fr.byte1 (.retract fr.n))) ∧
      ((∀ j ∈ (tileOf c tile).jobs, j.desc.dkind ≠ 3) → exec (.confirmationAck fr) s = .next (publish s (putTile c tile
        { tileOf c tile with fwd := (tileOf c tile).fwd.filter fun e => !(e.tags == tags && e.remote == some fr.smod) }))) ∧
      (∀ u j, j ∈ jobsOf c u → j.phase = .running → j.desc.dkind = 3 → j.desc.dmod = fr.smod → j.desc.win = leAt fr.spec 4 1 →
        j.desc.first ≤ leAt fr.spec 8 4 → leAt fr.spec 12 4 ∈ j.dseqs → pumpUnits c = [u] → jobsOf c u = [j] →
        exec (.dropNotice fr) s = .next (publish s (endJob c u j (leAt fr.spec 0 2)))) ∧
      ((∀ u j, j ∈ jobsOf c u → leAt fr.spec 12 4 ∉ j.dseqs) → exec (.dropNotice fr) s = .next (publish s c)) ∧
      (∀ j w e, (tileOf c tile).fwd = [e] → e.tags = tags → e.ord = fr.n → e.remote = some fr.smod → e.vouched = false →
        tagsRetired c tags = false → jobsOf c tile = [j] → j.desc.dkind = 3 → j.desc.dmod = fr.smod → j.lcid = tags.lcid →
        j.wait = [w] → w.prov = some fr.n → w.prod = some ⟨tags.slot, tags.lcid, tags.seq, tags.replay⟩ →
        let wgen := (match (ctxOf c j.st.ctx).run with | some r => r.epoch | none => j.epoch) % 2 ^ 16
        exec (.akgonResend fr) s = .next (publish s (sendData c fr.smod 3 j.desc.win (j.desc.first + w.bidx)
          { (buildBlock c j w.piece w.prod w.bidx).1 with wgen := wgen, prov := true, pord := fr.n })))))

/-! ## Failures of parts -/

/-- R80 to R84, R350 to R353, R356: Cores, wells, tiles and regions fail. A free spare core is fenced with its cause and nothing
more; an active core is lost to an adopting spare or a survivor, else its tile fails; quarantine ends by its result; a reported
failure of a part already failed, or of none, changes nothing.
R227, R232, R357, R363, R364, R368, R369, R410: Channels, cisterns and carrier links fail, host cores switch, bursts stall. -/
def Obligations.FailuresOfUnits : Prop :=
  (∀ (s : State) (t p cause r w : Nat) (v : W32),
    (t < 64 → p < 264 → 1 ≤ cause → cause ≤ 5 → pcoreState s t p = 1 →
      exec (.coreFailure t p cause) s = .next (publish s (setPcore s t p 2 cause)) ∧
      (v.getLsbD 31 = true → exec (.tlPcoreFence t p v) s = .next (publish s (setPcore s t p 2 5)))) ∧
    (t < 64 → p < 264 → cause < 256 → ∀ b ∈ [2, 3],
      pcoreState (setPcore s t p b cause) t p = b ∧ rfld (setPcore s t p b cause) (rPcore t p) 16 8 = cause ∧
      rfld (setPcore s t p b cause) (rPcore t p) 0 9 = 0x1FF ∧ (setPcore s t p b cause).mem = s.mem ∧
      (setPcore s t p b cause).cores = s.cores) ∧
    (t < 64 → p < 264 → 1 ≤ cause → cause ≤ 5 → pcoreState s t p = 0 → ∀ l, servedBy s t p = some l →
      let lost := (guestsOf s l).foldl (fun s g => replayLimit (discardCore s g true) g) (setPcore s t p 2 cause)
      (∀ u, rehome lost t l true = some u → exec (.coreFailure t p cause) s = .next (publish s u)) ∧
      (rehome lost t l true = none → exec (.coreFailure t p cause) s = .next (publish s (failTile lost t)))) ∧
    (t < 64 → p < 264 → pcoreState s t p = 2 → exec (.coreFailure t p cause) s = .next (publish s s)) ∧
    (v.getLsbD 31 = false → exec (.tlPcoreFence t p v) s = .next (publish s s)) ∧
    (t < 64 → p < 264 → pcoreState s t p = 3 →
      (∃ u, exec (.quarantineResult t p true) s = .next (publish s u) ∧ pcoreState u t p = 1 ∧
        rfld u (rPcore t p) 12 1 = ((fget? p (tileOf s t).probation).isSome).toNat ∧ u = { s with regs := u.regs }) ∧
      exec (.quarantineResult t p false) s = .next (publish s (if (freeSpare (setPcore s t p 2 4) t).isNone
        then raiseReason (setPcore s t p 2 4) 1 else setPcore s t p 2 4))) ∧
    (t < 64 → p < 264 → rfld s (rTL t 0x280C) 17 1 = 0 → v.toNat % 512 = p → ∃ u, exec (.tlWitInjArm t v) s = .next (publish s u) ∧
      rfld u (rTL t 0x280C) 0 9 = p ∧ u = { s with regs := u.regs } ∧
      (rfld u (rTL t 0x280C) 17 1 = 1 ↔ v.getLsbD 16 = true ∧ pcoreBound s t p = true)) ∧
    (t < 64 → (tileOf s t).fenced = false → exec (.tileFailure t) s =
      .next (publish s (fenceTiles (defectAppend s 2 (t * 2 ^ 21)) [t] [regionOfTile t]))) ∧
    ((tileOf s t).fenced = true → exec (.tileFailure t) s = .next (publish s s)) ∧
    (t < 64 → w < 264 → (tileOf s t).failedWells.contains w = false → (∀ l, t * 256 ≤ l → l < t * 256 + 256 → pwellOf s l ≠ w) →
      ∃ u, exec (.wellFailure t w) s = .next (publish s u) ∧ (tileOf u t).failedWells.contains w = true ∧ u.mem = s.mem ∧
        u.cores = s.cores) ∧
    (r < 16 → rfld s 0x800C r 1 = 0 → exec (.powerRegionFault r) s = .next (publish s (failRegion s r))) ∧
    (r < 16 → rfld s 0x800C r 1 = 1 → exec (.powerRegionFault r) s = .next (publish s s)) ∧
    (r < 16 → rfld s (rPW (0x100 + 4 * r)) 0 2 ≠ 3 → exec (.regionUndervoltage r) s = .next (publish s (fenceTiles (portReason
      ((regionTiles r).foldl portOut (rsetf (rsetf s (rPW (0x100 + 4 * r)) 0 2 3) (rPW (0x100 + 4 * r)) 3 1 1)))
      (regionTiles r) [r])))) ∧
  (∀ (s : State) (j k h unit job : Nat) (v : W32),
    (j < 24 → (cistOf s j).fenced = false → ∃ t, exec (.cisternFailure j) s = .next (publish s t) ∧ (cistOf t j).fenced = true ∧
      (∀ c, 16 * j ≤ c → c < 16 * j + 16 → chanState t c ≠ 0) ∧ t.mem = s.mem ∧ t.cores = s.cores) ∧
    ((cistOf s j).fenced = true → exec (.cisternFailure j) s = .next (publish s s)) ∧
    (j < 24 → k < 16 → v.getLsbD 31 = true → chanState s (16 * j + k) = 0 → ∃ t,
      exec (.csChanRetire j k v) s = .next (publish s t) ∧ chanState t (16 * j + k) = 1 ∧
      rfld t (rChan (16 * j + k)) 4 4 = 5 ∧ t.mem = s.mem ∧ t.cores = s.cores) ∧
    (v.getLsbD 31 = false → exec (.csChanRetire j k v) s = .next (publish s s)) ∧
    (∀ link, (∀ n c, link ≠ .stack n c) → link ∉ s.boot.linksDown → ∃ t, exec (.carrierLinkFailure link) s = .next (publish s t) ∧
      t.boot.linksDown = s.boot.linksDown ++ [link] ∧ rfld t 0x8008 24 1 = 1 ∧ t.mem = s.mem ∧ t.cores = s.cores) ∧
    (∀ n i, n < 96 → i < 4 → chanState s (4 * n + i) = 0 → ∃ t, exec (.carrierLinkFailure (.stack n i)) s = .next (publish s t) ∧
      chanState t (4 * n + i) = 1 ∧ (∀ c < 384, c ≠ 4 * n + i → chanState t c = chanState s c) ∧ t.mem = s.mem) ∧
    (guestsOf s h = [] → exec (.hostCoreSwitch h) s = .next (publish s s)) ∧
    (∀ g a b, guestsOf s h = [g] → g ≠ h → (a = h ∧ b = g) ∨ (a = g ∧ b = h) → (coreOf s a).out = false → (coreOf s b).out = true →
      (maySwitch (coreOf s a) = true → exec (.hostCoreSwitch h) s = .next (publish s (putCore
        (putCore s a { coreOf s a with out := true }) b { coreOf s b with out := false, ran := 0 }))) ∧
      (maySwitch (coreOf s a) = false → exec (.hostCoreSwitch h) s = .next (publish s s))) ∧
    (∀ d, jobOf s unit job = some d → d.phase = .running →
      (d.stalled = false → exec (.stalledBurst unit job) s = .next (publish s
        (putJob { s with boot := { s.boot with stalls := stalledJobs s ++ [(unit, d.id)] } } unit { d with stalled := true }))) ∧
      (d.stalled = true → exec (.stalledBurst unit job) s = .next (publish s s)) ∧
      exec (.stallResume unit job) s =
        .next (publish s (putJob (if unit < 64 then rouse s unit else s) unit { d with stalled := false }))) ∧
    (rfld s 0x8020 0 16 ≠ 0 → stallCount s ≠ 0 → ∃ t, exec .stalledEvent s = .next (publish s t) ∧
      t.boot.stalledEvents = (s.boot.stalledEvents + 1) % 2 ^ 64 ∧ rfld t 0x8024 23 1 = 1 ∧ t.mem = s.mem ∧ t.cores = s.cores) ∧
    (rfld s 0x8020 0 16 = 0 ∨ stallCount s = 0 → exec .stalledEvent s = .next (publish s s)) ∧
    (j < 24 → exec (.cisternThrottle j) s = .next (publish s (putCist s j { cistOf s j with throttled := true })) ∧
      exec (.cisternThrottleRelease j) s = .next (publish s (putCist s j { cistOf s j with throttled := false }))))

/-! ## Patrols, repair, pumps and cisterns -/

/-- R166, R167, R178, R183, R214, R228: Patrol periods of wells and cisterns, the gather buffer, flit retries, and the repair
unit's commands. A patrol that met no error changes no memory; a period with no free cycles sets the missed bit. -/
def Obligations.PatrolAndRepair : Prop :=
  ∀ (s : State) (t j l line : Nat) (missed avail ok : Bool),
    (t < 64 → exec (.flitRetry t) s = .next (publish s (rcount s (rTL t 0x3800) 1))) ∧
    (let w := putTile s t { tileOf s t with patrol := rfld s (rTL t 0x300C) 0 8 }
     t < 64 → ((tileOf s t).patrol ≠ 0 → exec (.wellPatrol t [] missed) s =
        .next (publish s (if missed then rsetf w (rTL t 0x300C) 16 1 1 else w))) ∧
      ((tileOf s t).patrol = 0 → exec (.wellPatrol t [] missed) s = .next (publish s w))) ∧
    (∀ e b, s.wellPoison = [] → (coreOf s l).gather = [⟨64 * line, [(e, b)]⟩] → e < 64 → l < 16384 → 64 * line < 0x400000 →
      ∃ u, exec (.gatherLineFlush l line []) s = .next (publish s u) ∧ (coreOf u l).gather = [] ∧
        byteAt u (wellBase l + 64 * line + e) = b ∧
        (∀ a, a ≠ wellBase l + 64 * line + e → byteAt u a = byteAt s a) ∧ u.regs = s.regs) ∧
    (j < 24 → (cistOf s j).period ≠ 0 → (∀ c, (chanSt s c).ceSeen = []) → ∃ u,
      exec (.cisternPatrol j [] missed) s = .next (publish s u) ∧ (cistOf u j).period = rfld s (rCS j 0x220) 0 8 ∧
      u.mem = s.mem ∧ u.lpPoison = s.lpPoison ∧ (missed = true → rfld u (rCS j 0x220) 8 1 = 1)) ∧
    (j < 24 → (cistOf s j).period = 0 → exec (.cisternPatrol j [] missed) s =
      .next (publish s (putCist s j { cistOf s j with period := rfld s (rCS j 0x220) 0 8 }))) ∧
    (j < 24 → (cistOf s j).pprBusy = none →
      (ready s = false → ∃ u, exec (.pprRepair j) s = .next (publish s u) ∧ rfld u (rCS j 0x308) 0 1 = 1 ∧
        (cistOf u j).pprBusy = some (true, rget s (rCS j 0x300))) ∧
      (ready s = true → exec (.pprRepair j) s = .next (publish s (rsetf s (rCS j 0x308) 2 1 1))) ∧
      ∃ u, exec (.pprQuery j) s = .next (publish s u) ∧ rfld u (rCS j 0x308) 0 1 = 1 ∧
        (cistOf u j).pprBusy = some (false, rget s (rCS j 0x300))) ∧
    (j < 24 → (cistOf s j).pprBusy ≠ none →
      exec (.pprRepair j) s = .next (publish s (rsetf s (rCS j 0x308) 2 1 1)) ∧
      exec (.pprQuery j) s = .next (publish s (rsetf s (rCS j 0x308) 2 1 1))) ∧
    (∀ sel, j < 24 → (cistOf s j).pprBusy = some (false, sel) → ∃ u, exec (.pprComplete j ok avail) s = .next (publish s u) ∧
      (cistOf u j).pprBusy = none ∧ rfld u (rCS j 0x308) 0 1 = 0 ∧ rfld u (rCS j 0x308) 1 1 = 1 ∧
      rfld u (rCS j 0x308) 4 1 = avail.toNat) ∧
    (∀ sel, j < 24 → (cistOf s j).pprBusy = some (true, sel) → ∃ u, exec (.pprComplete j true avail) s = .next (publish s u) ∧
      (cistOf u j).pprBusy = none ∧ rfld u (rCS j 0x308) 1 1 = 1 ∧
      rowNumber (selChan j sel) (Config.bankRow (selChan j sel) (bitsAt sel 4 4) (bitsAt sel 8 18)) ∈
        (chanSt u (selChan j sel)).repaired)

/-- R200, R201, R206, R323: A block reaches the ingress unit of a core. With a stale stamp it is dropped; with a failed check it
is asked for again, at most three times; a good block fills the slot reserved for it. -/
def Obligations.BlockAtIngress : Prop :=
  ∀ (s : State) (d : Carriage) (b : Block) (l ring : Nat), d.dest = .ring l ring → l < 16384 →
    meshHolds s (.block d b) = false → (tileOf s (l / 256)).tier = .active → (tileOf s (runTile s l)).tier = .active →
    let c := coreOf s l
    let got : State := { s with out := eraseOne (.block d b) s.out }
    (c.st.gen = 0 ∨ c.st ≠ ⟨b.ctx, b.gen⟩ → exec (.tensorBlockArrive d b) s = .next (publish s (dropBlock got d))) ∧
    (c.st.gen ≠ 0 → c.st = ⟨b.ctx, b.gen⟩ → b.prov = false → Block.good b = false →
      triesOf (tileOf s (l / 256)).tries (d.unit + 128 * l) d.job (placeOf d b) < 3 →
      ∃ t, exec (.tensorBlockArrive d b) s = .next (publish s t) ∧ .resend d.unit d.job (placeOf d b) d.st ∈ t.out ∧
        rget t (rTL (l / 256) 0x3804) = min (rget s (rTL (l / 256) 0x3804) + 1) (2 ^ 32 - 1) ∧ t.mem = s.mem ∧ t.cores = s.cores) ∧
    (∀ r i x, c.st.gen ≠ 0 → c.st = ⟨b.ctx, b.gen⟩ → b.prov = false → Block.good b = true → b.poison = false → c.heldMsgs = [] →
      c.ring? ring = some r → r.slots = [(i, x)] → x.st = .filling → x.carr = some (d.unit, d.job, d.slotNo) →
      x.got = [] → x.need = 1 → (∀ q, jobOf s d.unit d.job ≠ some q) →
      ∃ t, exec (.tensorBlockArrive d b) s = .next (publish s t) ∧
        (∃ r', (coreOf t l).ring? ring = some r' ∧ (r'.slot i).st = .full ∧ (r'.slot i).carr = none) ∧ t.regs = s.regs)

/-- R105, R106, R213, R218 to R220, R222, R227, R323, R324: Requests that the mesh has brought to a cistern. A load's data are read;
a store, an `amoadd` and a block enter the LPDDR range whose stamp they carry; a failed channel drops them and counts one; a stale
stamp drops them. A request that the mesh still holds changes nothing. -/
def Obligations.CisternRequests : Prop :=
  ∀ (s : State) (cn src a c : Nat) (st : Stamp) (v : W64) (n : Nat) (rg : RangeE), regionOf s a = .lpddr c → a % 64 = 0 →
    s.stagingSnoops = [] → s.snoopFilter = [] → s.lpPoison = [] → zeroPage s c a = false → rangeOwner s a = some (n, rg) →
    (ctxOf s n).settle = [] →
    let got (m : Msg) : State := { s with out := eraseOne m s.out }
    let word : List W8 := leBytes 8 v.toNat
    (∀ r, meshHolds s (.mem cn r) = true → exec (.cisternRequest cn r []) s = .next (publish s s)) ∧
    (let m : MemReq := .store src [(a, word)] st
     meshHolds s (.mem cn m) = false →
      (st = heldStamp s n → chanState s c = 0 → ∃ t,
        exec (.cisternRequest cn m []) s = .next (publish s t) ∧ bytesAt t a 8 = word ∧
        (∀ x, x < a ∨ a + 8 ≤ x → byteAt t x = byteAt s x) ∧ t.regs = s.regs ∧ t.cores = s.cores) ∧
      (st = heldStamp s n → chanState s c = 1 →
        exec (.cisternRequest cn m []) s = .next (publish s (rcount (got (.mem cn m)) (rCS (c / 16) 0x210) 1))) ∧
      (st ≠ heldStamp s n → st.gen = 0 ∨ st ≠ heldStamp s st.ctx ∨ ctxState s st.ctx = 3 →
        exec (.cisternRequest cn m []) s = .next (publish s (dropItem (got (.mem cn m)))))) ∧
    (∀ u id x, (slotOf s u).loads.find? (fun k => k.id == id) = some x → u.slot < 3 → (coreOf s u.lcid).st = st → x.lines = [] →
      x.known = [] → (∀ y ∈ dstBytes x.addr x.dst, badAt s y = false) → meshHolds s (.mem cn (.load u id st)) = false → ∃ t y,
      exec (.cisternRequest cn (.load u id st) []) s = .next (publish s t) ∧ y ∈ (slotOf t u).loads ∧ y.id = id ∧ y.bad = false ∧
      y.data = some ((dstBytes x.addr x.dst).eraseDups.map fun k => (k, byteAt s k)) ∧ t.mem = s.mem ∧ t.regs = s.regs) ∧
    (st = heldStamp s n → chanState s c = 0 → ∀ ty, meshHolds s (.amo cn src a ty v st) = false → ∃ t,
      exec (.cisternAmoadd cn src a ⟨ty, v⟩ st []) s = .next (publish s t) ∧
      leNat (bytesAt t a (amoWidth ty)) = amoSum ty (leNat (bytesAt s a (amoWidth ty))) v.toNat ∧
      (∀ x, x < a ∨ a + amoWidth ty ≤ x → byteAt t x = byteAt s x) ∧ t.regs = s.regs ∧ t.cores = s.cores) ∧
    (∀ d b, d.dest = .range a → d.draw = false → b.bidx = d.first → (rg.mark = 1 ∨ rg.mark = 2) →
      (∀ q, jobOf s d.unit d.job ≠ some q) → meshHolds s (.mem cn (.block d b)) = false →
      (heldStamp s n ≠ ⟨b.ctx, b.gen⟩ → exec (.blockAdd cn d b []) s =
        .next (publish s (dropItem (got (.mem cn (.block d b)))))) ∧
      (heldStamp s n = ⟨b.ctx, b.gen⟩ → chanState s c = 1 → exec (.blockAdd cn d b []) s =
        .next (publish s (rcount (got (.mem cn (.block d b))) (rCS cn 0x210) 1))) ∧
      (heldStamp s n = ⟨b.ctx, b.gen⟩ → (∀ i < 4160, chanState s (chanOf (a + i)) = 0) → Block.good b = true →
        (ctxOf s n).run = none → b.fmt = (if rg.mark = 1 then 0x10 else 0x12) → (a - rg.base) % 4160 = 0 → ∃ w, w.regs = s.regs ∧
        w.mem = s.mem ∧ exec (.blockAdd cn d b []) s = .next (publish s (blockSum w n a rg.mark b)))) ∧
    (∀ blocks, rg.covers a (4160 * blocks) = true → (∀ i < blocks, settleHolds s (a + 4160 * i) = false) →
      (ctxOf s n).zeroing = [] → (ctxOf s n).run = none → exec (.zeroFill n a blocks) s =
        .next (publish s (let z := (List.range blocks).foldl (fun t i => zeroBlock t n (a + 4160 * i) rg.mark i) s
          putCtx z n (ctxOf z n))))

/-! ## Entries of the command rings -/

/-- R113, R114, R340, R384, R386: The next entry of a ring that takes one is read and accepted or refused. An entry with a wrong
sequence number, flag or reserved byte is refused with 0x1701, one whose words are wrong with the status of its first bad word;
a refused entry changes nothing but the ring's next sequence number, its refused bit and its record. -/
def Obligations.EntryAcceptance : Prop :=
  ∀ (s : State) (r : Nat),
    let seq := rget64 s (rHC r 0x28)
    let raw := bytesAt s (rget64 s (rHC r 0) + seq % ringSize s r * 128) 128
    (ringTakes s r = false → ∀ errs, exec (.entryAcceptance ⟨r, errs⟩) s = .next (publish s s)) ∧
    (ringTakes s r = true →
      ((leAt raw 0 8 ≠ seq ∨ 3 < leAt raw 8 1 ∨ zeroAt raw 9 7 = false) →
        exec (.entryAcceptance ⟨r, []⟩) s = .next (publish s (refuseEntry s r seq 0xFF 0x1701))) ∧
      (leAt raw 0 8 = seq → leAt raw 8 1 ≤ 3 → zeroAt raw 9 7 = true →
        (∀ st, formRun (entryWords raw) {} = .refuse st →
          exec (.entryAcceptance ⟨r, []⟩) s = .next (publish s (refuseEntry s r seq 0xFF st))) ∧
        (∀ op a b d f st, op ≠ 0xE2 → formRun (entryWords raw) {} = .cmd op a b d f → cmdRefusal s op a b d f.imm.toNat = some st →
          exec (.entryAcceptance ⟨r, []⟩) s = .next (publish s (refuseEntry s r seq (ctxByte op a) st))) ∧
        (∀ a b d f, formRun (entryWords raw) {} = .cmd 0xE6 a b d f → cmdRefusal s 0xE6 a b d f.imm.toNat = none →
          journalRoom s 0 = true → ∃ t e, exec (.entryAcceptance ⟨r, []⟩) s = .next (publish s t) ∧ t.accepted = s.accepted ++ [e] ∧
            e.ring = r ∧ e.seq = seq ∧ e.op = 0xE6 ∧ e.a = a ∧ e.b = b ∧ e.phase = .queued ∧ t.cores = s.cores ∧
            (seq + 1 < 2 ^ 64 → rget64 t (rHC r 0x28) = seq + 1)))) ∧
    (∀ ctx st, seq + 1 < 2 ^ 64 → r < 64 → rget64 (refuseEntry s r seq ctx st) (rHC r 0x28) = seq + 1 ∧
      rfld (refuseEntry s r seq ctx st) (rHC r 0x24) 2 1 = 1 ∧ (refuseEntry s r seq ctx st).accepted = s.accepted ∧
      (refuseEntry s r seq ctx st).cores = s.cores ∧ (refuseEntry s r seq ctx st).ctxs = s.ctxs)

/-- R240, R242, R255, R319, R320, R325, R329, R330: `bind`, `load` and `step` begin when no earlier entry of their context is
left; `bind` and `load` show busy, advance the generation and wait for the drain of old items; a step records its start and runs
its cores; a request joins its batch. -/
def Obligations.ContextCommands : Prop :=
  ∀ (s : State) (ring seq n : Nat) (e : Entry), e.ctx = n → n < 64 →
    let g := ctxGen s n
    let items (t : State) : Bool := itemsLeft t n (· != ctxGen t n) || engineItems t n
    let shownBusy := rsetf (rsetf s (rFnCtx n) 16 16 (nextGen g)) (rFnCtx n) 2 1 1
    (mayBeginCtx s ring seq 0xE0 = some e →
      let s1 := stopJobs (haltSlots shownBusy n false) n
      (items s1 = true → exec (.bind ring seq) s =
        .next (publish s (putEntry (putCtx s1 n { ctxOf s1 n with drain := some (e.ring, e.seq) }) { e with phase := .draining }))) ∧
      (items s1 = false → exec (.bind ring seq) s = .next (publish s (finishBind s1 e)))) ∧
    (mayBeginCtx s ring seq 0xE0 = none → exec (.bind ring seq) s = .next (publish s s)) ∧
    (mayBeginCtx s ring seq 0xE1 = some e →
      (items shownBusy = true → exec (.load ring ⟨seq, []⟩) s = .next (publish s (putEntry
        (putCtx shownBusy n { ctxOf shownBusy n with drain := some (e.ring, e.seq) }) { e with phase := .draining }))) ∧
      (items shownBusy = false →
        exec (.load ring ⟨seq, []⟩) s = .next (publish s (finishLoad shownBusy e)))) ∧
    (mayBeginCtx s ring seq 0xE1 = none → exec (.load ring ⟨seq, []⟩) s = .next (publish s s)) ∧
    (ctxGen shownBusy n = (if g < 0xFFFF then g + 1 else 1) ∧ rfld shownBusy (rFnCtx n) 2 1 = 1) ∧
    (∀ p, mayBegin s ring seq 0xE2 = some e → (ctxOf s n).pat = some p → rfld s (rFnStat 1) 0 2 = 2 →
      (p.training = true → ctxBefore s e = [] → haltsPending s n = false → (ctxOf s n).dead = none → ∃ t r,
        exec (.step ring seq) s = .next (publish s t) ∧ (ctxOf t n).run = some r ∧ r.epoch = e.epoch ∧
        r.nmb = leAt e.copy1 2 2 ∧ r.lost = [] ∧ r.layer = 1 ∧ r.pass = 0 ∧ rfld t (rFnCtx n) 2 1 = 1) ∧
      (p.training = true → ctxBefore s e ≠ [] → exec (.step ring seq) s = .next (publish s s)) ∧
      (p.training = false → (∀ x ∈ ctxBefore s e, x.op = 0xE2 ∧ x.phase ≠ .queued) → (ctxOf s n).dead = none → ∃ t,
        exec (.step ring seq) s = .next (publish s t) ∧
        (ctxOf t n).forming = (ctxOf s n).forming ++ [⟨e.ring, e.seq, leAt e.copy1 2 2, leAt e.copy1 8 4⟩] ∧
        t.cores = s.cores ∧ t.mem = s.mem)) ∧
    ((ctxOf s n).drain = none → exec (.generationDrainComplete n) s = .next (publish s s)) ∧
    (∀ x, (ctxOf s n).drain = some (ring, seq) → entryOf s ring seq = some x → x.op = 0xE0 →
      items s = false →
      exec (.generationDrainComplete n) s = .next (publish s (finishBind (putCtx s n { ctxOf s n with drain := none }) x))) ∧
    (∀ x, (ctxOf s n).drain = some (ring, seq) → entryOf s ring seq = some x → x.op = 0xE1 →
      (items s = false → exec (.generationDrainComplete n) s =
        .next (publish s (finishLoad (putCtx s n { ctxOf s n with drain := none }) x))) ∧
      (items s = true → exec (.generationDrainComplete n) s = .next (publish s s)))

/-- R109, R115, R390, R391: `xfer` copies and retires with its length, `query` writes its answer to the host, `sync` waits for an
object or signals it. -/
def Obligations.CopyQueryAndSync : Prop :=
  ∀ (s : State) (ring seq : Nat) (e : Entry),
    (mayBegin s ring seq 0xE3 = some e → s.boot.cxlUp = true → (∀ i, settleHolds s (e.b.toNat + 64 * i) = false) →
      ∃ t st, exec (.xfer ring seq []) s = .next (publish s (retire t e { status := st, detail := e.d.toNat })) ∧
        (t, st) = copyAll s e.a.toNat e.b.toNat e.d.toNat) ∧
    (∀ i, s.lpPoison = [] → s.hostPoison = [] → s.boot.cxlUp = true → 0x400000000000 ≤ e.b.toNat + 64 * i →
      e.b.toNat + 64 * i + 64 ≤ 0x800000000000 → (e.b.toNat + 64 * i) % 64 = 0 → anyBad s (e.a.toNat + 64 * i) 64 = false →
      let r := copyLine (e.a.toNat + 64 * i) (e.b.toNat + 64 * i) (s, {})
      r.2 = {} ∧ bytesAt r.1 (e.b.toNat + 64 * i) 64 = bytesAt s (e.a.toNat + 64 * i) 64 ∧
      ∀ x, x < e.b.toNat + 64 * i ∨ e.b.toNat + 64 * i + 64 ≤ x → byteAt r.1 x = byteAt s x) ∧
    (mayBegin s ring seq 0xE6 = some e → s.boot.cxlUp = true →
      let b := queryBytes s (e.a.toNat % 256) (e.a.toNat / 256)
      exec (.query ring seq) s = .next (publish s (retire (hostStore s (atAddr e.b.toNat b)) e { detail := b.length }))) ∧
    (mayBegin s ring seq 0xE6 = none → exec (.query ring seq) s = .next (publish s s)) ∧
    (∀ n, syncEntry s ring seq false = some e → syncObject s e = some (n, false) →
      (soMet (soOf s n).v e.b = true → exec (.syncWait ring seq) s = .next (publish s (retire s e {}))) ∧
      (soMet (soOf s n).v e.b = false → SoWait.entry ring seq e.b ∉ (soOf s n).waits → ∃ t,
        exec (.syncWait ring seq) s = .next (publish s t) ∧ (soOf t n).waits = (soOf s n).waits ++ [.entry ring seq e.b] ∧
        (soOf t n).v = (soOf s n).v ∧ t.cores = s.cores ∧ t.mem = s.mem ∧ t.regs = s.regs)) ∧
    (syncEntry s ring seq false = some e → syncObject s e = none →
      exec (.syncWait ring seq) s = .next (publish s (retire s e { status := 0x2003 }))) ∧
    (∀ n, syncEntry s ring seq false = some e → syncObject s e = some (n, true) → e.phase = .queued →
      exec (.syncWait ring seq) s =
        .next (publish s (casAsk (putEntry s { e with phase := .waiting }) (entryStream e) n 0 0 e.b))) ∧
    (∀ n, syncEntry s ring seq true = some e → syncObject s e = some (n, true) → s.casc.active = true →
      exec (.syncSignal ring seq) s = .next (publish s (sendAll (retire s e {}) (leads (retire s e {}))
        { ty := 2, code := 3, spec := leBytes 8 n ++ leBytes 8 e.b.toNat }))) ∧
    (∀ n, syncEntry s ring seq true = some e → syncObject s e = some (n, false) → (soOf s n).waits = [] →
      exec (.syncSignal ring seq) s = .next (publish s (retire
        { s with sos := fset n { soOf s n with v := (soOf s n).v + e.b } s.sos } e {}))) ∧
    (syncEntry s ring seq true = some e → syncObject s e = none →
      exec (.syncSignal ring seq) s = .next (publish s (retire s e { status := 0x2003 })))

/-! ## Training, serving, functions -/

/-- R264 to R285: The end of a training step. The governor decides once every gradient is complete; an update leaves the active
copies alone; the commit flips them, counts, and starts the settle; a decided skip retires the step; the settle goes layer by
layer; energy goes to its context. -/
def Obligations.TrainingStepEnd : Prop :=
  ∀ (s : State) (n l : Nat) (p : Pattern) (r : StepRun),
    ((ctxOf s n).run = none → exec (.governorDecision ⟨n, []⟩) s = .next (publish s s) ∧ exec (.stepCommit n) s = .next (publish s s) ∧
      exec (.layerUpdate n l []) s = .next (publish s s)) ∧
    ((ctxOf s n).run = some r → (ctxOf s n).pat = some p → p.uplace = 1 → onCascade s n = false →
      (r.decision = none → r.reported = false → backwardDone s n r = true → ∃ t r',
        exec (.governorDecision ⟨n, []⟩) s = .next (publish s t) ∧ (ctxOf t n).run = some r' ∧
        r'.norm = normOf (p.layers.map fun k => (r'.layerMeas k 0).s) ∧
        r'.clip = clipOf r'.bits (leAt p.upd 4 4) r'.norm ∧
        r'.decision = some (if r'.poisonG ≠ 0 then 0x5003 else if r'.poisonW = true then 0x5004
          else if bitAt r'.bits 0 = true ∧ ∃ k ∈ p.layers, (r'.layerMeas k 0).f ≠ 0 then 0x5002 else 0) ∧
        t.mem = s.mem ∧ t.cores = s.cores) ∧
      (∀ e, updateStarts s n l r = true → entryOf s r.ring r.seq = some e → ∃ t r',
        exec (.layerUpdate n l []) s = .next (publish s t) ∧ (ctxOf t n).run = some r' ∧ l ∈ r'.updated ∧
        (∀ k ∈ r.updated, k ∈ r'.updated) ∧ (ctxOf t n).active = (ctxOf s n).active ∧ t.cores = s.cores) ∧
      (updateStarts s n l r = false → exec (.layerUpdate n l []) s = .next (publish s s)) ∧
      (partsDone s n = false → exec (.stepCommit n) s = .next (publish s s)) ∧
      (∀ e, partsDone s n = true → entryOf s r.ring r.seq = some e → r.decision = some 0 → r.poisonG = 0 → r.poisonW = false →
        (∀ k ∈ p.layers, k ∈ r.updated) → r.firstAfterRestore = false → ∃ t,
        exec (.stepCommit n) s = .next (publish s t) ∧ (ctxOf t n).run = none ∧ (ctxOf t n).u = (ctxOf s n).u + 1 ∧
        (ctxOf t n).count = (ctxOf s n).count + r.contrib ∧ (ctxOf t n).comEpoch = r.epoch ∧
        (ctxOf t n).settle = p.layers.reverse ∧ (ctxOf t n).settleEpoch = r.epoch ∧
        ∀ k ∈ p.layers, fget 0 k (ctxOf t n).active = 1 - fget 0 k (ctxOf s n).active) ∧
      (∀ e, partsDone s n = true → entryOf s r.ring r.seq = some e → r.decision = some 0 → r.poisonG ≠ 0 ∨ r.poisonW = true →
        ∃ t, exec (.stepCommit n) s = .next (publish s t) ∧ (ctxOf t n).run = none ∧ (ctxOf t n).u = (ctxOf s n).u ∧
        (ctxOf t n).active = (ctxOf s n).active) ∧
      (∀ st, partsDone s n = true → r.decision = some st → st ≠ 0 → ∃ t, exec (.stepCommit n) s = .next (publish s t) ∧
        (ctxOf t n).run = none ∧ (ctxOf t n).u = (ctxOf s n).u ∧ (ctxOf t n).active = (ctxOf s n).active)) ∧
    ((ctxOf s n).pat = some p → onCascade s n = false → ∀ k rest, (ctxOf s n).settle = k :: rest →
      (k = l → ∃ t, exec (.settle n ⟨l, []⟩) s = .next (publish s t) ∧ (ctxOf t n).settle = rest ∧
        (ctxOf t n).active = (ctxOf s n).active ∧ t.cores = s.cores) ∧
      (k ≠ l → exec (.settle n ⟨l, []⟩) s = .next (publish s s))) ∧
    (∀ m : EnergyReading,
      let all := m.regions.sum + m.rim + m.standby
      let given := ((List.range 64).map fun k => ctxEnergy s m k).sum
      ∃ t, exec (.energyReport m) s = .next (publish s t) ∧
        t.boot.energy = (s.boot.energy.1 + all, s.boot.energy.2 + (all - given)) ∧
        (∀ k < 64, (ctxOf t k).energy = (ctxOf s k).energy + ctxEnergy s m k) ∧
        (∀ k < 64, (ctxOf s k).bind = none → (ctxOf t k).energy = (ctxOf s k).energy) ∧
        (∀ k b, k < 64 → (ctxOf s k).bind = some b → m.rim = 0 →
          (ctxOf t k).energy = (ctxOf s k).energy + (b.quarters.map fun q => tileEnergy s m (q / 4) / 4).sum) ∧
        rget64 t (rPW 0x210) = energyUnits t.boot.energy.1 % 2 ^ 64 ∧
        rget64 t (rPW 0x218) = energyUnits t.boot.energy.2 % 2 ^ 64 ∧ t.mem = s.mem ∧ t.cores = s.cores)

/-- R253 to R256, R282 to R284: Batches of a serving context form, run and finish; images of the mirror stream. -/
def Obligations.ServingAndMirror : Prop :=
  ∀ (s : State) (n : Nat) (p : Pattern), n < 64 →
    ((ctxOf s n).pat = some p → (ctxOf s n).released = [] →
      ((ctxOf s n).forming = [] → exec (.batchRelease n .window) s = .next (publish s s)) ∧
      (let q := takeBatch p.bmax [] [] (ctxOf s n).forming
       p.training = false → q.1 ≠ [] → fnState s 1 ≠ 2 → exec (.batchRelease n .window) s =
         .next (publish s (putCtx s n { ctxOf s n with forming := q.2, released := [q.1] }))) ∧
      (let q := takeBatch p.bmax [] [] (ctxOf s n).forming
       p.training = false → q.1 ≠ [] → (ctxOf s n).running = [] → haltsPending s n = false → fnState s 1 = 2 → ∃ t,
        exec (.batchRelease n .window) s = .next (publish s t) ∧ (ctxOf t n).running = q.1 ∧ (ctxOf t n).forming = q.2 ∧
        (ctxOf t n).released = [] ∧ rfld t (rFnCtx n) 2 1 = 1 ∧ t.mem = s.mem)) ∧
    ((ctxOf s n).running = [] ∨ partsDone s n = false ∨ itemsLeft s n (fun _ => true) = true → exec (.batchComplete n) s = .next (publish s s)) ∧
    ((ctxOf s n).running ≠ [] → partsDone s n = true → itemsLeft s n (fun _ => true) = false → (ctxOf s n).released = [] → ∃ t,
      exec (.batchComplete n) s = .next (publish s t) ∧ (ctxOf t n).running = [] ∧ (ctxOf t n).energy = 0 ∧
      rfld t (rFnCtx n) 2 1 = 0) ∧
    (∀ m k a, (ctxOf s n).image = some m → mirrorPartner s n = some (k, a) →
      (m.areas ≠ [] → imageFlying s k = false →
        exec (.mirrorImageComplete n) s = .next (publish s (putCtx s n { ctxOf s n with image := none }))) ∧
      (m.areas = [] ∨ imageFlying s k = true → exec (.mirrorImageComplete n) s = .next (publish s s))) ∧
    ((ctxOf s n).image = none ∨ mirrorPartner s n = none → exec (.mirrorImageComplete n) s = .next (publish s s)) ∧
    (∀ image, fnState s (128 + n) ≠ 1 → exec (.mirrorRestore n image) s = .next (publish s s)) ∧
    (fnState s (128 + n) = 1 → leAt (fnSet s (128 + n)) 0 1 = 1 →
      exec (.mirrorRestore n none) s = .next (publish s (failStart s (128 + n) 0x5301)) ∧
      (∀ m, (ctxOf s n).pat = some p → m.meas ≠ p.measure →
        exec (.mirrorRestore n (some m)) s = .next (publish s (failStart s (128 + n) 0x5302))) ∧
      ∀ m, (ctxOf s n).pat = some p → m.meas = p.measure → ∃ t, exec (.mirrorRestore n (some m)) s = .next (publish s t) ∧
        (ctxOf t n).epoch = m.epoch ∧ (ctxOf t n).comEpoch = m.epoch ∧ (ctxOf t n).u = m.u ∧ (ctxOf t n).restored = true ∧
        fnState t (128 + n) = 2) ∧
    (∀ smod area part,
      let got := match s.inbox.find? fun f => f.ty == 5 && f.smod == smod && f.mirror == some (area, part) with
        | some f => takeIn s f
        | none => s
      (s.casc.active = false → exec (.mirrorDataFrame smod area part) s = .next (publish s got)) ∧
      ∀ k r, s.casc.active = true → smod < s.casc.total → smod ≠ s.casc.self → rangeOwner s area = some (k, r) →
      r.mark = 4 → r.base = area → part.bytes.length ≤ r.pages * 4096 / 2 → part.offset = 0 → part.last = true →
      (part.crcOk = false → exec (.mirrorDataFrame smod area part) s = .next (publish s got)) ∧
      (part.crcOk = true → ∃ t, exec (.mirrorDataFrame smod area part) s = .next (publish s t) ∧
        t.inbox = got.inbox ∧ (fget {} area t.casc.sinks).good = some (if (fget {} area s.casc.sinks).good = some 0 then 1 else 0) ∧
        t.ctxs = s.ctxs))

/-- R333 to R337, R402 to R405: Requests of functions, their ends, and the panels' mode changes. A start goes from OFF to
STARTING, completes to ON or fails to STOPPING with its status; a stop goes to STOPPING and ends OFF; a setting is taken only
while its function is OFF. -/
def Obligations.FunctionStates : Prop :=
  ∀ (s : State) (f w st ring seq : Nat) (v : W32) (e : Entry), f < 192 → fnKnown f = true →
    (w < 64 → (fnState s f = 0 → exec (.fnSetWrite f w v) s = .next (publish s (rput s (rFN (0x10000 + 0x100 * f + 4 * w)) v.toNat))) ∧
      (fnState s f ≠ 0 → exec (.fnSetWrite f w v) s = .next (publish s (rsetf s (rFnStat f) 3 1 1)))) ∧
    (ready s = false → exec (.fnCtrlEn f) s = .next (publish s s) ∧ exec (.fnCtrlDis f) s = .next (publish s s)) ∧
    (ready s = true → fnDepends s f true = false →
      (fnState s f = 0 → ∃ t, exec (.fnCtrlEn f) s = .next (publish s t) ∧ fnState t f = 1 ∧ (fnOf t f).startE = [] ∧
        t.mem = s.mem ∧ t.cores = s.cores) ∧
      (fnState s f = 2 → exec (.fnCtrlEn f) s = .next (publish s s))) ∧
    (ready s = true → fnDepends s f false = false →
      (fnState s f = 2 → ∃ t, exec (.fnCtrlDis f) s = .next (publish s t) ∧ fnState t f = 3 ∧ (fnOf t f).asked = true) ∧
      (fnState s f = 0 → exec (.fnCtrlDis f) s = .next (publish s s))) ∧
    (mayBegin s ring seq 0xE5 = some e → e.a.toNat = f →
      let waiting : Entry := { e with phase := .waiting }
      (e.imm = 1 → fnState s f = 2 → exec (.fnStart ring seq) s = .next (publish s (retire (putEntry s waiting) waiting {}))) ∧
      (e.imm = 1 → fnState s f = 0 → ∃ t, exec (.fnStart ring seq) s = .next (publish s t) ∧ fnState t f = 1 ∧
        (fnOf t f).startE = [(ring, seq)]) ∧
      (e.imm = 0 → fnState s f = 0 → exec (.fnStop ring seq) s = .next (publish s (retire (putEntry s waiting) waiting {}))) ∧
      (e.imm = 0 → fnState s f = 2 → ∃ t, exec (.fnStop ring seq) s = .next (publish s t) ∧ fnState t f = 3 ∧
        (fnOf t f).stopE = [(ring, seq)])) ∧
    (mayBegin s ring seq 0xE5 = none → exec (.fnStart ring seq) s = .next (publish s s) ∧
      exec (.fnStop ring seq) s = .next (publish s s)) ∧
    (fnState s f ≠ 1 → exec (.functionStartComplete f) s = .next (publish s s) ∧
      exec (.functionStartFail f st) s = .next (publish s s)) ∧
    (failStatus st = false → exec (.functionStartFail f st) s = .next (publish s s)) ∧
    (fnState s f = 1 → failStatus st = true → (fnOf s f).startE = [] → ∃ t, exec (.functionStartFail f st) s = .next (publish s t) ∧
      fnState t f = 3 ∧ rfld t (rFnStat f) 4 1 = 1 ∧ rfld t (rFnStat f) 16 16 = st ∧ t.mem = s.mem ∧ t.cores = s.cores) ∧
    (fnState s f = 1 → settingsRefusal s f (fnSet s f) = none → startDone s f = true → (fnOf s f).startE = [] → ∃ t,
      exec (.functionStartComplete f) s = .next (publish s t) ∧ fnState t f = 2 ∧ rfld t (rFnStat f) 16 16 = 0 ∧
      t.mem = s.mem ∧ t.cores = s.cores) ∧
    (fnState s f = 1 → settingsRefusal s f (fnSet s f) = none → startDone s f = false →
      exec (.functionStartComplete f) s = .next (publish s s)) ∧
    (fnState s f = 3 → stopDone s f = true → (fnOf s f).pend = none → (fnOf s f).stopE = [] → ∃ t,
      exec (.functionStopComplete f) s = .next (publish s t) ∧ fnState t f = 0 ∧ t.mem = s.mem ∧ t.cores = s.cores) ∧
    (fnState s f ≠ 3 → exec (.functionStopComplete f) s = .next (publish s s)) ∧
    ∀ k < 2,
      let mode := rfld s (rPanel k) 0 1
      (s.boot.rampDown.contains k = false → s.boot.hold.contains k = false →
        (panelGoal s k = mode → exec (.panelModeChange k) s = .next (publish s s)) ∧
        (mode = 1 → panelGoal s k = 0 → exec (.panelModeChange k) s =
          .next (publish s { s with boot := { s.boot with hold := nins k s.boot.hold } })) ∧
        (mode = 0 → panelGoal s k = 1 → ∃ t, exec (.panelModeChange k) s = .next (publish s t) ∧ rfld t (rPanel k) 0 1 = 1 ∧
          k ∈ t.boot.rampDown ∧ t.mem = s.mem ∧ t.cores = s.cores)) ∧
      (s.boot.rampDown.contains k = false → s.boot.hold.contains k = true → ∃ t, exec (.panelModeChange k) s = .next (publish s t) ∧
        rfld t (rPanel k) 0 1 = panelGoal { s with boot := { s.boot with hold := ndelAll [k] s.boot.hold } } k ∧
        k ∉ t.boot.hold ∧ t.mem = s.mem ∧ t.cores = s.cores) ∧
      (s.boot.rampDown.contains k = true → exec (.panelModeChange k) s =
        .next (publish s { s with boot := { s.boot with rampDown := ndelAll [k] s.boot.rampDown } }))

/-! ## Akgon and the cascade -/

/-- R288 to R291, R294: Link frames, frames, lanes and ports. A good frame in order enters the inbox once; one that fails its
checks is asked for again; one for another module goes on with one hop less or is dropped; acknowledged frames leave the replay
buffer and waiting ones follow; a failing lane takes the spare, a second one fails the port. -/
def Obligations.AkgonPorts : Prop :=
  ∀ (s : State) (port lack q lane : Nat) (fr : Frame), port < 64 →
    let p := portOf s port
    let got : State := { s with out := eraseOne (.frame port fr) s.out }
    let named : State := if fr.hops = 4 then rsetf got (rAK port 0) 7 10 fr.smod else got
    (portUp s port = true → p.queue = [] →
      exec (.linkFrame port lack none) s =
        .next (publish s (putPort s port { p with replay := p.replay.filter fun f => !(seqUpTo f.lseq lack) })) ∧
      (∃ t, exec (.linkFrame port lack (some q)) s = .next (publish s t) ∧
        t.out = s.out ++ ((p.replay.filter fun f => !(seqUpTo f.lseq lack)).filter fun f => seqUpTo q f.lseq).map (fun f => .frame port f) ∧
        t.mem = s.mem) ∧
      (fr.fcrc = frameCheck fr → fr.ty ≠ 0 → seqUpTo fr.lseq p.rxSeq = true → exec (.akgonFrameReceive port fr .clean) s =
        .next (publish s (putPort named port { p with replay := p.replay.filter fun f => !(seqUpTo f.lseq fr.lack) }))) ∧
      (fr.fcrc = frameCheck fr → fr.ty = 2 → fr.lseq = (p.rxSeq + 1) % 2 ^ 32 →
        (frameReserved fr = false → fr.dmod = s.casc.self → ∃ t,
          exec (.akgonFrameReceive port fr .clean) s = .next (publish s t) ∧ (portOf t port).rxSeq = fr.lseq ∧
          t.inbox = (if fr.dseq ≠ 0 ∧ fr.dseq ∈ fget [] fr.smod s.casc.drx then s.inbox else s.inbox ++ [{ fr with port := some port }]) ∧
          t.mem = s.mem ∧ t.cores = s.cores) ∧
        (frameReserved fr = true ∨ (fr.dmod ≠ s.casc.self ∧ fr.hops ≤ 1) → ∃ t,
          exec (.akgonFrameReceive port fr .clean) s = .next (publish s t) ∧ (portOf t port).rxSeq = fr.lseq ∧
          t.inbox = s.inbox ∧ t.out = got.out ∧
          (frameReserved fr = false → rfld t (rAK port 0x18) 0 16 = min 65535 (rfld s (rAK port 0x18) 0 16 + 1))))) ∧
    (portUp s port = true →
      (∀ f, p.queue = [f] → (∀ g ∈ p.replay, seqUpTo g.lseq lack = true) → frameSize f ≤ replayBytes → ∃ t g,
        exec (.linkFrame port lack none) s = .next (publish s t) ∧ t.out = s.out ++ [.frame port g] ∧
        g.lseq = (p.txSeq + 1) % 2 ^ 32 ∧ g.fcrc = frameCheck g ∧ (portOf t port).queue = [] ∧ (portOf t port).replay = [g]) ∧
      (fr.fcrc ≠ frameCheck fr → ∃ t f, exec (.akgonFrameReceive port fr .clean) s = .next (publish s t) ∧
        t = { got with out := got.out ++ [.frame port f] } ∧ f.ty = 0 ∧ f.n = (p.rxSeq + 1) % 2 ^ 32) ∧
      (∀ k, ∃ t f, exec (.akgonFrameReceive port fr (.uncorrectable k)) s = .next (publish s t) ∧ .frame port f ∈ t.out ∧ f.ty = 0 ∧
        f.n = (p.rxSeq + 1) % 2 ^ 32 ∧ t.inbox = s.inbox ∧ rget t (rAK port 8) = min (rget s (rAK port 8) + max 1 k) (2 ^ 32 - 1)) ∧
      (lane ≤ 8 → lane ∉ p.laneBad → p.spareUsed = false → ∃ t, exec (.laneFail port lane) s = .next (publish s t) ∧
        (portOf t port).spareUsed = true ∧ lane ∈ (portOf t port).laneBad ∧ rfld t (rAK port 0) 6 1 = 1 ∧
        rfld t (rAK port 0) 2 4 = 8 ∧ rfld t (rAK port 0) 0 2 = 2) ∧
      (lane ≤ 8 → lane ∉ p.laneBad → p.spareUsed = true → exec (.laneFail port lane) s = .next (publish s (failPort s port)))) ∧
    (rfld s (rAK port 0) 0 2 ≠ 3 → ∃ t, exec (.portFail port) s = .next (publish s t) ∧ rfld t (rAK port 0) 0 2 = 3 ∧
      rfld t (rAK port 0) 2 4 = 0 ∧ t.mem = s.mem ∧ t.cores = s.cores) ∧
    (rfld s (rAK port 0) 0 2 = 3 → exec (.portFail port) s = .next (publish s s)) ∧
    (portUp s port = false → exec (.linkFrame port lack none) s = .next (publish s s) ∧
      exec (.akgonFrameReceive port fr .clean) s = .next (publish s got))

/-- R295 to R298: Starting, beats, roles and cascade objects. A message of an older term is dropped, one of another cascade
generation counted; what a message tells of term and master (hearTerm) is taken before its effect. -/
def Obligations.CascadeRolesAndObjects : Prop :=
  ∀ (s : State) (fr : Frame) (m : Nat),
    let got : State := { s with inbox := eraseOne fr s.inbox }
    let c : State := hearTerm got fr
    let i := leAt fr.spec 0 2
    let o := fget {} i c.csos
    let ans : List W8 := leBytes 2 i ++ leBytes 2 0 ++ leBytes 4 (leAt fr.spec 4 4) ++ leBytes 8 o.v.toNat
    (fnState s 0 = 1 → exec .cascadeStartTimeout s = .next (publish s (failStart s 0 0x8401))) ∧
    (fnState s 0 ≠ 1 → exec .cascadeStartTimeout s = .next (publish s s) ∧ exec (.hello fr) s = .next (publish s got)) ∧
    (∀ p, fnState s 0 = 1 → fr.smod < s.casc.total → fr.smod ∉ s.casc.helloOk → fr.cgen = s.casc.cgen →
      (ctxOf s s.casc.ctx).pat = some p → 8 ≤ p.measure.length → fr.epoch = (ctxOf s s.casc.ctx).epoch →
      fr.spec.take 8 = p.measure.take 8 → (fr.spec.drop 8).take 8 = s.casc.digest →
      ∃ t, exec (.hello fr) s = .next (publish s t) ∧ fr.smod ∈ t.casc.helloOk ∧ t.cores = s.cores ∧ t.regs = s.regs) ∧
    (s.casc.active = false → (fnState s 0 ≠ 1 → exec .beatSend s = .next (publish s s)) ∧ exec (.beat fr) s = .next (publish s got) ∧
      exec (.moduleLost m) s = .next (publish s s) ∧ exec .deputyTakeover s = .next (publish s s) ∧
      exec (.cascadeSignal fr) s = .next (publish s got)) ∧
    (s.casc.active = true ∨ fnState s 0 = 1 → ∃ t, exec .beatSend s = .next (publish s t) ∧ t.cores = s.cores ∧ t.mem = s.mem ∧
      ∀ n < 64, portUp s n = true → ∃ f, f.ty = 1 ∧ f.code = 2 ∧ f.smod = s.casc.self ∧ f.term = s.casc.term ∧
        (.frame n f ∈ t.out ∨ f ∈ (portOf t n).queue) ∧
        ((portOf s n).queue = [] → ((portOf s n).replay.map frameSize).sum + 64 ≤ replayBytes → .frame n f ∈ t.out)) ∧
    (s.casc.active = true →
      (fr.cgen = s.casc.cgen → fr.ty = 1 →
        (fr.term ≤ s.casc.term → exec (.beat fr) s =
          .next (publish s { got with casc := { s.casc with heard := fset fr.smod s.now s.casc.heard } })) ∧
        (s.casc.term < fr.term → leAt fr.spec 0 1 = 2 → ∃ t, exec (.beat fr) s = .next (publish s t) ∧ t.casc.term = fr.term ∧
          t.casc.master = fr.smod)) ∧
      (m ≠ s.casc.self → m < s.casc.total → m ∉ s.casc.lost → m ∉ s.casc.leftMods → casRole s.casc ≠ 2 → s.cores = [] →
        (∀ n < 64, ∀ e, mirrorPartner s n = some e → e.1 ≠ m) →
        exec (.moduleLost m) s = .next (publish s { s with casc := { s.casc with lost := nins m s.casc.lost } })) ∧
      (casRole s.casc = 1 → s.cores = [] → s.casc.master < s.casc.total → ∃ t,
        exec .deputyTakeover s = .next (publish s t) ∧ t.casc.term = s.casc.term + 1 ∧ t.casc.master = s.casc.self ∧
        (s.casc.master ∈ t.casc.lost ∨ s.casc.master ∈ t.casc.leftMods)) ∧
      (casRole s.casc ≠ 1 → exec .deputyTakeover s = .next (publish s s)) ∧
      (fr.cgen ≠ s.casc.cgen → exec (.cascadeSignal fr) s = .next (publish s (rcountF got (rAK (fr.port.getD 0) 0x18) 0 16 1))) ∧
      (fr.cgen = s.casc.cgen → fr.term < s.casc.term → exec (.cascadeSignal fr) s = .next (publish s got))) ∧
    (s.casc.active = true → fr.cgen = s.casc.cgen → s.casc.term ≤ fr.term →
      (fr.ty = 2 → fr.code = 0x1C → s.casc.master ≠ fr.smod → ∃ t, exec (.takeover fr) s = .next (publish s t) ∧
        t.casc.master = fr.smod ∧ t.casc.term = fr.term ∧
        (s.casc.master ≠ s.casc.self → s.casc.master ∈ t.casc.lost ∨ s.casc.master ∈ t.casc.leftMods) ∧
        (s.casc.master ∈ s.casc.lost → t.cores = s.cores ∧ t.mem = s.mem)) ∧
      (fr.ty = 2 → fr.code = 0x1C → s.casc.master = fr.smod →
        exec (.takeover fr) s = .next (publish s { got with casc := { s.casc with term := fr.term } })) ∧
      (fr.term = s.casc.term → fr.code ≠ 0x1C → c = got) ∧
      (casRole c.casc ≠ 0 → i < 4096 → o.waits = [] → exec (.cascadeSignal fr) s = .next (publish s { c with
        csos := fset i { o with v := o.v + BitVec.ofNat 64 (leAt fr.spec 8 8) } c.csos })) ∧
      (casRole c.casc = 0 → exec (.cascadeSignal fr) s = .next (publish s c)) ∧
      (casRole c.casc = 2 → i < 4096 → leAt fr.spec 2 1 ≠ 1 → soMet o.v (BitVec.ofNat 64 (leAt fr.spec 8 8)) = false →
        exec (.cascadeWaitRead fr) s = .next (publish s { c with csos := fset i { o with
          waits := o.waits ++ [.module fr.smod (leAt fr.spec 4 4) (BitVec.ofNat 64 (leAt fr.spec 8 8))] } c.csos })) ∧
      (casRole c.casc = 2 → i < 4096 → leAt fr.spec 2 1 = 1 ∨ soMet o.v (BitVec.ofNat 64 (leAt fr.spec 8 8)) = true →
        exec (.cascadeWaitRead fr) s = .next (publish s (sendFrame c fr.smod { ty := 2, code := 5, spec := ans }))) ∧
      (∀ tag u d n target, c.casc.reqs = [(tag, u, d)] → tag = leAt fr.spec 4 4 → u.lcid < 16384 → slotLive c u = true →
        (tileOf c (runTile c u.lcid)).tier = .active → (slotOf c u).wait = some (.so n true d target) →
        exec (.cascadeAnswer fr) s = .next (publish s
          (ran { c with casc := { c.casc with reqs := [] } } u
            ((archOf c u).sput d (BitVec.ofNat 64 (leAt fr.spec 8 8)))))) ∧
      ((∀ r ∈ c.casc.reqs, r.1 ≠ leAt fr.spec 4 4) → exec (.cascadeAnswer fr) s = .next (publish s c)))

/-- R300, R308 to R316: Messages of a cascade step at a module that is not the master. Each acts only in its epoch and with no
older restart count.
R271, R301, R302, R308, R309, R313, R315, R316: The rest of the cascade: the master's own events, acknowledgements and
release, and data frames of windows and of the exchange: checked at the port, written afterwards. -/
def Obligations.CascadeMessages : Prop :=
  (∀ (s : State) (fr : Frame), s.casc.active = true → fr.cgen = s.casc.cgen → s.casc.term ≤ fr.term →
    let c : State := hearTerm { s with inbox := eraseOne fr s.inbox } fr
    let k := c.casc
    let n := k.ctx
    (fr.epoch < k.epoch ∨ (fr.epoch = k.epoch ∧ fr.k < k.k) →
      ∀ cmd ∈ ([.fdone fr, .turn fr, .loss fr, .restart fr, .xdone fr, .prepare fr, .ready fr, .commit fr, .crec fr] : List Instr),
        exec cmd s = .next (publish s c)) ∧
    (fr.epoch = k.epoch → fr.k < k.k → ∀ cmd ∈ ([.ack fr, .release fr, .rejoin fr] : List Instr), exec cmd s = .next (publish s c)) ∧
    (fr.epoch = k.epoch → k.k ≤ fr.k → casRole k ≠ 2 →
      (k.straggle = [] → (∀ e ∈ k.fdone, e.1 ≠ fr.smod) → exec (.fdone fr) s =
        .next (publish s { c with casc := { k with fdone := k.fdone ++ [(fr.smod, leAt fr.spec 2 2)] } })) ∧
      (let part := (bytesList fr.spec).1
       k.group k.self ∈ part ∨ (ctxOf c n).run = none → k.group k.self ∉ (bytesList (bytesList fr.spec).2).1 → ∃ t,
        exec (.turn fr) s = .next (publish s t) ∧ t = { c with casc := t.casc } ∧ t.casc.turned = true ∧ t.casc.part = part ∧
        t.casc.straggle = (bytesList (bytesList fr.spec).2).1 ∧ (∀ m < k.total, k.group m ∉ part → m ∈ t.casc.leftMods) ∧
        (∀ m ∈ k.leftMods, m ∈ t.casc.leftMods) ∧ t.casc.term = k.term ∧ t.casc.epoch = k.epoch) ∧
      (leAt fr.spec 0 2 ≠ k.group k.self → exec (.loss fr) s = .next (publish s c)) ∧
      (∀ r, leAt fr.spec 0 2 = k.group k.self → fr.smod ≠ k.self → (ctxOf c n).run = some r → leAt fr.spec 2 2 < r.nmb →
        r.committed = false → (∀ m ∈ r.lost, m.mbi ≠ leAt fr.spec 2 2) → ∃ t r', exec (.loss fr) s = .next (publish s t) ∧
        (ctxOf t n).run = some r' ∧ r'.lost = r.lost ++ [⟨leAt fr.spec 2 2, leAt fr.spec 8 2, leAt fr.spec 4 2, leAt fr.spec 6 1⟩] ∧
        t.mem = c.mem ∧ t.regs = c.regs) ∧
      (k.group k.self ∈ (bytesList fr.spec).1 → (ctxOf c n).run = none → k.straggle = [] → ∃ t,
        exec (.restart fr) s = .next (publish s t) ∧ t.casc.k = fr.k ∧ t.casc.part = (bytesList fr.spec).1 ∧
        t.casc.prepared = none ∧ (∀ q, (portOf t q).hem = []) ∧ t.mem = c.mem ∧ t.cores = c.cores) ∧
      exec (.xdone fr) s = .next (publish s { c with casc := { k with
        xdone := fset fr.smod { count := leAt fr.spec 4 4, status := leAt fr.spec 0 2, meas := fr.meas } k.xdone } }) ∧
      (∃ t q, exec (.prepare fr) s = .next (publish s t) ∧ t.casc.prepared = some q ∧ q.count = leAt fr.spec 20 4 ∧
        q.status = leAt fr.spec 0 2 ∧ t.casc.outcome = leAt fr.spec 0 2 ∧
        ∀ r, (ctxOf c n).run = some r → ∃ r', (ctxOf t n).run = some r' ∧ r'.total = some (leAt fr.spec 20 4) ∧
          r'.clip = BitVec.ofNat 32 (leAt fr.spec 4 4) ∧ r'.norm = BitVec.ofNat 64 (leAt fr.spec 8 8) ∧
          r'.decision = some (if leAt fr.spec 0 2 ≤ 1 then 0 else leAt fr.spec 0 2)) ∧
      exec (.ready fr) s = .next (publish s { c with casc := { k with
        ready := (k.ready.filter fun e => e.1 != fr.smod) ++ [(fr.smod, leAt fr.spec 0 2)] } }) ∧
      exec (.crec fr) s = .next (publish s c) ∧
      (∀ r p, (ctxOf c n).run = some r → (ctxOf c n).pat = some p → r.epoch = fr.epoch → partsDone c n = true →
        windowBlocks c n r = false → r.firstAfterRestore = false → leAt fr.spec 0 2 ≤ 1 → casRole k = 0 → ∃ t,
        exec (.commit fr) s = .next (publish s t) ∧ (ctxOf t n).run = none ∧
        (ctxOf t n).comEpoch = fr.epoch ∧ (ctxOf t n).u = (ctxOf c n).u + 1 ∧ t.casc.committed = true) ∧
      (∀ r, (ctxOf c n).run = some r → r.epoch = fr.epoch → partsDone c n = false ∨ windowBlocks c n r = true →
        exec (.commit fr) s = .next (publish s s)))) ∧
  (∀ (s : State) (fr : Frame) (m port l : Nat), s.casc.active = true →
    let k := s.casc
    let n := k.ctx
    let got : State := { s with inbox := eraseOne fr s.inbox }
    let c : State := hearTerm got fr
    let z := c.casc
    (fr.cgen = k.cgen → k.term ≤ fr.term → z.active = true →
      (fr.epoch = z.epoch → z.k ≤ fr.k → casRole z = 2 → z.crec = false → z.committing = true → ∃ t,
        exec (.crec fr) s = .next (publish s t) ∧ t.casc.crec = true ∧ t.cores = c.cores ∧ t.ctxs = c.ctxs) ∧
      (fr.epoch ≠ z.comEpoch → exec (.release fr) s = .next (publish s c)) ∧
      (fr.epoch ≠ z.epoch ∨ z.k ≤ fr.k →
        (casRole z ≠ 2 → exec (.ack fr) s =
          .next (publish s { c with casc := { z with acks := fset fr.smod fr.epoch z.acks } })) ∧
        (casRole z = 2 → z.relSent = true → fr.epoch = z.comEpoch → exec (.ack fr) s =
          .next (publish s (sendFrame { c with casc := { z with acks := fset fr.smod fr.epoch z.acks } } fr.smod
            { ty := 2, code := 0x1A, k := z.k, epoch := z.comEpoch }))) ∧
        (fr.epoch = z.comEpoch → ∃ t, exec (.release fr) s = .next (publish s t) ∧ t.casc = { z with released := true } ∧
          t.ctxs = c.ctxs ∧ t.cores = c.cores) ∧
        (fr.smod ∈ z.leftMods → casRole z ≠ 2 → exec (.rejoin fr) s = .next (publish s c)) ∧
        (fr.smod ∈ z.leftMods → casRole z = 2 → exec (.rejoin fr) s = .next (publish s (sendFrame c fr.smod
          { ty := if 7 < z.part.length then 6 else 2, code := 0x13, spec := listBytes z.part, k := z.k, epoch := z.epoch }))) ∧
        (fr.smod ∉ z.leftMods → casRole z ≠ 2 → exec (.rejoin fr) s = .next (publish s { c with casc := { z with
          lost := ndel fr.smod z.lost, waitRejoin := ndel fr.smod z.waitRejoin } })))) ∧
    (casRole k ≠ 2 → exec .stragglerWindowExpiry s = .next (publish s s) ∧ exec (.rwinExpiry m) s = .next (publish s s)) ∧
    (casRole k = 2 → k.swin ≠ 0 → k.turned = false → k.fdone ≠ [] → exec .stragglerWindowExpiry s = .next (publish s
      (masterGo { s with casc := { k with straggle := k.part.filter fun g => !(k.groupDone g) } }))) ∧
    (casRole k = 2 → m ∈ k.lost → exec (.rwinExpiry m) s = .next (publish s
      (if k.crec = true ∨ k.committed = true ∨ k.prepared = none then masterGo (leaveGroup s (k.group m))
       else sendRestart (leaveGroup s (k.group m))))) ∧
    (∀ b, fr.block = some b → fr.ty = 3 ∨ fr.ty = 4 → fr.dmod = k.self → port < 64 → portUp s port = true → (portOf s port).queue = [] →
      fr.fcrc = frameCheck fr → fr.lseq = ((portOf s port).rxSeq + 1) % 2 ^ 32 → fr.hops ≠ 4 → frameSeen s fr = false →
      let p := portOf s port
      let kept : State := putPort { s with out := eraseOne (.frame port fr) s.out } port
        { p with replay := p.replay.filter fun f => !(seqUpTo f.lseq fr.lack) }
      let next : State := putPort kept port { portOf kept port with rxSeq := fr.lseq }
      (fr.cgen ≠ k.cgen → exec (.akgonFrameReceive port fr .clean) s = .next (publish s (dropData next port fr b.wgen 0x6401))) ∧
      (fr.cgen = k.cgen → windowOpen s b.wgen = false ∨ windowKnown s fr = false →
        exec (.akgonFrameReceive port fr .clean) s = .next (publish s (dropData next port fr b.wgen 0x6402))) ∧
      (fr.cgen = k.cgen → windowOpen s b.wgen = true → windowKnown s fr = true →
        (Block.good b = true → ∃ t, exec (.akgonFrameReceive port fr .clean) s = .next (publish s t) ∧
          t.inbox = s.inbox ++ [{ fr with port := some port }] ∧ (portOf t port).rxSeq = fr.lseq ∧ t.mem = s.mem ∧ t.cores = s.cores) ∧
        (Block.good b = false → triesOf p.tries fr.smod fr.win fr.wblk < 3 → ∃ t f,
          exec (.akgonFrameReceive port fr .clean) s = .next (publish s t) ∧ t.inbox = s.inbox ∧ (portOf t port).rxSeq = p.rxSeq ∧
          .frame port f ∈ t.out ∧ f.ty = 0 ∧ f.n = (p.rxSeq + 1) % 2 ^ 32) ∧
        (Block.good b = false → 3 ≤ triesOf p.tries fr.smod fr.win fr.wblk → ∃ t,
          exec (.akgonFrameReceive port fr .clean) s = .next (publish s t) ∧
          t.inbox = s.inbox ++ [{ fr with port := some port, block := some { b with poison := true } }]))) ∧
    (fr ∉ s.inbox → exec (.windowData fr.port fr l) s = .next (publish s s) ∧ exec (.exchangeData port fr false) s = .next (publish s s) ∧
      exec (.exchangeData port fr true) s = .next (publish s s)) ∧
    (∀ b p w bd rg, fr ∈ s.inbox → fr.block = some b → (ctxOf s n).pat = some p →
      p.window fr.win = some w → leAt w 1 1 = 1 → (ctxOf s n).bind = some bd → bd.lpr[leAt w 2 1]? = some rg →
      rg.covers (rg.base + 4160 * fr.wblk) 4160 = true → rg.mark = 4 → (ctxOf s n).run = none → ∃ t,
        exec (.windowData fr.port fr l) s = .next (publish s t) ∧ t = writeBlock got (rg.base + 4160 * fr.wblk) b ∧
        t.cores = s.cores ∧ t.inbox = got.inbox) ∧
    (∀ b, fr ∈ s.inbox → fr.block = some b → (ctxOf s n).settle = [] → fr.smod ≠ k.self → fr.via = none →
      k.group k.self ∉ k.straggle → (∀ e ∈ s.ports, ∀ x ∈ e.2.hem, x.1 = false) →
      (∀ r, (ctxOf s n).run = some r → r.ending = none) →
      ((portOf s port).hem.length < 256 → ∃ t, exec (.exchangeData port fr false) s = .next (publish s t) ∧ t.inbox = got.inbox ∧
        (portOf t port).hem = (portOf s port).hem ++ [(false, fr.win % 64, fr.wblk, b)] ∧ t.mem = s.mem ∧ t.cores = s.cores) ∧
      (256 ≤ (portOf s port).hem.length → exec (.exchangeData port fr false) s = .next (publish s s))))

/-! ## The host link -/

/-- R12, R375, R377 to R379, R383, R385, R387, R393: Tail lines, staging and mirror windows, ring registers, the sideband.
R12, R383, R385, R387: The registers of a command ring. The low word of a pair waits for its high word; a consumer index
outside its bounds and a change of an enabled ring set HC_ERR; a disabled ring drains. -/
def Obligations.HostLink : Prop :=
  (∀ (s : State) (ring line dpa len : Nat) (bs : List W8),
    (let a := rget64 s (rHC ring 8)
     ringOn s ring = true → s.boot.cxlUp = true → bs.length = 64 → hostArea a 64 64 = true → ∃ t,
      exec (.tailLineInvalidate ring bs []) s = .next (publish s t) ∧
      (hringOf t ring).tail = (if leAt bs 0 8 < rget64 s (rHC ring 0x28) then (hringOf s ring).tail else leAt bs 0 8) ∧
      bytesAt t a 64 = bs ∧ t.regs = s.regs ∧ t.cores = s.cores) ∧
    exec .cxlLinkDown s = .next (publish s { s with boot := { s.boot with cxlUp := false } }) ∧
    (s.boot.rim = true → ∃ t, exec .cxlLinkUp s = .next (publish s t) ∧ t.boot.cxlUp = true ∧ t.hostHeld = [] ∧ t.cores = s.cores) ∧
    (s.boot.rim = false → exec .cxlLinkUp s = .next (publish s s)) ∧
    (s.boot.cxlUp = false → exec (.stagingRead dpa len []) s = .next (publish s s) ∧
      exec (.stagingWrite dpa bs []) s = .next (publish s s) ∧ exec (.mirrorRead line) s = .next (publish s s)) ∧
    (s.boot.cxlUp = true → dpa + len ≤ 0x30000000000 → dpa % 64 + len ≤ 64 → len ≠ 0 →
      (stagingOpen s dpa = false → exec (.stagingRead dpa len []) s =
        .next (publish s { rsetf s 0x201004 0 1 1 with reply := ⟨List.replicate len 0xFF#8, true⟩ })) ∧
      (stagingOpen s dpa = true → anyBad s dpa len = false → ∃ t, exec (.stagingRead dpa len []) s = .next (publish s t) ∧
        t.reply = ⟨bytesAt s dpa len, false⟩ ∧ dpa / 64 ∈ t.snoopFilter ∧ t.mem = s.mem ∧ t.regs = s.regs ∧ t.cores = s.cores) ∧
      (stagingOpen s dpa = true → bs.length = len → settleHolds s dpa = false → s.lpPoison = [] → ∃ t,
        exec (.stagingWrite dpa bs []) s = .next (publish s t) ∧ bytesAt t dpa len = bs ∧
        (∀ x, x < dpa ∨ dpa + len ≤ x → byteAt t x = byteAt s x) ∧ t.regs = s.regs ∧ t.cores = s.cores) ∧
      (stagingOpen s dpa = false → bs.length = len → ∃ t, exec (.stagingWrite dpa bs []) s = .next (publish s t) ∧
        t = { s with regs := t.regs } ∧ rfld t 0x201004 0 1 = 1)) ∧
    (s.boot.cxlUp = true → line < 1024 → exec (.mirrorRead line) s =
      .next (publish s { s with presence := nins line s.presence, reply := ⟨mirrorLine s line, false⟩ })) ∧
    (s.boot.cxlUp = true → line < 65536 → exec (.mirrorWrite line) s = .next (publish s (rsetf s 0x201004 1 1 1))) ∧
    (let got (t : SnoopTarget) : State := { s with out := eraseOne (.snoop t) s.out }
     exec (.birsp (.mirror line)) s = .next (publish s { got (.mirror line) with
       presence := ndel line s.presence, snoops := ndel line s.snoops }) ∧
     exec (.birsp (.staging line)) s = .next (publish s { got (.staging line) with
       stagingSnoops := ndel line s.stagingSnoops, snoopFilter := ndel line s.snoopFilter })) ∧
    (s.boot.standby = true ∨ s.boot.rim = true → exec .mctpHealthRead s =
      .next (publish s { s with reply := ⟨healthBytes s, false⟩ }) ∧
      exec (.mctpControlMessage bs) s = .next (publish s { s with reply := ⟨Config.mctpAnswer bs, false⟩ })) ∧
    (s.boot.standby = false → s.boot.rim = false → exec .mctpHealthRead s = .next (publish s s) ∧
      exec (.mctpControlMessage bs) s = .next (publish s s))) ∧
  (∀ (s : State) (r : Nat) (v w : W32), r < 64 →
    let cons := rHC r 0x18
    let n := w.toNat + 2 ^ 32 * v.toNat
    let state (t : State) : Nat := rfld t (rHC r 0x24) 0 2
    (exec (.hcCplConsWrite r false v) s = .next (publish s { s with wlatch := fset cons v s.wlatch })) ∧
    (fget? cons s.wlatch = some w →
      (n < rget64 s cons ∨ rget64 s (rHC r 0x28) < n → exec (.hcCplConsWrite r true v) s =
        .next (publish s (rsetf { s with wlatch := ferase cons s.wlatch } 0x201004 3 1 1))) ∧
      (rget64 s cons ≤ n → n ≤ rget64 s (rHC r 0x28) → ∃ t, exec (.hcCplConsWrite r true v) s = .next (publish s t) ∧
        rget64 t cons = n ∧ t.mem = s.mem ∧ t.cores = s.cores ∧ t.accepted = s.accepted)) ∧
    (v.getLsbD 0 = false → exec (.ringEnable r v) s = .next (publish s s)) ∧
    (v.getLsbD 0 = true → exec (.ringDisable r v) s = .next (publish s s)) ∧
    (v.getLsbD 0 = true → cfgOk v.toNat = true → state s = 0 →
      let z := bitsAt v.toNat 5 5
      (hostArea (rget64 s (rHC r 0)) (128 * 2 ^ z) 4096 = true → hostArea (rget64 s (rHC r 0x10)) (64 * 2 ^ z) 4096 = true →
        hostArea (rget64 s (rHC r 8)) 64 64 = true → ∃ t, exec (.ringEnable r v) s = .next (publish s t) ∧ state t = 1 ∧
        rfld t (rHC r 0x20) 0 1 = 1 ∧ rfld t (rHC r 0x20) 5 5 = z ∧ (hringOf t r).draining = false ∧ t.mem = s.mem ∧
        t.cores = s.cores) ∧
      (hostArea (rget64 s (rHC r 8)) 64 64 = false → ∃ t, exec (.ringEnable r v) s = .next (publish s t) ∧ state t = 0 ∧
        rfld t 0x201004 2 1 = 1)) ∧
    (v.getLsbD 0 = true → cfgOk v.toNat = true → state s = 2 → exec (.ringEnable r v) s = .next (publish s (rsetf s 0x201004 2 1 1))) ∧
    (v.getLsbD 0 = false → cfgOk v.toNat = true → state s = 0 → ∃ t, exec (.ringDisable r v) s = .next (publish s t) ∧ state t = 0 ∧
      rfld t (rHC r 0x20) 0 1 = 0 ∧ rfld t (rHC r 0x20) 5 5 = bitsAt v.toNat 5 5 ∧ rfld t (rHC r 0x20) 10 6 = bitsAt v.toNat 10 6 ∧
      t = { s with regs := t.regs }) ∧
    (v.getLsbD 0 = false → cfgOk v.toNat = true → state s = 1 → bitsAt v.toNat 5 5 = rfld s (rHC r 0x20) 5 5 → ∃ t,
      exec (.ringDisable r v) s = .next (publish s t) ∧ rfld t (rHC r 0x20) 0 1 = 0 ∧ t.mem = s.mem ∧ t.cores = s.cores ∧
      state t = (if (∃ e ∈ s.accepted, e.ring = r) ∨ (hringOf s r).done ≠ [] then 2 else 0)) ∧
    (exec (.hcRingConfigWrite r 0x20 v) s = (if v.getLsbD 0 then exec (.ringEnable r v) s else exec (.ringDisable r v) s)) ∧
    (∀ o ∈ [0, 8, 0x10], exec (.hcRingConfigWrite r o v) s =
        .next (publish s { s with wlatch := fset (rHC r o) v s.wlatch }) ∧
      (fget? (rHC r o) s.wlatch = some w → state s = 0 → ∃ t, exec (.hcRingConfigWrite r (o + 4) v) s = .next (publish s t) ∧
        rget64 t (rHC r o) = n ∧ t = { s with regs := t.regs, wlatch := ferase (rHC r o) s.wlatch }) ∧
      (fget? (rHC r o) s.wlatch = some w → state s ≠ 0 → exec (.hcRingConfigWrite r (o + 4) v) s =
        .next (publish s (rsetf { s with wlatch := ferase (rHC r o) s.wlatch } 0x201004 2 1 1)))))

/-! ## Power, clocks, temperatures -/

/-- R395, R396, R398, R404, R407 to R410, R415, R416: Supplies, the power cap, protective slow mode, sleep tiers, PLLs. -/
def Obligations.PowerAndSleep : Prop :=
  ∀ (s : State) (t p : Nat) (cause : SlowCause) (pll : Pll) (watts : List Nat) (rimW : Nat) (temps : TempSample),
    let tile := tileOf s t
    let cfg := sleepCfg s t
    (bitsAt cfg 0 8 = 0 ∨ tileBusy s t = true → exec (.clockGate t) s = .next (publish s s)) ∧
    (bitsAt cfg 8 8 = 0 ∨ tileBusy s t = true → exec (.pllOff t) s = .next (publish s s)) ∧
    (bitsAt cfg 16 8 = 0 ∨ tileBusy s t = true ∨ tileBound s t = true → exec (.powerOff t) s = .next (publish s s)) ∧
    (t < 64 → tile.fenced = false → tileBusy s t = false →
      (bitsAt cfg 0 8 ≠ 0 → tile.tier = .active → exec (.clockGate t) s = .next (publish s (putTile s t { tile with tier := .gated }))) ∧
      (bitsAt cfg 8 8 ≠ 0 → tile.tier ∈ [Tier.active, .gated] →
        exec (.pllOff t) s = .next (publish s (putTile s t { tile with tier := .pllOff }))) ∧
      (bitsAt cfg 16 8 ≠ 0 → tile.tier ∈ [Tier.active, .gated, .pllOff] → tileBound s t = false →
        exec (.powerOff t) s = .next (publish s (putTile s t { tile with tier := .off })))) ∧
    (fget? t s.boot.idleCfg = none → sleepCfg s t = rget s (rPW 0x300)) ∧
    (t < 64 → tile.fenced = false → rfld s (rPW (0x100 + 4 * regionOfTile t)) 0 2 = 2 →
      (tile.tier ∈ [Tier.gated, .pllOff] → exec (.wake t) s = .next (publish s (activate s t)) ∧
        (activate s t).tiles = (putTile s t { tile with tier := .active }).tiles ∧ (activate s t).regs = s.regs) ∧
      (tile.tier = .off → ∃ u, exec (.wake t) s = .next (publish s u) ∧ (tileOf u t).tier = .active ∧
        (∀ l off, t * 256 ≤ l → l < t * 256 + 256 → off < 0x400000 → cellGet 0 (wellBase l + off) u.mem = 0) ∧ u.regs = s.regs) ∧
      (tile.tier = .active → exec (.wake t) s = .next (publish s s))) ∧
    (t < 64 → tile.fenced = false → pll ∉ tile.pllLost → exec (.pllLockLoss t pll) s =
      .next (publish s (putTile s t { tile with pllLost := tile.pllLost ++ [pll] }))) ∧
    (pll ∈ tile.pllLost → exec (.pllRelock t pll) s =
      .next (publish s (rcount (putTile s t { tile with pllLost := tile.pllLost.filter (· != pll) }) (rPW 0x8020) 1))) ∧
    (causeFits p cause = true →
      (∃ u, exec (.protectiveSlowEnter p cause) s = .next (publish s u) ∧ cause ∈ u.boot.causes ∧
        rfld u (rPW (0x8000 + 4 * p)) 2 1 = 1 ∧ u = { s with regs := u.regs, boot := { s.boot with causes := u.boot.causes } }) ∧
      ∃ u, exec (.protectiveCauseClear p cause) s = .next (publish s u) ∧ cause ∉ u.boot.causes ∧
        rfld u (rPW (0x8000 + 4 * p)) 2 1 = rfld s (rPW (0x8000 + 4 * p)) 2 1) ∧
    (p < 2 → (∀ c ∈ s.boot.causes, causePanel c ≠ p) →
      exec (.protectiveSlowExit p) s = .next (publish s (rsetf s (rPW (0x8000 + 4 * p)) 2 1 0))) ∧
    (p < 2 → (∃ c ∈ s.boot.causes, causePanel c = p) → exec (.protectiveSlowExit p) s = .next (publish s s)) ∧
    (∃ u, exec (.powerControllerSample watts rimW temps) s = .next (publish s u) ∧
      u.boot.capTotal = capStep s.boot.capTotal (((List.range 16).map fun r => watts[r]?.getD 0).sum + rimW)
        (100 * rfld s (rPW 0x200) 0 8) ∧
      (∀ r < 16, rfld u (rPW (0x100 + 4 * r)) 16 11 = Min.min 2047 (watts[r]?.getD 0)) ∧
      rfld u (rPW 0x400) 0 8 = temps.tmax % 256 ∧ u.mem = s.mem ∧ u.cores = s.cores) ∧
    (∃ u, exec .thermalTrip s = .next (publish s u) ∧ u.boot.tripHold = true ∧ rfld u (rPW 0) 4 1 = 1 ∧
      (s.boot.resetPending = none → u.boot.resetPending = some .warm ∧ rfld u 0x114 0 8 = 16)) ∧
    (s.boot.standby = true → s.boot.rim = true →
      (∃ u, exec .standbyLoss s = .next (publish s u) ∧ u.boot = { s.boot with standby := false } ∧
        rfld u (rPW 0) 0 3 = 5 ∧ u.mem = s.mem ∧ u.cores = s.cores) ∧
      (∃ u, exec .rimLoss s = .next (publish s u) ∧ u.boot.rim = false ∧ u.boot.standby = true ∧ u.cores = [] ∧ u.ctxs = [] ∧
        u.journal = [] ∧ u.otp = s.otp) ∧ exec .standbyArrive s = .next (publish s s) ∧ exec .rimReturn s = .next (publish s s)) ∧
    (s.boot.standby = false → s.boot.rim = true → ∃ u, exec .standbyReturn s = .next (publish s u) ∧
      u.boot = { s.boot with standby := true } ∧ rfld u (rPW 0) 0 3 = 3 ∧ u.mem = s.mem) ∧
    (s.boot.standby = false → s.boot.rim = false → s.boot.trialRun = none → ∃ u, exec .standbyArrive s = .next (publish s u) ∧
      u.boot.standby = true ∧ rget u 0x114 = 2 ^ 6 ∧ u.ctxs = [] ∧ u.otp = s.otp ∧ u.flash = s.flash) ∧
    (s.boot.standby = true → s.boot.rim = false → s.boot.resetPending = none → ∃ u, exec .rimReturn s = .next (publish s u) ∧
      u.boot.rim = true ∧ u.boot.resetPending = some .cold ∧ rfld u 0x114 0 8 = 2 ^ 7)

/-! ## Bring-up -/

/-- R419 to R426, R428, R429, R452, R454: The bring-up command and steps 1 to 10, heartbeat and watchdog. A step's command
does nothing while its step is not due. -/
def Obligations.BringUp : Prop :=
  ∀ (s : State) (v : W32) (regions : List RegionStart) (hottest : Nat) (lanes : List PortLanes) (a b : Bool),
    let at_ (u : State) : Nat := rfld u 0x108 0 4
    let busy (u : State) : Nat := rfld u 0x108 4 1
    let failed (u : State) (st : Nat) : Prop := rfld u 0x108 5 1 = 1 ∧ busy u = 0 ∧ rfld u 0x108 16 16 = st
    (let t := v.toNat % 16
     (busy s = 1 ∨ t = 0 ∨ 10 < t ∨ t ≤ at_ s → exec (.whBringCmdWrite v) s =
       .next (publish s (rsetf (rsetf s 0x108 7 1 1) 0x108 16 16 0x1601))) ∧
     (busy s = 0 → rfld s 0x108 5 1 = 0 → 1 ≤ t → t ≤ 10 → at_ s < t → at_ s ≠ 2 ∨ s.boot.rim = false → exec (.whBringCmdWrite v) s =
       .next (publish s (rsetf { s with boot := { s.boot with target := t, stepAt := s.now } } 0x108 4 1 1))) ∧
     (busy s = 0 → rfld s 0x108 5 1 = 0 → t ≤ 10 → at_ s = 2 → 2 < t → s.boot.rim = true → s.boot.resetPending = none → ∃ u,
       exec (.whBringCmdWrite v) s = .next (publish s u) ∧ at_ u = 3 ∧ u.boot.src = (rfld s 0x100 0 1 == 1) ∧
       busy u = (if t = 3 then 0 else 1) ∧ u.mem = s.mem ∧ u.cores = s.cores)) ∧
    (at_ s ≤ 1 → rfld s 0x108 5 1 = 0 → s.boot.standby = true ∨ s.boot.rim = true →
      (∃ u, exec (.alwaysOnSelfTest false) s = .next (publish s u) ∧ failed u 0xF601 ∧ u = { s with regs := u.regs }) ∧
      (identityOk s = false → ∃ u, exec (.alwaysOnSelfTest true) s = .next (publish s u) ∧ failed u 0xF604 ∧ at_ u = 1) ∧
      (identityOk s = true → busy s = 0 → ∃ u, exec (.alwaysOnSelfTest true) s = .next (publish s u) ∧ at_ u = 2 ∧
        u = { s with regs := u.regs, boot := { s.boot with stepAt := s.now } })) ∧
    (∀ t, 3 ≤ t → s.boot.rim = false → stepDue s t = false) ∧
    (stepDue s 4 = false → exec (.firmwareStart a b) s = .next (publish s s)) ∧
    (stepDue s 4 = true → s.boot.src = false →
      (∀ k, ((bankOrder s).find? fun k => if k == 0 then a else b) = some k → ∃ u, exec (.firmwareStart a b) s = .next (publish s u) ∧
        at_ u = 4 ∧ rfld u (rFW 0) 0 1 = k ∧ u.boot.fwHdr = bankHead s k ∧ u.boot.wdogArmed = true ∧ u.boot.recovery = false ∧
        rfld u 0x120 4 4 = 0 ∧ u.flash = s.flash ∧ u.mem = s.mem) ∧
      ((bankOrder s).find? (fun k => if k == 0 then a else b) = none → ∃ u, exec (.firmwareStart a b) s = .next (publish s u) ∧
        failed u 0xF602 ∧ u.boot.recovery = true ∧ u.mem = s.mem)) ∧
    (stepDue s 4 = true → s.boot.src = true → s.boot.mboxDone = false → exec (.firmwareStart a b) s = .next (publish s s)) ∧
    (stepDue s 5 = false → exec (.regionPowerUp regions hottest) s = .next (publish s s)) ∧
    (stepDue s 5 = true → s.boot.tripHold = true → 85 ≤ hottest →
      exec (.regionPowerUp regions hottest) s = .next (publish s (rsetf s 0x108 6 1 1))) ∧
    (stepDue s 5 = true → s.boot.tripHold = false ∨ hottest < 85 → (∀ x ∈ regions, x = .inRegulation) → ∃ u,
      exec (.regionPowerUp regions hottest) s = .next (publish s u) ∧ at_ u = 5 ∧ u.cores = s.cores ∧
      ∀ r < 16, r < regions.length → regionLost s r = false → rfld u (rPW (0x100 + 4 * r)) 0 2 = 2 ∧
        ∀ t ∈ regionTiles r, (tileOf u t).tier = .active) ∧
    (stepDue s 6 = false → exec (.linkTraining [] lanes) s = .next (publish s s)) ∧
    (let bad (n : Nat) := ((lanes.filter fun e => e.port == n).flatMap (·.failing)).eraseDups.filter (· < 9)
     stepDue s 6 = true → (∀ n < 64, (bad n).length < 2) → CarrierLink.wellHead 0 ∉ s.boot.linksDown → ∃ u,
      exec (.linkTraining [] lanes) s = .next (publish s u) ∧ at_ u = 6 ∧ u.mem = s.mem ∧ u.cores = s.cores ∧
      ∀ n < 64, rfld s (rAK n 0) 0 2 ≠ 3 → rfld u (rAK n 0) 2 4 = (if bad n = [] then 9 else 8) ∧
        rfld u (rAK n 0) 6 1 = (if bad n = [] then 0 else 1)) ∧
    (stepDue s 7 = true → (∀ c, (chanSt s c).queue = []) → ∃ u, exec (.lpddrTraining [] []) s = .next (publish s u) ∧ at_ u = 7 ∧
      u.selfRefresh = false ∧ u.boot.past7 = true ∧ u.mem = s.mem ∧ u.cores = s.cores) ∧
    (stepDue s 8 = true → (genInUse s = none → ∃ u, exec .defectMap s = .next (publish s u) ∧ failed u 0xF604) ∧
      (genInUse s ≠ none → ∃ u, exec .defectMap s = .next (publish s u) ∧ at_ u = 8 ∧ u.mem = s.mem ∧
        ∀ w ∈ defectEntries s, bitsAt w 27 4 = 2 → (tileOf u (bitsAt w 21 6)).fenced = true)) ∧
    (stepDue s 9 = true →
      (∃ u, exec (.knownAnswerRun []) s = .next (publish s u) ∧ at_ u = 9 ∧
        u = { s with regs := u.regs, boot := { s.boot with stepAt := s.now } }) ∧
      ∀ t p, t < 64 → p < 264 → pcoreState s t p ≠ 2 → (tileOf s t).fenced = false → ∃ u,
        exec (.knownAnswerRun [.core t p]) s = .next (publish s u) ∧ at_ u = 9 ∧ pcoreState u t p = 2) ∧
    (stepDue s 10 = true → s.boot.lastWarm = false → s.boot.fnOn = [] → s.boot.fnStart = [] → s.boot.cxlUp = false →
      s.casc.active = false → ∃ u, exec (.journalReplay []) s = .next (publish s u) ∧ at_ u = 10 ∧ ready u = true ∧
      ∀ k, s.boot.trialRun = some k → k < 2 → flashByte s (bankBase k) = 0x7F → bankState u k = 2) ∧
    (fwRuns s = false → exec .heartbeat s = .next (publish s s)) ∧
    (fwRuns s = true → ∃ u, exec .heartbeat s = .next (publish s u) ∧ rget64 u 0x124 = (rget64 s 0x124 + 1) % 2 ^ 64 ∧
      rfld u 0x120 4 4 = 0 ∧ u = { s with regs := u.regs, boot := { s.boot with beatSeen := true } }) ∧
    (s.boot.wdogArmed = false → exec .watchdogCheck s = .next (publish s s)) ∧
    (s.boot.wdogArmed = true → s.boot.beatSeen = true →
      exec .watchdogCheck s = .next (publish s { s with boot := { s.boot with beatSeen := false } })) ∧
    (s.boot.wdogArmed = true → s.boot.beatSeen = false → s.boot.resetPending = none →
      let m := min 15 (rfld s 0x120 4 4 + 1)
      ∃ u, exec .watchdogCheck s = .next (publish s u) ∧ rfld u 0x120 4 4 = m ∧ u.mem = s.mem ∧ u.cores = s.cores ∧
        (if rfld s 0x120 0 4 ≠ 0 ∧ rfld s 0x120 0 4 ≤ m then u.boot.resetPending = some .warm ∧ rfld u 0x114 0 8 = 4
         else u.boot = s.boot))

/-! ## Resets and the dump -/

/-- R375, R416, R417: A cause of a reset is recorded; causes of one reset merge, and one cold cause makes it cold.
R229, R230, R416 to R418: What a warm and a cold reset keep and lose. -/
def Obligations.ResetCausesAndResets : Prop :=
  (∀ (s : State),
    let asked (u : State) (k : ResetKind) (bits : Nat) : Prop :=
      (s.boot.resetPending = none → u.boot.resetPending = some k ∧ rfld u 0x114 0 8 = bits ∧ u = { s with regs := u.regs, boot := u.boot }) ∧
      (s.boot.resetPending = some .cold → u.boot.resetPending = some .cold ∧ u = { s with regs := u.regs }) ∧
      (s.boot.resetPending = some .warm → u.boot.resetPending = some k ∧
        ∀ i < 8, bitAt (rget u 0x114) i = (bitAt (rget s 0x114) i || bitAt bits i))
    (∃ u, exec .warmResetRequest s = .next (publish s u) ∧ asked u .warm 1) ∧
    (∃ u, exec (.coldResetRequest false) s = .next (publish s u) ∧ asked u .cold 2) ∧
    (∃ u, exec (.coldResetRequest true) s = .next (publish s u) ∧ asked u .cold 3) ∧
    (∃ u, exec .cxlReset s = .next (publish s u) ∧ asked u .warm 8) ∧
    (4 ≤ rfld s 0x108 0 4 → ∃ u, exec .firmwareResetRequest s = .next (publish s u) ∧ asked u .warm 32) ∧
    (rfld s 0x108 0 4 < 4 → exec .firmwareResetRequest s = .next (publish s s))) ∧
  (∀ (s : State),
    (s.boot.resetPending ≠ some .warm → exec .warmReset s = .next (publish s s)) ∧
    (dumpDue s = true → s.boot.dumped = false → exec .warmReset s = .next (publish s s)) ∧
    (rfld s 0x108 4 1 = 1 → exec .warmReset s = .next (publish s s)) ∧
    (s.boot.resetPending = some .warm → rfld s 0x108 4 1 = 0 → s.boot.dumped = true ∨ dumpDue s = false → ∃ u, exec .warmReset s = .next (publish s u) ∧
      u.boot.resetPending = none ∧ u.boot.lastWarm = true ∧ rget u 0x108 = 2 ∧ rfld u 0x114 0 8 = rfld s 0x114 0 8 ∧
      rfld u 0x114 16 16 = min 65535 (rfld s 0x114 16 16 + 1) ∧ u.selfRefresh = true ∧
      (∀ a, a < 0x100000000000 ∨ 0x400000000000 ≤ a → cellGet memDefault a u.mem = cellGet memDefault a s.mem) ∧
      (∀ a, 0x100000000000 ≤ a → a < 0x400000000000 → cellGet memDefault a u.mem = 0) ∧
      u.lpPoison = s.lpPoison ∧ u.hostPoison = s.hostPoison ∧ u.otp = s.otp ∧ u.cores = [] ∧ u.tiles = [] ∧ u.sos = [] ∧
      u.accepted = [] ∧ u.out = s.out.filter Msg.toHost ∧ u.journal.length = s.journal.length ∧ (∀ n < 64, ctxGen u n = ctxGen s n)) ∧
    (s.boot.resetPending ≠ some .cold → exec .coldReset s = .next (publish s s)) ∧
    (s.boot.resetPending = some .cold → ∃ u, exec .coldReset s = .next (publish s u) ∧
      u.boot.resetPending = none ∧ u.boot.lastWarm = false ∧ rget u 0x108 = 2 ∧ rfld u 0x114 0 8 = rfld s 0x114 0 8 ∧
      rfld u 0x114 16 16 = 0 ∧
      (∀ a, 0x400000000000 ≤ a → cellGet memDefault a u.mem = cellGet memDefault a s.mem) ∧
      (∀ a, a < 0x400000000000 → cellGet memDefault a u.mem = 0) ∧
      u.otp = s.otp ∧ u.hostPoison = s.hostPoison ∧ u.out = [] ∧ u.journal = [] ∧ u.ctxs = [] ∧ u.cores = [] ∧ u.accepted = [] ∧
      ∀ n < 64, ctxState u n = 0 ∧ ctxGen u n = 1))

/-- R430 to R434: The dump, its copy to host memory and its release. -/
def Obligations.Dumps : Prop :=
  ∀ (s : State) (v : W32),
    let st (u : State) : Nat := rfld u (rDG 0x28) 16 16
    (dumpDue s = false ∨ s.boot.dumped = true → exec .dump s = .next (publish s s)) ∧
    (dumpDue s = true → s.boot.dumped = false → ∃ u, exec .dump s = .next (publish s u) ∧ u.boot.dumped = true ∧
      u.boot.dumpSeq = s.boot.dumpSeq + 1 ∧ rget u (rDG 0) = 1 + (s.boot.dumpSeq + 1) % 65536 * 65536 ∧ u.mem = s.mem ∧
      u.cores = s.cores) ∧
    (v.getLsbD 0 = false → exec (.dumpCopy v) s = .next (publish s s)) ∧
    (v.getLsbD 0 = true →
      let src := rget64 s (rDG 0x10)
      let dst := rget64 s (rDG 0x18)
      let len := rget s (rDG 0x20)
      let refused := rfld s 0x108 0 4 < 7 ∨ rfld s (rDG 0x28) 0 1 = 1 ∨ src % 64 ≠ 0 ∨ dst % 64 ≠ 0 ∨ len % 64 ≠ 0 ∨
        2 ^ 30 < len ∨ 9 * 2 ^ 30 < src + len ∨ dst < 0x400000000000 ∨ 0x800000000000 < dst + len
      (refused → ∃ u, exec (.dumpCopy v) s = .next (publish s u) ∧ st u = 0x1602 ∧ rfld u (rDG 0x28) 2 1 = 1 ∧
        u = { s with regs := u.regs }) ∧
      (¬ refused → ∃ u, exec (.dumpCopy v) s = .next (publish s u) ∧ rfld u (rDG 0x28) 0 1 = 1 ∧ u.boot.copy = (src, dst, len) ∧
        u = { s with regs := u.regs, boot := { s.boot with copy := u.boot.copy } })) ∧
    (rfld s (rDG 0x28) 0 1 = 0 ∨ s.boot.cxlUp = false → exec .dumpCopyComplete s = .next (publish s s)) ∧
    (rfld s (rDG 0x28) 0 1 = 1 → s.boot.cxlUp = true → ∀ src dst len, s.boot.copy = (src, dst, 64 * len) → dst % 64 = 0 →
      0x400000000000 ≤ dst → dst + 64 * len ≤ 0x800000000000 → (∀ k < len, chanState s ((src + 64 * k) / 25165824) = 0) →
      (∀ k < len, dumpCw (src + 64 * k) ∉ s.lpPoison) → ∃ u,
      exec .dumpCopyComplete s = .next (publish s u) ∧ rfld u (rDG 0x28) 0 1 = 0 ∧ rfld u (rDG 0x28) 1 1 = 1 ∧
      rfld u (rDG 0x28) 2 1 = 0 ∧ st u = 0 ∧
      (∀ i < 64 * len, byteAt u (dst + i) = cellGet 0 (src + i) s.dumpMem) ∧
      (∀ a, a < dst ∨ dst + 64 * len ≤ a → cellGet memDefault a u.mem = cellGet memDefault a s.mem) ∧ u.cores = s.cores) ∧
    (rfld s (rDG 0x28) 0 1 = 1 → s.boot.cxlUp = true → ∀ src dst len, s.boot.copy = (src, dst, 64 * len) →
      (∃ k < len, chanState s ((src + 64 * k) / 25165824) ≠ 0 ∨ dumpCw (src + 64 * k) ∈ s.lpPoison) → ∃ u,
      exec .dumpCopyComplete s = .next (publish s u) ∧ rfld u (rDG 0x28) 1 1 = 1 ∧ rfld u (rDG 0x28) 2 1 = 1 ∧ st u = 0x3701) ∧
    (∃ u, exec (.dumpRelease v) s = .next (publish s u) ∧ u = { s with regs := u.regs } ∧
      rfld u (rDG 0) 0 1 = (if v.getLsbD 0 then 0 else rfld s (rDG 0) 0 1) ∧ rfld u (rDG 0) 16 16 = rfld s (rDG 0) 16 16)

/-! ## Firmware, registers, TAP -/

/-- R447, R451, R453, R454, R457: Packages are applied to the other bank; a commit never clears a bit of OTP; chunks of a package
come through one path at a time.
R455, R456: A report goes to host memory through FW_ATT_DST, or to the sideband. -/
def Obligations.FirmwareAndAttestation : Prop :=
  (∀ (s : State) (v : W32) (data : List W8) (last : Bool),
    let stat (u : State) : Nat := rfld u (rFW 0x20) 16 16
    let busy (u : State) : Nat := rfld u (rFW 0x20) 0 1
    (v.toNat % 4 ≠ 1 → exec (.fwApply v) s = .next (publish s s)) ∧
    (v.toNat % 4 = 1 →
      (busy s = 1 → ∃ u, exec (.fwApply v) s = .next (publish s u) ∧ stat u = 0x1807 ∧ busy u = 1 ∧ u = { s with regs := u.regs }) ∧
      (busy s = 0 → ready s = false → ∃ u, exec (.fwApply v) s = .next (publish s u) ∧ stat u = 0x1807 ∧ busy u = 0 ∧
        u = { s with regs := u.regs }) ∧
      (busy s = 0 → ready s = true → s.boot.fwHost.isSome ∨ bankState s (rfld s (rFW 0) 0 1) ≠ 1 →
        (∀ st, applyRefusal s (readPkg s) = some st → st < 65536 → ∃ u, exec (.fwApply v) s = .next (publish s u) ∧ stat u = st ∧
          busy u = 0 ∧ u = { s with regs := u.regs }) ∧
        (applyRefusal s (readPkg s) = none → ∃ u, exec (.fwApply v) s = .next (publish s u) ∧ busy u = 1 ∧
          u.boot.applyPkg = some (readPkg s) ∧ bankState u (otherBank s) = 0 ∧ u.mem = s.mem ∧ u.otp = s.otp))) ∧
    (s.boot.applyPkg = none → exec .fwApplyComplete s = .next (publish s s)) ∧
    (∀ p i, s.boot.applyPkg = some p → pkgImage (runningImage s) p = some i →
      (Config.shake256 i = resd p → ∃ u, exec .fwApplyComplete s = .next (publish s u) ∧ stat u = 0 ∧ busy u = 0 ∧
        u.boot.applyPkg = none ∧ bankState u (otherBank s) = 1 ∧ u.mem = s.mem) ∧
      (Config.shake256 i ≠ resd p → ∃ u, exec .fwApplyComplete s = .next (publish s u) ∧ stat u = 0xF801 ∧ u.flash = s.flash)) ∧
    (v.toNat % 4 ≠ 2 → exec (.fwCommit v) s = .next (publish s s)) ∧
    (v.toNat % 4 = 2 → busy s = 0 → ∃ u, exec (.fwCommit v) s = .next (publish s u) ∧
      (∀ a, cellGet 0 a u.otp &&& cellGet 0 a s.otp = cellGet 0 a s.otp) ∧ u.mem = s.mem ∧ u.flash = s.flash ∧
      stat u = (if s.boot.fwHost.isSome ∨ fwRuns s = false ∨ bankState s (rfld s (rFW 0) 0 1) ≠ 2 then 0x1808 else 0)) ∧
    (let n := bitsAt v.toNat 0 13
     (n = 0 ∨ 4096 < n → exec (.fwMboxPush v) s = .next (publish s s)) ∧
     (0 < n → n ≤ 4096 → v.getLsbD 13 = true → takesChunks s = false → ∃ u, exec (.fwMboxPush v) s = .next (publish s u) ∧
       rfld u (rFW 0x100) 16 16 = 0x1807 ∧ u = { s with regs := u.regs }) ∧
     (0 < n → n ≤ 4096 → v.getLsbD 13 = true → v.getLsbD 14 = false → takesChunks s = true → s.boot.mboxBy ≠ some false → ∃ u,
       exec (.fwMboxPush v) s = .next (publish s u) ∧ rfld u (rFW 0x100) 16 16 = 0 ∧ u.boot.mbox = s.boot.mbox ++ windowBytes s n ∧
       u.boot.mboxBy = some true)) ∧
    (s.boot.standby = false → s.boot.rim = false → exec (.mctpFirmwareChunk data last) s = .next (publish s s) ∧
      exec (.mctpAttestation data) s = .next (publish s s)) ∧
    (s.boot.standby = true ∨ s.boot.rim = true → data = [] ∨ 4096 < data.length → exec (.mctpFirmwareChunk data last) s =
      .next (publish s { s with reply := ⟨leBytes 2 0x1801, false⟩ })) ∧
    (s.boot.standby = true ∨ s.boot.rim = true → data ≠ [] → data.length ≤ 4096 → takesChunks s = false ∨ s.boot.mboxBy = some true → exec (.mctpFirmwareChunk data last) s =
      .next (publish s { s with reply := ⟨leBytes 2 0x1807, false⟩ })) ∧
    (s.boot.standby = true ∨ s.boot.rim = true → data ≠ [] → data.length ≤ 4096 → takesChunks s = true → s.boot.mboxBy ≠ some true → exec (.mctpFirmwareChunk data false) s =
      .next (publish s { s with boot := { s.boot with mboxBy := some false, mbox := s.boot.mbox ++ data, mboxDone := false },
                                reply := ⟨leBytes 2 0, false⟩ })) ∧
    (s.boot.mboxDone = false → exec .mailboxIdleTimeout s =
      .next (publish s { s with boot := { s.boot with mboxBy := none, mbox := [] } }))) ∧
  (∀ (s : State) (v : W32) (nonce : List W8),
    let a := rget64 s (rFW 0x220)
    let r := attReport s ((List.range 8).flatMap fun i => leBytes 4 (rget s (rFW (0x200 + 4 * i))))
    (v.getLsbD 0 = false → exec (.fwAttGo v) s = .next (publish s s)) ∧
    (v.getLsbD 0 = true → a % 64 ≠ 0 ∨ a < 0x400000000000 ∨ 0x800000000000 < a + r.length →
      exec (.fwAttGo v) s = .next (publish s (rput s (rFW 0x22C) (2 + 0x1809 * 2 ^ 16)))) ∧
    (v.getLsbD 0 = true → s.boot.cxlUp = true → a % 64 = 0 → 0x400000000000 ≤ a → a + r.length ≤ 0x800000000000 → ∃ u,
      exec (.fwAttGo v) s = .next (publish s u) ∧ rget u (rFW 0x22C) = 2 ∧ bytesAt u a r.length = r ∧
      (∀ x, x < a ∨ a + r.length ≤ x → cellGet memDefault x u.mem = cellGet memDefault x s.mem) ∧ u.cores = s.cores) ∧
    (s.boot.standby = true ∨ s.boot.rim = true → exec (.mctpAttestation nonce) s = .next (publish s { s with reply := ⟨attReport s nonce, false⟩ })) ∧
    r.length = 528 + 72 * (attCtxs s).length)

/-- R12 to R16, R396, R413, R427: A register write changes its fields by their access codes; a pair is read through its latch;
an offset without a register reads as zero and ignores writes; a TAP scan shifts through the chosen register. -/
def Obligations.RegistersAndTap : Prop :=
  ∀ (s : State) (o size : Nat) (value : W64) (r : RegRow) (data : List Bool),
    let v := value.toNat % 2 ^ 32
    let gives (u : State) (x : Nat) : State := { u with reply := ⟨leBytes 4 x, false⟩ }
    (size ≠ 4 ∨ o % 4 ≠ 0 → exec (.registerWrite o size value) s = .next (publish s s)) ∧
    (regRow? o = none ∨ blockOpen s o = false → exec (.registerWrite o size value) s = .next (publish s s) ∧
      exec (.registerPairRead ⟨o, 4⟩) s = .next (publish s (gives s 0))) ∧
    (size ≠ 4 ∨ o % 4 ≠ 0 → exec (.registerPairRead ⟨o, size⟩) s =
      .next (publish s { s with reply := ⟨List.replicate size 0, false⟩ })) ∧
    (size = 4 → o % 4 = 0 → regRow? o = some r → blockOpen s o = true → writeActs o v s = none → r.pair = 0 → rwOk o v = true → ∃ u,
      exec (.registerWrite o size value) s = .next (publish s u) ∧ u = { s with regs := u.regs } ∧ (∀ k, k ≠ o → rget u k = rget s k) ∧
      ∀ i < 32, bitAt (rget u o) i = (if bitAt r.rw i then bitAt v i else if bitAt r.w1c i && bitAt v i then false
        else bitAt (rget s o) i)) ∧
    (size = 4 → o % 4 = 0 → regRow? o = some r → blockOpen s o = true → writeActs o v s = none → rwOk o v = false → r.pair = 0 →
      exec (.registerWrite o size value) s = .next (publish s s)) ∧
    (o % 4 = 0 → regRow? o = some r → blockOpen s o = true →
      (r.pair = 0 → exec (.registerPairRead ⟨o, 4⟩) s = .next (publish s (gives s (regRead s o)))) ∧
      (r.pair = 1 → exec (.registerPairRead ⟨o, 4⟩) s =
        .next (publish s (gives { s with rlatch := fset o (BitVec.ofNat 32 (regRead s (o + 4))) s.rlatch } (regRead s o)))) ∧
      (∀ w, r.pair = 2 → fget? (o - 4) s.rlatch = some w → exec (.registerPairRead ⟨o, 4⟩) s =
        .next (publish s (gives { s with rlatch := ferase (o - 4) s.rlatch } w.toNat)))) ∧
    (s.boot.standby = true ∨ s.boot.rim = true → ∀ i : TapInstr,
      let u : State := { s with boot := { s.boot with tapIr := i } }
      (i = .bypass → exec (.tapInstruction i data) s =
        .next (publish s { u with reply := ⟨packBits ((false :: data).take data.length), false⟩ })) ∧
      (i = .idcode → exec (.tapInstruction i data) s =
        .next (publish s { u with reply :=
          ⟨packBits (((List.range 32).map (bitAt 0x16400567) ++ data).take data.length), false⟩ })) ∧
      (i = .extest ∨ i = .samplePreload → ∃ t, exec (.tapInstruction i data) s = .next (publish s t) ∧
        t.boot = { s.boot with tapIr := i, tapCells := data } ∧ t.mem = s.mem ∧ t.regs = s.regs))

/-! ## Reset, codes and rules of the whole block -/

/-- R12, R13, R60, R364, R419 and Table 13.8: what the spec says of the block right after reset: steps 1 and 2 have not run, no
context is bound, cascade and serving functions are OFF, functions 1 to 3 are ON, no command waits. -/
def Obligations.ResetState : Prop :=
  let s := State.reset
  s.pending = [] ∧ rfld s 0x108 0 4 = 0 ∧ rfld s 0x108 4 1 = 0 ∧ rget s 0x114 = 2 ^ 6 ∧
  (∀ n < 64, ctxState s n = 0 ∧ ctxGen s n = 1) ∧ (∀ f < 192, fnState s f = (if 1 ≤ f ∧ f ≤ 3 then 2 else 0)) ∧
  (∀ r < 64, rfld s (rHC r 0x24) 0 2 = 0) ∧ (∀ u, (slotOf s u).bound = false) ∧ (∀ t, (tileOf s t).tier = .off) ∧
  s.accepted = [] ∧ s.journal = [] ∧ s.out = [] ∧ Memory.wf memDefault s.mem = true ∧ reasons s = 0 ∧ ready s = false

/-- R203, Table 8.7: a tensor block and its 4,160 bytes say the same: reading what `Block.bytes` lays out gives the block back,
every field at every value its place holds. -/
def Obligations.BlockCodeRoundTrip : Prop :=
  ∀ (b : Block), b.fmt < 2 ^ 8 → b.nblk < 2 ^ 8 → b.vbytes < 2 ^ 16 → b.gen < 2 ^ 16 → b.ctx < 2 ^ 8 → b.pslot < 2 ^ 8 →
    b.plcid < 2 ^ 32 → b.preplay < 2 ^ 32 → b.pseq < 2 ^ 64 → b.bidx < 2 ^ 64 → b.wgen < 2 ^ 16 → b.pord < 2 ^ 32 →
    b.payload.length = 4096 → (Block.bytes b).length = 4160 ∧ blockOf (Block.bytes b) = b

/-- R29, R37, R38: Every finite encoding of a format decodes to a value that rounds back to that encoding in every rounding
mode, without a flag. -/
def Obligations.FormatRoundTrip : Prop :=
  ∀ f ∈ [f64, f32, bf16, f16, e4m3, e5m2, e3m2, e2m3, e2m1], ∀ (b : Nat) (mode : RMode), b < 2 ^ f.width →
    (f.decode b).isFin = true → f.encode mode (f.decode b) = (b, {})

/-- R379: A mirror line that the host has cached and that no snoop is outstanding for, before and after a step, shows after the
step what it showed before it, whatever command the step carries out. -/
def Obligations.QuietMirrorLinesAreStable : Prop :=
  ∀ (s t : State), step s = .next t → ∀ k ∈ s.presence, k ∉ s.snoops → k ∈ t.presence → k ∉ t.snoops →
    mirrorLine t k = mirrorLine s k

/-- Every command completes: no command of the table ends in a fault or a refusal. -/
def Obligations.NoCommandStops : Prop :=
  ∀ (c : Instr) (s : State), ∃ t, exec c s = .next t

/-- R164, R178, R213, R375: The stores to wells, LPDDR and host memory, whichever command makes them, keep the memory's
canonical form, so that equal memories are equal data. -/
def Obligations.MemoryStaysCanonical : Prop :=
  ∀ (s t : State) (u : StreamId) (f : Fields) (dpa len ring n : Nat) (bs : List W8) (host : List (Nat × W8)) (errs : List SymErr) (v : W32),
    Memory.wf memDefault s.mem = true →
    ∀ c ∈ ([.st u f errs, .vst u f errs, .vscatter u f errs, .amoadd u f, .stagingWrite dpa bs errs, .stagingRead dpa len errs,
      .tailLineInvalidate ring bs host, .cxlLinkUp, .xfer ring n errs, .dumpCopyComplete, .fwAttGo v, .wake n, .warmReset, .coldReset,
      .rimLoss] : List Instr), exec c s = .next t → Memory.wf memDefault t.mem = true
end

