-- ==== Sys2Proof/Laws/Maps.lean ====
section
/-! SUPPORT. Laws of sparse data by key, of byte strings and of memory in canonical form. -/

namespace Sys2Proof.Machine

/-! ## Entries by key -/

@[simp] theorem fget?_nil {α : Type} (k : Nat) : fget? k ([] : FMap α) = none := rfl

@[simp] theorem fget?_fset_same {α : Type} (k : Nat) (v : α) (m : FMap α) : fget? k (fset k v m) = some v := by
  induction m with
  | nil => simp [fset, fget?]
  | cons e r ih =>
    unfold fset
    split
    · simp [fget?]
    · split
      · simp [fget?]
      · simp [fget?, *]

theorem fget?_fset_ne {α : Type} {k j : Nat} (h : j ≠ k) (v : α) (m : FMap α) : fget? j (fset k v m) = fget? j m := by
  induction m with
  | nil => simp [fset, fget?, h]
  | cons e r ih =>
    unfold fset
    split
    · rename_i hk; subst hk; simp [fget?, h]
    · split
      · simp [fget?, h]
      · simp [fget?, ih]

@[simp] theorem fget_fset_same {α : Type} (d : α) (k : Nat) (v : α) (m : FMap α) : fget d k (fset k v m) = v := by
  simp [fget]

theorem fget_fset_ne {α : Type} {k j : Nat} (h : j ≠ k) (d v : α) (m : FMap α) :
    fget d j (fset k v m) = fget d j m := by
  simp [fget, fget?_fset_ne h]

@[simp] theorem fset_fset {α : Type} (k : Nat) (v w : α) (m : FMap α) : fset k v (fset k w m) = fset k v m := by
  induction m with
  | nil => simp [fset]
  | cons e r ih =>
    by_cases h1 : k = e.1
    · simp [fset, h1]
    · by_cases h2 : k < e.1
      · simp [fset, h1, h2]
      · simp [fset, h1, h2, ih]

theorem fget_fset {α : Type} (d v : α) (j k : Nat) (m : FMap α) :
    fget d j (fset k v m) = if j = k then v else fget d j m := by
  by_cases h : j = k
  · subst h; simp
  · simp [h, fget_fset_ne]

theorem fget?_ferase_same {α : Type} (k : Nat) (m : FMap α) : fget? k (ferase k m) = none := by
  induction m with
  | nil => rfl
  | cons e r ih =>
    unfold ferase
    split
    · exact ih
    · rename_i h; simp [fget?, h, ih]

theorem fget?_ferase_ne {α : Type} {k j : Nat} (h : j ≠ k) (m : FMap α) : fget? j (ferase k m) = fget? j m := by
  induction m with
  | nil => rfl
  | cons e r ih =>
    unfold ferase
    split
    · rename_i hk; subst hk; simp [fget?, h, ih]
    · simp [fget?, ih]

/-! ## Memory reads and writes -/

/-- A byte reads as what was last written there. -/
@[simp] theorem cellGet_cellSet_same (d : W8) (a : Nat) (v : W8) (m : List Host.Cell) :
    cellGet d a (cellSet d a v m) = v := by
  unfold cellGet cellSet
  split
  · rename_i h; simp [fget, fget?_ferase_same, h]
  · simp

/-- A write leaves every other byte alone. -/
theorem cellGet_cellSet_ne {a b : Nat} (h : b ≠ a) (d v : W8) (m : List Host.Cell) :
    cellGet d b (cellSet d a v m) = cellGet d b m := by
  unfold cellGet cellSet
  split
  · simp [fget, fget?_ferase_ne h]
  · exact fget_fset_ne h d v m

/-- Bytes outside those written are unchanged. -/
theorem cellGet_cellSets_ne (d : W8) (b : Nat) (bs : List (Nat × W8)) (m : List Host.Cell)
    (h : ∀ e ∈ bs, e.1 ≠ b) : cellGet d b (cellSets d bs m) = cellGet d b m := by
  unfold cellSets
  induction bs generalizing m with
  | nil => rfl
  | cons e r ih =>
    simp only [List.foldl_cons]
    rw [ih _ fun x hx => h x (List.mem_cons_of_mem _ hx)]
    exact cellGet_cellSet_ne (fun q => h e List.mem_cons_self q.symm) d e.2 m

/-! ## The canonical form -/

/-- Every entry lies above a key. -/
def keysAbove (k : Nat) (m : List Host.Cell) : Prop := ∀ e ∈ m, k < e.1

theorem keysRise_cons (a : Host.Cell) (m : List Host.Cell) :
    keysRise (a :: m) = true ↔ keysAbove a.1 m ∧ keysRise m = true := by
  induction m generalizing a with
  | nil => simp [keysRise, keysAbove]
  | cons b r ih =>
    simp only [keysRise, keysAbove, List.forall_mem_cons, Bool.and_eq_true, decide_eq_true_eq]
    exact ⟨fun h => ⟨⟨h.1, fun e he => h.1.trans (((ih b).1 h.2).1 e he)⟩, h.2⟩, fun h => ⟨h.1.1, h.2⟩⟩

/-- What holds of the new entry and of every old one holds of all after a write. -/
theorem all_fset {α : Type} {P : Nat × α → Prop} {k : Nat} {v : α} {m : FMap α} (new : P (k, v)) (old : ∀ e ∈ m, P e) :
    ∀ e ∈ fset k v m, P e := by
  induction m with
  | nil => simpa [fset] using new
  | cons b r ih =>
    simp only [List.forall_mem_cons] at old
    simp only [fset]
    split_ifs <;> simp only [List.forall_mem_cons, new, old, true_and] <;> first | exact old.2 | exact ih old.2

/-- Dropping an entry keeps the others, in their order. -/
theorem ferase_eq_filter {α : Type} (k : Nat) (m : FMap α) : ferase k m = m.filter fun e => decide (k ≠ e.1) := by
  induction m with
  | nil => rfl
  | cons b r ih => by_cases h : k = b.1 <;> simp [ferase, h] <;> simpa [h] using ih

theorem keysRise_fset (k : Nat) (v : W8) (m : List Host.Cell) (hm : keysRise m = true) :
    keysRise (fset k v m) = true := by
  induction m with
  | nil => rfl
  | cons b r ih =>
    obtain ⟨h1, h2⟩ := (keysRise_cons b r).mp hm
    unfold fset
    split
    · rename_i hk
      exact (keysRise_cons _ _).mpr ⟨by rw [hk]; exact h1, h2⟩
    · split
      · rename_i _ hlt
        exact (keysRise_cons _ _).mpr ⟨List.forall_mem_cons.2 ⟨hlt, fun e he => hlt.trans (h1 e he)⟩, hm⟩
      · rename_i hne hnl
        exact (keysRise_cons _ _).mpr ⟨all_fset (P := fun e => b.1 < e.1) (by simp only; omega) h1, ih h2⟩

theorem ferase_subset {α : Type} {k : Nat} {m : FMap α} : ferase k m ⊆ m := by
  rw [ferase_eq_filter]; exact List.filter_subset_self m

theorem keysRise_ferase (k : Nat) (m : List Host.Cell) (hm : keysRise m = true) : keysRise (ferase k m) = true := by
  induction m with
  | nil => rfl
  | cons b r ih =>
    obtain ⟨h1, h2⟩ := (keysRise_cons b r).mp hm
    unfold ferase
    split
    · exact ih h2
    · exact (keysRise_cons _ _).mpr ⟨fun e he => h1 e (ferase_subset he), ih h2⟩

/-- Writing a byte keeps the canonical form. -/
theorem wf_cellSet (d : W8) (a : Nat) (v : W8) (m : List Host.Cell) (h : Memory.wf d m = true) :
    Memory.wf d (cellSet d a v m) = true := by
  simp only [Memory.wf, Bool.and_eq_true, List.all_eq_true, bne_iff_ne, ne_eq] at h ⊢
  unfold cellSet
  split
  · exact ⟨keysRise_ferase a m h.1, fun e he => h.2 e (ferase_subset he)⟩
  · rename_i hv
    exact ⟨keysRise_fset a v m h.1, all_fset hv h.2⟩

/-- Writing several bytes keeps the canonical form. -/
theorem wf_cellSets (d : W8) (bs : List (Nat × W8)) (m : List Host.Cell) (h : Memory.wf d m = true) :
    Memory.wf d (cellSets d bs m) = true := by
  unfold cellSets
  induction bs generalizing m with
  | nil => exact h
  | cons e r ih => exact ih _ (wf_cellSet d e.1 e.2 m h)

/-- The empty memory is canonical. -/
@[simp] theorem wf_nil (d : W8) : Memory.wf d [] = true := rfl

/-! ## Byte strings -/

@[simp] theorem length_leBytes (n v : Nat) : (leBytes n v).length = n := by
  induction n generalizing v with
  | zero => rfl
  | succ n ih => simp [leBytes, ih]

/-- R9: the bytes of a number spell it. -/
theorem leNat_leBytes (n v : Nat) : leNat (leBytes n v) = v % 256 ^ n := by
  induction n generalizing v with
  | zero => simp [leBytes, leNat, Nat.mod_one]
  | succ n ih =>
    have h : v % 256 ^ (n + 1) = v % 256 + 256 * (v / 256 % 256 ^ n) := by
      rw [pow_succ', Nat.mod_mul]
    simpa [leBytes, leNat, ih] using h.symm

end Sys2Proof.Machine
end

