-- ==== Sys2Proof/Laws/State.lean ====
section
/-! SUPPORT. What each update of the state leaves alone: one law per field and update. -/

namespace Sys2Proof.Machine

/-! ## `emit` -/

@[simp] theorem emit_pending (s : State) (m : Msg) : (emit s m).pending = s.pending := rfl
@[simp] theorem emit_freeCtr (s : State) (m : Msg) : (emit s m).freeCtr = s.freeCtr := rfl
@[simp] theorem emit_now (s : State) (m : Msg) : (emit s m).now = s.now := rfl
@[simp] theorem emit_reply (s : State) (m : Msg) : (emit s m).reply = s.reply := rfl
@[simp] theorem emit_inbox (s : State) (m : Msg) : (emit s m).inbox = s.inbox := rfl
@[simp] theorem emit_mem (s : State) (m : Msg) : (emit s m).mem = s.mem := rfl
@[simp] theorem emit_lpPoison (s : State) (m : Msg) : (emit s m).lpPoison = s.lpPoison := rfl
@[simp] theorem emit_wellPoison (s : State) (m : Msg) : (emit s m).wellPoison = s.wellPoison := rfl
@[simp] theorem emit_hostPoison (s : State) (m : Msg) : (emit s m).hostPoison = s.hostPoison := rfl
@[simp] theorem emit_hostHeld (s : State) (m : Msg) : (emit s m).hostHeld = s.hostHeld := rfl
@[simp] theorem emit_dumpMem (s : State) (m : Msg) : (emit s m).dumpMem = s.dumpMem := rfl
@[simp] theorem emit_otp (s : State) (m : Msg) : (emit s m).otp = s.otp := rfl
@[simp] theorem emit_flash (s : State) (m : Msg) : (emit s m).flash = s.flash := rfl
@[simp] theorem emit_djOver (s : State) (m : Msg) : (emit s m).djOver = s.djOver := rfl
@[simp] theorem emit_dataWriter (s : State) (m : Msg) : (emit s m).dataWriter = s.dataWriter := rfl
@[simp] theorem emit_dataOld (s : State) (m : Msg) : (emit s m).dataOld = s.dataOld := rfl
@[simp] theorem emit_aonLog (s : State) (m : Msg) : (emit s m).aonLog = s.aonLog := rfl
@[simp] theorem emit_cores (s : State) (m : Msg) : (emit s m).cores = s.cores := rfl
@[simp] theorem emit_tiles (s : State) (m : Msg) : (emit s m).tiles = s.tiles := rfl
@[simp] theorem emit_sos (s : State) (m : Msg) : (emit s m).sos = s.sos := rfl
@[simp] theorem emit_csos (s : State) (m : Msg) : (emit s m).csos = s.csos := rfl
@[simp] theorem emit_soStore (s : State) (m : Msg) : (emit s m).soStore = s.soStore := rfl
@[simp] theorem emit_detours (s : State) (m : Msg) : (emit s m).detours = s.detours := rfl
@[simp] theorem emit_cists (s : State) (m : Msg) : (emit s m).cists = s.cists := rfl
@[simp] theorem emit_chans (s : State) (m : Msg) : (emit s m).chans = s.chans := rfl
@[simp] theorem emit_selfRefresh (s : State) (m : Msg) : (emit s m).selfRefresh = s.selfRefresh := rfl
@[simp] theorem emit_ports (s : State) (m : Msg) : (emit s m).ports = s.ports := rfl
@[simp] theorem emit_ctxs (s : State) (m : Msg) : (emit s m).ctxs = s.ctxs := rfl
@[simp] theorem emit_hrings (s : State) (m : Msg) : (emit s m).hrings = s.hrings := rfl
@[simp] theorem emit_accepted (s : State) (m : Msg) : (emit s m).accepted = s.accepted := rfl
@[simp] theorem emit_journal (s : State) (m : Msg) : (emit s m).journal = s.journal := rfl
@[simp] theorem emit_fns (s : State) (m : Msg) : (emit s m).fns = s.fns := rfl
@[simp] theorem emit_casc (s : State) (m : Msg) : (emit s m).casc = s.casc := rfl
@[simp] theorem emit_boot (s : State) (m : Msg) : (emit s m).boot = s.boot := rfl
@[simp] theorem emit_regs (s : State) (m : Msg) : (emit s m).regs = s.regs := rfl
@[simp] theorem emit_rlatch (s : State) (m : Msg) : (emit s m).rlatch = s.rlatch := rfl
@[simp] theorem emit_wlatch (s : State) (m : Msg) : (emit s m).wlatch = s.wlatch := rfl
@[simp] theorem emit_presence (s : State) (m : Msg) : (emit s m).presence = s.presence := rfl
@[simp] theorem emit_snoops (s : State) (m : Msg) : (emit s m).snoops = s.snoops := rfl
@[simp] theorem emit_snoopFilter (s : State) (m : Msg) : (emit s m).snoopFilter = s.snoopFilter := rfl
@[simp] theorem emit_stagingSnoops (s : State) (m : Msg) : (emit s m).stagingSnoops = s.stagingSnoops := rfl

/-! ## `emits` -/

@[simp] theorem emits_pending (s : State) (ms : List Msg) : (emits s ms).pending = s.pending := rfl
@[simp] theorem emits_freeCtr (s : State) (ms : List Msg) : (emits s ms).freeCtr = s.freeCtr := rfl
@[simp] theorem emits_now (s : State) (ms : List Msg) : (emits s ms).now = s.now := rfl
@[simp] theorem emits_reply (s : State) (ms : List Msg) : (emits s ms).reply = s.reply := rfl
@[simp] theorem emits_inbox (s : State) (ms : List Msg) : (emits s ms).inbox = s.inbox := rfl
@[simp] theorem emits_mem (s : State) (ms : List Msg) : (emits s ms).mem = s.mem := rfl
@[simp] theorem emits_lpPoison (s : State) (ms : List Msg) : (emits s ms).lpPoison = s.lpPoison := rfl
@[simp] theorem emits_wellPoison (s : State) (ms : List Msg) : (emits s ms).wellPoison = s.wellPoison := rfl
@[simp] theorem emits_hostPoison (s : State) (ms : List Msg) : (emits s ms).hostPoison = s.hostPoison := rfl
@[simp] theorem emits_hostHeld (s : State) (ms : List Msg) : (emits s ms).hostHeld = s.hostHeld := rfl
@[simp] theorem emits_dumpMem (s : State) (ms : List Msg) : (emits s ms).dumpMem = s.dumpMem := rfl
@[simp] theorem emits_otp (s : State) (ms : List Msg) : (emits s ms).otp = s.otp := rfl
@[simp] theorem emits_flash (s : State) (ms : List Msg) : (emits s ms).flash = s.flash := rfl
@[simp] theorem emits_djOver (s : State) (ms : List Msg) : (emits s ms).djOver = s.djOver := rfl
@[simp] theorem emits_dataWriter (s : State) (ms : List Msg) : (emits s ms).dataWriter = s.dataWriter := rfl
@[simp] theorem emits_dataOld (s : State) (ms : List Msg) : (emits s ms).dataOld = s.dataOld := rfl
@[simp] theorem emits_aonLog (s : State) (ms : List Msg) : (emits s ms).aonLog = s.aonLog := rfl
@[simp] theorem emits_cores (s : State) (ms : List Msg) : (emits s ms).cores = s.cores := rfl
@[simp] theorem emits_tiles (s : State) (ms : List Msg) : (emits s ms).tiles = s.tiles := rfl
@[simp] theorem emits_sos (s : State) (ms : List Msg) : (emits s ms).sos = s.sos := rfl
@[simp] theorem emits_csos (s : State) (ms : List Msg) : (emits s ms).csos = s.csos := rfl
@[simp] theorem emits_soStore (s : State) (ms : List Msg) : (emits s ms).soStore = s.soStore := rfl
@[simp] theorem emits_detours (s : State) (ms : List Msg) : (emits s ms).detours = s.detours := rfl
@[simp] theorem emits_cists (s : State) (ms : List Msg) : (emits s ms).cists = s.cists := rfl
@[simp] theorem emits_chans (s : State) (ms : List Msg) : (emits s ms).chans = s.chans := rfl
@[simp] theorem emits_selfRefresh (s : State) (ms : List Msg) : (emits s ms).selfRefresh = s.selfRefresh := rfl
@[simp] theorem emits_ports (s : State) (ms : List Msg) : (emits s ms).ports = s.ports := rfl
@[simp] theorem emits_ctxs (s : State) (ms : List Msg) : (emits s ms).ctxs = s.ctxs := rfl
@[simp] theorem emits_hrings (s : State) (ms : List Msg) : (emits s ms).hrings = s.hrings := rfl
@[simp] theorem emits_accepted (s : State) (ms : List Msg) : (emits s ms).accepted = s.accepted := rfl
@[simp] theorem emits_journal (s : State) (ms : List Msg) : (emits s ms).journal = s.journal := rfl
@[simp] theorem emits_fns (s : State) (ms : List Msg) : (emits s ms).fns = s.fns := rfl
@[simp] theorem emits_casc (s : State) (ms : List Msg) : (emits s ms).casc = s.casc := rfl
@[simp] theorem emits_boot (s : State) (ms : List Msg) : (emits s ms).boot = s.boot := rfl
@[simp] theorem emits_regs (s : State) (ms : List Msg) : (emits s ms).regs = s.regs := rfl
@[simp] theorem emits_rlatch (s : State) (ms : List Msg) : (emits s ms).rlatch = s.rlatch := rfl
@[simp] theorem emits_wlatch (s : State) (ms : List Msg) : (emits s ms).wlatch = s.wlatch := rfl
@[simp] theorem emits_presence (s : State) (ms : List Msg) : (emits s ms).presence = s.presence := rfl
@[simp] theorem emits_snoops (s : State) (ms : List Msg) : (emits s ms).snoops = s.snoops := rfl
@[simp] theorem emits_snoopFilter (s : State) (ms : List Msg) : (emits s ms).snoopFilter = s.snoopFilter := rfl
@[simp] theorem emits_stagingSnoops (s : State) (ms : List Msg) : (emits s ms).stagingSnoops = s.stagingSnoops := rfl

/-! ## `arrive` -/

@[simp] theorem arrive_pending (s : State) (m : Msg) : (arrive s m).pending = s.pending := rfl
@[simp] theorem arrive_freeCtr (s : State) (m : Msg) : (arrive s m).freeCtr = s.freeCtr := rfl
@[simp] theorem arrive_now (s : State) (m : Msg) : (arrive s m).now = s.now := rfl
@[simp] theorem arrive_reply (s : State) (m : Msg) : (arrive s m).reply = s.reply := rfl
@[simp] theorem arrive_inbox (s : State) (m : Msg) : (arrive s m).inbox = s.inbox := rfl
@[simp] theorem arrive_mem (s : State) (m : Msg) : (arrive s m).mem = s.mem := rfl
@[simp] theorem arrive_lpPoison (s : State) (m : Msg) : (arrive s m).lpPoison = s.lpPoison := rfl
@[simp] theorem arrive_wellPoison (s : State) (m : Msg) : (arrive s m).wellPoison = s.wellPoison := rfl
@[simp] theorem arrive_hostPoison (s : State) (m : Msg) : (arrive s m).hostPoison = s.hostPoison := rfl
@[simp] theorem arrive_hostHeld (s : State) (m : Msg) : (arrive s m).hostHeld = s.hostHeld := rfl
@[simp] theorem arrive_dumpMem (s : State) (m : Msg) : (arrive s m).dumpMem = s.dumpMem := rfl
@[simp] theorem arrive_otp (s : State) (m : Msg) : (arrive s m).otp = s.otp := rfl
@[simp] theorem arrive_flash (s : State) (m : Msg) : (arrive s m).flash = s.flash := rfl
@[simp] theorem arrive_djOver (s : State) (m : Msg) : (arrive s m).djOver = s.djOver := rfl
@[simp] theorem arrive_dataWriter (s : State) (m : Msg) : (arrive s m).dataWriter = s.dataWriter := rfl
@[simp] theorem arrive_dataOld (s : State) (m : Msg) : (arrive s m).dataOld = s.dataOld := rfl
@[simp] theorem arrive_aonLog (s : State) (m : Msg) : (arrive s m).aonLog = s.aonLog := rfl
@[simp] theorem arrive_cores (s : State) (m : Msg) : (arrive s m).cores = s.cores := rfl
@[simp] theorem arrive_tiles (s : State) (m : Msg) : (arrive s m).tiles = s.tiles := rfl
@[simp] theorem arrive_sos (s : State) (m : Msg) : (arrive s m).sos = s.sos := rfl
@[simp] theorem arrive_csos (s : State) (m : Msg) : (arrive s m).csos = s.csos := rfl
@[simp] theorem arrive_soStore (s : State) (m : Msg) : (arrive s m).soStore = s.soStore := rfl
@[simp] theorem arrive_detours (s : State) (m : Msg) : (arrive s m).detours = s.detours := rfl
@[simp] theorem arrive_cists (s : State) (m : Msg) : (arrive s m).cists = s.cists := rfl
@[simp] theorem arrive_chans (s : State) (m : Msg) : (arrive s m).chans = s.chans := rfl
@[simp] theorem arrive_selfRefresh (s : State) (m : Msg) : (arrive s m).selfRefresh = s.selfRefresh := rfl
@[simp] theorem arrive_ports (s : State) (m : Msg) : (arrive s m).ports = s.ports := rfl
@[simp] theorem arrive_ctxs (s : State) (m : Msg) : (arrive s m).ctxs = s.ctxs := rfl
@[simp] theorem arrive_hrings (s : State) (m : Msg) : (arrive s m).hrings = s.hrings := rfl
@[simp] theorem arrive_accepted (s : State) (m : Msg) : (arrive s m).accepted = s.accepted := rfl
@[simp] theorem arrive_journal (s : State) (m : Msg) : (arrive s m).journal = s.journal := rfl
@[simp] theorem arrive_fns (s : State) (m : Msg) : (arrive s m).fns = s.fns := rfl
@[simp] theorem arrive_casc (s : State) (m : Msg) : (arrive s m).casc = s.casc := rfl
@[simp] theorem arrive_boot (s : State) (m : Msg) : (arrive s m).boot = s.boot := rfl
@[simp] theorem arrive_regs (s : State) (m : Msg) : (arrive s m).regs = s.regs := rfl
@[simp] theorem arrive_rlatch (s : State) (m : Msg) : (arrive s m).rlatch = s.rlatch := rfl
@[simp] theorem arrive_wlatch (s : State) (m : Msg) : (arrive s m).wlatch = s.wlatch := rfl
@[simp] theorem arrive_presence (s : State) (m : Msg) : (arrive s m).presence = s.presence := rfl
@[simp] theorem arrive_snoops (s : State) (m : Msg) : (arrive s m).snoops = s.snoops := rfl
@[simp] theorem arrive_snoopFilter (s : State) (m : Msg) : (arrive s m).snoopFilter = s.snoopFilter := rfl
@[simp] theorem arrive_stagingSnoops (s : State) (m : Msg) : (arrive s m).stagingSnoops = s.stagingSnoops := rfl

/-! ## `useFree` -/

@[simp] theorem useFree_pending (s : State) : (useFree s).pending = s.pending := rfl
@[simp] theorem useFree_now (s : State) : (useFree s).now = s.now := rfl
@[simp] theorem useFree_reply (s : State) : (useFree s).reply = s.reply := rfl
@[simp] theorem useFree_out (s : State) : (useFree s).out = s.out := rfl
@[simp] theorem useFree_inbox (s : State) : (useFree s).inbox = s.inbox := rfl
@[simp] theorem useFree_mem (s : State) : (useFree s).mem = s.mem := rfl
@[simp] theorem useFree_lpPoison (s : State) : (useFree s).lpPoison = s.lpPoison := rfl
@[simp] theorem useFree_wellPoison (s : State) : (useFree s).wellPoison = s.wellPoison := rfl
@[simp] theorem useFree_hostPoison (s : State) : (useFree s).hostPoison = s.hostPoison := rfl
@[simp] theorem useFree_hostHeld (s : State) : (useFree s).hostHeld = s.hostHeld := rfl
@[simp] theorem useFree_dumpMem (s : State) : (useFree s).dumpMem = s.dumpMem := rfl
@[simp] theorem useFree_otp (s : State) : (useFree s).otp = s.otp := rfl
@[simp] theorem useFree_flash (s : State) : (useFree s).flash = s.flash := rfl
@[simp] theorem useFree_djOver (s : State) : (useFree s).djOver = s.djOver := rfl
@[simp] theorem useFree_dataWriter (s : State) : (useFree s).dataWriter = s.dataWriter := rfl
@[simp] theorem useFree_dataOld (s : State) : (useFree s).dataOld = s.dataOld := rfl
@[simp] theorem useFree_aonLog (s : State) : (useFree s).aonLog = s.aonLog := rfl
@[simp] theorem useFree_cores (s : State) : (useFree s).cores = s.cores := rfl
@[simp] theorem useFree_tiles (s : State) : (useFree s).tiles = s.tiles := rfl
@[simp] theorem useFree_sos (s : State) : (useFree s).sos = s.sos := rfl
@[simp] theorem useFree_csos (s : State) : (useFree s).csos = s.csos := rfl
@[simp] theorem useFree_soStore (s : State) : (useFree s).soStore = s.soStore := rfl
@[simp] theorem useFree_detours (s : State) : (useFree s).detours = s.detours := rfl
@[simp] theorem useFree_cists (s : State) : (useFree s).cists = s.cists := rfl
@[simp] theorem useFree_chans (s : State) : (useFree s).chans = s.chans := rfl
@[simp] theorem useFree_selfRefresh (s : State) : (useFree s).selfRefresh = s.selfRefresh := rfl
@[simp] theorem useFree_ports (s : State) : (useFree s).ports = s.ports := rfl
@[simp] theorem useFree_ctxs (s : State) : (useFree s).ctxs = s.ctxs := rfl
@[simp] theorem useFree_hrings (s : State) : (useFree s).hrings = s.hrings := rfl
@[simp] theorem useFree_accepted (s : State) : (useFree s).accepted = s.accepted := rfl
@[simp] theorem useFree_journal (s : State) : (useFree s).journal = s.journal := rfl
@[simp] theorem useFree_fns (s : State) : (useFree s).fns = s.fns := rfl
@[simp] theorem useFree_casc (s : State) : (useFree s).casc = s.casc := rfl
@[simp] theorem useFree_boot (s : State) : (useFree s).boot = s.boot := rfl
@[simp] theorem useFree_regs (s : State) : (useFree s).regs = s.regs := rfl
@[simp] theorem useFree_rlatch (s : State) : (useFree s).rlatch = s.rlatch := rfl
@[simp] theorem useFree_wlatch (s : State) : (useFree s).wlatch = s.wlatch := rfl
@[simp] theorem useFree_presence (s : State) : (useFree s).presence = s.presence := rfl
@[simp] theorem useFree_snoops (s : State) : (useFree s).snoops = s.snoops := rfl
@[simp] theorem useFree_snoopFilter (s : State) : (useFree s).snoopFilter = s.snoopFilter := rfl
@[simp] theorem useFree_stagingSnoops (s : State) : (useFree s).stagingSnoops = s.stagingSnoops := rfl

/-! ## `putCore` -/

@[simp] theorem putCore_pending (s : State) (l : Nat) (c : CoreSt) : (putCore s l c).pending = s.pending := rfl
@[simp] theorem putCore_freeCtr (s : State) (l : Nat) (c : CoreSt) : (putCore s l c).freeCtr = s.freeCtr := rfl
@[simp] theorem putCore_now (s : State) (l : Nat) (c : CoreSt) : (putCore s l c).now = s.now := rfl
@[simp] theorem putCore_reply (s : State) (l : Nat) (c : CoreSt) : (putCore s l c).reply = s.reply := rfl
@[simp] theorem putCore_out (s : State) (l : Nat) (c : CoreSt) : (putCore s l c).out = s.out := rfl
@[simp] theorem putCore_inbox (s : State) (l : Nat) (c : CoreSt) : (putCore s l c).inbox = s.inbox := rfl
@[simp] theorem putCore_mem (s : State) (l : Nat) (c : CoreSt) : (putCore s l c).mem = s.mem := rfl
@[simp] theorem putCore_lpPoison (s : State) (l : Nat) (c : CoreSt) : (putCore s l c).lpPoison = s.lpPoison := rfl
@[simp] theorem putCore_wellPoison (s : State) (l : Nat) (c : CoreSt) : (putCore s l c).wellPoison = s.wellPoison := rfl
@[simp] theorem putCore_hostPoison (s : State) (l : Nat) (c : CoreSt) : (putCore s l c).hostPoison = s.hostPoison := rfl
@[simp] theorem putCore_hostHeld (s : State) (l : Nat) (c : CoreSt) : (putCore s l c).hostHeld = s.hostHeld := rfl
@[simp] theorem putCore_dumpMem (s : State) (l : Nat) (c : CoreSt) : (putCore s l c).dumpMem = s.dumpMem := rfl
@[simp] theorem putCore_otp (s : State) (l : Nat) (c : CoreSt) : (putCore s l c).otp = s.otp := rfl
@[simp] theorem putCore_flash (s : State) (l : Nat) (c : CoreSt) : (putCore s l c).flash = s.flash := rfl
@[simp] theorem putCore_djOver (s : State) (l : Nat) (c : CoreSt) : (putCore s l c).djOver = s.djOver := rfl
@[simp] theorem putCore_dataWriter (s : State) (l : Nat) (c : CoreSt) : (putCore s l c).dataWriter = s.dataWriter := rfl
@[simp] theorem putCore_dataOld (s : State) (l : Nat) (c : CoreSt) : (putCore s l c).dataOld = s.dataOld := rfl
@[simp] theorem putCore_aonLog (s : State) (l : Nat) (c : CoreSt) : (putCore s l c).aonLog = s.aonLog := rfl
@[simp] theorem putCore_tiles (s : State) (l : Nat) (c : CoreSt) : (putCore s l c).tiles = s.tiles := rfl
@[simp] theorem putCore_sos (s : State) (l : Nat) (c : CoreSt) : (putCore s l c).sos = s.sos := rfl
@[simp] theorem putCore_csos (s : State) (l : Nat) (c : CoreSt) : (putCore s l c).csos = s.csos := rfl
@[simp] theorem putCore_soStore (s : State) (l : Nat) (c : CoreSt) : (putCore s l c).soStore = s.soStore := rfl
@[simp] theorem putCore_detours (s : State) (l : Nat) (c : CoreSt) : (putCore s l c).detours = s.detours := rfl
@[simp] theorem putCore_cists (s : State) (l : Nat) (c : CoreSt) : (putCore s l c).cists = s.cists := rfl
@[simp] theorem putCore_chans (s : State) (l : Nat) (c : CoreSt) : (putCore s l c).chans = s.chans := rfl
@[simp] theorem putCore_selfRefresh (s : State) (l : Nat) (c : CoreSt) : (putCore s l c).selfRefresh = s.selfRefresh := rfl
@[simp] theorem putCore_ports (s : State) (l : Nat) (c : CoreSt) : (putCore s l c).ports = s.ports := rfl
@[simp] theorem putCore_ctxs (s : State) (l : Nat) (c : CoreSt) : (putCore s l c).ctxs = s.ctxs := rfl
@[simp] theorem putCore_hrings (s : State) (l : Nat) (c : CoreSt) : (putCore s l c).hrings = s.hrings := rfl
@[simp] theorem putCore_accepted (s : State) (l : Nat) (c : CoreSt) : (putCore s l c).accepted = s.accepted := rfl
@[simp] theorem putCore_journal (s : State) (l : Nat) (c : CoreSt) : (putCore s l c).journal = s.journal := rfl
@[simp] theorem putCore_fns (s : State) (l : Nat) (c : CoreSt) : (putCore s l c).fns = s.fns := rfl
@[simp] theorem putCore_casc (s : State) (l : Nat) (c : CoreSt) : (putCore s l c).casc = s.casc := rfl
@[simp] theorem putCore_boot (s : State) (l : Nat) (c : CoreSt) : (putCore s l c).boot = s.boot := rfl
@[simp] theorem putCore_regs (s : State) (l : Nat) (c : CoreSt) : (putCore s l c).regs = s.regs := rfl
@[simp] theorem putCore_rlatch (s : State) (l : Nat) (c : CoreSt) : (putCore s l c).rlatch = s.rlatch := rfl
@[simp] theorem putCore_wlatch (s : State) (l : Nat) (c : CoreSt) : (putCore s l c).wlatch = s.wlatch := rfl
@[simp] theorem putCore_presence (s : State) (l : Nat) (c : CoreSt) : (putCore s l c).presence = s.presence := rfl
@[simp] theorem putCore_snoops (s : State) (l : Nat) (c : CoreSt) : (putCore s l c).snoops = s.snoops := rfl
@[simp] theorem putCore_snoopFilter (s : State) (l : Nat) (c : CoreSt) : (putCore s l c).snoopFilter = s.snoopFilter := rfl
@[simp] theorem putCore_stagingSnoops (s : State) (l : Nat) (c : CoreSt) : (putCore s l c).stagingSnoops = s.stagingSnoops := rfl

/-! ## `putSlot` -/

@[simp] theorem putSlot_pending (s : State) (u : StreamId) (x : SlotSt) : (putSlot s u x).pending = s.pending := rfl
@[simp] theorem putSlot_freeCtr (s : State) (u : StreamId) (x : SlotSt) : (putSlot s u x).freeCtr = s.freeCtr := rfl
@[simp] theorem putSlot_now (s : State) (u : StreamId) (x : SlotSt) : (putSlot s u x).now = s.now := rfl
@[simp] theorem putSlot_reply (s : State) (u : StreamId) (x : SlotSt) : (putSlot s u x).reply = s.reply := rfl
@[simp] theorem putSlot_out (s : State) (u : StreamId) (x : SlotSt) : (putSlot s u x).out = s.out := rfl
@[simp] theorem putSlot_inbox (s : State) (u : StreamId) (x : SlotSt) : (putSlot s u x).inbox = s.inbox := rfl
@[simp] theorem putSlot_mem (s : State) (u : StreamId) (x : SlotSt) : (putSlot s u x).mem = s.mem := rfl
@[simp] theorem putSlot_lpPoison (s : State) (u : StreamId) (x : SlotSt) : (putSlot s u x).lpPoison = s.lpPoison := rfl
@[simp] theorem putSlot_wellPoison (s : State) (u : StreamId) (x : SlotSt) : (putSlot s u x).wellPoison = s.wellPoison := rfl
@[simp] theorem putSlot_hostPoison (s : State) (u : StreamId) (x : SlotSt) : (putSlot s u x).hostPoison = s.hostPoison := rfl
@[simp] theorem putSlot_hostHeld (s : State) (u : StreamId) (x : SlotSt) : (putSlot s u x).hostHeld = s.hostHeld := rfl
@[simp] theorem putSlot_dumpMem (s : State) (u : StreamId) (x : SlotSt) : (putSlot s u x).dumpMem = s.dumpMem := rfl
@[simp] theorem putSlot_otp (s : State) (u : StreamId) (x : SlotSt) : (putSlot s u x).otp = s.otp := rfl
@[simp] theorem putSlot_flash (s : State) (u : StreamId) (x : SlotSt) : (putSlot s u x).flash = s.flash := rfl
@[simp] theorem putSlot_djOver (s : State) (u : StreamId) (x : SlotSt) : (putSlot s u x).djOver = s.djOver := rfl
@[simp] theorem putSlot_dataWriter (s : State) (u : StreamId) (x : SlotSt) : (putSlot s u x).dataWriter = s.dataWriter := rfl
@[simp] theorem putSlot_dataOld (s : State) (u : StreamId) (x : SlotSt) : (putSlot s u x).dataOld = s.dataOld := rfl
@[simp] theorem putSlot_aonLog (s : State) (u : StreamId) (x : SlotSt) : (putSlot s u x).aonLog = s.aonLog := rfl
@[simp] theorem putSlot_tiles (s : State) (u : StreamId) (x : SlotSt) : (putSlot s u x).tiles = s.tiles := rfl
@[simp] theorem putSlot_sos (s : State) (u : StreamId) (x : SlotSt) : (putSlot s u x).sos = s.sos := rfl
@[simp] theorem putSlot_csos (s : State) (u : StreamId) (x : SlotSt) : (putSlot s u x).csos = s.csos := rfl
@[simp] theorem putSlot_soStore (s : State) (u : StreamId) (x : SlotSt) : (putSlot s u x).soStore = s.soStore := rfl
@[simp] theorem putSlot_detours (s : State) (u : StreamId) (x : SlotSt) : (putSlot s u x).detours = s.detours := rfl
@[simp] theorem putSlot_cists (s : State) (u : StreamId) (x : SlotSt) : (putSlot s u x).cists = s.cists := rfl
@[simp] theorem putSlot_chans (s : State) (u : StreamId) (x : SlotSt) : (putSlot s u x).chans = s.chans := rfl
@[simp] theorem putSlot_selfRefresh (s : State) (u : StreamId) (x : SlotSt) : (putSlot s u x).selfRefresh = s.selfRefresh := rfl
@[simp] theorem putSlot_ports (s : State) (u : StreamId) (x : SlotSt) : (putSlot s u x).ports = s.ports := rfl
@[simp] theorem putSlot_ctxs (s : State) (u : StreamId) (x : SlotSt) : (putSlot s u x).ctxs = s.ctxs := rfl
@[simp] theorem putSlot_hrings (s : State) (u : StreamId) (x : SlotSt) : (putSlot s u x).hrings = s.hrings := rfl
@[simp] theorem putSlot_accepted (s : State) (u : StreamId) (x : SlotSt) : (putSlot s u x).accepted = s.accepted := rfl
@[simp] theorem putSlot_journal (s : State) (u : StreamId) (x : SlotSt) : (putSlot s u x).journal = s.journal := rfl
@[simp] theorem putSlot_fns (s : State) (u : StreamId) (x : SlotSt) : (putSlot s u x).fns = s.fns := rfl
@[simp] theorem putSlot_casc (s : State) (u : StreamId) (x : SlotSt) : (putSlot s u x).casc = s.casc := rfl
@[simp] theorem putSlot_boot (s : State) (u : StreamId) (x : SlotSt) : (putSlot s u x).boot = s.boot := rfl
@[simp] theorem putSlot_regs (s : State) (u : StreamId) (x : SlotSt) : (putSlot s u x).regs = s.regs := rfl
@[simp] theorem putSlot_rlatch (s : State) (u : StreamId) (x : SlotSt) : (putSlot s u x).rlatch = s.rlatch := rfl
@[simp] theorem putSlot_wlatch (s : State) (u : StreamId) (x : SlotSt) : (putSlot s u x).wlatch = s.wlatch := rfl
@[simp] theorem putSlot_presence (s : State) (u : StreamId) (x : SlotSt) : (putSlot s u x).presence = s.presence := rfl
@[simp] theorem putSlot_snoops (s : State) (u : StreamId) (x : SlotSt) : (putSlot s u x).snoops = s.snoops := rfl
@[simp] theorem putSlot_snoopFilter (s : State) (u : StreamId) (x : SlotSt) : (putSlot s u x).snoopFilter = s.snoopFilter := rfl
@[simp] theorem putSlot_stagingSnoops (s : State) (u : StreamId) (x : SlotSt) : (putSlot s u x).stagingSnoops = s.stagingSnoops := rfl

/-! ## `setArch` -/

@[simp] theorem setArch_pending (s : State) (u : StreamId) (a : Arch) : (setArch s u a).pending = s.pending := rfl
@[simp] theorem setArch_freeCtr (s : State) (u : StreamId) (a : Arch) : (setArch s u a).freeCtr = s.freeCtr := rfl
@[simp] theorem setArch_now (s : State) (u : StreamId) (a : Arch) : (setArch s u a).now = s.now := rfl
@[simp] theorem setArch_reply (s : State) (u : StreamId) (a : Arch) : (setArch s u a).reply = s.reply := rfl
@[simp] theorem setArch_out (s : State) (u : StreamId) (a : Arch) : (setArch s u a).out = s.out := rfl
@[simp] theorem setArch_inbox (s : State) (u : StreamId) (a : Arch) : (setArch s u a).inbox = s.inbox := rfl
@[simp] theorem setArch_mem (s : State) (u : StreamId) (a : Arch) : (setArch s u a).mem = s.mem := rfl
@[simp] theorem setArch_lpPoison (s : State) (u : StreamId) (a : Arch) : (setArch s u a).lpPoison = s.lpPoison := rfl
@[simp] theorem setArch_wellPoison (s : State) (u : StreamId) (a : Arch) : (setArch s u a).wellPoison = s.wellPoison := rfl
@[simp] theorem setArch_hostPoison (s : State) (u : StreamId) (a : Arch) : (setArch s u a).hostPoison = s.hostPoison := rfl
@[simp] theorem setArch_hostHeld (s : State) (u : StreamId) (a : Arch) : (setArch s u a).hostHeld = s.hostHeld := rfl
@[simp] theorem setArch_dumpMem (s : State) (u : StreamId) (a : Arch) : (setArch s u a).dumpMem = s.dumpMem := rfl
@[simp] theorem setArch_otp (s : State) (u : StreamId) (a : Arch) : (setArch s u a).otp = s.otp := rfl
@[simp] theorem setArch_flash (s : State) (u : StreamId) (a : Arch) : (setArch s u a).flash = s.flash := rfl
@[simp] theorem setArch_djOver (s : State) (u : StreamId) (a : Arch) : (setArch s u a).djOver = s.djOver := rfl
@[simp] theorem setArch_dataWriter (s : State) (u : StreamId) (a : Arch) : (setArch s u a).dataWriter = s.dataWriter := rfl
@[simp] theorem setArch_dataOld (s : State) (u : StreamId) (a : Arch) : (setArch s u a).dataOld = s.dataOld := rfl
@[simp] theorem setArch_aonLog (s : State) (u : StreamId) (a : Arch) : (setArch s u a).aonLog = s.aonLog := rfl
@[simp] theorem setArch_tiles (s : State) (u : StreamId) (a : Arch) : (setArch s u a).tiles = s.tiles := rfl
@[simp] theorem setArch_sos (s : State) (u : StreamId) (a : Arch) : (setArch s u a).sos = s.sos := rfl
@[simp] theorem setArch_csos (s : State) (u : StreamId) (a : Arch) : (setArch s u a).csos = s.csos := rfl
@[simp] theorem setArch_soStore (s : State) (u : StreamId) (a : Arch) : (setArch s u a).soStore = s.soStore := rfl
@[simp] theorem setArch_detours (s : State) (u : StreamId) (a : Arch) : (setArch s u a).detours = s.detours := rfl
@[simp] theorem setArch_cists (s : State) (u : StreamId) (a : Arch) : (setArch s u a).cists = s.cists := rfl
@[simp] theorem setArch_chans (s : State) (u : StreamId) (a : Arch) : (setArch s u a).chans = s.chans := rfl
@[simp] theorem setArch_selfRefresh (s : State) (u : StreamId) (a : Arch) : (setArch s u a).selfRefresh = s.selfRefresh := rfl
@[simp] theorem setArch_ports (s : State) (u : StreamId) (a : Arch) : (setArch s u a).ports = s.ports := rfl
@[simp] theorem setArch_ctxs (s : State) (u : StreamId) (a : Arch) : (setArch s u a).ctxs = s.ctxs := rfl
@[simp] theorem setArch_hrings (s : State) (u : StreamId) (a : Arch) : (setArch s u a).hrings = s.hrings := rfl
@[simp] theorem setArch_accepted (s : State) (u : StreamId) (a : Arch) : (setArch s u a).accepted = s.accepted := rfl
@[simp] theorem setArch_journal (s : State) (u : StreamId) (a : Arch) : (setArch s u a).journal = s.journal := rfl
@[simp] theorem setArch_fns (s : State) (u : StreamId) (a : Arch) : (setArch s u a).fns = s.fns := rfl
@[simp] theorem setArch_casc (s : State) (u : StreamId) (a : Arch) : (setArch s u a).casc = s.casc := rfl
@[simp] theorem setArch_boot (s : State) (u : StreamId) (a : Arch) : (setArch s u a).boot = s.boot := rfl
@[simp] theorem setArch_regs (s : State) (u : StreamId) (a : Arch) : (setArch s u a).regs = s.regs := rfl
@[simp] theorem setArch_rlatch (s : State) (u : StreamId) (a : Arch) : (setArch s u a).rlatch = s.rlatch := rfl
@[simp] theorem setArch_wlatch (s : State) (u : StreamId) (a : Arch) : (setArch s u a).wlatch = s.wlatch := rfl
@[simp] theorem setArch_presence (s : State) (u : StreamId) (a : Arch) : (setArch s u a).presence = s.presence := rfl
@[simp] theorem setArch_snoops (s : State) (u : StreamId) (a : Arch) : (setArch s u a).snoops = s.snoops := rfl
@[simp] theorem setArch_snoopFilter (s : State) (u : StreamId) (a : Arch) : (setArch s u a).snoopFilter = s.snoopFilter := rfl
@[simp] theorem setArch_stagingSnoops (s : State) (u : StreamId) (a : Arch) : (setArch s u a).stagingSnoops = s.stagingSnoops := rfl

/-! ## `putTile` -/

@[simp] theorem putTile_pending (s : State) (t : Nat) (x : TileSt) : (putTile s t x).pending = s.pending := rfl
@[simp] theorem putTile_freeCtr (s : State) (t : Nat) (x : TileSt) : (putTile s t x).freeCtr = s.freeCtr := rfl
@[simp] theorem putTile_now (s : State) (t : Nat) (x : TileSt) : (putTile s t x).now = s.now := rfl
@[simp] theorem putTile_reply (s : State) (t : Nat) (x : TileSt) : (putTile s t x).reply = s.reply := rfl
@[simp] theorem putTile_out (s : State) (t : Nat) (x : TileSt) : (putTile s t x).out = s.out := rfl
@[simp] theorem putTile_inbox (s : State) (t : Nat) (x : TileSt) : (putTile s t x).inbox = s.inbox := rfl
@[simp] theorem putTile_mem (s : State) (t : Nat) (x : TileSt) : (putTile s t x).mem = s.mem := rfl
@[simp] theorem putTile_lpPoison (s : State) (t : Nat) (x : TileSt) : (putTile s t x).lpPoison = s.lpPoison := rfl
@[simp] theorem putTile_wellPoison (s : State) (t : Nat) (x : TileSt) : (putTile s t x).wellPoison = s.wellPoison := rfl
@[simp] theorem putTile_hostPoison (s : State) (t : Nat) (x : TileSt) : (putTile s t x).hostPoison = s.hostPoison := rfl
@[simp] theorem putTile_hostHeld (s : State) (t : Nat) (x : TileSt) : (putTile s t x).hostHeld = s.hostHeld := rfl
@[simp] theorem putTile_dumpMem (s : State) (t : Nat) (x : TileSt) : (putTile s t x).dumpMem = s.dumpMem := rfl
@[simp] theorem putTile_otp (s : State) (t : Nat) (x : TileSt) : (putTile s t x).otp = s.otp := rfl
@[simp] theorem putTile_flash (s : State) (t : Nat) (x : TileSt) : (putTile s t x).flash = s.flash := rfl
@[simp] theorem putTile_djOver (s : State) (t : Nat) (x : TileSt) : (putTile s t x).djOver = s.djOver := rfl
@[simp] theorem putTile_dataWriter (s : State) (t : Nat) (x : TileSt) : (putTile s t x).dataWriter = s.dataWriter := rfl
@[simp] theorem putTile_dataOld (s : State) (t : Nat) (x : TileSt) : (putTile s t x).dataOld = s.dataOld := rfl
@[simp] theorem putTile_aonLog (s : State) (t : Nat) (x : TileSt) : (putTile s t x).aonLog = s.aonLog := rfl
@[simp] theorem putTile_cores (s : State) (t : Nat) (x : TileSt) : (putTile s t x).cores = s.cores := rfl
@[simp] theorem putTile_sos (s : State) (t : Nat) (x : TileSt) : (putTile s t x).sos = s.sos := rfl
@[simp] theorem putTile_csos (s : State) (t : Nat) (x : TileSt) : (putTile s t x).csos = s.csos := rfl
@[simp] theorem putTile_soStore (s : State) (t : Nat) (x : TileSt) : (putTile s t x).soStore = s.soStore := rfl
@[simp] theorem putTile_detours (s : State) (t : Nat) (x : TileSt) : (putTile s t x).detours = s.detours := rfl
@[simp] theorem putTile_cists (s : State) (t : Nat) (x : TileSt) : (putTile s t x).cists = s.cists := rfl
@[simp] theorem putTile_chans (s : State) (t : Nat) (x : TileSt) : (putTile s t x).chans = s.chans := rfl
@[simp] theorem putTile_selfRefresh (s : State) (t : Nat) (x : TileSt) : (putTile s t x).selfRefresh = s.selfRefresh := rfl
@[simp] theorem putTile_ports (s : State) (t : Nat) (x : TileSt) : (putTile s t x).ports = s.ports := rfl
@[simp] theorem putTile_ctxs (s : State) (t : Nat) (x : TileSt) : (putTile s t x).ctxs = s.ctxs := rfl
@[simp] theorem putTile_hrings (s : State) (t : Nat) (x : TileSt) : (putTile s t x).hrings = s.hrings := rfl
@[simp] theorem putTile_accepted (s : State) (t : Nat) (x : TileSt) : (putTile s t x).accepted = s.accepted := rfl
@[simp] theorem putTile_journal (s : State) (t : Nat) (x : TileSt) : (putTile s t x).journal = s.journal := rfl
@[simp] theorem putTile_fns (s : State) (t : Nat) (x : TileSt) : (putTile s t x).fns = s.fns := rfl
@[simp] theorem putTile_casc (s : State) (t : Nat) (x : TileSt) : (putTile s t x).casc = s.casc := rfl
@[simp] theorem putTile_boot (s : State) (t : Nat) (x : TileSt) : (putTile s t x).boot = s.boot := rfl
@[simp] theorem putTile_regs (s : State) (t : Nat) (x : TileSt) : (putTile s t x).regs = s.regs := rfl
@[simp] theorem putTile_rlatch (s : State) (t : Nat) (x : TileSt) : (putTile s t x).rlatch = s.rlatch := rfl
@[simp] theorem putTile_wlatch (s : State) (t : Nat) (x : TileSt) : (putTile s t x).wlatch = s.wlatch := rfl
@[simp] theorem putTile_presence (s : State) (t : Nat) (x : TileSt) : (putTile s t x).presence = s.presence := rfl
@[simp] theorem putTile_snoops (s : State) (t : Nat) (x : TileSt) : (putTile s t x).snoops = s.snoops := rfl
@[simp] theorem putTile_snoopFilter (s : State) (t : Nat) (x : TileSt) : (putTile s t x).snoopFilter = s.snoopFilter := rfl
@[simp] theorem putTile_stagingSnoops (s : State) (t : Nat) (x : TileSt) : (putTile s t x).stagingSnoops = s.stagingSnoops := rfl

/-! ## `putCist` -/

@[simp] theorem putCist_pending (s : State) (j : Nat) (x : CistSt) : (putCist s j x).pending = s.pending := rfl
@[simp] theorem putCist_freeCtr (s : State) (j : Nat) (x : CistSt) : (putCist s j x).freeCtr = s.freeCtr := rfl
@[simp] theorem putCist_now (s : State) (j : Nat) (x : CistSt) : (putCist s j x).now = s.now := rfl
@[simp] theorem putCist_reply (s : State) (j : Nat) (x : CistSt) : (putCist s j x).reply = s.reply := rfl
@[simp] theorem putCist_out (s : State) (j : Nat) (x : CistSt) : (putCist s j x).out = s.out := rfl
@[simp] theorem putCist_inbox (s : State) (j : Nat) (x : CistSt) : (putCist s j x).inbox = s.inbox := rfl
@[simp] theorem putCist_mem (s : State) (j : Nat) (x : CistSt) : (putCist s j x).mem = s.mem := rfl
@[simp] theorem putCist_lpPoison (s : State) (j : Nat) (x : CistSt) : (putCist s j x).lpPoison = s.lpPoison := rfl
@[simp] theorem putCist_wellPoison (s : State) (j : Nat) (x : CistSt) : (putCist s j x).wellPoison = s.wellPoison := rfl
@[simp] theorem putCist_hostPoison (s : State) (j : Nat) (x : CistSt) : (putCist s j x).hostPoison = s.hostPoison := rfl
@[simp] theorem putCist_hostHeld (s : State) (j : Nat) (x : CistSt) : (putCist s j x).hostHeld = s.hostHeld := rfl
@[simp] theorem putCist_dumpMem (s : State) (j : Nat) (x : CistSt) : (putCist s j x).dumpMem = s.dumpMem := rfl
@[simp] theorem putCist_otp (s : State) (j : Nat) (x : CistSt) : (putCist s j x).otp = s.otp := rfl
@[simp] theorem putCist_flash (s : State) (j : Nat) (x : CistSt) : (putCist s j x).flash = s.flash := rfl
@[simp] theorem putCist_djOver (s : State) (j : Nat) (x : CistSt) : (putCist s j x).djOver = s.djOver := rfl
@[simp] theorem putCist_dataWriter (s : State) (j : Nat) (x : CistSt) : (putCist s j x).dataWriter = s.dataWriter := rfl
@[simp] theorem putCist_dataOld (s : State) (j : Nat) (x : CistSt) : (putCist s j x).dataOld = s.dataOld := rfl
@[simp] theorem putCist_aonLog (s : State) (j : Nat) (x : CistSt) : (putCist s j x).aonLog = s.aonLog := rfl
@[simp] theorem putCist_cores (s : State) (j : Nat) (x : CistSt) : (putCist s j x).cores = s.cores := rfl
@[simp] theorem putCist_tiles (s : State) (j : Nat) (x : CistSt) : (putCist s j x).tiles = s.tiles := rfl
@[simp] theorem putCist_sos (s : State) (j : Nat) (x : CistSt) : (putCist s j x).sos = s.sos := rfl
@[simp] theorem putCist_csos (s : State) (j : Nat) (x : CistSt) : (putCist s j x).csos = s.csos := rfl
@[simp] theorem putCist_soStore (s : State) (j : Nat) (x : CistSt) : (putCist s j x).soStore = s.soStore := rfl
@[simp] theorem putCist_detours (s : State) (j : Nat) (x : CistSt) : (putCist s j x).detours = s.detours := rfl
@[simp] theorem putCist_chans (s : State) (j : Nat) (x : CistSt) : (putCist s j x).chans = s.chans := rfl
@[simp] theorem putCist_selfRefresh (s : State) (j : Nat) (x : CistSt) : (putCist s j x).selfRefresh = s.selfRefresh := rfl
@[simp] theorem putCist_ports (s : State) (j : Nat) (x : CistSt) : (putCist s j x).ports = s.ports := rfl
@[simp] theorem putCist_ctxs (s : State) (j : Nat) (x : CistSt) : (putCist s j x).ctxs = s.ctxs := rfl
@[simp] theorem putCist_hrings (s : State) (j : Nat) (x : CistSt) : (putCist s j x).hrings = s.hrings := rfl
@[simp] theorem putCist_accepted (s : State) (j : Nat) (x : CistSt) : (putCist s j x).accepted = s.accepted := rfl
@[simp] theorem putCist_journal (s : State) (j : Nat) (x : CistSt) : (putCist s j x).journal = s.journal := rfl
@[simp] theorem putCist_fns (s : State) (j : Nat) (x : CistSt) : (putCist s j x).fns = s.fns := rfl
@[simp] theorem putCist_casc (s : State) (j : Nat) (x : CistSt) : (putCist s j x).casc = s.casc := rfl
@[simp] theorem putCist_boot (s : State) (j : Nat) (x : CistSt) : (putCist s j x).boot = s.boot := rfl
@[simp] theorem putCist_regs (s : State) (j : Nat) (x : CistSt) : (putCist s j x).regs = s.regs := rfl
@[simp] theorem putCist_rlatch (s : State) (j : Nat) (x : CistSt) : (putCist s j x).rlatch = s.rlatch := rfl
@[simp] theorem putCist_wlatch (s : State) (j : Nat) (x : CistSt) : (putCist s j x).wlatch = s.wlatch := rfl
@[simp] theorem putCist_presence (s : State) (j : Nat) (x : CistSt) : (putCist s j x).presence = s.presence := rfl
@[simp] theorem putCist_snoops (s : State) (j : Nat) (x : CistSt) : (putCist s j x).snoops = s.snoops := rfl
@[simp] theorem putCist_snoopFilter (s : State) (j : Nat) (x : CistSt) : (putCist s j x).snoopFilter = s.snoopFilter := rfl
@[simp] theorem putCist_stagingSnoops (s : State) (j : Nat) (x : CistSt) : (putCist s j x).stagingSnoops = s.stagingSnoops := rfl

/-! ## `putChan` -/

@[simp] theorem putChan_pending (s : State) (c : Nat) (x : ChanSt) : (putChan s c x).pending = s.pending := rfl
@[simp] theorem putChan_freeCtr (s : State) (c : Nat) (x : ChanSt) : (putChan s c x).freeCtr = s.freeCtr := rfl
@[simp] theorem putChan_now (s : State) (c : Nat) (x : ChanSt) : (putChan s c x).now = s.now := rfl
@[simp] theorem putChan_reply (s : State) (c : Nat) (x : ChanSt) : (putChan s c x).reply = s.reply := rfl
@[simp] theorem putChan_out (s : State) (c : Nat) (x : ChanSt) : (putChan s c x).out = s.out := rfl
@[simp] theorem putChan_inbox (s : State) (c : Nat) (x : ChanSt) : (putChan s c x).inbox = s.inbox := rfl
@[simp] theorem putChan_mem (s : State) (c : Nat) (x : ChanSt) : (putChan s c x).mem = s.mem := rfl
@[simp] theorem putChan_lpPoison (s : State) (c : Nat) (x : ChanSt) : (putChan s c x).lpPoison = s.lpPoison := rfl
@[simp] theorem putChan_wellPoison (s : State) (c : Nat) (x : ChanSt) : (putChan s c x).wellPoison = s.wellPoison := rfl
@[simp] theorem putChan_hostPoison (s : State) (c : Nat) (x : ChanSt) : (putChan s c x).hostPoison = s.hostPoison := rfl
@[simp] theorem putChan_hostHeld (s : State) (c : Nat) (x : ChanSt) : (putChan s c x).hostHeld = s.hostHeld := rfl
@[simp] theorem putChan_dumpMem (s : State) (c : Nat) (x : ChanSt) : (putChan s c x).dumpMem = s.dumpMem := rfl
@[simp] theorem putChan_otp (s : State) (c : Nat) (x : ChanSt) : (putChan s c x).otp = s.otp := rfl
@[simp] theorem putChan_flash (s : State) (c : Nat) (x : ChanSt) : (putChan s c x).flash = s.flash := rfl
@[simp] theorem putChan_djOver (s : State) (c : Nat) (x : ChanSt) : (putChan s c x).djOver = s.djOver := rfl
@[simp] theorem putChan_dataWriter (s : State) (c : Nat) (x : ChanSt) : (putChan s c x).dataWriter = s.dataWriter := rfl
@[simp] theorem putChan_dataOld (s : State) (c : Nat) (x : ChanSt) : (putChan s c x).dataOld = s.dataOld := rfl
@[simp] theorem putChan_aonLog (s : State) (c : Nat) (x : ChanSt) : (putChan s c x).aonLog = s.aonLog := rfl
@[simp] theorem putChan_cores (s : State) (c : Nat) (x : ChanSt) : (putChan s c x).cores = s.cores := rfl
@[simp] theorem putChan_tiles (s : State) (c : Nat) (x : ChanSt) : (putChan s c x).tiles = s.tiles := rfl
@[simp] theorem putChan_sos (s : State) (c : Nat) (x : ChanSt) : (putChan s c x).sos = s.sos := rfl
@[simp] theorem putChan_csos (s : State) (c : Nat) (x : ChanSt) : (putChan s c x).csos = s.csos := rfl
@[simp] theorem putChan_soStore (s : State) (c : Nat) (x : ChanSt) : (putChan s c x).soStore = s.soStore := rfl
@[simp] theorem putChan_detours (s : State) (c : Nat) (x : ChanSt) : (putChan s c x).detours = s.detours := rfl
@[simp] theorem putChan_cists (s : State) (c : Nat) (x : ChanSt) : (putChan s c x).cists = s.cists := rfl
@[simp] theorem putChan_selfRefresh (s : State) (c : Nat) (x : ChanSt) : (putChan s c x).selfRefresh = s.selfRefresh := rfl
@[simp] theorem putChan_ports (s : State) (c : Nat) (x : ChanSt) : (putChan s c x).ports = s.ports := rfl
@[simp] theorem putChan_ctxs (s : State) (c : Nat) (x : ChanSt) : (putChan s c x).ctxs = s.ctxs := rfl
@[simp] theorem putChan_hrings (s : State) (c : Nat) (x : ChanSt) : (putChan s c x).hrings = s.hrings := rfl
@[simp] theorem putChan_accepted (s : State) (c : Nat) (x : ChanSt) : (putChan s c x).accepted = s.accepted := rfl
@[simp] theorem putChan_journal (s : State) (c : Nat) (x : ChanSt) : (putChan s c x).journal = s.journal := rfl
@[simp] theorem putChan_fns (s : State) (c : Nat) (x : ChanSt) : (putChan s c x).fns = s.fns := rfl
@[simp] theorem putChan_casc (s : State) (c : Nat) (x : ChanSt) : (putChan s c x).casc = s.casc := rfl
@[simp] theorem putChan_boot (s : State) (c : Nat) (x : ChanSt) : (putChan s c x).boot = s.boot := rfl
@[simp] theorem putChan_regs (s : State) (c : Nat) (x : ChanSt) : (putChan s c x).regs = s.regs := rfl
@[simp] theorem putChan_rlatch (s : State) (c : Nat) (x : ChanSt) : (putChan s c x).rlatch = s.rlatch := rfl
@[simp] theorem putChan_wlatch (s : State) (c : Nat) (x : ChanSt) : (putChan s c x).wlatch = s.wlatch := rfl
@[simp] theorem putChan_presence (s : State) (c : Nat) (x : ChanSt) : (putChan s c x).presence = s.presence := rfl
@[simp] theorem putChan_snoops (s : State) (c : Nat) (x : ChanSt) : (putChan s c x).snoops = s.snoops := rfl
@[simp] theorem putChan_snoopFilter (s : State) (c : Nat) (x : ChanSt) : (putChan s c x).snoopFilter = s.snoopFilter := rfl
@[simp] theorem putChan_stagingSnoops (s : State) (c : Nat) (x : ChanSt) : (putChan s c x).stagingSnoops = s.stagingSnoops := rfl

/-! ## `putCtx` -/

@[simp] theorem putCtx_pending (s : State) (n : Nat) (x : CtxSt) : (putCtx s n x).pending = s.pending := rfl
@[simp] theorem putCtx_freeCtr (s : State) (n : Nat) (x : CtxSt) : (putCtx s n x).freeCtr = s.freeCtr := rfl
@[simp] theorem putCtx_now (s : State) (n : Nat) (x : CtxSt) : (putCtx s n x).now = s.now := rfl
@[simp] theorem putCtx_reply (s : State) (n : Nat) (x : CtxSt) : (putCtx s n x).reply = s.reply := rfl
@[simp] theorem putCtx_out (s : State) (n : Nat) (x : CtxSt) : (putCtx s n x).out = s.out := rfl
@[simp] theorem putCtx_inbox (s : State) (n : Nat) (x : CtxSt) : (putCtx s n x).inbox = s.inbox := rfl
@[simp] theorem putCtx_mem (s : State) (n : Nat) (x : CtxSt) : (putCtx s n x).mem = s.mem := rfl
@[simp] theorem putCtx_lpPoison (s : State) (n : Nat) (x : CtxSt) : (putCtx s n x).lpPoison = s.lpPoison := rfl
@[simp] theorem putCtx_wellPoison (s : State) (n : Nat) (x : CtxSt) : (putCtx s n x).wellPoison = s.wellPoison := rfl
@[simp] theorem putCtx_hostPoison (s : State) (n : Nat) (x : CtxSt) : (putCtx s n x).hostPoison = s.hostPoison := rfl
@[simp] theorem putCtx_hostHeld (s : State) (n : Nat) (x : CtxSt) : (putCtx s n x).hostHeld = s.hostHeld := rfl
@[simp] theorem putCtx_dumpMem (s : State) (n : Nat) (x : CtxSt) : (putCtx s n x).dumpMem = s.dumpMem := rfl
@[simp] theorem putCtx_otp (s : State) (n : Nat) (x : CtxSt) : (putCtx s n x).otp = s.otp := rfl
@[simp] theorem putCtx_flash (s : State) (n : Nat) (x : CtxSt) : (putCtx s n x).flash = s.flash := rfl
@[simp] theorem putCtx_djOver (s : State) (n : Nat) (x : CtxSt) : (putCtx s n x).djOver = s.djOver := rfl
@[simp] theorem putCtx_dataWriter (s : State) (n : Nat) (x : CtxSt) : (putCtx s n x).dataWriter = s.dataWriter := rfl
@[simp] theorem putCtx_dataOld (s : State) (n : Nat) (x : CtxSt) : (putCtx s n x).dataOld = s.dataOld := rfl
@[simp] theorem putCtx_aonLog (s : State) (n : Nat) (x : CtxSt) : (putCtx s n x).aonLog = s.aonLog := rfl
@[simp] theorem putCtx_cores (s : State) (n : Nat) (x : CtxSt) : (putCtx s n x).cores = s.cores := rfl
@[simp] theorem putCtx_tiles (s : State) (n : Nat) (x : CtxSt) : (putCtx s n x).tiles = s.tiles := rfl
@[simp] theorem putCtx_sos (s : State) (n : Nat) (x : CtxSt) : (putCtx s n x).sos = s.sos := rfl
@[simp] theorem putCtx_csos (s : State) (n : Nat) (x : CtxSt) : (putCtx s n x).csos = s.csos := rfl
@[simp] theorem putCtx_soStore (s : State) (n : Nat) (x : CtxSt) : (putCtx s n x).soStore = s.soStore := rfl
@[simp] theorem putCtx_detours (s : State) (n : Nat) (x : CtxSt) : (putCtx s n x).detours = s.detours := rfl
@[simp] theorem putCtx_cists (s : State) (n : Nat) (x : CtxSt) : (putCtx s n x).cists = s.cists := rfl
@[simp] theorem putCtx_chans (s : State) (n : Nat) (x : CtxSt) : (putCtx s n x).chans = s.chans := rfl
@[simp] theorem putCtx_selfRefresh (s : State) (n : Nat) (x : CtxSt) : (putCtx s n x).selfRefresh = s.selfRefresh := rfl
@[simp] theorem putCtx_ports (s : State) (n : Nat) (x : CtxSt) : (putCtx s n x).ports = s.ports := rfl
@[simp] theorem putCtx_hrings (s : State) (n : Nat) (x : CtxSt) : (putCtx s n x).hrings = s.hrings := rfl
@[simp] theorem putCtx_accepted (s : State) (n : Nat) (x : CtxSt) : (putCtx s n x).accepted = s.accepted := rfl
@[simp] theorem putCtx_journal (s : State) (n : Nat) (x : CtxSt) : (putCtx s n x).journal = s.journal := rfl
@[simp] theorem putCtx_fns (s : State) (n : Nat) (x : CtxSt) : (putCtx s n x).fns = s.fns := rfl
@[simp] theorem putCtx_casc (s : State) (n : Nat) (x : CtxSt) : (putCtx s n x).casc = s.casc := rfl
@[simp] theorem putCtx_boot (s : State) (n : Nat) (x : CtxSt) : (putCtx s n x).boot = s.boot := rfl
@[simp] theorem putCtx_regs (s : State) (n : Nat) (x : CtxSt) : (putCtx s n x).regs = s.regs := rfl
@[simp] theorem putCtx_rlatch (s : State) (n : Nat) (x : CtxSt) : (putCtx s n x).rlatch = s.rlatch := rfl
@[simp] theorem putCtx_wlatch (s : State) (n : Nat) (x : CtxSt) : (putCtx s n x).wlatch = s.wlatch := rfl
@[simp] theorem putCtx_presence (s : State) (n : Nat) (x : CtxSt) : (putCtx s n x).presence = s.presence := rfl
@[simp] theorem putCtx_snoops (s : State) (n : Nat) (x : CtxSt) : (putCtx s n x).snoops = s.snoops := rfl
@[simp] theorem putCtx_snoopFilter (s : State) (n : Nat) (x : CtxSt) : (putCtx s n x).snoopFilter = s.snoopFilter := rfl
@[simp] theorem putCtx_stagingSnoops (s : State) (n : Nat) (x : CtxSt) : (putCtx s n x).stagingSnoops = s.stagingSnoops := rfl

/-! ## `putPort` -/

@[simp] theorem putPort_pending (s : State) (n : Nat) (x : PortSt) : (putPort s n x).pending = s.pending := rfl
@[simp] theorem putPort_freeCtr (s : State) (n : Nat) (x : PortSt) : (putPort s n x).freeCtr = s.freeCtr := rfl
@[simp] theorem putPort_now (s : State) (n : Nat) (x : PortSt) : (putPort s n x).now = s.now := rfl
@[simp] theorem putPort_reply (s : State) (n : Nat) (x : PortSt) : (putPort s n x).reply = s.reply := rfl
@[simp] theorem putPort_out (s : State) (n : Nat) (x : PortSt) : (putPort s n x).out = s.out := rfl
@[simp] theorem putPort_inbox (s : State) (n : Nat) (x : PortSt) : (putPort s n x).inbox = s.inbox := rfl
@[simp] theorem putPort_mem (s : State) (n : Nat) (x : PortSt) : (putPort s n x).mem = s.mem := rfl
@[simp] theorem putPort_lpPoison (s : State) (n : Nat) (x : PortSt) : (putPort s n x).lpPoison = s.lpPoison := rfl
@[simp] theorem putPort_wellPoison (s : State) (n : Nat) (x : PortSt) : (putPort s n x).wellPoison = s.wellPoison := rfl
@[simp] theorem putPort_hostPoison (s : State) (n : Nat) (x : PortSt) : (putPort s n x).hostPoison = s.hostPoison := rfl
@[simp] theorem putPort_hostHeld (s : State) (n : Nat) (x : PortSt) : (putPort s n x).hostHeld = s.hostHeld := rfl
@[simp] theorem putPort_dumpMem (s : State) (n : Nat) (x : PortSt) : (putPort s n x).dumpMem = s.dumpMem := rfl
@[simp] theorem putPort_otp (s : State) (n : Nat) (x : PortSt) : (putPort s n x).otp = s.otp := rfl
@[simp] theorem putPort_flash (s : State) (n : Nat) (x : PortSt) : (putPort s n x).flash = s.flash := rfl
@[simp] theorem putPort_djOver (s : State) (n : Nat) (x : PortSt) : (putPort s n x).djOver = s.djOver := rfl
@[simp] theorem putPort_dataWriter (s : State) (n : Nat) (x : PortSt) : (putPort s n x).dataWriter = s.dataWriter := rfl
@[simp] theorem putPort_dataOld (s : State) (n : Nat) (x : PortSt) : (putPort s n x).dataOld = s.dataOld := rfl
@[simp] theorem putPort_aonLog (s : State) (n : Nat) (x : PortSt) : (putPort s n x).aonLog = s.aonLog := rfl
@[simp] theorem putPort_cores (s : State) (n : Nat) (x : PortSt) : (putPort s n x).cores = s.cores := rfl
@[simp] theorem putPort_tiles (s : State) (n : Nat) (x : PortSt) : (putPort s n x).tiles = s.tiles := rfl
@[simp] theorem putPort_sos (s : State) (n : Nat) (x : PortSt) : (putPort s n x).sos = s.sos := rfl
@[simp] theorem putPort_csos (s : State) (n : Nat) (x : PortSt) : (putPort s n x).csos = s.csos := rfl
@[simp] theorem putPort_soStore (s : State) (n : Nat) (x : PortSt) : (putPort s n x).soStore = s.soStore := rfl
@[simp] theorem putPort_detours (s : State) (n : Nat) (x : PortSt) : (putPort s n x).detours = s.detours := rfl
@[simp] theorem putPort_cists (s : State) (n : Nat) (x : PortSt) : (putPort s n x).cists = s.cists := rfl
@[simp] theorem putPort_chans (s : State) (n : Nat) (x : PortSt) : (putPort s n x).chans = s.chans := rfl
@[simp] theorem putPort_selfRefresh (s : State) (n : Nat) (x : PortSt) : (putPort s n x).selfRefresh = s.selfRefresh := rfl
@[simp] theorem putPort_ctxs (s : State) (n : Nat) (x : PortSt) : (putPort s n x).ctxs = s.ctxs := rfl
@[simp] theorem putPort_hrings (s : State) (n : Nat) (x : PortSt) : (putPort s n x).hrings = s.hrings := rfl
@[simp] theorem putPort_accepted (s : State) (n : Nat) (x : PortSt) : (putPort s n x).accepted = s.accepted := rfl
@[simp] theorem putPort_journal (s : State) (n : Nat) (x : PortSt) : (putPort s n x).journal = s.journal := rfl
@[simp] theorem putPort_fns (s : State) (n : Nat) (x : PortSt) : (putPort s n x).fns = s.fns := rfl
@[simp] theorem putPort_casc (s : State) (n : Nat) (x : PortSt) : (putPort s n x).casc = s.casc := rfl
@[simp] theorem putPort_boot (s : State) (n : Nat) (x : PortSt) : (putPort s n x).boot = s.boot := rfl
@[simp] theorem putPort_regs (s : State) (n : Nat) (x : PortSt) : (putPort s n x).regs = s.regs := rfl
@[simp] theorem putPort_rlatch (s : State) (n : Nat) (x : PortSt) : (putPort s n x).rlatch = s.rlatch := rfl
@[simp] theorem putPort_wlatch (s : State) (n : Nat) (x : PortSt) : (putPort s n x).wlatch = s.wlatch := rfl
@[simp] theorem putPort_presence (s : State) (n : Nat) (x : PortSt) : (putPort s n x).presence = s.presence := rfl
@[simp] theorem putPort_snoops (s : State) (n : Nat) (x : PortSt) : (putPort s n x).snoops = s.snoops := rfl
@[simp] theorem putPort_snoopFilter (s : State) (n : Nat) (x : PortSt) : (putPort s n x).snoopFilter = s.snoopFilter := rfl
@[simp] theorem putPort_stagingSnoops (s : State) (n : Nat) (x : PortSt) : (putPort s n x).stagingSnoops = s.stagingSnoops := rfl

/-! ## `rput` -/

@[simp] theorem rput_pending (s : State) (o v : Nat) : (rput s o v).pending = s.pending := rfl
@[simp] theorem rput_freeCtr (s : State) (o v : Nat) : (rput s o v).freeCtr = s.freeCtr := rfl
@[simp] theorem rput_now (s : State) (o v : Nat) : (rput s o v).now = s.now := rfl
@[simp] theorem rput_reply (s : State) (o v : Nat) : (rput s o v).reply = s.reply := rfl
@[simp] theorem rput_out (s : State) (o v : Nat) : (rput s o v).out = s.out := rfl
@[simp] theorem rput_inbox (s : State) (o v : Nat) : (rput s o v).inbox = s.inbox := rfl
@[simp] theorem rput_mem (s : State) (o v : Nat) : (rput s o v).mem = s.mem := rfl
@[simp] theorem rput_lpPoison (s : State) (o v : Nat) : (rput s o v).lpPoison = s.lpPoison := rfl
@[simp] theorem rput_wellPoison (s : State) (o v : Nat) : (rput s o v).wellPoison = s.wellPoison := rfl
@[simp] theorem rput_hostPoison (s : State) (o v : Nat) : (rput s o v).hostPoison = s.hostPoison := rfl
@[simp] theorem rput_hostHeld (s : State) (o v : Nat) : (rput s o v).hostHeld = s.hostHeld := rfl
@[simp] theorem rput_dumpMem (s : State) (o v : Nat) : (rput s o v).dumpMem = s.dumpMem := rfl
@[simp] theorem rput_otp (s : State) (o v : Nat) : (rput s o v).otp = s.otp := rfl
@[simp] theorem rput_flash (s : State) (o v : Nat) : (rput s o v).flash = s.flash := rfl
@[simp] theorem rput_djOver (s : State) (o v : Nat) : (rput s o v).djOver = s.djOver := rfl
@[simp] theorem rput_dataWriter (s : State) (o v : Nat) : (rput s o v).dataWriter = s.dataWriter := rfl
@[simp] theorem rput_dataOld (s : State) (o v : Nat) : (rput s o v).dataOld = s.dataOld := rfl
@[simp] theorem rput_aonLog (s : State) (o v : Nat) : (rput s o v).aonLog = s.aonLog := rfl
@[simp] theorem rput_cores (s : State) (o v : Nat) : (rput s o v).cores = s.cores := rfl
@[simp] theorem rput_tiles (s : State) (o v : Nat) : (rput s o v).tiles = s.tiles := rfl
@[simp] theorem rput_sos (s : State) (o v : Nat) : (rput s o v).sos = s.sos := rfl
@[simp] theorem rput_csos (s : State) (o v : Nat) : (rput s o v).csos = s.csos := rfl
@[simp] theorem rput_soStore (s : State) (o v : Nat) : (rput s o v).soStore = s.soStore := rfl
@[simp] theorem rput_detours (s : State) (o v : Nat) : (rput s o v).detours = s.detours := rfl
@[simp] theorem rput_cists (s : State) (o v : Nat) : (rput s o v).cists = s.cists := rfl
@[simp] theorem rput_chans (s : State) (o v : Nat) : (rput s o v).chans = s.chans := rfl
@[simp] theorem rput_selfRefresh (s : State) (o v : Nat) : (rput s o v).selfRefresh = s.selfRefresh := rfl
@[simp] theorem rput_ports (s : State) (o v : Nat) : (rput s o v).ports = s.ports := rfl
@[simp] theorem rput_ctxs (s : State) (o v : Nat) : (rput s o v).ctxs = s.ctxs := rfl
@[simp] theorem rput_hrings (s : State) (o v : Nat) : (rput s o v).hrings = s.hrings := rfl
@[simp] theorem rput_accepted (s : State) (o v : Nat) : (rput s o v).accepted = s.accepted := rfl
@[simp] theorem rput_journal (s : State) (o v : Nat) : (rput s o v).journal = s.journal := rfl
@[simp] theorem rput_fns (s : State) (o v : Nat) : (rput s o v).fns = s.fns := rfl
@[simp] theorem rput_casc (s : State) (o v : Nat) : (rput s o v).casc = s.casc := rfl
@[simp] theorem rput_boot (s : State) (o v : Nat) : (rput s o v).boot = s.boot := rfl
@[simp] theorem rput_rlatch (s : State) (o v : Nat) : (rput s o v).rlatch = s.rlatch := rfl
@[simp] theorem rput_wlatch (s : State) (o v : Nat) : (rput s o v).wlatch = s.wlatch := rfl
@[simp] theorem rput_presence (s : State) (o v : Nat) : (rput s o v).presence = s.presence := rfl
@[simp] theorem rput_snoops (s : State) (o v : Nat) : (rput s o v).snoops = s.snoops := rfl
@[simp] theorem rput_snoopFilter (s : State) (o v : Nat) : (rput s o v).snoopFilter = s.snoopFilter := rfl
@[simp] theorem rput_stagingSnoops (s : State) (o v : Nat) : (rput s o v).stagingSnoops = s.stagingSnoops := rfl

/-! ## `rsetf` -/

@[simp] theorem rsetf_pending (s : State) (o lo w v : Nat) : (rsetf s o lo w v).pending = s.pending := rfl
@[simp] theorem rsetf_freeCtr (s : State) (o lo w v : Nat) : (rsetf s o lo w v).freeCtr = s.freeCtr := rfl
@[simp] theorem rsetf_now (s : State) (o lo w v : Nat) : (rsetf s o lo w v).now = s.now := rfl
@[simp] theorem rsetf_reply (s : State) (o lo w v : Nat) : (rsetf s o lo w v).reply = s.reply := rfl
@[simp] theorem rsetf_out (s : State) (o lo w v : Nat) : (rsetf s o lo w v).out = s.out := rfl
@[simp] theorem rsetf_inbox (s : State) (o lo w v : Nat) : (rsetf s o lo w v).inbox = s.inbox := rfl
@[simp] theorem rsetf_mem (s : State) (o lo w v : Nat) : (rsetf s o lo w v).mem = s.mem := rfl
@[simp] theorem rsetf_lpPoison (s : State) (o lo w v : Nat) : (rsetf s o lo w v).lpPoison = s.lpPoison := rfl
@[simp] theorem rsetf_wellPoison (s : State) (o lo w v : Nat) : (rsetf s o lo w v).wellPoison = s.wellPoison := rfl
@[simp] theorem rsetf_hostPoison (s : State) (o lo w v : Nat) : (rsetf s o lo w v).hostPoison = s.hostPoison := rfl
@[simp] theorem rsetf_hostHeld (s : State) (o lo w v : Nat) : (rsetf s o lo w v).hostHeld = s.hostHeld := rfl
@[simp] theorem rsetf_dumpMem (s : State) (o lo w v : Nat) : (rsetf s o lo w v).dumpMem = s.dumpMem := rfl
@[simp] theorem rsetf_otp (s : State) (o lo w v : Nat) : (rsetf s o lo w v).otp = s.otp := rfl
@[simp] theorem rsetf_flash (s : State) (o lo w v : Nat) : (rsetf s o lo w v).flash = s.flash := rfl
@[simp] theorem rsetf_djOver (s : State) (o lo w v : Nat) : (rsetf s o lo w v).djOver = s.djOver := rfl
@[simp] theorem rsetf_dataWriter (s : State) (o lo w v : Nat) : (rsetf s o lo w v).dataWriter = s.dataWriter := rfl
@[simp] theorem rsetf_dataOld (s : State) (o lo w v : Nat) : (rsetf s o lo w v).dataOld = s.dataOld := rfl
@[simp] theorem rsetf_aonLog (s : State) (o lo w v : Nat) : (rsetf s o lo w v).aonLog = s.aonLog := rfl
@[simp] theorem rsetf_cores (s : State) (o lo w v : Nat) : (rsetf s o lo w v).cores = s.cores := rfl
@[simp] theorem rsetf_tiles (s : State) (o lo w v : Nat) : (rsetf s o lo w v).tiles = s.tiles := rfl
@[simp] theorem rsetf_sos (s : State) (o lo w v : Nat) : (rsetf s o lo w v).sos = s.sos := rfl
@[simp] theorem rsetf_csos (s : State) (o lo w v : Nat) : (rsetf s o lo w v).csos = s.csos := rfl
@[simp] theorem rsetf_soStore (s : State) (o lo w v : Nat) : (rsetf s o lo w v).soStore = s.soStore := rfl
@[simp] theorem rsetf_detours (s : State) (o lo w v : Nat) : (rsetf s o lo w v).detours = s.detours := rfl
@[simp] theorem rsetf_cists (s : State) (o lo w v : Nat) : (rsetf s o lo w v).cists = s.cists := rfl
@[simp] theorem rsetf_chans (s : State) (o lo w v : Nat) : (rsetf s o lo w v).chans = s.chans := rfl
@[simp] theorem rsetf_selfRefresh (s : State) (o lo w v : Nat) : (rsetf s o lo w v).selfRefresh = s.selfRefresh := rfl
@[simp] theorem rsetf_ports (s : State) (o lo w v : Nat) : (rsetf s o lo w v).ports = s.ports := rfl
@[simp] theorem rsetf_ctxs (s : State) (o lo w v : Nat) : (rsetf s o lo w v).ctxs = s.ctxs := rfl
@[simp] theorem rsetf_hrings (s : State) (o lo w v : Nat) : (rsetf s o lo w v).hrings = s.hrings := rfl
@[simp] theorem rsetf_accepted (s : State) (o lo w v : Nat) : (rsetf s o lo w v).accepted = s.accepted := rfl
@[simp] theorem rsetf_journal (s : State) (o lo w v : Nat) : (rsetf s o lo w v).journal = s.journal := rfl
@[simp] theorem rsetf_fns (s : State) (o lo w v : Nat) : (rsetf s o lo w v).fns = s.fns := rfl
@[simp] theorem rsetf_casc (s : State) (o lo w v : Nat) : (rsetf s o lo w v).casc = s.casc := rfl
@[simp] theorem rsetf_boot (s : State) (o lo w v : Nat) : (rsetf s o lo w v).boot = s.boot := rfl
@[simp] theorem rsetf_rlatch (s : State) (o lo w v : Nat) : (rsetf s o lo w v).rlatch = s.rlatch := rfl
@[simp] theorem rsetf_wlatch (s : State) (o lo w v : Nat) : (rsetf s o lo w v).wlatch = s.wlatch := rfl
@[simp] theorem rsetf_presence (s : State) (o lo w v : Nat) : (rsetf s o lo w v).presence = s.presence := rfl
@[simp] theorem rsetf_snoops (s : State) (o lo w v : Nat) : (rsetf s o lo w v).snoops = s.snoops := rfl
@[simp] theorem rsetf_snoopFilter (s : State) (o lo w v : Nat) : (rsetf s o lo w v).snoopFilter = s.snoopFilter := rfl
@[simp] theorem rsetf_stagingSnoops (s : State) (o lo w v : Nat) : (rsetf s o lo w v).stagingSnoops = s.stagingSnoops := rfl

/-! ## `jput` -/

@[simp] theorem jput_pending (s : State) (same : JRec → Bool) (r : JRec) : (jput s same r).pending = s.pending := rfl
@[simp] theorem jput_freeCtr (s : State) (same : JRec → Bool) (r : JRec) : (jput s same r).freeCtr = s.freeCtr := rfl
@[simp] theorem jput_now (s : State) (same : JRec → Bool) (r : JRec) : (jput s same r).now = s.now := rfl
@[simp] theorem jput_reply (s : State) (same : JRec → Bool) (r : JRec) : (jput s same r).reply = s.reply := rfl
@[simp] theorem jput_out (s : State) (same : JRec → Bool) (r : JRec) : (jput s same r).out = s.out := rfl
@[simp] theorem jput_inbox (s : State) (same : JRec → Bool) (r : JRec) : (jput s same r).inbox = s.inbox := rfl
@[simp] theorem jput_mem (s : State) (same : JRec → Bool) (r : JRec) : (jput s same r).mem = s.mem := rfl
@[simp] theorem jput_lpPoison (s : State) (same : JRec → Bool) (r : JRec) : (jput s same r).lpPoison = s.lpPoison := rfl
@[simp] theorem jput_wellPoison (s : State) (same : JRec → Bool) (r : JRec) : (jput s same r).wellPoison = s.wellPoison := rfl
@[simp] theorem jput_hostPoison (s : State) (same : JRec → Bool) (r : JRec) : (jput s same r).hostPoison = s.hostPoison := rfl
@[simp] theorem jput_hostHeld (s : State) (same : JRec → Bool) (r : JRec) : (jput s same r).hostHeld = s.hostHeld := rfl
@[simp] theorem jput_dumpMem (s : State) (same : JRec → Bool) (r : JRec) : (jput s same r).dumpMem = s.dumpMem := rfl
@[simp] theorem jput_otp (s : State) (same : JRec → Bool) (r : JRec) : (jput s same r).otp = s.otp := rfl
@[simp] theorem jput_flash (s : State) (same : JRec → Bool) (r : JRec) : (jput s same r).flash = s.flash := rfl
@[simp] theorem jput_djOver (s : State) (same : JRec → Bool) (r : JRec) : (jput s same r).djOver = s.djOver := rfl
@[simp] theorem jput_dataWriter (s : State) (same : JRec → Bool) (r : JRec) : (jput s same r).dataWriter = s.dataWriter := rfl
@[simp] theorem jput_dataOld (s : State) (same : JRec → Bool) (r : JRec) : (jput s same r).dataOld = s.dataOld := rfl
@[simp] theorem jput_aonLog (s : State) (same : JRec → Bool) (r : JRec) : (jput s same r).aonLog = s.aonLog := rfl
@[simp] theorem jput_cores (s : State) (same : JRec → Bool) (r : JRec) : (jput s same r).cores = s.cores := rfl
@[simp] theorem jput_tiles (s : State) (same : JRec → Bool) (r : JRec) : (jput s same r).tiles = s.tiles := rfl
@[simp] theorem jput_sos (s : State) (same : JRec → Bool) (r : JRec) : (jput s same r).sos = s.sos := rfl
@[simp] theorem jput_csos (s : State) (same : JRec → Bool) (r : JRec) : (jput s same r).csos = s.csos := rfl
@[simp] theorem jput_soStore (s : State) (same : JRec → Bool) (r : JRec) : (jput s same r).soStore = s.soStore := rfl
@[simp] theorem jput_detours (s : State) (same : JRec → Bool) (r : JRec) : (jput s same r).detours = s.detours := rfl
@[simp] theorem jput_cists (s : State) (same : JRec → Bool) (r : JRec) : (jput s same r).cists = s.cists := rfl
@[simp] theorem jput_chans (s : State) (same : JRec → Bool) (r : JRec) : (jput s same r).chans = s.chans := rfl
@[simp] theorem jput_selfRefresh (s : State) (same : JRec → Bool) (r : JRec) : (jput s same r).selfRefresh = s.selfRefresh := rfl
@[simp] theorem jput_ports (s : State) (same : JRec → Bool) (r : JRec) : (jput s same r).ports = s.ports := rfl
@[simp] theorem jput_ctxs (s : State) (same : JRec → Bool) (r : JRec) : (jput s same r).ctxs = s.ctxs := rfl
@[simp] theorem jput_hrings (s : State) (same : JRec → Bool) (r : JRec) : (jput s same r).hrings = s.hrings := rfl
@[simp] theorem jput_accepted (s : State) (same : JRec → Bool) (r : JRec) : (jput s same r).accepted = s.accepted := rfl
@[simp] theorem jput_fns (s : State) (same : JRec → Bool) (r : JRec) : (jput s same r).fns = s.fns := rfl
@[simp] theorem jput_casc (s : State) (same : JRec → Bool) (r : JRec) : (jput s same r).casc = s.casc := rfl
@[simp] theorem jput_boot (s : State) (same : JRec → Bool) (r : JRec) : (jput s same r).boot = s.boot := rfl
@[simp] theorem jput_regs (s : State) (same : JRec → Bool) (r : JRec) : (jput s same r).regs = s.regs := rfl
@[simp] theorem jput_rlatch (s : State) (same : JRec → Bool) (r : JRec) : (jput s same r).rlatch = s.rlatch := rfl
@[simp] theorem jput_wlatch (s : State) (same : JRec → Bool) (r : JRec) : (jput s same r).wlatch = s.wlatch := rfl
@[simp] theorem jput_presence (s : State) (same : JRec → Bool) (r : JRec) : (jput s same r).presence = s.presence := rfl
@[simp] theorem jput_snoops (s : State) (same : JRec → Bool) (r : JRec) : (jput s same r).snoops = s.snoops := rfl
@[simp] theorem jput_snoopFilter (s : State) (same : JRec → Bool) (r : JRec) : (jput s same r).snoopFilter = s.snoopFilter := rfl
@[simp] theorem jput_stagingSnoops (s : State) (same : JRec → Bool) (r : JRec) : (jput s same r).stagingSnoops = s.stagingSnoops := rfl

/-! ## `publish` -/

@[simp] theorem publish_pending (s : State) (s1 : State) : (publish s s1).pending = s1.pending := rfl
@[simp] theorem publish_freeCtr (s : State) (s1 : State) : (publish s s1).freeCtr = s1.freeCtr := rfl
@[simp] theorem publish_now (s : State) (s1 : State) : (publish s s1).now = s1.now := rfl
@[simp] theorem publish_reply (s : State) (s1 : State) : (publish s s1).reply = s1.reply := rfl
@[simp] theorem publish_inbox (s : State) (s1 : State) : (publish s s1).inbox = s1.inbox := rfl
@[simp] theorem publish_mem (s : State) (s1 : State) : (publish s s1).mem = s1.mem := rfl
@[simp] theorem publish_lpPoison (s : State) (s1 : State) : (publish s s1).lpPoison = s1.lpPoison := rfl
@[simp] theorem publish_wellPoison (s : State) (s1 : State) : (publish s s1).wellPoison = s1.wellPoison := rfl
@[simp] theorem publish_hostPoison (s : State) (s1 : State) : (publish s s1).hostPoison = s1.hostPoison := rfl
@[simp] theorem publish_hostHeld (s : State) (s1 : State) : (publish s s1).hostHeld = s1.hostHeld := rfl
@[simp] theorem publish_dumpMem (s : State) (s1 : State) : (publish s s1).dumpMem = s1.dumpMem := rfl
@[simp] theorem publish_otp (s : State) (s1 : State) : (publish s s1).otp = s1.otp := rfl
@[simp] theorem publish_flash (s : State) (s1 : State) : (publish s s1).flash = s1.flash := rfl
@[simp] theorem publish_djOver (s : State) (s1 : State) : (publish s s1).djOver = s1.djOver := rfl
@[simp] theorem publish_dataWriter (s : State) (s1 : State) : (publish s s1).dataWriter = s1.dataWriter := rfl
@[simp] theorem publish_dataOld (s : State) (s1 : State) : (publish s s1).dataOld = s1.dataOld := rfl
@[simp] theorem publish_aonLog (s : State) (s1 : State) : (publish s s1).aonLog = s1.aonLog := rfl
@[simp] theorem publish_cores (s : State) (s1 : State) : (publish s s1).cores = s1.cores := rfl
@[simp] theorem publish_tiles (s : State) (s1 : State) : (publish s s1).tiles = s1.tiles := rfl
@[simp] theorem publish_sos (s : State) (s1 : State) : (publish s s1).sos = s1.sos := rfl
@[simp] theorem publish_csos (s : State) (s1 : State) : (publish s s1).csos = s1.csos := rfl
@[simp] theorem publish_soStore (s : State) (s1 : State) : (publish s s1).soStore = s1.soStore := rfl
@[simp] theorem publish_detours (s : State) (s1 : State) : (publish s s1).detours = s1.detours := rfl
@[simp] theorem publish_cists (s : State) (s1 : State) : (publish s s1).cists = s1.cists := rfl
@[simp] theorem publish_chans (s : State) (s1 : State) : (publish s s1).chans = s1.chans := rfl
@[simp] theorem publish_selfRefresh (s : State) (s1 : State) : (publish s s1).selfRefresh = s1.selfRefresh := rfl
@[simp] theorem publish_ports (s : State) (s1 : State) : (publish s s1).ports = s1.ports := rfl
@[simp] theorem publish_ctxs (s : State) (s1 : State) : (publish s s1).ctxs = s1.ctxs := rfl
@[simp] theorem publish_hrings (s : State) (s1 : State) : (publish s s1).hrings = s1.hrings := rfl
@[simp] theorem publish_accepted (s : State) (s1 : State) : (publish s s1).accepted = s1.accepted := rfl
@[simp] theorem publish_journal (s : State) (s1 : State) : (publish s s1).journal = s1.journal := rfl
@[simp] theorem publish_fns (s : State) (s1 : State) : (publish s s1).fns = s1.fns := rfl
@[simp] theorem publish_casc (s : State) (s1 : State) : (publish s s1).casc = s1.casc := rfl
@[simp] theorem publish_boot (s : State) (s1 : State) : (publish s s1).boot = s1.boot := rfl
@[simp] theorem publish_regs (s : State) (s1 : State) : (publish s s1).regs = s1.regs := rfl
@[simp] theorem publish_rlatch (s : State) (s1 : State) : (publish s s1).rlatch = s1.rlatch := rfl
@[simp] theorem publish_wlatch (s : State) (s1 : State) : (publish s s1).wlatch = s1.wlatch := rfl
@[simp] theorem publish_presence (s : State) (s1 : State) : (publish s s1).presence = s1.presence := rfl
@[simp] theorem publish_snoopFilter (s : State) (s1 : State) : (publish s s1).snoopFilter = s1.snoopFilter := rfl
@[simp] theorem publish_stagingSnoops (s : State) (s1 : State) : (publish s s1).stagingSnoops = s1.stagingSnoops := rfl

end Sys2Proof.Machine
end

