-- ==== Sys2Proof/Laws/Memory.lean ====
section
/-! SUPPORT. Every operation that changes memory, OTP, flash or the dump region keeps its canonical form (`Memory.wf`), and
the machine has it at reset. -/

namespace Sys2Proof.Machine

/-- Dropping entries keeps the keys rising. -/
theorem keysRise_filter (p : Host.Cell → Bool) (m : List Host.Cell) (h : keysRise m = true) : keysRise (m.filter p) = true := by
  induction m with
  | nil => rfl
  | cons a r ih =>
    obtain ⟨h1, h2⟩ := (keysRise_cons a r).mp h
    rw [List.filter_cons]
    split
    · exact (keysRise_cons _ _).mpr ⟨fun e he => h1 e (List.mem_filter.mp he).1, ih h2⟩
    · exact ih h2

/-- Dropping entries keeps the canonical form. -/
theorem wf_filter (d : W8) (p : Host.Cell → Bool) (m : List Host.Cell) (h : Memory.wf d m = true) :
    Memory.wf d (m.filter p) = true := by
  simp only [Memory.wf, Bool.and_eq_true, List.all_eq_true] at h ⊢
  exact ⟨keysRise_filter p m h.1, fun e he => h.2 e (List.mem_filter.mp he).1⟩

/-- A fold of steps that keep the canonical form keeps it. -/
theorem wf_foldl {α : Type} (f : State → α → State) (l : List α)
    (hf : ∀ s a, Memory.wf memDefault s.mem = true → Memory.wf memDefault (f s a).mem = true) (s : State)
    (h : Memory.wf memDefault s.mem = true) : Memory.wf memDefault (l.foldl f s).mem = true := by
  induction l generalizing s with
  | nil => exact h
  | cons a r ih => exact ih _ (hf s a h)

/-! ## Engine memory -/

/-- R164: a store to a well. -/
theorem wf_wellStore (s : State) (l : Nat) (bs : List (Nat × W8)) (h : Memory.wf memDefault s.mem = true) :
    Memory.wf memDefault (wellStore s l bs).mem = true := wf_cellSets _ _ _ h

/-- R178: one line of the gather buffer is written. -/
theorem wf_gatherWrite (s : State) (l : Nat) (g : GLine) (h : Memory.wf memDefault s.mem = true) :
    Memory.wf memDefault (gatherWrite s l g).mem = true := wf_wellStore _ _ _ h

/-- R178: the whole gather buffer is written. -/
theorem wf_gatherFlush (s : State) (l : Nat) (h : Memory.wf memDefault s.mem = true) :
    Memory.wf memDefault (gatherFlush s l).mem = true :=
  wf_foldl _ _ (fun s g h => wf_gatherWrite s l g h) s h

/-- R178: bytes merge into the gather buffer. -/
theorem wf_gatherPut (s : State) (l off : Nat) (bs : List (Nat × W8)) (h : Memory.wf memDefault s.mem = true) :
    Memory.wf memDefault (gatherPut s l off bs).mem = true := by
  have last (s : State) (c : CoreSt) (g : GLine) (b : Bool) (h : Memory.wf memDefault s.mem = true) :
      Memory.wf memDefault (if b = true then gatherWrite (putCore s l c) l g else putCore s l c).mem = true := by
    split
    · exact wf_gatherWrite _ _ _ h
    · exact h
  unfold gatherPut
  simp only
  apply last
  split
  · exact h
  · split
    · exact h
    · split
      · exact wf_gatherWrite _ _ _ h
      · exact h

/-- R178: a store of a pump, `vst` or `vscatter` to a well. -/
theorem wf_wellPut (s : State) (l : Nat) (bs : List (Nat × W8)) (h : Memory.wf memDefault s.mem = true) :
    Memory.wf memDefault (wellPut s l bs).mem = true :=
  wf_foldl _ _ (fun s _ h => wf_gatherPut s l _ _ h) _ (wf_wellStore s l _ h)

/-- A count leaves memory alone. -/
theorem rcount_mem (s : State) (o n : Nat) : (rcount s o n).mem = s.mem := by
  unfold rcount
  split <;> rfl

/-- R377: snoops leave memory alone. -/
theorem snoopLines_mem (s : State) (l : List Nat) : (snoopLines s l).mem = s.mem := rfl

/-- R213: a write request to LPDDR. -/
theorem wf_lpStore (s : State) (bs : List (Nat × W8)) (h : Memory.wf memDefault s.mem = true) :
    Memory.wf memDefault (lpStore s bs).mem = true := by
  unfold lpStore
  split
  · exact h
  · simp only
    split
    · rw [rcount_mem]
      exact h
    · rw [snoopLines_mem]
      exact wf_cellSets _ _ _ h

/-- R374: a write to host memory. -/
theorem wf_hostStore (s : State) (bs : List (Nat × W8)) (h : Memory.wf memDefault s.mem = true) :
    Memory.wf memDefault (hostStore s bs).mem = true := by
  unfold hostStore
  split
  · exact h
  · exact wf_cellSets _ _ _ h

/-- A write to wherever its addresses lie. -/
theorem wf_anyStore (s : State) (bs : List (Nat × W8)) (h : Memory.wf memDefault s.mem = true) :
    Memory.wf memDefault (anyStore s bs).mem = true := by
  unfold anyStore
  refine wf_foldl _ _ (fun s ln h => ?_) s h
  simp only
  split
  · exact wf_lpStore s _ h
  · exact wf_wellStore s _ _ h
  · exact wf_hostStore s _ h
  · exact h

/-- The host writes its own memory. -/
theorem wf_hostWrites (s : State) (bs : List (Nat × W8)) (h : Memory.wf memDefault s.mem = true) :
    Memory.wf memDefault (hostWrites s bs).mem = true := wf_cellSets _ _ _ h

/-- R377: a write through the staging window. -/
theorem wf_stagingStore (s : State) (bs : List (Nat × W8)) (h : Memory.wf memDefault s.mem = true) :
    Memory.wf memDefault (stagingStore s bs).mem = true := wf_cellSets _ _ _ h

/-- R180: a scrub of a well. -/
theorem wf_scrubWell (s : State) (l : Nat) (h : Memory.wf memDefault s.mem = true) :
    Memory.wf memDefault (scrubWell s l).mem = true := wf_filter _ _ _ h

/-- R330: code is written into a well. -/
theorem wf_writeCode (s : State) (code : List W8) (l : Nat) (c : CoreSt) (h : Memory.wf memDefault s.mem = true) :
    Memory.wf memDefault (writeCode s code l c).mem = true := by
  unfold writeCode
  simp only
  generalize c.slots.toList = xs
  generalize s.mem = m at h
  induction xs generalizing m with
  | nil => exact h
  | cons x r ih =>
    refine ih _ ?_
    beta_reduce
    split
    · exact wf_cellSets _ _ _ h
    · exact h

/-- R418: a warm reset keeps LPDDR and the host's memory. -/
theorem wf_warmCore (s : State) (h : Memory.wf memDefault s.mem = true) : Memory.wf memDefault (warmCore s).mem = true := by
  have hm (s : State) : (failTrial s).mem = s.mem := by unfold failTrial; split <;> rfl
  have : (warmCore s).mem = (failTrial s).mem.filter fun e => lpByte e || hostByte e := rfl
  rw [this, hm]
  exact wf_filter _ _ _ h

/-- R418: a cold reset keeps the host's memory. -/
theorem wf_coldCore (s : State) (up : Bool) (h : Memory.wf memDefault s.mem = true) :
    Memory.wf memDefault (coldCore s up).mem = true := by
  have hm (s : State) : (failTrial s).mem = s.mem := by unfold failTrial; split <;> rfl
  have : (coldCore s up).mem = (failTrial s).mem.filter hostByte := by unfold coldCore; cases up <;> rfl
  rw [this, hm]
  exact wf_filter _ _ _ h

/-! ## OTP, flash and the dump region -/

/-- R438: OTP bits are written. -/
theorem wf_otpProgram (s : State) (i v : Nat) (h : Memory.wf 0 s.otp = true) : Memory.wf 0 (otpProgram s i v).otp = true :=
  wf_cellSets _ _ _ h

/-- R448: an area of flash is erased. -/
theorem wf_flashErase (s : State) (a n : Nat) (h : Memory.wf 0xFF s.flash = true) :
    Memory.wf 0xFF (flashErase s a n).flash = true := wf_filter _ _ _ h

/-- R448: bits of flash are cleared. -/
theorem wf_flashClear (s : State) (a : Nat) (v : W8) (h : Memory.wf 0xFF s.flash = true) :
    Memory.wf 0xFF (flashClear s a v).flash = true := wf_cellSet _ _ _ _ h

/-- R451: an image is written to a bank of flash. -/
theorem wf_writeBank (s : State) (b : Nat) (p image : List W8) (h : Memory.wf 0xFF s.flash = true) :
    Memory.wf 0xFF (writeBank s b p image).flash = true := wf_cellSets _ _ _ (wf_flashErase s _ _ h)

/-- R431: bytes are put into the dump region. -/
theorem wf_dumpPut (s : State) (a : Nat) (l : List W8) (h : Memory.wf 0 s.dumpMem = true) :
    Memory.wf 0 (dumpPut s a l).dumpMem = true := wf_cellSets _ _ _ h

/-- R432: sections under a new guest are marked as clobbered. -/
theorem wf_clobber (s : State) (h : Memory.wf 0 s.dumpMem = true) : Memory.wf 0 (clobber s).dumpMem = true := by
  unfold clobber
  simp only
  split
  · exact h
  · change Memory.wf 0 (List.foldl _ s.dumpMem _) = true
    generalize List.filter _ _ = hit
    have all (m : List Host.Cell) (hm : Memory.wf 0 m = true) : Memory.wf 0 (hit.foldl (fun m i =>
        cellSet 0 (64 + 32 * i + 2) (cellGet 0 (64 + 32 * i + 2) s.dumpMem ||| 4) m) m) = true := by
      induction hit generalizing m with
      | nil => exact hm
      | cons i r ih => exact ih _ (wf_cellSet _ _ _ _ hm)
    exact all _ h

/-! ## Reset -/

/-- At reset every memory is canonical. -/
theorem wf_reset : Memory.wf memDefault State.reset.mem = true ∧ Memory.wf 0 State.reset.otp = true ∧
    Memory.wf 0xFF State.reset.flash = true ∧ Memory.wf 0 State.reset.dumpMem = true := ⟨rfl, rfl, rfl, rfl⟩

end Sys2Proof.Machine
end

