-- ==== Sys2Proof/Laws/PerInstr.lean ====
section
/-! SUPPORT. Facts about every command as syntax: the stream slot that a well-formed command names exists (R57), and no word of the
opcode table spells a command. -/

namespace Sys2Proof.Laws.Shape

set_option Elab.async false

/-- The stream slot that a command of one names. -/
def slot : Instr → Option StreamId
  | .nop u _ | .add u _ | .sub u _ | .and u _ | .or u _ | .xor u _ | .shl u _ | .shr u _ | .sra u _ | .slt u _
  | .sltu u _ | .min u _ | .max u _ | .minu u _ | .maxu u _ | .mul u _ | .mulh u _ | .mulhu u _ | .div u _
  | .divu u _ | .rem u _ | .remu u _ | .movhi u _ | .pop u _ | .clz u _ | .brCond u _ | .jal u _ | .jalr u _
  | .loop u _ | .loopVl u _ | .done u _ | .ld u _ _ | .st u _ _ | .vld u _ _ | .vst u _ _ | .amoadd u _ | .fence u _
  | .racqW u _ | .racqR u _ | .rrelW u _ | .rrelR u _ | .sow u _ | .sos u _ | .sord u _ | .sowC u _ | .sosC u _
  | .sordC u _ | .ppost u _ | .stitch u _ | .cget u _ | .cset u _ | .bnar u _ | .bget u _ | .vaddF32 u _
  | .vsubF32 u _ | .vmulF32 u _ | .vfmaF32 u _ | .vminF32 u _ | .vmaxF32 u _ | .vabs u _ | .vneg u _ | .vcsgn u _
  | .vcmpF32 u _ | .vaddI32 u _ | .vsubI32 u _ | .vmulI32 u _ | .vand u _ | .vor u _ | .vxor u _ | .vandn u _
  | .vshl u _ | .vshr u _ | .vsra u _ | .vcmpI32 u _ | .vminI32 u _ | .vmaxI32 u _ | .vminu u _ | .vmaxu u _
  | .vsel u _ | .vbcast u _ | .vext u _ | .vins u _ | .vperm u _ | .vshuf u _ | .vcompress u _ | .vexpand u _
  | .vcvt u _ | .vquant u _ | .pand u _ | .por u _ | .pxor u _ | .pandn u _ | .pmov u _ | .vgather u _ _
  | .vscatter u _ _ | .setvl u _ | .vfn u _ | .rsumF32 u _ | .rmaxF32 u _ | .rminF32 u _ | .rargmaxF32 u _
  | .rsumI32 u _ | .rmcnt u _ | .rmfirst u _ | .rscale u _ | .mma u _ _ | .mclr u _ | .mld u _ _ | .mdrain u _
  | .mdrainG u _ | .faultReport u _ _ | .stitchRetire u | .stitchTooLong u | .loadReturn u _
  | .loadWaitLimit u _ | .racqWaitLimit u | .soWaitLimit u | .coreHang u => some u
  | .witnessVerdict l k _ => some ⟨l, k⟩
  | _ => none

/-- A well-formed command of a slot names one of the three slots of one of the 16,384 logical cores, and no word spells it. -/
def Statement (i : Instr) : Prop :=
  (i.wf = true → ∀ u, slot i = some u → u.lcid < 16384 ∧ u.slot < 3) ∧ ∀ nbits w, decodeTableWord nbits w ≠ some i

theorem of_stream {i : Instr} {u : StreamId} (h : i.wf = true → streamOk u = true) (e : slot i = some u) : Statement i := by
  refine ⟨fun w v k => ?_, fun _ _ => nofun⟩
  have hv : u = v := Option.some.inj (e.symm.trans k)
  subst hv
  simpa [streamOk] using h w

theorem of_none {i : Instr} (e : slot i = none) : Statement i :=
  ⟨fun _ _ k => (nomatch e.symm.trans k), fun _ _ => nofun⟩

theorem nop (u : StreamId) (f : Fields) :
    Statement (.nop u f) := of_stream (fun h => h) rfl
theorem add (u : StreamId) (f : Fields) :
    Statement (.add u f) := of_stream (fun h => h) rfl
theorem sub (u : StreamId) (f : Fields) :
    Statement (.sub u f) := of_stream (fun h => h) rfl
theorem and (u : StreamId) (f : Fields) :
    Statement (.and u f) := of_stream (fun h => h) rfl
theorem or (u : StreamId) (f : Fields) :
    Statement (.or u f) := of_stream (fun h => h) rfl
theorem xor (u : StreamId) (f : Fields) :
    Statement (.xor u f) := of_stream (fun h => h) rfl
theorem shl (u : StreamId) (f : Fields) :
    Statement (.shl u f) := of_stream (fun h => h) rfl
theorem shr (u : StreamId) (f : Fields) :
    Statement (.shr u f) := of_stream (fun h => h) rfl
theorem sra (u : StreamId) (f : Fields) :
    Statement (.sra u f) := of_stream (fun h => h) rfl
theorem slt (u : StreamId) (f : Fields) :
    Statement (.slt u f) := of_stream (fun h => h) rfl
theorem sltu (u : StreamId) (f : Fields) :
    Statement (.sltu u f) := of_stream (fun h => h) rfl
theorem min (u : StreamId) (f : Fields) :
    Statement (.min u f) := of_stream (fun h => h) rfl
theorem max (u : StreamId) (f : Fields) :
    Statement (.max u f) := of_stream (fun h => h) rfl
theorem minu (u : StreamId) (f : Fields) :
    Statement (.minu u f) := of_stream (fun h => h) rfl
theorem maxu (u : StreamId) (f : Fields) :
    Statement (.maxu u f) := of_stream (fun h => h) rfl
theorem mul (u : StreamId) (f : Fields) :
    Statement (.mul u f) := of_stream (fun h => h) rfl
theorem mulh (u : StreamId) (f : Fields) :
    Statement (.mulh u f) := of_stream (fun h => h) rfl
theorem mulhu (u : StreamId) (f : Fields) :
    Statement (.mulhu u f) := of_stream (fun h => h) rfl
theorem div (u : StreamId) (f : Fields) :
    Statement (.div u f) := of_stream (fun h => h) rfl
theorem divu (u : StreamId) (f : Fields) :
    Statement (.divu u f) := of_stream (fun h => h) rfl
theorem rem (u : StreamId) (f : Fields) :
    Statement (.rem u f) := of_stream (fun h => h) rfl
theorem remu (u : StreamId) (f : Fields) :
    Statement (.remu u f) := of_stream (fun h => h) rfl
theorem movhi (u : StreamId) (f : Fields) :
    Statement (.movhi u f) := of_stream (fun h => h) rfl
theorem pop (u : StreamId) (f : Fields) :
    Statement (.pop u f) := of_stream (fun h => h) rfl
theorem clz (u : StreamId) (f : Fields) :
    Statement (.clz u f) := of_stream (fun h => h) rfl
theorem brCond (u : StreamId) (f : Fields) :
    Statement (.brCond u f) := of_stream (fun h => h) rfl
theorem jal (u : StreamId) (f : Fields) :
    Statement (.jal u f) := of_stream (fun h => h) rfl
theorem jalr (u : StreamId) (f : Fields) :
    Statement (.jalr u f) := of_stream (fun h => h) rfl
theorem loop (u : StreamId) (f : Fields) :
    Statement (.loop u f) := of_stream (fun h => h) rfl
theorem loopVl (u : StreamId) (f : Fields) :
    Statement (.loopVl u f) := of_stream (fun h => h) rfl
theorem done (u : StreamId) (f : Fields) :
    Statement (.done u f) := of_stream (fun h => h) rfl
theorem ld (u : StreamId) (f : Fields) (errs : List SymErr) :
    Statement (.ld u f errs) := of_stream (fun h => h) rfl
theorem st (u : StreamId) (f : Fields) (errs : List SymErr) :
    Statement (.st u f errs) := of_stream (fun h => h) rfl
theorem vld (u : StreamId) (f : Fields) (errs : List SymErr) :
    Statement (.vld u f errs) := of_stream (fun h => h) rfl
theorem vst (u : StreamId) (f : Fields) (errs : List SymErr) :
    Statement (.vst u f errs) := of_stream (fun h => h) rfl
theorem amoadd (u : StreamId) (f : Fields) :
    Statement (.amoadd u f) := of_stream (fun h => h) rfl
theorem fence (u : StreamId) (f : Fields) :
    Statement (.fence u f) := of_stream (fun h => h) rfl
theorem racqW (u : StreamId) (f : Fields) :
    Statement (.racqW u f) := of_stream (fun h => h) rfl
theorem racqR (u : StreamId) (f : Fields) :
    Statement (.racqR u f) := of_stream (fun h => h) rfl
theorem rrelW (u : StreamId) (f : Fields) :
    Statement (.rrelW u f) := of_stream (fun h => h) rfl
theorem rrelR (u : StreamId) (f : Fields) :
    Statement (.rrelR u f) := of_stream (fun h => h) rfl
theorem sow (u : StreamId) (f : Fields) :
    Statement (.sow u f) := of_stream (fun h => h) rfl
theorem sos (u : StreamId) (f : Fields) :
    Statement (.sos u f) := of_stream (fun h => h) rfl
theorem sord (u : StreamId) (f : Fields) :
    Statement (.sord u f) := of_stream (fun h => h) rfl
theorem sowC (u : StreamId) (f : Fields) :
    Statement (.sowC u f) := of_stream (fun h => h) rfl
theorem sosC (u : StreamId) (f : Fields) :
    Statement (.sosC u f) := of_stream (fun h => h) rfl
theorem sordC (u : StreamId) (f : Fields) :
    Statement (.sordC u f) := of_stream (fun h => h) rfl
theorem ppost (u : StreamId) (f : Fields) :
    Statement (.ppost u f) := of_stream (fun h => h) rfl
theorem stitch (u : StreamId) (f : Fields) :
    Statement (.stitch u f) := of_stream (fun h => h) rfl
theorem cget (u : StreamId) (f : Fields) :
    Statement (.cget u f) := of_stream (fun h => h) rfl
theorem cset (u : StreamId) (f : Fields) :
    Statement (.cset u f) := of_stream (fun h => h) rfl
theorem bnar (u : StreamId) (f : Fields) :
    Statement (.bnar u f) := of_stream (fun h => h) rfl
theorem bget (u : StreamId) (f : Fields) :
    Statement (.bget u f) := of_stream (fun h => h) rfl
theorem vaddF32 (u : StreamId) (f : Fields) :
    Statement (.vaddF32 u f) := of_stream (fun h => h) rfl
theorem vsubF32 (u : StreamId) (f : Fields) :
    Statement (.vsubF32 u f) := of_stream (fun h => h) rfl
theorem vmulF32 (u : StreamId) (f : Fields) :
    Statement (.vmulF32 u f) := of_stream (fun h => h) rfl
theorem vfmaF32 (u : StreamId) (f : Fields) :
    Statement (.vfmaF32 u f) := of_stream (fun h => h) rfl
theorem vminF32 (u : StreamId) (f : Fields) :
    Statement (.vminF32 u f) := of_stream (fun h => h) rfl
theorem vmaxF32 (u : StreamId) (f : Fields) :
    Statement (.vmaxF32 u f) := of_stream (fun h => h) rfl
theorem vabs (u : StreamId) (f : Fields) :
    Statement (.vabs u f) := of_stream (fun h => h) rfl
theorem vneg (u : StreamId) (f : Fields) :
    Statement (.vneg u f) := of_stream (fun h => h) rfl
theorem vcsgn (u : StreamId) (f : Fields) :
    Statement (.vcsgn u f) := of_stream (fun h => h) rfl
theorem vcmpF32 (u : StreamId) (f : Fields) :
    Statement (.vcmpF32 u f) := of_stream (fun h => h) rfl
theorem vaddI32 (u : StreamId) (f : Fields) :
    Statement (.vaddI32 u f) := of_stream (fun h => h) rfl
theorem vsubI32 (u : StreamId) (f : Fields) :
    Statement (.vsubI32 u f) := of_stream (fun h => h) rfl
theorem vmulI32 (u : StreamId) (f : Fields) :
    Statement (.vmulI32 u f) := of_stream (fun h => h) rfl
theorem vand (u : StreamId) (f : Fields) :
    Statement (.vand u f) := of_stream (fun h => h) rfl
theorem vor (u : StreamId) (f : Fields) :
    Statement (.vor u f) := of_stream (fun h => h) rfl
theorem vxor (u : StreamId) (f : Fields) :
    Statement (.vxor u f) := of_stream (fun h => h) rfl
theorem vandn (u : StreamId) (f : Fields) :
    Statement (.vandn u f) := of_stream (fun h => h) rfl
theorem vshl (u : StreamId) (f : Fields) :
    Statement (.vshl u f) := of_stream (fun h => h) rfl
theorem vshr (u : StreamId) (f : Fields) :
    Statement (.vshr u f) := of_stream (fun h => h) rfl
theorem vsra (u : StreamId) (f : Fields) :
    Statement (.vsra u f) := of_stream (fun h => h) rfl
theorem vcmpI32 (u : StreamId) (f : Fields) :
    Statement (.vcmpI32 u f) := of_stream (fun h => h) rfl
theorem vminI32 (u : StreamId) (f : Fields) :
    Statement (.vminI32 u f) := of_stream (fun h => h) rfl
theorem vmaxI32 (u : StreamId) (f : Fields) :
    Statement (.vmaxI32 u f) := of_stream (fun h => h) rfl
theorem vminu (u : StreamId) (f : Fields) :
    Statement (.vminu u f) := of_stream (fun h => h) rfl
theorem vmaxu (u : StreamId) (f : Fields) :
    Statement (.vmaxu u f) := of_stream (fun h => h) rfl
theorem vsel (u : StreamId) (f : Fields) :
    Statement (.vsel u f) := of_stream (fun h => h) rfl
theorem vbcast (u : StreamId) (f : Fields) :
    Statement (.vbcast u f) := of_stream (fun h => h) rfl
theorem vext (u : StreamId) (f : Fields) :
    Statement (.vext u f) := of_stream (fun h => h) rfl
theorem vins (u : StreamId) (f : Fields) :
    Statement (.vins u f) := of_stream (fun h => h) rfl
theorem vperm (u : StreamId) (f : Fields) :
    Statement (.vperm u f) := of_stream (fun h => h) rfl
theorem vshuf (u : StreamId) (f : Fields) :
    Statement (.vshuf u f) := of_stream (fun h => h) rfl
theorem vcompress (u : StreamId) (f : Fields) :
    Statement (.vcompress u f) := of_stream (fun h => h) rfl
theorem vexpand (u : StreamId) (f : Fields) :
    Statement (.vexpand u f) := of_stream (fun h => h) rfl
theorem vcvt (u : StreamId) (f : Fields) :
    Statement (.vcvt u f) := of_stream (fun h => h) rfl
theorem vquant (u : StreamId) (f : Fields) :
    Statement (.vquant u f) := of_stream (fun h => h) rfl
theorem pand (u : StreamId) (f : Fields) :
    Statement (.pand u f) := of_stream (fun h => h) rfl
theorem por (u : StreamId) (f : Fields) :
    Statement (.por u f) := of_stream (fun h => h) rfl
theorem pxor (u : StreamId) (f : Fields) :
    Statement (.pxor u f) := of_stream (fun h => h) rfl
theorem pandn (u : StreamId) (f : Fields) :
    Statement (.pandn u f) := of_stream (fun h => h) rfl
theorem pmov (u : StreamId) (f : Fields) :
    Statement (.pmov u f) := of_stream (fun h => h) rfl
theorem vgather (u : StreamId) (f : Fields) (errs : List SymErr) :
    Statement (.vgather u f errs) := of_stream (fun h => h) rfl
theorem vscatter (u : StreamId) (f : Fields) (errs : List SymErr) :
    Statement (.vscatter u f errs) := of_stream (fun h => h) rfl
theorem setvl (u : StreamId) (f : Fields) :
    Statement (.setvl u f) := of_stream (fun h => h) rfl
theorem vfn (u : StreamId) (f : Fields) :
    Statement (.vfn u f) := of_stream (fun h => h) rfl
theorem rsumF32 (u : StreamId) (f : Fields) :
    Statement (.rsumF32 u f) := of_stream (fun h => h) rfl
theorem rmaxF32 (u : StreamId) (f : Fields) :
    Statement (.rmaxF32 u f) := of_stream (fun h => h) rfl
theorem rminF32 (u : StreamId) (f : Fields) :
    Statement (.rminF32 u f) := of_stream (fun h => h) rfl
theorem rargmaxF32 (u : StreamId) (f : Fields) :
    Statement (.rargmaxF32 u f) := of_stream (fun h => h) rfl
theorem rsumI32 (u : StreamId) (f : Fields) :
    Statement (.rsumI32 u f) := of_stream (fun h => h) rfl
theorem rmcnt (u : StreamId) (f : Fields) :
    Statement (.rmcnt u f) := of_stream (fun h => h) rfl
theorem rmfirst (u : StreamId) (f : Fields) :
    Statement (.rmfirst u f) := of_stream (fun h => h) rfl
theorem rscale (u : StreamId) (f : Fields) :
    Statement (.rscale u f) := of_stream (fun h => h) rfl
theorem mma (u : StreamId) (f : Fields) (errs : List SymErr) :
    Statement (.mma u f errs) := of_stream (fun h => h) rfl
theorem mclr (u : StreamId) (f : Fields) :
    Statement (.mclr u f) := of_stream (fun h => h) rfl
theorem mld (u : StreamId) (f : Fields) (errs : List SymErr) :
    Statement (.mld u f errs) := of_stream (fun h => h) rfl
theorem mdrain (u : StreamId) (f : Met Fields) :
    Statement (.mdrain u f) := of_stream (fun h => h) rfl
theorem mdrainG (u : StreamId) (f : Met Fields) :
    Statement (.mdrainG u f) := of_stream (fun h => h) rfl
theorem witnessVerdict (lcid slot : Nat) (pass : Bool) :
    Statement (.witnessVerdict lcid slot pass) := of_stream (fun h => h) rfl
theorem faultReport (u : StreamId) (status : Nat) (st : Stamp) :
    Statement (.faultReport u status st) := of_stream (fun h => (Bool.and_eq_true_iff.1 h).1) rfl
theorem haltArrive (lcid : Nat) (st : Stamp) :
    Statement (.haltArrive lcid st) := of_none rfl
theorem stitchRetire (u : StreamId) :
    Statement (.stitchRetire u) := of_stream (fun h => h) rfl
theorem stitchTooLong (u : StreamId) :
    Statement (.stitchTooLong u) := of_stream (fun h => h) rfl
theorem loadReturn (u : StreamId) (id : Nat) :
    Statement (.loadReturn u id) := of_stream (fun h => h) rfl
theorem loadWaitLimit (u : StreamId) (id : Nat) :
    Statement (.loadWaitLimit u id) := of_stream (fun h => h) rfl
theorem racqWaitLimit (u : StreamId) :
    Statement (.racqWaitLimit u) := of_stream (fun h => h) rfl
theorem soWaitLimit (u : StreamId) :
    Statement (.soWaitLimit u) := of_stream (fun h => h) rfl
theorem soSignalArrive (so : Nat) (amount : W64) (sender : Sender) :
    Statement (.soSignalArrive so amount sender) := of_none rfl
theorem vouchSend (tile entry : Nat) :
    Statement (.vouchSend tile entry) := of_none rfl
theorem vouchArrive (lcid : Nat) (tags : Tags) (ord : Nat) (st : Stamp) :
    Statement (.vouchArrive lcid tags ord st) := of_none rfl
theorem confirmationArrive (lcid : Nat) (tags : Tags) (blocks : Nat) (st : Stamp) :
    Statement (.confirmationArrive lcid tags blocks st) := of_none rfl
theorem retractionArrive (lcid : Nat) (tags : Tags) (blocks : Nat) (st : Stamp) :
    Statement (.retractionArrive lcid tags blocks st) := of_none rfl
theorem vouchTimeout (lcid : Nat) (tags : Tags) :
    Statement (.vouchTimeout lcid tags) := of_none rfl
theorem coreHang (u : StreamId) :
    Statement (.coreHang u) := of_stream (fun h => h) rfl
theorem coreFailure (tile pcore cause : Nat) :
    Statement (.coreFailure tile pcore cause) := of_none rfl
theorem quarantineResult (tile pcore : Nat) (pass : Bool) :
    Statement (.quarantineResult tile pcore pass) := of_none rfl
theorem tlPcoreFence (tile pcore : Nat) (value : W32) :
    Statement (.tlPcoreFence tile pcore value) := of_none rfl
theorem tlWitInjArm (tile : Nat) (value : W32) :
    Statement (.tlWitInjArm tile value) := of_none rfl
theorem wellPatrol (tile : Nat) (errs : List SymErr) (missed : Bool) :
    Statement (.wellPatrol tile errs missed) := of_none rfl
theorem gatherLineFlush (lcid line : Nat) (errs : List SymErr) :
    Statement (.gatherLineFlush lcid line errs) := of_none rfl
theorem flitRetry (tile : Nat) :
    Statement (.flitRetry tile) := of_none rfl
theorem pumpDescriptorStart (unit job : Nat) (errs : List SymErr) :
    Statement (.pumpDescriptorStart unit job errs) := of_none rfl
theorem pumpDescriptorEnd (unit job status : Nat) :
    Statement (.pumpDescriptorEnd unit job status) := of_none rfl
theorem tensorBlockArrive (d : Carriage) (b : Block) :
    Statement (.tensorBlockArrive d b) := of_none rfl
theorem resendRequest (unit job : Nat) (bidx : Met Nat) (st : Stamp) :
    Statement (.resendRequest unit job bidx st) := of_none rfl
theorem cisternRequest (cn : Nat) (r : MemReq) (errs : List SymErr) :
    Statement (.cisternRequest cn r errs) := of_none rfl
theorem cisternAmoadd (cn src : Nat) (addr : Nat) (add : AmoAdd) (st : Stamp) (errs : List SymErr) :
    Statement (.cisternAmoadd cn src addr add st errs) := of_none rfl
theorem blockAdd (cn : Nat) (d : Carriage) (b : Block) (errs : List SymErr) :
    Statement (.blockAdd cn d b errs) := of_none rfl
theorem zeroFill (ctx addr blocks : Nat) :
    Statement (.zeroFill ctx addr blocks) := of_none rfl
theorem cisternPatrol (cn : Nat) (errs : List SymErr) (missed : Bool) :
    Statement (.cisternPatrol cn errs missed) := of_none rfl
theorem csChanRetire (cn chan : Nat) (value : W32) :
    Statement (.csChanRetire cn chan value) := of_none rfl
theorem pprRepair (cn : Nat) :
    Statement (.pprRepair cn) := of_none rfl
theorem pprQuery (cn : Nat) :
    Statement (.pprQuery cn) := of_none rfl
theorem pprComplete (cn : Nat) (deviceOk avail : Bool) :
    Statement (.pprComplete cn deviceOk avail) := of_none rfl
theorem entryAcceptance (ring : Met Nat) :
    Statement (.entryAcceptance ring) := of_none rfl
theorem bind (ring seq : Nat) :
    Statement (.bind ring seq) := of_none rfl
theorem load (ring : Nat) (seq : Met Nat) :
    Statement (.load ring seq) := of_none rfl
theorem step (ring seq : Nat) :
    Statement (.step ring seq) := of_none rfl
theorem xfer (ring seq : Nat) (errs : List SymErr) :
    Statement (.xfer ring seq errs) := of_none rfl
theorem syncWait (ring seq : Nat) :
    Statement (.syncWait ring seq) := of_none rfl
theorem syncSignal (ring seq : Nat) :
    Statement (.syncSignal ring seq) := of_none rfl
theorem fnStart (ring seq : Nat) :
    Statement (.fnStart ring seq) := of_none rfl
theorem fnStop (ring seq : Nat) :
    Statement (.fnStop ring seq) := of_none rfl
theorem query (ring seq : Nat) :
    Statement (.query ring seq) := of_none rfl
theorem generationDrainComplete (ctx : Nat) :
    Statement (.generationDrainComplete ctx) := of_none rfl
theorem governorDecision (ctx : Met Nat) :
    Statement (.governorDecision ctx) := of_none rfl
theorem layerUpdate (ctx layer : Nat) (errs : List SymErr) :
    Statement (.layerUpdate ctx layer errs) := of_none rfl
theorem stepCommit (ctx : Nat) :
    Statement (.stepCommit ctx) := of_none rfl
theorem settle (ctx : Nat) (layer : Met Nat) :
    Statement (.settle ctx layer) := of_none rfl
theorem batchRelease (ctx : Nat) (cause : ReleaseCause) :
    Statement (.batchRelease ctx cause) := of_none rfl
theorem batchComplete (ctx : Nat) :
    Statement (.batchComplete ctx) := of_none rfl
theorem energyReport (r : EnergyReading) :
    Statement (.energyReport r) := of_none rfl
theorem mirrorImageComplete (ctx : Nat) :
    Statement (.mirrorImageComplete ctx) := of_none rfl
theorem mirrorRestore (ctx : Nat) (image : Option MirrorImage) :
    Statement (.mirrorRestore ctx image) := of_none rfl
theorem mirrorDataFrame (smod area : Nat) (part : MirrorPart) :
    Statement (.mirrorDataFrame smod area part) := of_none rfl
theorem linkFrame (port lack : Nat) (resendFrom : Option Nat) :
    Statement (.linkFrame port lack resendFrom) := of_none rfl
theorem akgonFrameReceive (port : Nat) (fr : Frame) (fec : FecResult) :
    Statement (.akgonFrameReceive port fr fec) := of_none rfl
theorem laneFail (port lane : Nat) :
    Statement (.laneFail port lane) := of_none rfl
theorem portFail (port : Nat) :
    Statement (.portFail port) := of_none rfl
theorem hello (fr : Frame) :
    Statement (.hello fr) := of_none rfl
theorem cascadeStartTimeout :
    Statement .cascadeStartTimeout := of_none rfl
theorem beatSend :
    Statement .beatSend := of_none rfl
theorem beat (fr : Frame) :
    Statement (.beat fr) := of_none rfl
theorem moduleLost (module_ : Nat) :
    Statement (.moduleLost module_) := of_none rfl
theorem deputyTakeover :
    Statement .deputyTakeover := of_none rfl
theorem takeover (fr : Frame) :
    Statement (.takeover fr) := of_none rfl
theorem cascadeSignal (fr : Frame) :
    Statement (.cascadeSignal fr) := of_none rfl
theorem cascadeWaitRead (fr : Frame) :
    Statement (.cascadeWaitRead fr) := of_none rfl
theorem cascadeAnswer (fr : Frame) :
    Statement (.cascadeAnswer fr) := of_none rfl
theorem akgonVouch (lcid : Nat) (fr : Frame) :
    Statement (.akgonVouch lcid fr) := of_none rfl
theorem akgonConfirmation (lcid : Nat) (fr : Frame) :
    Statement (.akgonConfirmation lcid fr) := of_none rfl
theorem akgonRetraction (lcid : Nat) (fr : Frame) :
    Statement (.akgonRetraction lcid fr) := of_none rfl
theorem akgonResend (fr : Frame) :
    Statement (.akgonResend fr) := of_none rfl
theorem confirmationAck (fr : Frame) :
    Statement (.confirmationAck fr) := of_none rfl
theorem dropNotice (fr : Frame) :
    Statement (.dropNotice fr) := of_none rfl
theorem akgonProvTimeout (lcid : Nat) (tags : Tags) (smod port : Nat) :
    Statement (.akgonProvTimeout lcid tags smod port) := of_none rfl
theorem windowData (port : Option Nat) (fr : Frame) (lcid : Nat) :
    Statement (.windowData port fr lcid) := of_none rfl
theorem exchangeData (port : Nat) (fr : Frame) (gather : Bool) :
    Statement (.exchangeData port fr gather) := of_none rfl
theorem fdone (fr : Frame) :
    Statement (.fdone fr) := of_none rfl
theorem turn (fr : Frame) :
    Statement (.turn fr) := of_none rfl
theorem loss (fr : Frame) :
    Statement (.loss fr) := of_none rfl
theorem restart (fr : Frame) :
    Statement (.restart fr) := of_none rfl
theorem xdone (fr : Frame) :
    Statement (.xdone fr) := of_none rfl
theorem prepare (fr : Frame) :
    Statement (.prepare fr) := of_none rfl
theorem ready (fr : Frame) :
    Statement (.ready fr) := of_none rfl
theorem commit (fr : Frame) :
    Statement (.commit fr) := of_none rfl
theorem crec (fr : Frame) :
    Statement (.crec fr) := of_none rfl
theorem ack (fr : Frame) :
    Statement (.ack fr) := of_none rfl
theorem release (fr : Frame) :
    Statement (.release fr) := of_none rfl
theorem rejoin (fr : Frame) :
    Statement (.rejoin fr) := of_none rfl
theorem stragglerWindowExpiry :
    Statement .stragglerWindowExpiry := of_none rfl
theorem rwinExpiry (module_ : Nat) :
    Statement (.rwinExpiry module_) := of_none rfl
theorem fnCtrlEn (f : Nat) :
    Statement (.fnCtrlEn f) := of_none rfl
theorem fnCtrlDis (f : Nat) :
    Statement (.fnCtrlDis f) := of_none rfl
theorem fnSetWrite (f w : Nat) (value : W32) :
    Statement (.fnSetWrite f w value) := of_none rfl
theorem functionStartComplete (f : Nat) :
    Statement (.functionStartComplete f) := of_none rfl
theorem functionStartFail (f status : Nat) :
    Statement (.functionStartFail f status) := of_none rfl
theorem functionStopComplete (f : Nat) :
    Statement (.functionStopComplete f) := of_none rfl
theorem panelModeChange (panel : Nat) :
    Statement (.panelModeChange panel) := of_none rfl
theorem wellFailure (tile pwell : Nat) :
    Statement (.wellFailure tile pwell) := of_none rfl
theorem tileFailure (tile : Nat) :
    Statement (.tileFailure tile) := of_none rfl
theorem powerRegionFault (region : Nat) :
    Statement (.powerRegionFault region) := of_none rfl
theorem cisternFailure (cn : Nat) :
    Statement (.cisternFailure cn) := of_none rfl
theorem carrierLinkFailure (link : CarrierLink) :
    Statement (.carrierLinkFailure link) := of_none rfl
theorem hostCoreSwitch (host : Nat) :
    Statement (.hostCoreSwitch host) := of_none rfl
theorem stalledBurst (unit job : Nat) :
    Statement (.stalledBurst unit job) := of_none rfl
theorem stalledEvent :
    Statement .stalledEvent := of_none rfl
theorem stallResume (unit job : Nat) :
    Statement (.stallResume unit job) := of_none rfl
theorem tailLineInvalidate (ring : Nat) (line : List W8) (host : List (Nat × W8)) :
    Statement (.tailLineInvalidate ring line host) := of_none rfl
theorem cxlLinkDown :
    Statement .cxlLinkDown := of_none rfl
theorem cxlLinkUp :
    Statement .cxlLinkUp := of_none rfl
theorem cxlReset :
    Statement .cxlReset := of_none rfl
theorem stagingRead (dpa len : Nat) (errs : List SymErr) :
    Statement (.stagingRead dpa len errs) := of_none rfl
theorem stagingWrite (dpa : Nat) (data : List W8) (errs : List SymErr) :
    Statement (.stagingWrite dpa data errs) := of_none rfl
theorem mirrorRead (line : Nat) :
    Statement (.mirrorRead line) := of_none rfl
theorem mirrorWrite (offset : Nat) :
    Statement (.mirrorWrite offset) := of_none rfl
theorem birsp (target : SnoopTarget) :
    Statement (.birsp target) := of_none rfl
theorem hcCplConsWrite (ring : Nat) (high : Bool) (value : W32) :
    Statement (.hcCplConsWrite ring high value) := of_none rfl
theorem ringEnable (ring : Nat) (value : W32) :
    Statement (.ringEnable ring value) := of_none rfl
theorem ringDisable (ring : Nat) (value : W32) :
    Statement (.ringDisable ring value) := of_none rfl
theorem hcRingConfigWrite (ring offset : Nat) (value : W32) :
    Statement (.hcRingConfigWrite ring offset value) := of_none rfl
theorem mctpHealthRead :
    Statement .mctpHealthRead := of_none rfl
theorem regionUndervoltage (region : Nat) :
    Statement (.regionUndervoltage region) := of_none rfl
theorem protectiveSlowEnter (panel : Nat) (cause : SlowCause) :
    Statement (.protectiveSlowEnter panel cause) := of_none rfl
theorem protectiveSlowExit (panel : Nat) :
    Statement (.protectiveSlowExit panel) := of_none rfl
theorem rimLoss :
    Statement .rimLoss := of_none rfl
theorem standbyLoss :
    Statement .standbyLoss := of_none rfl
theorem standbyArrive :
    Statement .standbyArrive := of_none rfl
theorem rimReturn :
    Statement .rimReturn := of_none rfl
theorem powerControllerSample (watts : List Nat) (rimWatts : Nat) (temps : TempSample) :
    Statement (.powerControllerSample watts rimWatts temps) := of_none rfl
theorem thermalTrip :
    Statement .thermalTrip := of_none rfl
theorem cisternThrottle (cn : Nat) :
    Statement (.cisternThrottle cn) := of_none rfl
theorem pllLockLoss (tile : Nat) (pll : Pll) :
    Statement (.pllLockLoss tile pll) := of_none rfl
theorem clockGate (tile : Nat) :
    Statement (.clockGate tile) := of_none rfl
theorem pllOff (tile : Nat) :
    Statement (.pllOff tile) := of_none rfl
theorem powerOff (tile : Nat) :
    Statement (.powerOff tile) := of_none rfl
theorem wake (tile : Nat) :
    Statement (.wake tile) := of_none rfl
theorem whBringCmdWrite (value : W32) :
    Statement (.whBringCmdWrite value) := of_none rfl
theorem alwaysOnSelfTest (ok : Bool) :
    Statement (.alwaysOnSelfTest ok) := of_none rfl
theorem firmwareStart (startsA startsB : Bool) :
    Statement (.firmwareStart startsA startsB) := of_none rfl
theorem regionPowerUp (regions : List RegionStart) (hottest : Nat) :
    Statement (.regionPowerUp regions hottest) := of_none rfl
theorem linkTraining (linksDown : List CarrierLink) (portLanes : List PortLanes) :
    Statement (.linkTraining linksDown portLanes) := of_none rfl
theorem lpddrTraining (failed unrepaired : List Nat) :
    Statement (.lpddrTraining failed unrepaired) := of_none rfl
theorem defectMap :
    Statement .defectMap := of_none rfl
theorem knownAnswerRun (fails : List KatUnit) :
    Statement (.knownAnswerRun fails) := of_none rfl
theorem journalReplay (unreadable : List Nat) :
    Statement (.journalReplay unreadable) := of_none rfl
theorem warmResetRequest :
    Statement .warmResetRequest := of_none rfl
theorem coldResetRequest (warmAlso : Bool) :
    Statement (.coldResetRequest warmAlso) := of_none rfl
theorem firmwareResetRequest :
    Statement .firmwareResetRequest := of_none rfl
theorem dump :
    Statement .dump := of_none rfl
theorem warmReset :
    Statement .warmReset := of_none rfl
theorem coldReset :
    Statement .coldReset := of_none rfl
theorem heartbeat :
    Statement .heartbeat := of_none rfl
theorem watchdogCheck :
    Statement .watchdogCheck := of_none rfl
theorem dumpCopy (value : W32) :
    Statement (.dumpCopy value) := of_none rfl
theorem dumpCopyComplete :
    Statement .dumpCopyComplete := of_none rfl
theorem dumpRelease (value : W32) :
    Statement (.dumpRelease value) := of_none rfl
theorem fwApply (value : W32) :
    Statement (.fwApply value) := of_none rfl
theorem fwApplyComplete :
    Statement .fwApplyComplete := of_none rfl
theorem fwCommit (value : W32) :
    Statement (.fwCommit value) := of_none rfl
theorem fwMboxPush (value : W32) :
    Statement (.fwMboxPush value) := of_none rfl
theorem mctpFirmwareChunk (data : List W8) (last : Bool) :
    Statement (.mctpFirmwareChunk data last) := of_none rfl
theorem mailboxIdleTimeout :
    Statement .mailboxIdleTimeout := of_none rfl
theorem fwAttGo (value : W32) :
    Statement (.fwAttGo value) := of_none rfl
theorem mctpAttestation (nonce : List W8) :
    Statement (.mctpAttestation nonce) := of_none rfl
theorem registerWrite (offset size : Nat) (value : W64) :
    Statement (.registerWrite offset size value) := of_none rfl
theorem standbyReturn :
    Statement .standbyReturn := of_none rfl
theorem registerPairRead (access : HostAccess) :
    Statement (.registerPairRead access) := of_none rfl
theorem tapInstruction (i : TapInstr) (data : List Bool) :
    Statement (.tapInstruction i data) := of_none rfl
theorem mctpControlMessage (data : List W8) :
    Statement (.mctpControlMessage data) := of_none rfl
theorem pllRelock (tile : Nat) (pll : Pll) :
    Statement (.pllRelock tile pll) := of_none rfl
theorem cisternThrottleRelease (cn : Nat) :
    Statement (.cisternThrottleRelease cn) := of_none rfl
theorem protectiveCauseClear (panel : Nat) (cause : SlowCause) :
    Statement (.protectiveCauseClear panel cause) := of_none rfl

end Sys2Proof.Laws.Shape
end

