-- ==== Sys2Proof/Laws/Slots.lean ====
section
/-! SUPPORT. Laws of cores, slots and register images, and what issuing an instruction can do. -/

namespace Sys2Proof.Machine

/-! ## Cores and slots -/

@[simp] theorem coreOf_putCore (s : State) (l : Nat) (c : CoreSt) : coreOf (putCore s l c) l = c := by
  simp [coreOf, putCore]

theorem coreOf_putCore_ne {l k : Nat} (h : k ≠ l) (s : State) (c : CoreSt) : coreOf (putCore s l c) k = coreOf s k := by
  simp [coreOf, putCore, fget_fset_ne h]

@[simp] theorem putCore_putCore (s : State) (l : Nat) (c d : CoreSt) : putCore (putCore s l d) l c = putCore s l c := by
  simp [putCore]

@[simp] theorem core_slot_putSlot (c : CoreSt) (i : Nat) (x : SlotSt) (h : i < 3) : (c.putSlot i x).slot i = x := by
  simp [CoreSt.slot, CoreSt.putSlot, h]

theorem core_slot_putSlot_ne (c : CoreSt) {i j : Nat} (x : SlotSt) (h : j ≠ i) :
    (c.putSlot i x).slot j = c.slot j := by
  simp only [CoreSt.slot, CoreSt.putSlot]
  congr 1
  simp [Ne.symm h]

@[simp] theorem core_putSlot_putSlot (c : CoreSt) (i : Nat) (x y : SlotSt) :
    (c.putSlot i y).putSlot i x = c.putSlot i x := by
  simp only [CoreSt.putSlot]
  congr 1
  ext j hj
  simp [Vector.getElem_setIfInBounds]

@[simp] theorem slotOf_putSlot (s : State) (u : StreamId) (x : SlotSt) (h : u.slot < 3) : slotOf (putSlot s u x) u = x := by
  simp [slotOf, putSlot, h]

@[simp] theorem putSlot_putSlot (s : State) (u : StreamId) (x y : SlotSt) : putSlot (putSlot s u y) u x = putSlot s u x := by
  simp [putSlot]

/-- Another slot of any core is untouched. -/
theorem slotOf_putSlot_ne (s : State) {u w : StreamId} (x : SlotSt) (h : w ≠ u) : slotOf (putSlot s u x) w = slotOf s w := by
  simp only [slotOf, putSlot]
  by_cases hl : w.lcid = u.lcid
  · have hs : w.slot ≠ u.slot := by
      intro hs
      exact h (by cases w; cases u; simp_all)
    rw [hl, coreOf_putCore, core_slot_putSlot_ne _ _ hs]
  · rw [coreOf_putCore_ne hl]

/-! ## Register images -/

@[simp] theorem sget_zero (a : Arch) : a.sget 0#5 = 0#64 := if_pos rfl

@[simp] theorem sput_zero (a : Arch) (v : W64) : a.sput 0#5 v = a := if_pos rfl

theorem sput_eq (a : Arch) {r : BitVec 5} (h : r ≠ 0) (v : W64) :
    a.sput r v = { a with s := a.s.set r.toNat v r.isLt } := if_neg h

theorem sget_eq (a : Arch) {r : BitVec 5} (h : r ≠ 0) : a.sget r = a.s[r.toNat]'(r.isLt) := if_neg h

theorem sget_sput_same (a : Arch) {r : BitVec 5} (h : r ≠ 0) (v : W64) : (a.sput r v).sget r = v := by
  rw [sput_eq a h, sget_eq _ h]
  exact Vector.getElem_set_self _

theorem sget_sput_ne (a : Arch) {r q : BitVec 5} (h : q ≠ r) (v : W64) : (a.sput r v).sget q = a.sget q := by
  have hn : r.toNat ≠ q.toNat := fun e => h (BitVec.eq_of_toNat_eq e.symm)
  by_cases hr : r = 0
  · subst hr; exact congrArg (Arch.sget · q) (sput_zero a v)
  · by_cases hq : q = 0
    · subst hq; exact (sget_zero _).trans (sget_zero a).symm
    · rw [sput_eq a hr, sget_eq _ hq, sget_eq _ hq]
      exact Vector.getElem_set_ne r.isLt q.isLt hn

@[simp] theorem sput_pc (a : Arch) (r : BitVec 5) (v : W64) : (a.sput r v).pc = a.pc := by
  unfold Arch.sput; split <;> rfl

@[simp] theorem sput_loops (a : Arch) (r : BitVec 5) (v : W64) : (a.sput r v).loops = a.loops := by
  unfold Arch.sput; split <;> rfl

@[simp] theorem pget_zero (a : Arch) : a.pget 0#3 = BitVec.allOnes 32 := if_pos rfl

@[simp] theorem pput_zero (a : Arch) (v : W32) : a.pput 0#3 v = a := if_pos rfl

theorem vget_vput_same (a : Arch) (r : BitVec 5) (x : Vector W32 32) : (a.vput r x).vget r = x := by
  simp [Arch.vget, Arch.vput]

theorem vget_vput_ne (a : Arch) {r q : BitVec 5} (h : q ≠ r) (x : Vector W32 32) : (a.vput r x).vget q = a.vget q := by
  have hn : r.toNat ≠ q.toNat := fun e => h (BitVec.eq_of_toNat_eq e.symm)
  simp [Arch.vget, Arch.vput, hn]

/-! ## Issuing an instruction -/

theorem slot_lt_of_canIssue {s : State} {u : StreamId} (h : canIssue s u = true) : u.slot < 3 := by
  simp only [canIssue, slotLive, validStream, Bool.and_eq_true, decide_eq_true_eq] at h
  omega

theorem canIssue_of_issues {u : StreamId} {mu : MaskUse} {f : Fields} {refs : List RegRef} {s : State}
    (h : issues u mu f refs s = true) : canIssue s u = true := by
  simp only [issues, Bool.and_eq_true] at h
  exact h.1.1.1.1.1

theorem slot_lt_of_issues {u : StreamId} {mu : MaskUse} {f : Fields} {refs : List RegRef} {s : State}
    (h : issues u mu f refs s = true) : u.slot < 3 := slot_lt_of_canIssue (canIssue_of_issues h)

/-- Where a slot issues, the outcome is that of the instruction's own action. -/
theorem issue_eq {u : StreamId} {mu : MaskUse} {f : Fields} {refs : List RegRef} {s : State}
    (h : issues u mu f refs s = true) (body : State → Res) : issue u mu f refs body s = settleRes s u (body s) := by
  simp only [issues, Bool.and_eq_true, Bool.not_eq_true'] at h
  obtain ⟨⟨⟨⟨⟨h1, h2⟩, h3⟩, h4⟩, h5⟩, h6⟩ := h
  unfold issue
  simp only [h1, h2, h3, h4, h5, h6]
  rfl

/-- R147: where no load writes the destination, writing over it is issuing. -/
theorem issueOver_eq {u : StreamId} {mu : MaskUse} {f : Fields} {refs : List RegRef} {s : State}
    (h : issues u mu f refs s = true) (hw : RegRef.w f.dst ∈ refs) (m : Vector W32 32) (body : State → Res) :
    issueOver u mu f refs m body s = settleRes s u (body s) := by
  have hp : loadPending (slotOf s u) (.w f.dst) = false := by
    simp only [issues, Bool.and_eq_true, Bool.not_eq_true', List.any_eq_false] at h
    simpa using h.2 _ hw
  simp [issueOver, hp, issue_eq h]

/-- A slot that may not issue changes nothing. -/
theorem issue_of_not_canIssue {u : StreamId} {s : State} (h : canIssue s u = false) (mu : MaskUse) (f : Fields)
    (refs : List RegRef) (body : State → Res) : issue u mu f refs body s = s := by
  simp [issue, h]

/-- Everything that issuing an instruction can do. -/
theorem issue_cases (u : StreamId) (mu : MaskUse) (f : Fields) (refs : List RegRef) (body : State → Res) (s : State) :
    issue u mu f refs body s = s ∨ issue u mu f refs body s = raiseFault s u 0x2003 ∨
    issue u mu f refs body s = raiseFault s u 0x2001 ∨
    issue u mu f refs body s = raiseFault s u 0x2002 ∨ issue u mu f refs body s = finish s u ∨
    issue u mu f refs body s = park s u .operand ∨ issue u mu f refs body s = settleRes s u (body s) := by
  unfold issue
  simp only
  repeat' split
  all_goals simp

@[simp] theorem finish_setArch {s : State} {u : StreamId} (h : u.slot < 3) (a : Arch) :
    finish (setArch s u a) u = ran s u a := by
  simp [finish, setArch, ran, h]

@[simp] theorem finishJump_setArch {s : State} {u : StreamId} (h : u.slot < 3) (a : Arch) :
    finishJump (setArch s u a) u = jumped s u a := by
  simp [finishJump, setArch, jumped, h]

theorem finish_eq_ran (s : State) (u : StreamId) : finish s u = ran s u (archOf s u) := rfl

/-- An instruction on the register image alone: what it names it reads, or it is the vector register that it writes. -/
theorem issueArch_body {u : StreamId} {mu : MaskUse} {f : Fields} {refs : List RegRef} {s : State} (h : issues u mu f refs s = true)
    (hr : refs.all RegRef.read = true ∨ RegRef.w f.dst ∈ refs) (ok : Bool) (g : Arch → Arch) :
    issueArch u mu f refs ok g s = if ok then ran s u (g (archOf s u)) else faulted s u 0x2002 := by
  have hs : issueArch u mu f refs ok g s =
      settleRes s u (if ok then .ok (setArch s u (g (slotOf s u).arch)) else .fault 0x2002) := by
    by_cases hq : refs.all RegRef.read = true
    · exact (if_pos hq).trans (issue_eq h _)
    · exact (if_neg hq).trans (issueOver_eq h (hr.resolve_left hq) _ _)
  rw [hs]
  cases ok <;> simp [settleRes, slot_lt_of_issues h, archOf, faulted]

/-- An instruction on the register image alone completes. -/
theorem issueArch_eq {u : StreamId} {mu : MaskUse} {f : Fields} {refs : List RegRef} {s : State} (h : issues u mu f refs s = true)
    (hr : refs.all RegRef.read = true ∨ RegRef.w f.dst ∈ refs) {ok : Bool} (hk : ok = true) (g : Arch → Arch) :
    issueArch u mu f refs ok g s = ran s u (g (archOf s u)) := by
  simp [issueArch_body h hr, hk]

/-- A reserved field stops the slot with 0x2002. -/
theorem issueArch_fault {u : StreamId} {mu : MaskUse} {f : Fields} {refs : List RegRef} {s : State}
    (h : issues u mu f refs s = true) (hr : refs.all RegRef.read = true ∨ RegRef.w f.dst ∈ refs) {ok : Bool} (hk : ok = false)
    (g : Arch → Arch) : issueArch u mu f refs ok g s = faulted s u 0x2002 := by
  simp [issueArch_body h hr, hk]

end Sys2Proof.Machine
end

