-- ==== Sys2Proof/Tests/Slice0.lean ====
section
/-! SUPPORT. Small tests: for every statement with hypotheses, states and operands that meet them; the well-formedness checks
refuse an ill-formed term each; a few single commands on small states. -/

namespace Sys2Proof.Tests

open Sys2Proof Sys2Proof.Machine
set_option maxRecDepth 60000
set_option Elab.async false

/-! ## Small states -/

/-- A register image whose four pairs cover the first 4 KiB of well 0 with every right. -/
def tArch : Arch := { b := Vector.replicate 4 { base := 0x100000000000, len := 4096, r := true, w := true, x := true } }

/-- A slot that runs. -/
def tSlot (a : Arch) : SlotSt := { bound := true, phase := .running, arch := a, amask := 0xFFFF }

/-- A core bound to context 0, generation 1, whose slot F is given. -/
def tCore (x : SlotSt) : CoreSt := { st := ⟨0, 1⟩, slots := (Vector.replicate 3 {}).set 0 x }

/-- After reset, with tile 0 powered and core 0 given. -/
def tRun (c : CoreSt) : State := { State.reset with cores := [(0, c)], tiles := [(0, { tier := .active })] }

/-- The same with slot F of core 0 running on a register image. -/
def tS (a : Arch) : State := tRun (tCore (tSlot a))

/-- Slot F of core 0. -/
def tU : StreamId := ⟨0, 0⟩

/-- Two scalar registers. -/
def tA (x y : W64) : Arch := (tArch.sput 2 x).sput 3 y

/-- Operand fields: s1 or v1 from register 2, and 3. -/
def tF : Fields := { dst := 1, src1 := 2, src2 := 3 }

/-- A register of BAR0 set. -/
def tReg (s : State) (o v : Nat) : State := rput s o v

/-- Context 0, generation 1, bound to quarter 0 with one range of LPDDR. -/
def tBind : Binding := { quarters := [0], lpr := [⟨0, 16, 4⟩], cso := true }

/-- The context bound. -/
def tCtx (x : CtxSt) (s : State) : State := { tReg s (rFnCtx 0) (2 + 65536) with ctxs := [(0, { x with bind := some tBind, held := 1 })] }

/-- The word at the pc holds an opcode that no core stream may hold. -/
def tBadWord : State := { tS tArch with mem := [(0x100000000007, 0xFF)] }


/-- Pairs that cover the first 4 KiB of LPDDR. -/
def tFar : Arch := { tArch with b := (Vector.replicate 4 { base := 0, len := 4096, r := true, w := true, x := true }) }

/-- A stitch whose gate buffer is full. -/
def tFull : Stitch := { gates := [.store [(0, List.replicate 16384 0)]] }


/-- Ring 5 of core 0, two slots, filled and drained by slot F. -/
def tRing (x : RSlot) : RingSt := { base := 256, size := 64, count := 2, slots := [(0, x)] }

/-- Core 0 with a ring. -/
def tRings (r : RingSt) : State := tRun { tCore (tSlot tArch) with rings := [(5, r)] }

/-- Two vector registers whose lanes count up from given values. -/
def tV (x y : Nat) : Arch :=
  (tArch.vput 2 (Vector.ofFn fun i => BitVec.ofNat 32 (x + i))).vput 3 (Vector.ofFn fun i => BitVec.ofNat 32 (y + i))

/-- Cascade of two modules, this one the master unless told otherwise. -/
def tCasc (master : Nat) : Casc := { active := true, w := 2, master := master, deputy := 1, cgen := 7, term := 3, part := [0] }


/-- The smallest `mma`: one row, 16 columns, a contraction of 32, FP8 E4M3 operands at offsets 0 and 4096. -/
def tMma : Fields := { src1 := 0, src2 := 2 }

/-- Every word of tile 0 of core 0. -/
def tTile (s : State) (k : Nat) : AccTile := fget {} k (coreOf s 0).tiles

/-- A slot with a CLOSED stitch that waits for a verdict. -/
def tClosed (v : List Verdict) : SlotSt := { tSlot tArch with closed := some ⟨{ verdicts := v }, { tArch with pc := 8 }, []⟩, opn := { seq := 1 } }

/-- A load that has its data. -/
def tLoad : Load := { id := 4, addr := 0, len := 4, dst := .sreg 1 4 true, seq := 0, data := some [(0, 1), (1, 2), (2, 3), (3, 4)] }


/-- Tags of stitch 0 of slot F of core 0. -/
def tTags : Tags := ⟨0, 0, 0, 0⟩

/-- Core 0 with a ring slot that holds provisional data with those tags. -/
def tProv (x : RSlot) : State :=
  tRun { tCore (tSlot tArch) with written := [(tTags, 0, 0)], rings := [(5, tRing { x with ingress := true, st := .provFull, tags := some tTags, ords := [0] })] }

/-- A forward-list entry of tile 0. -/
def tFwd : FwdEntry := { lcid := 0, tags := tTags, ord := 0, mAt := 2, clean := true, st := ⟨0, 1⟩ }

/-- A control frame from module 1 with a body. -/
def tFrame (spec : List W8) : Frame := { smod := 1, ty := 2, cgen := 7, term := 3, spec := spec }

/-- A descriptor of core 0 that runs. -/
def tJob : PumpJob := { id := 6, phase := .running, st := ⟨0, 1⟩ }

/-- Tile 0 with a descriptor and a forward list. -/
def tTile0 (j : List PumpJob) (f : List FwdEntry) (s : State) : State := { s with tiles := [(0, { tier := .active, jobs := j, fwd := f })] }


/-- The descriptor that sends to window 2 of module 1. -/
def tDropJob : PumpJob := { tJob with desc := { dkind := 3, dest := 2049 }, dseqs := [7] }
/-- A provisional block that the descriptor sent and that waits for its confirmation. -/
def tResW : Sent := { place := 0, d := { unit := 0, job := 6, dest := .range 0, st := ⟨0, 1⟩ }, piece := ⟨0x100000000000, 64, 0, 0⟩, prod := some ⟨0, 0, 0, 0⟩, prov := some 0 }
/-- The descriptor with that block. -/
def tResJob : PumpJob := { tDropJob with wait := [tResW] }
/-- Tile 0 with core 0 alone left and every spare fenced. -/
def tAlone : State :=
  { tS tArch with
    regs := [(276, 64), (16786688, 67071), (16786692, 67071), (16786696, 67071), (16786700, 67071), (16786704, 67071),
      (16786708, 67071), (16786712, 67071), (16786716, 67071)]
    tiles := [(0, { tier := .active, serv := (List.range 255).map fun i => (i + 1, 0x1FF) })] }
/-- Core 0 holds a well-backed guest, core 1, switched out. -/
def tGuest : State := { tS tArch with cores := [(0, tCore (tSlot tArch)), (1, { tCore (tSlot tArch) with guest := some (0, false), out := true })] }


/-- Context 0 bound to an LPDDR range whose marking is given. -/
def tMark (m : Nat) : State :=
  { tCtx {} (tS tArch) with ctxs := [(0, { bind := some { tBind with lpr := [⟨0, 16, m⟩] }, held := 1 })] }

/-- A gradient block of FP32 words for context 0, generation 1. -/
def tBlock : Block := Block.seal { fmt := 0x10, nblk := 0, vbytes := 4096, gen := 1, payload := List.replicate 4096 0 }

/-- Core 0 with a ring slot reserved for a transfer of one block. -/
def tFill : State :=
  tRun { tCore (tSlot tArch) with rings := [(5, { base := 0, size := 4160, count := 1, slots := [(0, { st := .filling, carr := some (9, 6, 0), need := 1, ingress := true })] })] }

/-- Pairs that cover 64 KiB of LPDDR. -/
def tWide : Vector BPair 4 := Vector.replicate 4 { base := 0, len := 65536, r := true, w := true, x := true }

/-- Core 0 has posted, in a stitch that has retired, a descriptor that moves one block of LPDDR. -/
def tPump : State :=
  { tTile0 [{ tJob with phase := .ready, pairs := tWide }] [] (tCtx {} (tS tArch)) with
    mem := [(0x100000000011, 0x20), (0x100000000018, 0x40), (0x100000000019, 0x10)] }

/-- A word of a ring entry. -/
def tWord (op d a b imm : Nat) : List W8 := leBytes 8 (op * 2 ^ 56 + d * 2 ^ 51 + a * 2 ^ 46 + b * 2 ^ 41 + imm)

/-- READY, ring 0 running with one entry of given words at its head. -/
def tHost (seq : Nat) (ws : List W8) : State :=
  let s := rput64 (rput64 (tReg (tReg State.reset 0x108 10) (rHC 0 0x24) 1) (rHC 0 0) 0x400000000000) (rHC 0 0x10) 0x400000010000
  { s with hrings := [(0, { tail := 1 })], mem := cellSets memDefault (atAddr 0x400000000000 (leBytes 16 seq ++ ws)) [] }

/-- An accepted entry of ring 0. -/
def tEntry (op : Nat) : Entry := { ring := 0, seq := 0, op := op, imm := 1, copy1 := leBytes 4 0x30000, mod := 0 }

/-- The block with one accepted entry. -/
def tAcc (e : Entry) (s : State) : State := { s with accepted := [e] }

/-- Context 0 bound, with a pattern whose step section is given. -/
def tPat (step : List W8) : State := tCtx { pat := some { step := step } } State.reset

/-- A training pattern of one layer without parts, updates at the cisterns. -/
def tTrain : Pattern := { uplace := 1, step := [0, 0, 1, 0] }

/-- Context 0 runs a step of it; `c` is the context's other state. -/
def tStep (c : CtxSt) (r : StepRun) : State :=
  tAcc (tEntry 0xE2) (tCtx { c with pat := some tTrain, run := some r } State.reset)

/-- Serving requests: one in front of another. -/
def tReq (k : Nat) : BatchReq := ⟨0, k, k, 2⟩

/-- Context 0 with a serving pattern whose batches hold at most 3 rows. -/
def tServe (c : CtxSt) : State :=
  tCtx { c with pat := some { step := [1, 0, 0, 0, 0, 0, 0, 0, 0, 0, 0, 0, 0, 0, 0, 0, 3, 0, 0, 0] } } State.reset

/-- A function in a given state, READY. -/
def tFn (f v : Nat) : State := tReg (tReg State.reset 0x108 10) (rFnStat f) v

/-- A mirror range of context 0 that covers 64 KiB, on an active cascade of two modules. -/
def tSink : State := { tMark 4 with casc := tCasc 0 }

/-- A part of an image. -/
def tPart : MirrorPart := { offset := 0, bytes := List.replicate 64 1, last := true, crcOk := true }

/-- An image with one part of its weights and moments. -/
def tImage : MirrorImage := { areas := [default] }

/-- Context 0 whose mirror stream to area 0 of module 1 is ON, with an image on its way. -/
def tMirror : State :=
  tReg (tReg (tCtx { image := some tImage } State.reset) (rFnStat 128) 2) (rFN (0x10000 + 0x100 * 128 + 4)) 1

/-- A reading of the converters: region 0 took 2^32 units, the standby input 7. -/
def tEnergy : EnergyReading := { regions := [2 ^ 32], rim := 0, standby := 7, activity := [1], moved := [] }

/-- Port 0 up, this module 0 of an active cascade. -/
def tPort : State := { tReg State.reset (rAK 0 0) 2 with casc := tCasc 0 }

/-- A frame with its check value. -/
def tSealed (f : Frame) : Frame := { f with fcrc := frameCheck f }

/-- Two frames wait for their acknowledgement. -/
def tReplay : State := putPort tPort 0 { replay := [{ lseq := 4 }, { lseq := 5 }] }

/-- A cascade step of context 0 runs here; `master` is its master. -/
def tCasStep (master : Nat) (r : StepRun) : State :=
  { tStep {} r with casc := { tCasc master with epoch := 4, k := 1 } }

/-- A frame of that step from module 1. -/
def tMsg (spec : List W8) : Frame := { tFrame spec with epoch := 4, k := 1, n := 1 }

/-- A control frame that comes next at port 0. -/
def tNew : Frame := tSealed { ty := 2, lseq := 1, dseq := 5, code := 0x10 }

/-- A frame waits behind a full replay buffer. -/
def tQueued : State := putPort tPort 0 { replay := [{ lseq := 4 }], queue := [{ ty := 2 }] }

/-- A beat of module 1. -/
def tBeat : Frame := { tFrame [] with ty := 1 }

/-- Module 1 takes over. -/
def tTake : Frame := { tFrame [] with code := 0x1C }

/-- A cascade step is accepted, and window 3 is a range of context 0. -/
def tOpen : State :=
  { tReg (tAcc (tEntry 0xE2) (tCtx { pat := some { casc := [3, 1, 0, 0, 0, 0, 0, 0] } } State.reset)) (rAK 0 0) 2 with casc := tCasc 1 }

/-- A block of module 1 through window 3, next at port 0. -/
def tData : Frame := tSealed { smod := 1, ty := 3, cgen := 7, term := 3, lseq := 1, hops := 3, win := 3, wblk := 1, block := some tBlock }

/-- The hem unit of port 0 is full. -/
def tFullHem : State := putPort tOpen 0 { hem := List.replicate 256 (false, 1, 0, {}) }

/-- READY, ring 0 running with its areas in host memory. -/
def tRing0 : State := rput64 (tHost 0 []) (rHC 0 8) 0x400000020000

/-- Bring-up step `t` is due. -/
def tDue (t : Nat) : State :=
  { tReg State.reset 0x108 (t - 1 + 16) with boot := { target := 10 } }

/-- Bring-up steps 1 to 7 are behind the block. -/
def tSeven : State := tReg State.reset 0x108 7

/-- A tile that may sleep. -/
def tSleep (x : TileSt) : State := { tReg State.reset (rPW 0x300) 0x010101 with tiles := [(0, x)] }

/-- Context 0 with a reset on its way. -/
def tReset (k : ResetKind) : State :=
  { tCtx {} (tS tArch) with boot := { resetPending := some k, dumped := true }, mem := [(64, 1), (wellBase 5, 2), (0x400000000000, 3)],
                            freeCtr := 4, accepted := [tEntry 0xE6] }

/-- A dump copy of 64 bytes under way. -/
def tDump : State :=
  { tReg tSeven (rDG 0x28) 1 with boot := { copy := (64, 0x400000000000, 64) }, dumpMem := [(64, 9)] }

/-- READY, with an image that came from the host and one package block in LPDDR. -/
def tFw : State := { tReg State.reset 0x108 10 with boot := { fwHost := some [] } }

/-- Recovery mode. -/
def tRec : State := { tReg State.reset 0x108 3 with boot := { recovery := true } }

/-- A block with a value in every field. -/
def tFields : Block :=
  { crc := 0xDEADBEEF, poison := true, prov := true, widened := true, res := 0x0123456789ABCDEF, fmt := 0xFF, nblk := 0xFE, vbytes := 0xFEDC, gen := 0xABCD, ctx := 0xEF,
    pslot := 3, plcid := 0xFEDCBA98, preplay := 7, pseq := 2 ^ 64 - 2, bidx := 2 ^ 63 + 1, wgen := 0xFFFE, pord := 0xFFFFFFFE,
    payload := List.replicate 4096 0x5A }

/-- The host has cached mirror lines 0 and 80. -/
def tLines : State := { State.reset with presence := [0, 80], pending := [.heartbeat] }

/-- The state after a step. -/
def stepped (s : State) : State := match step s with | .next t => t | _ => s

/-- A block whose check value is wrong. -/
def tBad : Block := { tBlock with crc := tBlock.crc + 1 }

/-- A sealed block has a good check value. -/
theorem seal_good (b : Block) : Block.good (Block.seal b) = true := by
  simp only [Block.good]; exact beq_self_eq_true _

/-- A check value off by one is bad. -/
theorem off_bad (b : Block) : Block.good { Block.seal b with crc := (Block.seal b).crc + 1 } = false := by
  have h : ∀ x : BitVec 32, (x + 1 == x) = false := fun x => by simp
  exact h (Block.check b)

/-- The sample block is good. -/
theorem tBlock_good : Block.good tBlock = true := seal_good _

/-- The spoilt block is bad. -/
theorem tBad_bad : Block.good tBad = false := off_bad _


/-! ## Hypotheses that can be met -/

theorem witness_StepTakesFrontCommand :
    (({ State.reset with pending := [.heartbeat, .dump] } : State).pending = .heartbeat :: [.dump]) ∧
    (State.reset.pending = []) := by decide +kernel

theorem witness_ScalarArithmeticResult :
    (issues tU .lane0 { tF with imm := 0xFFFFFFFF } [.s 2, .s 3, .s 1] (tS (tA 0 1)) = true) := by decide +kernel

theorem witness_ScalarDivisionAndUnary :
    (issues tU .lane0 tF [.s 2, .s 3, .s 1] (tS (tA 5 0)) = true ∧ (tA 5 0).sget 3 + tF.imm.signExtend 64 = 0) ∧
    (issues tU .lane0 tF [.s 2, .s 3, .s 1] (tS (tA (BitVec.ofInt 64 (-2 ^ 63)) (BitVec.allOnes 64))) = true ∧ (tA 5 (BitVec.allOnes 64)).sget 3 + tF.imm.signExtend 64 ≠ 0) ∧
    (issues tU .lanes {} [] (tS tArch) = true) ∧
    (issues tU .lane0 { tF with src2 := 0 } [.s 2, .s 1] (tS (tA (BitVec.allOnes 64) 0)) = true) := by decide +kernel

theorem witness_ScalarReservedAndMasked :
    (issues tU .lane0 { tF with mod := 63 } [.s 2, .s 3, .s 1] (tS tArch) = true) ∧
    (canIssue (tS tArch) tU = true ∧ inCode tArch tArch.pc = true ∧ streamOpcode (wordOp (codeWord (tS tArch) tArch tArch.pc)) = true ∧ (tArch.pget 7).getLsbD 0 = false) ∧
    (canIssue tBadWord tU = true ∧ inCode (archOf tBadWord tU) (archOf tBadWord tU).pc = true ∧ streamOpcode (wordOp (codeWord tBadWord (archOf tBadWord tU) (archOf tBadWord tU).pc)) = false) := by decide +kernel

theorem witness_HardWiredRegisters :
    ((1 : BitVec 5) ≠ 0 ∧ (31 : BitVec 5) ≠ 1 ∧ (7 : BitVec 3) ≠ 0) := by decide +kernel

theorem witness_RegisterInstructionFrame :
    (tU.slot < 3 ∧ (⟨0, 2⟩ : StreamId) ≠ tU ∧ tArch.loops = []) := by decide +kernel

theorem witness_StreamWords :
    ((255 : Nat) < 256 ∧ canIssue tBadWord tU = true ∧ streamOpcode (wordOp (codeWord tBadWord (archOf tBadWord tU) (archOf tBadWord tU).pc)) = false) := by decide +kernel

theorem witness_BranchAndJump :
    (issues tU .lane0 { dst := 0, src1 := 2, src2 := 3, mod := 0, imm := 510 } [.s 2, .s 3] (tS (tA 4 4)) = true ∧ (tA 4 4).sget 2 = (tA 4 4).sget 3 ∧ inCode (tA 4 4) (510 * 8) = true) ∧
    (issues tU .lane0 { dst := 0, src1 := 2, src2 := 3, mod := 5, imm := 512 } [.s 2, .s 3] (tS (tA 4 4)) = true ∧ (4 : W64).toNat ≤ (4 : W64).toNat ∧ inCode (tA 4 4) (512 * 8) = false) ∧
    (issues tU .lane0 { dst := 0, src1 := 2, src2 := 3, mod := 2, imm := 510 } [.s 2, .s 3] (tS (tA 4 4)) = true ∧ ¬ ((4 : W64).toInt < (4 : W64).toInt)) ∧
    (issues tU .lane0 { dst := 0, src1 := 2, src2 := 3, mod := 6 } [.s 2, .s 3] (tS (tA 4 4)) = true ∧ 6 ≤ (6 : BitVec 6).toNat) ∧
    (issues tU .lane0 { dst := 1, imm := 511 } [.s 1] (tS tArch) = true ∧ inCode tArch (511 * 8) = true ∧ inCode tArch (512 * 8) = false) ∧
    (issues tU .lane0 { dst := 1, src1 := 2 } [.s 2, .s 1] (tS (tA 4088 0)) = true ∧ inCode (tA 4088 0) 4088 = true ∧ inCode (tA 4084 0) 4084 = true ∧ (4084 : W64).toNat % 8 ≠ 0 ∧ inCode tArch 4089 = false) := by decide +kernel

theorem witness_Loops :
    (issues tU .needP0 { src1 := 2, imm := 511 } [.s 2] (tS (tA 3 0)) = true ∧ (511 : W32).toNat ≤ 4096 ∧ tArch.loops.length < 2 ∧ tArch.pc.toNat + 8 * (511 + 1) ≤ (tArch.bget 0).len.toNat ∧ (tA 3 0).sget 2 ≠ 0) ∧
    (issues tU .needP0 { src1 := 2, imm := 1 } [.s 2] (tS (tA 0 0)) = true ∧ (tA 0 0).sget 2 = 0) ∧
    (issues tU .needP0 { src1 := 2, imm := 1, mod := 1 } [.s 2] (tS (tA 33 0)) = true) ∧
    (({ tArch with loops := [⟨0, 8, 2, none⟩] } : Arch).pc + 8 = 8 ∧ 1 < (2 : W64).toNat ∧ ¬ 1 < (1 : W64).toNat ∧ tArch.pc + 8 ≠ 16) := by decide +kernel

theorem witness_StitchAndDoneClose :
    (issues tU .needP0 {} [] (tS tArch) = true ∧ (slotOf (tS tArch) tU).closed = none ∧ (slotOf (tS tArch) tU).loads = []) ∧
    (issues tU .needP0 {} [] (tRun (tCore { tSlot tArch with closed := some ⟨{}, {}, []⟩ })) = true) := by decide +kernel

theorem witness_Loads :
    (issues tU .lane0 { dst := 1, src1 := 2, mod := 12 } [.s 2, .s 1] (tS (tA 4088 0)) = true ∧ (12 : BitVec 6).getLsbD 5 = false ∧ accessOk (tS (tA 4088 0)) 0 (tArch.bget 0) 4088 8 false = true ∧ pairAddr (tArch.bget 0) 4088 % 8 = 0 ∧ (∀ i ∈ List.range 8, ownWell 0 (pairAddr (tArch.bget 0) 4088 + i) = true) ∧ ∀ i ∈ List.range 8, badAt (tS (tA 4088 0)) (pairAddr (tArch.bget 0) 4088 + i) = false) ∧
    (issues tU .lanes { dst := 1, src1 := 2, mod := 8 } [.s 2, .v 1] (tS (tA 3968 0)) = true ∧ ∀ i ∈ List.range 32, laneOn tArch 0 i = true ∧ accessOk (tS (tA 3968 0)) 0 (tArch.bget 0) (3968 + 4 * i) 4 false = true ∧ pairAddr (tArch.bget 0) (3968 + 4 * i) % 4 = 0 ∧ ∀ k ∈ List.range 4, ownWell 0 (pairAddr (tArch.bget 0) (3968 + 4 * i) + k) = true ∧ badAt (tS (tA 3968 0)) (pairAddr (tArch.bget 0) (3968 + 4 * i) + k) = false) ∧
    (issues tU .lane0 { dst := 1, src1 := 2, mod := 12 } [.s 2, .s 1] (tS tFar) = true ∧ accessOk (tS tFar) 0 (tFar.bget 0) 0 8 false = true ∧ pairAddr (tFar.bget 0) 0 % 8 = 0 ∧ regionOf (tS tFar) 0 = .lpddr 0 ∧ (coreOf (tS tFar) 0).wcache = 0 ∧ gatedBytes (slotOf (tS tFar) tU) = []) ∧
    (issues tU .needP0 { mod := 1 } [] (tS tArch) = true ∧ (1 : BitVec 6).toNat ≤ 2) ∧
    (issues tU .needP0 {} [] (tRun (tCore { tSlot tArch with loads := [{ id := 0, addr := 0, len := 8, dst := .sreg 1 8 true, seq := 0 }] })) = true) ∧
    (issues tU .lane0 { dst := 1, src1 := 2, mod := 12 } [.s 2, .s 1] (tRun (tCore { tSlot tFar with loads := List.replicate 16 { id := 0, addr := 0, len := 8, dst := .sreg 5 8 true, seq := 0 } })) = true) := by decide +kernel

theorem witness_OwnWellStores :
    (issues tU .lane0 { src1 := 2, src2 := 3, mod := 12 } [.s 2, .s 3] (tS (tA 4088 0x0102030405060708)) = true ∧ accessOk (tS (tA 4088 0)) 0 (tArch.bget 0) 4088 8 true = true ∧ pairAddr (tArch.bget 0) 4088 % 8 = 0 ∧ (∀ i ∈ List.range 8, ownWell 0 (pairAddr (tArch.bget 0) 4088 + i) = true) ∧ (slotOf (tS tArch) tU).opn.undo.length < 128 ∧ (tS tArch).wellPoison = []) ∧
    (issues tU .lanes { src1 := 2, src2 := 3, mod := 8 } [.s 2, .v 3] (tS (tA 3968 0)) = true ∧ (∀ i ∈ List.range 32, laneOn tArch 0 i = true ∧ accessOk (tS (tA 3968 0)) 0 (tArch.bget 0) (3968 + 4 * i) 4 true = true ∧ pairAddr (tArch.bget 0) (3968 + 4 * i) % 4 = 0 ∧ ∀ k ∈ List.range 4, ownWell 0 (pairAddr (tArch.bget 0) (3968 + 4 * i) + k) = true) ∧ (coreOf (tS tArch) 0).gather = [] ∧ 0 + 3 ≤ 128) := by decide +kernel

theorem witness_GatedWritesAreHeld :
    (issues tU .lane0 { src1 := 2, src2 := 3, mod := 12 } [.s 2, .s 3] (tS (tFar.sput 3 5)) = true ∧ accessOk (tS tFar) 0 (tFar.bget 0) 0 8 true = true ∧ ownWell 0 0 = false ∧ regionOf (tS tFar) 0 = .lpddr 0 ∧ 16384 < (tFull : Stitch).gateBytes + 8 ∧ (slotOf (tS tFar) tU).opn.gateBytes + 8 + 0 ≤ 16384) ∧
    (issues tU .lane0 { src1 := 2, src2 := 3, mod := 8 } [.s 2, .s 3] (tS tFar) = true ∧ accessOk (tS tFar) 0 (tFar.bget 0) 0 8 true = true) ∧
    (issues tU .lane0 { src1 := 2, src2 := 3 } [.s 2, .s 3] (tCtx {} (tS (tA 255 9))) = true ∧ (ctxOf (tCtx {} (tS (tA 255 9))) 0).bind = some tBind ∧ 255 < tBind.quarters.length * 256 ∧ tBind.cso = true) := by decide +kernel

theorem witness_FaultsOfAccessAndProgram :
    (issues tU .lane0 { dst := 1, src1 := 2, mod := 12 } [.s 2, .s 1] (tS (tA 4089 0)) = true ∧ accessOk (tS tArch) 0 (tArch.bget 0) 4089 8 false = false ∧ accessOk (tS tArch) 0 (tArch.bget 0) 4084 8 false = true ∧ pairAddr (tArch.bget 0) 4084 % 8 ≠ 0 ∧ (32 : BitVec 6).getLsbD 5 = true) ∧
    (issues tU .lane0 { src1 := 2, src2 := 3, mod := 12 } [.s 2, .s 3] (tS (tA 4089 0)) = true ∧ accessOk (tS tArch) 0 (tArch.bget 0) 4089 8 true = false) ∧
    (tU.slot < 3 ∧ 0xFFFF < 2 ^ 16) := by decide +kernel

theorem witness_GatherAndScatter :
    (issues tU .lanes { tF with mod := 0 } [.s 2, .v 3, .v 1] (tS (tA 4092 0)) = true ∧ ∀ i ∈ List.range 32, laneOn (tA 4092 0) 0 i = true ∧ accessOk (tS (tA 4092 0)) 0 (tArch.bget 0) 4092 4 true = true ∧ ownWell 0 (pairAddr (tArch.bget 0) 4092) = true ∧ pairAddr (tArch.bget 0) 4092 % 4 = 0 ∧ ∀ k ∈ List.range 4, badAt (tS tArch) (pairAddr (tArch.bget 0) 4092 + k) = false) ∧
    ((slotOf (tS tArch) tU).opn.undo.length + 32 ≤ 128 ∧ (tS tArch).wellPoison = [] ∧ (coreOf (tS tArch) 0).gather = []) := by decide +kernel

theorem witness_Rings :
    (issues tU .lane0 { dst := 1, imm := 5 } [.s 1] (tRings (tRing {})) = true ∧ ringFor (tRings (tRing {})) tU { dst := 1, imm := 5 } true = some (tRing {}) ∧ (tRing {}).acqW = none ∧ ((tRing {}).slot 0).st = .empty) ∧
    (issues tU .lane0 { dst := 1, imm := 5 } [.s 1] (tRings { tRing {} with acqW := some 1 }) = true ∧ ({ tRing {} with acqW := some 1 } : RingSt).acqW = some 1) ∧
    (ringFor (tRings (tRing { st := .full })) tU { dst := 1, imm := 5 } true = some (tRing { st := .full }) ∧ ((tRing { st := .full }).slot 0).st ≠ .empty) ∧
    (issues tU .lane0 { dst := 1, imm := 5, mod := 1 } [.s 1] (tRings (tRing { st := .provFull })) = true ∧ ringFor (tRings (tRing { st := .provFull })) tU { dst := 1, imm := 5, mod := 1 } false = some (tRing { st := .provFull }) ∧ (tRing {}).acqR = none) ∧
    (issues tU .lane0 { dst := 1, imm := 64 } [.s 1] (tRings (tRing {})) = true ∧ ringFor (tRings (tRing {})) tU { dst := 1, imm := 64 } true = none ∧ ringFor (tRings (tRing {})) tU { dst := 1, imm := 6, mod := 1 } false = none) ∧
    (issues tU .lane0 { imm := 5 } [] (tRings { tRing { st := .filling } with acqW := some 0 }) = true ∧ ringFor (tRings { tRing { st := .filling } with acqW := some 0 }) tU { imm := 5 } true = some { tRing { st := .filling } with acqW := some 0 }) ∧
    (issues tU .lane0 { imm := 5, mod := 1 } [] (tRings { tRing { st := .draining } with acqR := some 0 }) = true ∧ ringFor (tRings { tRing { st := .draining } with acqR := some 0 }) tU { imm := 5, mod := 1 } false = some { tRing { st := .draining } with acqR := some 0 }) ∧
    ((tRing {}).acqW = none ∧ ringFor (tRings (tRing {})) tU { imm := 5 } true = some (tRing {})) := by decide +kernel

theorem witness_ObjectInstructions :
    (issues tU .lane0 { tF with imm := 0 } [.s 2, .s 3, .s 1] (tCtx {} (tS (tA 255 0))) = true ∧ (ctxOf (tCtx {} (tS tArch)) (coreOf (tCtx {} (tS tArch)) 0).st.ctx).bind = some tBind ∧ 255 < tBind.quarters.length * 256 ∧ tBind.so? 255 = some 255 ∧ 0 ≤ ((soOf (tS tArch) 255).v - 0).toInt) ∧
    (((soOf (tS tArch) 255).v - (1 : W64)).toInt < 0 ∧ tBind.quarters.length * 256 ≤ 256) ∧
    (issues tU .lane0 { tF with src2 := 0 } [.s 2, .s 1] (tCtx {} (tS (tA 255 0))) = true) ∧
    (issues tU .lane0 { tF with mod := 1 } [.s 2, .s 3, .s 1] { tCtx {} (tS (tA 4095 1)) with casc := tCasc 0 } = true ∧ tBind.cso = true ∧ 4095 < 4096 ∧ (tCasc 0).active = true ∧ (slotOf (tS (tA 4095 1)) tU).wait ≠ some (.so 4095 true 1 1) ∧ (tCasc 0).master = (tCasc 0).self) ∧
    (issues tU .lane0 { tF with mod := 1, src2 := 0 } [.s 2, .s 1] { tCtx {} (tS (tA 4095 1)) with casc := tCasc 1 } = true ∧ (tCasc 1).active = true ∧ (∀ r ∈ (tCasc 1).reqs, r.2.1 ≠ tU)) ∧
    (issues tU .lane0 { tF with mod := 1, src2 := 0 } [.s 2, .s 1] (tCtx {} (tS (tA 4095 1))) = true ∧ issues tU .lane0 { tF with mod := 1 } [.s 2, .s 3, .s 1] (tCtx {} (tS (tA 4095 1))) = true ∧ (tCtx {} (tS (tA 4095 1))).casc.active = false) ∧
    ((slotOf (tRun (tCore { tSlot (tA 4095 1) with wait := some (.soRead 4095 1) })) tU).wait = some (.soRead 4095 1) ∧ (∃ r ∈ ({ tCasc 1 with reqs := [(0, tU, 1)] } : Casc).reqs, r.2.1 = tU)) := by decide +kernel

theorem witness_Pumps :
    (issues tU .lane0 { src1 := 2 } [.s 2] (tS (tA 0x3FFFC0 0)) = true ∧ 0x3FFFC0 % 64 = 0 ∧ 0x3FFFC0 + 64 ≤ scratch (coreOf (tS tArch) 0) ∧ ((tileOf (tS tArch) 0).jobs.filter fun j => j.phase != .running).length < 256) ∧
    (scratch (coreOf (tS tArch) 0) < 0x400000 + 64 ∧ 0x400000 % 64 = 0 ∧ 0x3FFFC1 % 64 ≠ 0) ∧
    (256 ≤ ((List.replicate 256 ({ id := 0 } : PumpJob)).filter fun j => j.phase != .running).length) ∧
    (jobOf (tTile0 [{ tJob with phase := .unretired }] [] (tS tArch)) 0 6 = some { tJob with phase := .unretired }) ∧
    (jobOf (tTile0 [{ tJob with phase := .ready }] [] (tCtx {} (tS tArch))) 0 6 = some { tJob with phase := .ready } ∧ (⟨0, 1⟩ : Stamp) = heldStamp (tTile0 [{ tJob with phase := .ready }] [] (tCtx {} (tS tArch))) 0 ∧ (tileOf (tTile0 [] [] (tS tArch)) 0).tier = .active ∧ ((jobsOf (tTile0 [{ tJob with phase := .ready }] [] (tS tArch)) 0).filter fun x => x.phase == .running).length < 64 ∧ descCheck (tTile0 [{ tJob with desc := descOf (List.replicate 64 0) }] [] (tCtx {} (tS tArch))) { tJob with desc := descOf (List.replicate 64 0) } (descOf (List.replicate 64 0)) = some 0x2102) ∧
    (jobOf tPump 0 6 = some { tJob with phase := .ready, pairs := tWide } ∧ (⟨0, 1⟩ : Stamp) = heldStamp tPump 0 ∧ descCheck (putJob tPump 0 { tJob with pairs := tWide, desc := descOf (bytesAt tPump (wellBase 0) 64) }) { tJob with pairs := tWide, desc := descOf (bytesAt tPump (wellBase 0) 64) } (descOf (bytesAt tPump (wellBase 0) 64)) = none) ∧
    (jobOf (tTile0 [tJob] [] (tS tArch)) 0 6 = some tJob ∧ jobComplete tJob = true ∧ 0x2103 ∈ pumpStatuses ∧ 0x9000 ∉ pumpStatuses ∧ jobComplete { tJob with wait := [tResW] } = false) ∧
    (jobOf (tTile0 [{ tJob with wait := [{ tResW with prov := none, d := { tResW.d with dest := .ring 1 2 } }] }] [] (tS tArch)) 0 6 ≠ none) := by decide +kernel

theorem witness_ControlRegisterAccess :
    (issues tU .lane0 { dst := 1, src1 := 17 } [.s 1] (tS tArch) = true ∧ (17 : BitVec 5) = 17 ∧ 18 ≤ (18 : BitVec 5).toNat ∧ tArch.loops = []) ∧
    (({ tArch with loops := [⟨0, 8, 2, none⟩, ⟨0, 16, 3, none⟩] } : Arch).loops = [⟨0, 8, 2, none⟩, ⟨0, 16, 3, none⟩]) ∧
    (issues tU .lane0 { dst := 11, src1 := 2 } [.s 2] (tS (tA 0xFF 0)) = true ∧ (13 : BitVec 5) ≠ 11 ∧ (13 : BitVec 5) ≠ 12) := by decide +kernel

theorem witness_PairNarrowAndRead :
    (issues tU .lane0 { dst := 1, src1 := 2, src2 := 3 } [.s 2, .s 3] (tS (tA 4096 0)) = true ∧ (1 : BitVec 5) = (1 : BitVec 2).zeroExtend 5 ∧ (4096 : W64).toNat + (0 : W64).toNat ≤ (tArch.bget 1).len.toNat ∧ (tArch.bget 1).len.toNat < (4096 : W64).toNat + (1 : W64).toNat) ∧
    (4 ≤ (4 : BitVec 5).toNat ∧ issues tU .lane0 { dst := 4, src1 := 2, src2 := 3 } [.s 2, .s 3] (tS (tA 0 0)) = true) ∧
    (issues tU .lane0 { dst := 1, src1 := 3 } [.s 1] (tS tArch) = true ∧ (3 : BitVec 5) = (3 : BitVec 2).zeroExtend 5) ∧
    (4 ≤ (4 : BitVec 5).toNat ∧ 2 ≤ (2 : BitVec 6).toNat ∧ (1 : BitVec 6) ≠ 0 ∧ issues tU .lane0 { dst := 1, src1 := 4, mod := 2 } [.s 1] (tS tArch) = true) := by decide +kernel

theorem witness_VectorFloat :
    (issues tU .lanes { tF with mod := 1 } [.v 2, .v 3, .v 1] (tS (tV 0x3F800000 0x7FC00000)) = true ∧ (1 : BitVec 6).toNat < 2) ∧
    (issues tU .lanes { tF with mod := 2 } [.v 2, .v 3, .v 1] (tS (tV 0x3F800000 0x80000000)) = true ∧ issues tU .lanes { tF with src2 := 0, mod := 1 } [.v 2, .v 1] (tS (tV 0x3F800000 0)) = true) := by decide +kernel

theorem witness_VectorIntegerAndCompare :
    (issues tU .lanes { tF with mod := 3 } [.v 2, .v 3, .v 1] (tS (tV 5 9)) = true) ∧
    (issues tU .lanes { tF with mod := 7 } [.v 2, .v 3] (tS (tV 5 9)) = true ∧ (1 : BitVec 5) = (1 : BitVec 3).zeroExtend 5) := by decide +kernel

theorem witness_VectorMoveAndPermute :
    (issues tU .lanes tF [.v 2, .v 3, .v 1] (tS (tV 5 9)) = true) ∧
    (issues tU .lanes { tF with src2 := 0 } [.s 2, .v 1] (tS (tA 7 0)) = true) ∧
    (issues tU .needP0 { tF with src2 := 0, imm := 31 } [.v 2, .s 1] (tS (tV 5 9)) = true ∧ (31 : W32).toNat < (tV 5 9).vl ∧ ({ tV 5 9 with vl := 31 } : Arch).vl ≤ 31) ∧
    (issues tU .needP0 { tF with src2 := 0, imm := 31 } [.s 2, .v 1] (tS (tA 7 0)) = true) ∧
    (issues tU .lane0 { tF with src2 := 0 } [.s 2, .s 1] (tS (tA 33 0)) = true) ∧
    (issues tU .lanes { tF with src2 := 0, imm := 31, mod := 4 } [.v 2, .v 1] (tS (tV 5 9)) = true ∧ (31 : W32).toNat < 32) ∧
    (issues tU .lanes { tF with src2 := 0 } [.v 2, .v 1] (tS (tV 5 9)) = true) := by decide +kernel

theorem witness_MaskRegisterResult :
    (issues tU .needP0 { dst := 7, src1 := 0, src2 := 1, mod := 3 } [] (tS tArch) = true ∧ (7 : BitVec 5) = (7 : BitVec 3).zeroExtend 5) ∧
    (issues tU .needP0 { dst := 7, src1 := 2 } [.s 2] (tS (tA 5 0)) = true ∧ issues tU .needP0 { dst := 1, src1 := 7, mod := 1 } [.s 1] (tS tArch) = true) := by decide +kernel

theorem witness_VectorConversion :
    (cvtOk { dst := 1, src1 := 2, imm := 0x0068, mod := 0 } = true ∧ issues tU .lanes { dst := 1, src1 := 2, imm := 0x0068 } [.v 2, .v 1] (tS tArch) = true ∧ vfmt 8 = some (.fp f32, 32) ∧ vfmt 6 = some (.fp bf16, 16)) ∧
    (issues tU .lanes { tF with imm := 0x0000 } [.v 2, .s 3, .v 1] (tS (tA 0 255)) = true ∧ quantOk { tF with imm := 0 } = true ∧ ((tA 0 255).sget 3).toNat % 256 = 255 ∧ ((tA 0 127).sget 3).toNat % 256 ≠ 255) := by decide +kernel

theorem witness_VectorFunction :
    (issues tU .lanes { dst := 1, src1 := 2, imm := 7 } [.v 2, .v 1] (tS tArch) = true ∧ (7 : W32).toNat < 8) := by decide +kernel

theorem witness_Reductions :
    (issues tU .lanes { tF with src2 := 0, mod := 1 } [.v 2, .s 1] (tS (tV 5 9)) = true ∧ (1 : BitVec 6).toNat < 2) ∧
    (issues tU .lanes { dst := 1, src1 := 7 } [.s 1] (tS tArch) = true ∧ (7 : BitVec 5) = (7 : BitVec 3).zeroExtend 5) ∧
    (issues tU .lanes { tF with src2 := 0, mod := 3 } [.v 2, .s 1] (tS (tV 0x3F800000 9)) = true ∧ issues tU .lanes { tF with mod := 3 } [.v 2, .s 3, .s 1] (tS (tV 0x3F800000 9)) = true ∧ (3 : BitVec 6).toNat < 4) ∧
    (issues tU .lanes { dst := 1, src1 := 2, imm := 0xB0 } [.v 2, .s 1] (tS tArch) = true ∧ mxCode 11 = true ∧ (0xB0 : W32).toNat = 16 * 11 ∧ vfmt 11 = some (.mxi8, 8)) := by decide +kernel

theorem witness_ReductionsComplete :
    (({ tF with src2 := 0 } : Fields).imm = 0 ∧ issues tU .lanes { tF with src2 := 0 } [.v 2, .s 1] (tS (tV 0x7FC00000 9)) = true ∧ (0 : BitVec 6).toNat < 2 ∧ issues tU .lanes { tF with mod := 3 } [.v 2, .s 3, .s 1] (tS (tV 0x7FC00000 9)) = true ∧ (3 : BitVec 6).toNat < 4) ∧
    (issues tU .lanes { dst := 1, src1 := 7 } [.s 1] (tS tArch) = true ∧ (7 : BitVec 5).toNat < 8) ∧
    (issues tU .lanes { dst := 1, src1 := 2, imm := 0xB0 } [.v 2, .s 1] (tS (tV 0x3F800000 0)) = true ∧ mxCode ((0xB0 : W32).toNat / 16 % 16) = true ∧ (0xB0 : W32).toNat = 16 * ((0xB0 : W32).toNat / 16 % 16)) := by decide +kernel

theorem witness_MatrixMultiply :
    (issues tU .lane0 tMma [.s 0, .s 2, .s 0] (tS (tA 4096 0)) = true ∧ mmaFault (coreOf (tS (tA 4096 0)) 0) 0 tMma (mmaOp tMma) 0 4096 0 = none ∧ notReady (coreOf (tS (tA 4096 0)) 0) 0 [(0, ((mmaOp tMma).panelA 0).len), (4096, ((mmaOp tMma).panelW 4096).len)] = none ∧ ((mmaBytes (mmaOp tMma) 0 4096).all fun off => !(badAt (tS (tA 4096 0)) (wellBase 0 + off))) = true ∧ (mmaOp tMma).dw = false ∧ (mmaOp tMma).kc = false ∧ (mmaOp tMma).m = 1 ∧ (mmaOp tMma).nblocks = 1 ∧ (mmaOp tMma).groups = 1 ∧ blockCount {} {} ((mmaOp tMma).k / 32) 0 0 ≤ 32768) ∧
    (mmaFault (coreOf (tS (tA 4096 0)) 0) 0 { tMma with mod := 4 } (mmaOp { tMma with mod := 4 }) 0 4096 0 = some 0x2001 ∧ mmaFault (coreOf (tS (tA 4097 0)) 0) 0 tMma (mmaOp tMma) 0 4097 0 = some 0x2004 ∧ (mmaOp { tMma with mod := 4 }).ta = true) ∧
    (mmaFault { tCore (tSlot tArch) with rings := [(5, { tRing {} with base := 0 })] } 0 tMma (mmaOp tMma) 0 4096 0 = none ∧ notReady { tCore (tSlot tArch) with rings := [(5, { tRing {} with base := 0 })] } 0 [(0, ((mmaOp tMma).panelA 0).len), (4096, ((mmaOp tMma).panelW 4096).len)] = some 5) ∧
    ((mmaOp { tMma with imm := 0x280000 }).fa = 5 ∧ (mmaOp { tMma with imm := 0x280000 }).fw = 0 ∧ pairExact 5 0 = false ∧ pairAligned 5 0 = false) := by decide +kernel

theorem witness_AccumulatorPort :
    (issues tU .lane0 { imm := 0xFFFF } [] (tS tArch) = true ∧ (0xFFFF : W32).toNat < 2 ^ 16 ∧ (∀ k ∈ List.range 16, (0xFFFF : W32).getLsbD k = true → (slotOf (tS tArch) tU).amask.getLsbD k = true)) ∧
    (issues tU .lane0 { src1 := 2, imm := 0x1F } [.s 2] (tS (tA 0x3FF000 0)) = true ∧ 15 + 1 ≤ 16 ∧ 0x3FF000 + 4096 * 1 ≤ scratch (coreOf (tS tArch) 0) ∧ notReady (coreOf (tS tArch) 0) 0 [(0x3FF000, 4096)] = none ∧ (∀ i ∈ List.range 4096, badAt (tS (tA 0x3FF000 0)) (wellBase 0 + 0x3FF000 + i) = false)) ∧
    (issues tU .lane0 { src1 := 2, imm := 0x10, mod := 8 } [.s 2] (tRun { tCore (tSlot (tA 4096 0)) with rings := [(5, { base := 4096, size := 4096, count := 1, acqW := some 0 })] }) = true ∧ inOneFill { tCore (tSlot (tA 4096 0)) with rings := [(5, { base := 4096, size := 4096, count := 1, acqW := some 0 })] } 0 4096 4096 = true) ∧
    (issues ⟨0, 1⟩ .lane0 { src1 := 2, imm := 0x10, mod := 4 } [.s 2] (tRun { tCore (tSlot tArch) with slots := (Vector.replicate 3 {}).set 1 (tSlot (tA 4096 0)), rings := [(5, { base := 4096, size := 4160, count := 1, fill := 1, acqW := some 0 })] }) = true ∧ inOneFill { tCore (tSlot tArch) with rings := [(5, { base := 4096, size := 4160, count := 1, fill := 1, acqW := some 0 })] } 1 4096 4160 = true) := by decide +kernel

theorem witness_WhatACommandShows :
    (reasons State.reset ≠ reasons (raiseReason State.reset 0) ∧ mirrorLine State.reset 0 ≠ mirrorLine (raiseReason State.reset 0) 0 ∧ mirrorLine State.reset 16 = mirrorLine (raiseReason State.reset 0) 16) ∧
    (reasons State.reset = reasons (tReg State.reset 0x104 1) ∧ ready State.reset = ready (tReg State.reset 0x104 1)) := by decide +kernel

theorem witness_SlotProgress :
    (State.reset.boot.resetPending = none ∧ takeVerdict (tClosed [⟨true, false, 0, 0⟩]) = some (⟨true, false, 0, 0⟩, tClosed [])) ∧
    (takeVerdict (tClosed [⟨true, true, 0, 0⟩]) = some (⟨true, true, 0, 0⟩, tClosed []) ∧ 0 ∈ ranBy (tRun (tCore (tClosed []))) 0 0 ∧ 0 ∉ ranBy (tRun (tCore (tClosed []))) 0 3) ∧
    (takeVerdict (tClosed []) = none) ∧
    (validStream tU = true ∧ canRetire (tCore (tClosed [])) ⟨{ verdicts := [] }, { tArch with pc := 8 }, []⟩ = true ∧ canRetire (tCore (tClosed [])) ⟨{ verdicts := [⟨true, false, 0, 0⟩] }, tArch, []⟩ = false) ∧
    (canIssue (tS tArch) tU = true ∧ (tSlot tArch).active (tCore (tSlot tArch)) = true) ∧
    (waitCounts (tRun (tCore { tSlot tArch with loads := [tLoad] })) tU = true ∧ [tLoad].find? (fun l => l.id == 4) = some tLoad) ∧
    (waitCounts (tRun { tCore { tSlot tArch with wait := some (.ring 5 true) } with rings := [(5, tRing {})] }) tU = true ∧ racqReady { tCore { tSlot tArch with wait := some (.ring 5 true) } with rings := [(5, tRing {})] } 5 true = false) ∧
    (soMet (soOf (tS tArch) 9).v 5 = false ∧ waitCounts (tRun (tCore { tSlot tArch with wait := some (.so 9 false 1 5) })) tU = true ∧ waitCounts (tRun (tCore { tSlot tArch with wait := some (.so 9 true 1 5) })) tU = true) ∧
    (waitCounts (tTile0 [{ tJob with stalled := true }] [] (tS tArch)) tU = false) ∧
    ([tLoad].find? (fun l => l.id == 4) = some tLoad ∧ tLoad.bad = false ∧ tU.slot < 3 ∧ tLoad.data = some [(0, 1), (1, 2), (2, 3), (3, 4)] ∧ seamHolds (tS tArch) (loadFrom (tS tArch) tLoad.addr) (coreRouter 0) = false ∧ (tileOf (tS tArch) (runTile (tS tArch) 0)).tier = .active) ∧
    ((tSlot tArch).blocked (tCore (tSlot tArch)) = false ∧ canIssue (tS tArch) tU = true) := by decide +kernel

theorem witness_StampedMessages :
    (streamStatus 0x2003 = true ∧ meshHolds { tCtx {} (tS tArch) with out := [.faultReport tU 0x2003 ⟨0, 2⟩] } (.faultReport tU 0x2003 ⟨0, 2⟩) = false ∧ (⟨0, 2⟩ : Stamp) ≠ ctxStamp (tCtx {} (tS tArch)) 0 ∧ (2 : Nat) ≠ 0) ∧
    (meshHolds { tCtx {} (tS tArch) with out := [.faultReport tU 0x2003 ⟨0, 1⟩] } (.faultReport tU 0x2003 ⟨0, 1⟩) = false ∧ (⟨0, 1⟩ : Stamp) = ctxStamp (tCtx {} (tS tArch)) 0 ∧ ctxState (tCtx {} (tS tArch)) 0 ≠ 3 ∧ ctxState (tReg (tCtx {} (tS tArch)) (rFnCtx 0) 65539) 0 = 3) ∧
    (streamStatus 0x9000 = false) ∧
    (meshHolds { tS tArch with out := [.halt 0 ⟨0, 1⟩] } (.halt 0 ⟨0, 1⟩) = false ∧ (tileOf (tS tArch) (runTile (tS tArch) 0)).tier = .active ∧ (coreOf (tS tArch) 0).st = ⟨0, 1⟩ ∧ (slotOf (tS tArch) tU).bound = true) ∧
    ((tileOf (tTile0 [] [] (tS tArch)) 0).fenced = false ∧ meshHolds { tS tArch with tiles := [(0, { tier := .pllOff })] } (.halt 0 ⟨0, 1⟩) = false ∧ (tileOf { tS tArch with tiles := [(0, { tier := .pllOff })] } 0).tier = .pllOff) ∧
    (meshHolds { tS tArch with out := [.signal (.unit 0) 9 1 ⟨0, 1⟩] } (.signal (.unit 0) 9 1 ⟨0, 1⟩) = false ∧ (soOf { tS tArch with sos := [(9, ⟨4, ⟨0, 1⟩, [.slot tU 5]⟩)] } 9).st = ⟨0, 1⟩ ∧ soMet (4 + 1 : W64) 5 = true ∧ soMet (4 + 0 : W64) 5 = false ∧ slotLive (tRun (tCore { tSlot tArch with wait := some (.so 9 false 1 5) })) tU = true) ∧
    ((soOf (tCtx {} (tS tArch)) 9).st ≠ ⟨0, 3⟩ ∧ (⟨0, 3⟩ : Stamp) ≠ heldStamp (tCtx {} (tS tArch)) 0 ∧ (⟨0, 1⟩ : Stamp) = heldStamp (tCtx { held := 1 } (tS tArch)) 0 ∧ ctxState (tCtx { held := 1 } (tS tArch)) 0 ≠ 3) ∧
    (meshHolds { tCtx {} (tS tArch) with out := [.vouch 0 tTags 1 ⟨0, 1⟩, .vouch 0 tTags 0 ⟨0, 1⟩] } (.vouch 0 tTags 0 ⟨0, 1⟩) = true ∧ meshHolds { tS tArch with boot := { hold := [0] } } (.signal (.core 16383) 9 1 ⟨0, 1⟩) = true) := by decide +kernel

theorem witness_ProvisionalData :
    ((tileOf (tTile0 [] [{ tFwd with mAt := 0 }] (tS tArch)) 0).fwd[0]? = some { tFwd with mAt := 0 } ∧ tFwd.clean = true ∧ stitchPoisoned (slotOf (tS tArch) ⟨0, 0⟩) 0 = false ∧ 0 ≤ (slotOf (tS tArch) ⟨0, 0⟩).mPass ∧ (slotOf (tS tArch) ⟨0, 0⟩).mPass < tFwd.mAt) ∧
    ((coreOf (tS tArch) 0).retracted.contains tTags = false ∧ (ProvMsg.vouch 0).due (ordsOf (coreOf (tS tArch) 0) tTags 0) = false ∧ meshHolds { tS tArch with out := [.vouch 0 tTags 0 ⟨0, 1⟩] } (.vouch 0 tTags 0 ⟨0, 1⟩) = false) ∧
    ((ordsOf (coreOf (tProv {}) 0) tTags 0).contains 0 = true ∧ 1 ≤ (ordsOf (coreOf (tProv {}) 0) tTags 0).length ∧ (coreOf (tProv {}) 0).st = ⟨0, 1⟩ ∧ meshHolds (tProv {}) (.vouch 0 tTags 0 ⟨0, 1⟩) = false ∧ meshHolds (tProv {}) (.confirm 0 tTags 0 ⟨0, 1⟩) = false ∧ meshHolds (tProv {}) (.retract 0 tTags 0 ⟨0, 1⟩) = false) ∧
    (({ tCore (tSlot tArch) with retracted := [tTags] } : CoreSt).retracted.contains tTags = true) ∧
    ((⟨0, 0⟩ : Stamp).gen = 0) ∧
    ((∃ e ∈ slotsOf (coreOf (tProv {}) 0) tTags 0, ∃ o ∈ ((coreOf (tProv {}) 0).rslot e).ords, o ∉ ((coreOf (tProv {}) 0).rslot e).vords) ∧ ∀ e ∈ slotsOf (coreOf (tProv { vords := [0] }) 0) tTags 0, ∀ o ∈ ((coreOf (tProv { vords := [0] }) 0).rslot e).ords, o ∈ ((coreOf (tProv { vords := [0] }) 0).rslot e).vords) ∧
    ((1 : Nat) ≠ (tProv {}).casc.self ∧ ∃ e ∈ slotsOf (coreOf (tProv { smod := 1, ingress := true, win := 2 }) 0) tTags 1, ((coreOf (tProv { smod := 1, ingress := true, win := 2 }) 0).rslot e).vouched = false) ∧
    ((tCasc 0).active = true ∧ (tFrame []).cgen = (tCasc 0).cgen ∧ ({ tFrame [] with term := 2 } : Frame).term < (tCasc 0).term) ∧
    ((tCasc 0).term ≤ (tFrame []).term ∧ (tFrame []).term = (tCasc 0).term ∧ (tFrame []).code ≠ 0x1C ∧ tagsOf (tagBytes tTags) = tTags) ∧
    ((tCasc 0).term < ({ tFrame [] with term := 4, code := 0x1C } : Frame).term ∧ (tFrame []).ty = 2) ∧
    ((tileOf (tTile0 [] [{ tFwd with remote := some 1 }] (tS tArch)) 0).fwd = [{ tFwd with remote := some 1 }] ∧ (∀ j ∈ (tileOf (tTile0 [] [{ tFwd with remote := some 1 }] (tS tArch)) 0).jobs, j.desc.dkind ≠ 3)) ∧
    (tDropJob ∈ jobsOf (tTile0 [tDropJob] [] (tS tArch)) 0 ∧ tDropJob.phase = .running ∧ tDropJob.desc.dkind = 3 ∧ tDropJob.desc.dmod = 1 ∧ tDropJob.desc.win = 2 ∧ tDropJob.desc.first ≤ 4 ∧ 7 ∈ tDropJob.dseqs ∧ pumpUnits (tTile0 [tDropJob] [] (tS tArch)) = [0] ∧ jobsOf (tTile0 [tDropJob] [] (tS tArch)) 0 = [tDropJob]) ∧
    (tagsRetired (tS tArch) tTags = false ∧ ({ tFwd with remote := some 1 } : FwdEntry).vouched = false ∧ tResJob.wait = [tResW] ∧ tResW.prov = some 0 ∧ tResW.prod = some ⟨0, 0, 0, 0⟩ ∧ tResJob.desc.dkind = 3 ∧ tResJob.desc.dmod = 1) := by decide +kernel

theorem witness_FailuresOfUnits :
    (pcoreState (tReg State.reset (rPcore 0 263) 0x3FF) 0 263 = 1 ∧ (0x80000000 : W32).getLsbD 31 = true) ∧
    (pcoreState State.reset 63 255 = 0 ∧ servedBy (tS tArch) 0 0 = some 0 ∧ (rehome (setPcore (tS tArch) 0 0 2 1) 0 0 true).isSome = true) ∧
    (255 < 256 ∧ 263 < 264) ∧
    (pcoreState (setPcore State.reset 0 5 2 1) 0 5 = 2) ∧
    (servedBy tAlone 0 0 = some 0 ∧ pcoreState tAlone 0 0 = 0 ∧ rehome (setPcore tAlone 0 0 2 1) 0 0 true = none ∧ guestsOf tAlone 0 = []) ∧
    (pcoreState (setPcore State.reset 0 5 3 1) 0 5 = 3 ∧ (fget? 5 (tileOf { setPcore State.reset 0 5 3 1 with tiles := [(0, { probation := [(5, 0)] })] } 0).probation).isSome = true) ∧
    (rfld (tS tArch) (rTL 0 0x280C) 17 1 = 0 ∧ (0x10000 : W32).toNat % 512 = 0 ∧ pcoreBound (tS tArch) 0 0 = true) ∧
    ((tileOf State.reset 63).fenced = false ∧ (tileOf { State.reset with tiles := [(63, { fenced := true })] } 63).fenced = true) ∧
    ((tileOf State.reset 0).failedWells.contains 263 = false ∧ ((span 0 256).all fun l => pwellOf State.reset l != 263) = true) ∧
    (rfld State.reset 0x800C 15 1 = 0 ∧ rfld (tReg State.reset 0x800C 0x8000) 0x800C 15 1 = 1 ∧ rfld State.reset (rPW (0x100 + 4 * 15)) 0 2 ≠ 3) ∧
    ((cistOf State.reset 23).fenced = false ∧ chanState State.reset 383 = 0) ∧
    (chanState State.reset (16 * 23 + 15) = 0) ∧
    (CarrierLink.wellHead 23 ∉ State.reset.boot.linksDown ∧ CarrierLink.wellHead 23 ≠ .stack 0 0 ∧ chanState State.reset (4 * 95 + 3) = 0) ∧
    (guestsOf tGuest 0 = [1] ∧ (coreOf tGuest 0).out = false ∧ (coreOf tGuest 1).out = true ∧ maySwitch (coreOf tGuest 0) = false ∧ maySwitch (coreOf { tGuest with cores := [(0, { tCore (tSlot tArch) with ran := 2 ^ 20 }), (1, { tCore (tSlot tArch) with guest := some (0, false), out := true })] } 0) = true ∧ guestsOf (tS tArch) 0 = []) ∧
    (jobOf (tTile0 [tJob] [] (tS tArch)) 0 6 = some tJob ∧ tJob.phase = .running ∧ tJob.stalled = false) ∧
    ((let s := { tTile0 [{ tJob with stalled := true }] [] (tReg State.reset 0x8020 1) with boot := { stalls := [(0, 6)] } }; rfld s 0x8020 0 16 ≠ 0 ∧ stallCount s ≠ 0 ∧ stallCount State.reset = 0)) ∧
    (23 < 24) := by decide +kernel

theorem witness_PatrolAndRepair :
    ((tileOf State.reset 63).patrol ≠ 0 ∧ (tileOf { State.reset with tiles := [(63, { patrol := 0 })] } 63).patrol = 0) ∧
    ((coreOf (tRun { tCore (tSlot tArch) with gather := [⟨64 * 65535, [(63, 9)]⟩] }) 0).gather = [⟨64 * 65535, [(63, 9)]⟩] ∧ 64 * 65535 < 0x400000) ∧
    ((cistOf State.reset 23).period ≠ 0 ∧ (cistOf { State.reset with cists := [(23, { period := 0 })] } 23).period = 0 ∧ State.reset.chans = []) ∧
    ((cistOf State.reset 23).pprBusy = none ∧ ready State.reset = false ∧ ready (tReg State.reset 0x108 10) = true) ∧
    ((cistOf { State.reset with cists := [(23, { pprBusy := some (false, 5) })] } 23).pprBusy = some (false, 5) ∧ (cistOf { State.reset with cists := [(23, { pprBusy := some (true, 5) })] } 23).pprBusy ≠ none) := by decide +kernel

theorem witness_BlockAtIngress :
    (meshHolds tFill (.block { unit := 9, job := 6, dest := .ring 0 5, st := ⟨0, 1⟩ } tBlock) = false ∧ (tileOf tFill 0).tier = .active ∧ (tileOf tFill (runTile tFill 0)).tier = .active ∧ (coreOf tFill 0).st ≠ ⟨tBlock.ctx, 2⟩ ∧ (coreOf tFill 0).st.gen ≠ 0) ∧
    ((coreOf tFill 0).st = ⟨tBlock.ctx, tBlock.gen⟩) ∧
    Block.good tBad = false ∧
    (triesOf (tileOf tFill 0).tries (9 + 128 * 0) 6 0 < 3 ∧ placeOf { unit := 9, job := 6, dest := .ring 0 5, st := ⟨0, 1⟩ } tBlock = 0) ∧
    (tBlock.prov = false ∧ tBlock.poison = false) ∧
    Block.good tBlock = true ∧
    ((coreOf tFill 0).heldMsgs = [] ∧ jobsOf tFill 9 = []) := 
  ⟨by decide +kernel, by decide +kernel, tBad_bad, by decide +kernel, by decide +kernel, tBlock_good, by decide +kernel⟩

theorem witness_CisternRequests :
    (regionOf (tMark 4) 4160 = .lpddr 0 ∧ 4160 % 64 = 0 ∧ rangeOwner (tMark 4) 4160 = some (0, ⟨0, 16, 4⟩) ∧ (⟨0, 1⟩ : Stamp) = heldStamp (tMark 4) 0 ∧ chanState (tMark 4) 0 = 0 ∧ chanState (tReg (tMark 4) (rChan 0) 1) 0 = 1 ∧ (⟨0, 0⟩ : Stamp) ≠ heldStamp (tMark 4) 0) ∧
    (meshHolds { tMark 4 with boot := { hold := [0] } } (.mem 12 (.store 0 [(4160, leBytes 8 5)] ⟨0, 1⟩)) = true ∧ zeroPage (tMark 4) 0 4160 = false ∧ (tMark 4).stagingSnoops = [] ∧ (tMark 4).snoopFilter = [] ∧ (tMark 4).lpPoison = [] ∧ (ctxOf (tMark 4) 0).settle = [] ∧ meshHolds (tMark 4) (.mem 0 (.store 0 [(4160, leBytes 8 5)] ⟨0, 1⟩)) = false ∧ meshHolds (tMark 4) (.amo 0 0 4160 .int64 5 ⟨0, 1⟩) = false) ∧
    (tLoad.known = [] ∧ meshHolds (tMark 4) (.mem 0 (.load tU 4 ⟨0, 1⟩)) = false ∧ [{ tLoad with data := none }].find? (fun k => k.id == 4) = some { tLoad with data := none } ∧ tLoad.lines = [] ∧ ∀ y ∈ dstBytes 0 tLoad.dst, badAt (tMark 4) y = false) ∧
    (meshHolds (tMark 1) (.mem 0 (.block { unit := 9, job := 6, dest := .range 8320, st := ⟨0, 1⟩ } tBlock)) = false ∧ (∀ i ∈ List.range 4160, chanState (tMark 1) (chanOf (8320 + i)) = 0) ∧ regionOf (tMark 1) 8320 = .lpddr 0 ∧ rangeOwner (tMark 1) 8320 = some (0, ⟨0, 16, 1⟩) ∧ heldStamp (tMark 1) 0 = ⟨tBlock.ctx, tBlock.gen⟩ ∧ heldStamp (tMark 1) 0 ≠ ⟨tBlock.ctx, 2⟩) ∧
    Block.good tBlock = true ∧
    ((ctxOf (tMark 1) 0).run = none ∧ tBlock.fmt = 0x10 ∧ (8320 - 0) % 4160 = 0 ∧ jobsOf (tMark 1) 9 = []) ∧
    ((⟨0, 16, 1⟩ : RangeE).covers 4160 (4160 * 2) = true ∧ settleHolds (tMark 1) 4160 = false ∧ settleHolds (tMark 1) 8320 = false ∧ (ctxOf (tMark 1) 0).zeroing = [] ∧ (ctxOf (tMark 1) 0).run = none) := 
  ⟨by decide +kernel, by decide +kernel, by decide +kernel, by decide +kernel, tBlock_good, by decide +kernel, by decide +kernel⟩

theorem witness_EntryAcceptance :
    (ringTakes State.reset 0 = false) ∧
    (ringTakes (tHost 5 []) 0 = true ∧ leAt (bytesAt (tHost 5 []) 0x400000000000 128) 0 8 ≠ rget64 (tHost 5 []) (rHC 0 0x28)) ∧
    (ringTakes (tHost 0 []) 0 = true ∧ formRun (entryWords (bytesAt (tHost 0 []) 0x400000000000 128)) {} = .refuse 0x1002 ∧ zeroAt (bytesAt (tHost 0 []) 0x400000000000 128) 9 7 = true) ∧
    (formRun (entryWords (bytesAt (tHost 0 (tWord 0xE6 0 0 0 0)) 0x400000000000 128)) {} = .cmd 0xE6 0 0 0 {} ∧ cmdRefusal (tHost 0 (tWord 0xE6 0 0 0 0)) 0xE6 0 0 0 0 = some 0x1703) ∧
    (formRun (entryWords (bytesAt (tHost 0 (tWord 0x16 1 0 0 0x4000 ++ tWord 0xE6 0 0 1 0)) 0x400000000000 128)) {} = .cmd 0xE6 0 0x400000000000 0 { src2 := 1 } ∧ cmdRefusal (tHost 0 (tWord 0x16 1 0 0 0x4000 ++ tWord 0xE6 0 0 1 0)) 0xE6 0 0x400000000000 0 0 = none ∧ journalRoom (tHost 0 (tWord 0x16 1 0 0 0x4000 ++ tWord 0xE6 0 0 1 0)) 0 = true) ∧
    ((0 : Nat) + 1 < 2 ^ 64 ∧ (63 : Nat) < 64) := by decide +kernel

theorem witness_ContextCommands :
    (mayBeginCtx (tAcc (tEntry 0xE0) (tPat [])) 0 0 0xE0 = some (tEntry 0xE0) ∧ mayBeginCtx State.reset 0 0 0xE0 = none) ∧
    (mayBeginCtx (tAcc (tEntry 0xE0) { tPat [] with out := [.signal .head 1 1 ⟨0, 1⟩] }) 0 0 0xE0 = some (tEntry 0xE0) ∧ itemsLeft { tPat [] with out := [.signal .head 1 1 ⟨0, 1⟩] } 0 (· != 2) = true) ∧
    (mayBeginCtx (tAcc (tEntry 0xE1) (tPat [])) 0 0 0xE1 = some (tEntry 0xE1) ∧ mayBeginCtx State.reset 0 0 0xE1 = none) ∧
    (mayBeginCtx (tAcc (tEntry 0xE1) { tPat [] with out := [.signal .head 1 1 ⟨0, 1⟩] }) 0 0 0xE1 = some (tEntry 0xE1)) ∧
    (ctxGen (tReg State.reset (rFnCtx 63) 0xFFFF0000) 63 = 0xFFFF) ∧
    (mayBegin (tAcc (tEntry 0xE2) (tPat [])) 0 0 0xE2 = some (tEntry 0xE2) ∧ (ctxOf (tPat []) 0).pat = some { step := [] } ∧ rfld (tPat []) (rFnStat 1) 0 2 = 2 ∧ ({ step := [] } : Pattern).training = true ∧ ctxBefore (tAcc (tEntry 0xE2) (tPat [])) (tEntry 0xE2) = [] ∧ haltsPending (tPat []) 0 = false ∧ (ctxOf (tPat []) 0).dead = none) ∧
    (mayBegin { tPat [] with accepted := [{ tEntry 0xE2 with ring := 1 }, tEntry 0xE2] } 0 0 0xE2 = some (tEntry 0xE2) ∧ ctxBefore { tPat [] with accepted := [{ tEntry 0xE2 with ring := 1 }, tEntry 0xE2] } (tEntry 0xE2) ≠ []) ∧
    (mayBegin (tAcc (tEntry 0xE2) (tPat [1])) 0 0 0xE2 = some (tEntry 0xE2) ∧ ({ step := [1] } : Pattern).training = false) ∧
    ((ctxOf State.reset 0).drain = none ∧ (ctxOf (tAcc (tEntry 0xE0) (tCtx { drain := some (0, 0) } State.reset)) 0).drain = some (0, 0) ∧ entryOf (tAcc (tEntry 0xE0) (tCtx { drain := some (0, 0) } State.reset)) 0 0 = some (tEntry 0xE0) ∧ itemsLeft (tAcc (tEntry 0xE0) (tCtx { drain := some (0, 0) } State.reset)) 0 (· != 1) = false) := by decide +kernel

theorem witness_CopyQueryAndSync :
    (mayBegin (tAcc { tEntry 0xE3 with a := 64, b := 0x400000000000, d := 64 } { State.reset with mem := [(64, 7)] }) 0 0 0xE3 = some { tEntry 0xE3 with a := 64, b := 0x400000000000, d := 64 } ∧ State.reset.boot.cxlUp = true ∧ settleHolds State.reset (0x400000000000 + 64 * 5) = false) ∧
    (State.reset.lpPoison = [] ∧ State.reset.hostPoison = [] ∧ 0x400000000000 + 64 ≤ 0x800000000000 ∧ anyBad { State.reset with mem := [(64, 7)] } 64 64 = false) ∧
    (mayBegin (tAcc { tEntry 0xE6 with a := 2, b := 0x400000000000 } State.reset) 0 0 0xE6 = some { tEntry 0xE6 with a := 2, b := 0x400000000000 } ∧ mayBegin State.reset 0 0 0xE6 = none) ∧
    (syncEntry (tAcc { tEntry 0xE4 with b := 0 } (tPat [])) 0 0 false = some { tEntry 0xE4 with b := 0 } ∧ syncObject (tPat []) { tEntry 0xE4 with b := 0 } = some (1, false) ∧ soMet (soOf (tPat []) 1).v 0 = true) ∧
    (syncEntry (tAcc { tEntry 0xE4 with b := 5 } (tPat [])) 0 0 false = some { tEntry 0xE4 with b := 5 } ∧ soMet (soOf (tPat []) 1).v 5 = false ∧ SoWait.entry 0 0 5 ∉ (soOf (tPat []) 1).waits) ∧
    (syncObject (tPat []) { tEntry 0xE4 with imm := 256 } = none ∧ syncEntry (tAcc { tEntry 0xE4 with imm := 256 } (tPat [])) 0 0 false = some { tEntry 0xE4 with imm := 256 } ∧ syncEntry (tAcc { tEntry 0xE4 with imm := 256, mod := 1 } (tPat [])) 0 0 true = some { tEntry 0xE4 with imm := 256, mod := 1 }) ∧
    (syncEntry (tAcc { tEntry 0xE4 with b := 5, mod := 1 } (tPat [])) 0 0 true = some { tEntry 0xE4 with b := 5, mod := 1 } ∧ (soOf (tPat []) 1).waits = []) ∧
    (syncObject (tPat []) { tEntry 0xE4 with imm := 4095, mod := 2 } = some (4095, true) ∧ syncEntry (tAcc { tEntry 0xE4 with imm := 4095, mod := 2 } (tPat [])) 0 0 false = some { tEntry 0xE4 with imm := 4095, mod := 2 } ∧ (tEntry 0xE4).phase = .queued ∧ syncEntry (tAcc { tEntry 0xE4 with imm := 4095, mod := 3 } (tPat [])) 0 0 true = some { tEntry 0xE4 with imm := 4095, mod := 3 } ∧ (tCasc 0).active = true) := by decide +kernel

theorem witness_TrainingStepEnd :
    ((ctxOf State.reset 0).run = none) ∧
    ((ctxOf (tStep {} {}) 0).run = some {} ∧ (ctxOf (tStep {} {}) 0).pat = some tTrain ∧ tTrain.uplace = 1 ∧ onCascade (tStep {} {}) 0 = false ∧ backwardDone (tStep {} {}) 0 {} = true) ∧
    (updateStarts (tStep {} {}) 0 1 {} = true ∧ updateStarts (tStep {} {}) 0 2 {} = false ∧ entryOf (tStep {} {}) 0 0 = some (tEntry 0xE2)) ∧
    (partsDone { tStep {} {} with cores := [(0, tCore (tSlot tArch))] } 0 = false) ∧
    (partsDone (tStep {} { decision := some 0, updated := [1], epoch := 4, nmb := 3 }) 0 = true ∧ (∀ k ∈ tTrain.layers, k ∈ [1]) ∧ tTrain.layers = [1]) ∧
    (partsDone (tStep {} { decision := some 0x5003 }) 0 = true ∧ (0x5003 : Nat) ≠ 0 ∧ partsDone (tStep {} { decision := some 0, poisonG := 1, updated := [1] }) 0 = true) ∧
    ((ctxOf (tStep { settle := [1] } {}) 0).settle = [1] ∧ (2 : Nat) ≠ 1) ∧
    ((ctxOf (tStep {} {}) 0).bind = some tBind ∧ (0 : Nat) < 64 ∧ (ctxOf (tStep {} {}) 63).bind = none ∧ tEnergy.rim = 0) := by decide +kernel

theorem witness_ServingAndMirror :
    ((ctxOf (tServe {}) 0).pat ≠ none ∧ (ctxOf (tServe {}) 0).forming = [] ∧ (ctxOf (tServe {}) 0).released = [] ∧ (takeBatch 3 [] [] [tReq 0, tReq 1]).1 = [tReq 0] ∧ (ctxOf (tServe { forming := [tReq 0, tReq 1] }) 0).running = [] ∧ haltsPending (tServe {}) 0 = false ∧ fnState (tServe { forming := [tReq 0, tReq 1] }) 1 = 2 ∧ fnState (tReg (tServe { forming := [tReq 0, tReq 1] }) (rFnStat 1) 0) 1 ≠ 2) ∧
    ((ctxOf (tServe {}) 0).running = [] ∧ (ctxOf (tServe { running := [tReq 0] }) 0).running ≠ [] ∧ partsDone (tServe { running := [tReq 0] }) 0 = true ∧ itemsLeft (tServe { running := [tReq 0] }) 0 (fun _ => true) = false ∧ itemsLeft { tServe { running := [tReq 0] } with out := [.mem 0 (.store 0 [] ⟨0, 1⟩)] } 0 (fun _ => true) = true) ∧
    (mirrorPartner tMirror 0 = some (1, 0) ∧ (ctxOf tMirror 0).image = some tImage ∧ tImage.areas ≠ [] ∧ imageFlying tMirror 1 = false ∧ ({} : MirrorImage).areas = [] ∧ imageFlying { tMirror with out := [.frame 0 { ty := 5, dmod := 1 }] } 1 = true ∧ (ctxOf (tServe {}) 0).image = none) ∧
    (fnState (tReg (tReg (tStep {} {}) (rFnStat 128) 1) (rFN (0x10000 + 0x100 * 128)) 1) 128 = 1 ∧ leAt (fnSet (tReg (tReg (tStep {} {}) (rFnStat 128) 1) (rFN (0x10000 + 0x100 * 128)) 1) 128) 0 1 = 1 ∧ fnState State.reset 128 ≠ 1 ∧ ([5] : List W8) ≠ tTrain.measure) ∧
    (State.reset.casc.active = false ∧ tSink.casc.active = true ∧ 1 < tSink.casc.total ∧ 1 ≠ tSink.casc.self ∧ rangeOwner tSink 0 = some (0, ⟨0, 16, 4⟩) ∧ 64 ≤ 16 * 4096 / 2 ∧ tPart.crcOk = true) := by decide +kernel

theorem witness_FunctionStates :
    (fnKnown 191 = true ∧ fnState State.reset 191 = 0 ∧ fnState State.reset 2 ≠ 0) ∧
    (ready State.reset = false ∧ ready (tFn 2 0) = true ∧ fnDepends (tFn 2 0) 2 true = false ∧ fnState (tFn 2 0) 2 = 0 ∧ fnState (tFn 2 2) 2 = 2 ∧ fnDepends (tFn 2 2) 2 false = false) ∧
    (mayBegin (tAcc { tEntry 0xE5 with a := 130 } (tFn 130 0)) 0 0 0xE5 = some { tEntry 0xE5 with a := 130 } ∧ mayBegin State.reset 0 0 0xE5 = none ∧ mayBegin (tAcc { tEntry 0xE5 with a := 130, imm := 0 } (tFn 130 2)) 0 0 0xE5 = some { tEntry 0xE5 with a := 130, imm := 0 }) ∧
    (fnState (tFn 130 1) 130 = 1 ∧ fnState (tFn 130 3) 130 = 3 ∧ stopDone (tFn 130 3) 130 = true ∧ settingsRefusal (tFn 3 1) 3 (fnSet (tFn 3 1) 3) = none ∧ startDone (tFn 3 1) 3 = true ∧ (fnOf (tFn 3 1) 3).startE = [] ∧ (0x5301 : Nat) < 65536) ∧
    (fnState (tReg (tFn 2 1) (rFN 0x10200) 1) 2 = 1 ∧ settingsRefusal (tReg (tFn 2 1) (rFN 0x10200) 1) 2 (fnSet (tReg (tFn 2 1) (rFN 0x10200) 1) 2) = none ∧ startDone (tReg (tFn 2 1) (rFN 0x10200) 1) 2 = false ∧ failStatus 0x9001 = false ∧ failStatus 0x5301 = true) ∧
    (panelGoal (tReg (tFn 2 1) (rFN 0x10200) 1) 0 = 1 ∧ rfld State.reset (rPanel 0) 0 1 = 0 ∧ panelGoal State.reset 0 = 0 ∧ rfld (tReg State.reset (rPanel 1) 1) (rPanel 1) 0 1 = 1 ∧ panelGoal (tReg State.reset (rPanel 1) 1) 1 = 0 ∧ ({ State.reset with boot := { hold := [1] } } : State).boot.hold.contains 1 = true ∧ ({ State.reset with boot := { rampDown := [0] } } : State).boot.rampDown.contains 0 = true) := by decide +kernel

theorem witness_AkgonPorts :
    (portUp tReplay 0 = true ∧ (portOf tReplay 0).queue = [] ∧ portUp State.reset 0 = false) ∧
    ((portOf tQueued 0).queue = [{ ty := 2 }] ∧ (∀ g ∈ (portOf tQueued 0).replay, seqUpTo g.lseq 4 = true) ∧ frameSize { ty := 2 } ≤ replayBytes) ∧
    (({} : Frame).fcrc ≠ frameCheck {} ∧ portUp tPort 0 = true) ∧
    ((tSealed { ty := 2 }).fcrc = frameCheck (tSealed { ty := 2 }) ∧ (tSealed { ty := 2 }).ty ≠ 0 ∧ seqUpTo (tSealed { ty := 2 }).lseq (portOf tReplay 0).rxSeq = true) ∧
    (tNew.fcrc = frameCheck tNew ∧ tNew.ty = 2 ∧ tNew.lseq = ((portOf tPort 0).rxSeq + 1) % 2 ^ 32 ∧ frameReserved tNew = false ∧ tNew.dmod = tPort.casc.self ∧ frameReserved (tSealed { tNew with code := 0xFF }) = true ∧ (tSealed { tNew with dmod := 1, hops := 1 }).dmod ≠ tPort.casc.self) ∧
    (8 ∉ (portOf tPort 0).laneBad ∧ (portOf tPort 0).spareUsed = false ∧ (portOf (putPort tPort 0 { spareUsed := true }) 0).spareUsed = true) ∧
    (rfld tPort (rAK 0 0) 0 2 ≠ 3 ∧ rfld (tReg State.reset (rAK 0 0) 3) (rAK 0 0) 0 2 = 3) := by decide +kernel

theorem witness_CascadeRolesAndObjects :
    (fnState (tFn 0 1) 0 = 1 ∧ fnState State.reset 0 ≠ 1) ∧
    (fnState ({ tReg (tCtx { pat := some { measure := List.replicate 8 0 } } State.reset) (rFnStat 0) 1 with casc := { tCasc 0 with active := false, digest := List.replicate 8 0 } } : State) 0 = 1 ∧ 1 < (tCasc 0).total ∧ 1 ∉ (tCasc 0).helloOk ∧ (tFrame (List.replicate 16 0)).cgen = (tCasc 0).cgen ∧ 8 ≤ (List.replicate 8 (0 : W8)).length ∧ ((tFrame (List.replicate 16 0)).spec.drop 8).take 8 = List.replicate 8 0) ∧
    (State.reset.casc.active = false ∧ fnState State.reset 0 ≠ 1) ∧
    (tPort.casc.active = true ∧ portUp tPort 0 = true ∧ tBeat.cgen = tPort.casc.cgen ∧ tBeat.ty = 1 ∧ tBeat.term ≤ tPort.casc.term ∧ tPort.casc.term < ({ tBeat with term := 9, spec := [2] } : Frame).term ∧ leAt [2] 0 1 = 2) ∧
    (1 ≠ (tCasc 1).self ∧ 1 < (tCasc 1).total ∧ 1 ∉ (tCasc 1).lost ∧ 1 ∉ (tCasc 1).leftMods ∧ casRole (tCasc 1) ≠ 2 ∧ State.reset.cores = [] ∧ (∀ n ∈ List.range 64, mirrorPartner tPort n = none)) ∧
    (casRole { tCasc 1 with deputy := 0 } = 1 ∧ casRole (tCasc 1) ≠ 1 ∧ (tCasc 1).reqs = [] ∧ (tCasc 1).master < (tCasc 1).total) ∧
    ((tCasc 0).master ≠ tTake.smod ∧ (tCasc 1).master = tTake.smod ∧ (tCasc 0).term ≤ tTake.term ∧ tTake.ty = 2 ∧ tTake.code = 0x1C ∧ tTake.cgen = (tCasc 0).cgen) ∧
    (casRole (tCasc 0) ≠ 0 ∧ casRole { tCasc 1 with deputy := 2 } = 0 ∧ leAt (tFrame (leBytes 8 4095 ++ leBytes 8 5)).spec 0 2 < 4096) ∧
    (slotLive { tS tArch with casc := { tCasc 1 with reqs := [(6, tU, 1)] }, cores := [(0, tCore { tSlot tArch with wait := some (.so 3 true 1 5) })] } tU = true ∧ leAt (leBytes 4 0 ++ leBytes 4 6 ++ leBytes 8 9) 4 4 = 6 ∧ (tileOf (tS tArch) (runTile (tS tArch) 0)).tier = .active) := by decide +kernel

theorem witness_CascadeMessages :
    ((tFrame []).epoch < (tCasStep 0 {}).casc.epoch ∧ (tCasStep 0 {}).casc.term ≤ (tFrame []).term ∧ (tMsg []).epoch = (tCasStep 0 {}).casc.epoch ∧ ({ tMsg [] with k := 0 } : Frame).k < (tCasStep 0 {}).casc.k) ∧
    (casRole (tCasStep 1 {}).casc ≠ 2 ∧ (tMsg []).epoch = (tCasStep 1 {}).casc.epoch ∧ (tCasStep 1 {}).casc.k ≤ (tMsg []).k ∧ (tCasStep 1 {}).casc.straggle = [] ∧ (∀ e ∈ (tCasStep 1 {}).casc.fdone, e.1 ≠ (tMsg []).smod)) ∧
    ((tCasStep 1 {}).casc.group 0 ∈ (bytesList (listBytes [0] ++ listBytes [])).1 ∧ (tCasStep 1 {}).casc.group 0 ∉ (bytesList (bytesList (listBytes [0] ++ listBytes [])).2).1) ∧
    (leAt (leBytes 8 0x10000) 0 2 = (tCasStep 1 {}).casc.group 0 ∧ (1 : Nat) < 3 ∧ leAt (leBytes 2 5) 0 2 ≠ (tCasStep 1 {}).casc.group 0) ∧
    ((ctxOf ({ tPort with casc := { tCasc 1 with epoch := 4, k := 1 } } : State) 0).run = none ∧ (tCasc 1).straggle = [] ∧ (tCasc 1).group 0 ∈ (bytesList (listBytes [0])).1) ∧
    ((ctxOf (tCasStep 1 {}) 0).run = some {}) ∧
    ((ctxOf (tCasStep 1 { epoch := 4 }) 0).run = some { epoch := 4 } ∧ (ctxOf (tCasStep 1 { epoch := 4 }) 0).pat ≠ none ∧ partsDone (tCasStep 1 { epoch := 4 }) 0 = true ∧ windowBlocks (tCasStep 1 { epoch := 4 }) 0 { epoch := 4 } = false ∧ casRole { tCasc 1 with deputy := 2 } = 0 ∧ partsDone { tCasStep 1 { epoch := 4 } with cores := [(0, tCore (tSlot tArch))] } 0 = false) ∧
    (casRole (tCasStep 0 {}).casc = 2 ∧ (tCasStep 0 {}).casc.crec = false) ∧
    ((tMsg []).epoch ≠ (tCasStep 1 {}).casc.comEpoch ∧ (tFrame []).epoch = (tCasStep 1 {}).casc.comEpoch ∧ (tFrame []).smod ∉ (tCasStep 1 {}).casc.leftMods ∧ (tFrame []).epoch ≠ (tCasStep 1 {}).casc.epoch ∧ casRole (tCasStep 1 {}).casc ≠ 2 ∧ casRole (tCasStep 0 {}).casc = 2 ∧ 1 ∈ ({ tCasc 0 with leftMods := [1] } : Casc).leftMods) ∧
    (casRole { tCasc 0 with swin := 5, fdone := [(0, 1)] } = 2 ∧ (tCasc 0).turned = false ∧ 1 ∈ ({ tCasc 0 with lost := [1] } : Casc).lost) ∧
    (tData.fcrc = frameCheck tData ∧ tData.dmod = tPort.casc.self ∧ portUp tOpen 0 = true ∧ (portOf tOpen 0).queue = [] ∧ tData.lseq = ((portOf tOpen 0).rxSeq + 1) % 2 ^ 32 ∧ tData.hops ≠ 4 ∧ frameSeen tOpen tData = false ∧ tData.cgen = tOpen.casc.cgen ∧ windowOpen tPort 0 = false ∧ windowKnown tPort tData = false ∧ (tSealed { tData with cgen := 6 }).cgen ≠ tOpen.casc.cgen ∧ (tSealed { tData with cgen := 6 }).fcrc = frameCheck (tSealed { tData with cgen := 6 })) ∧
    (windowOpen tOpen tBlock.wgen = true ∧ windowKnown tOpen tData = true ∧ tData.block = some tBlock) ∧
    Block.good tBlock = true ∧
    ((tSealed { tData with block := some tBad }).fcrc = frameCheck (tSealed { tData with block := some tBad })) ∧
    Block.good tBad = false ∧
    (triesOf (portOf tOpen 0).tries 1 3 1 < 3 ∧ 3 ≤ triesOf [(1, 3, 1, 3)] 1 3 1) ∧
    (tData ∈ ({ tOpen with inbox := [tData] } : State).inbox ∧ ({ casc := [3, 1, 0, 0, 0, 0, 0, 0] } : Pattern).window 3 = some [3, 1, 0, 0, 0, 0, 0, 0] ∧ (⟨0, 16, 4⟩ : RangeE).covers 4160 4160 = true ∧ (ctxOf tOpen 0).run = none ∧ tData ∉ tPort.inbox) ∧
    ((ctxOf tOpen 0).settle = [] ∧ tData.smod ≠ (tCasc 1).self ∧ tData.via = none ∧ (tCasc 1).group 0 ∉ (tCasc 1).straggle ∧ (∀ e ∈ tOpen.ports, ∀ x ∈ e.2.hem, x.1 = false) ∧ (portOf tOpen 0).hem.length < 256 ∧ 256 ≤ (portOf tFullHem 0).hem.length ∧ (∀ e ∈ tFullHem.ports, ∀ x ∈ e.2.hem, x.1 = false)) := 
  ⟨by decide +kernel, by decide +kernel, by decide +kernel, by decide +kernel, by decide +kernel, by decide +kernel, by decide +kernel, by decide +kernel, by decide +kernel, by decide +kernel, by decide +kernel, by decide +kernel, tBlock_good, by decide +kernel, tBad_bad, by decide +kernel, by decide +kernel, by decide +kernel⟩

theorem witness_HostLink :
    (ringOn tRing0 0 = true ∧ tRing0.boot.cxlUp = true ∧ (List.replicate 64 (2 : W8)).length = 64 ∧ hostArea (rget64 tRing0 (rHC 0 8)) 64 64 = true) ∧
    (({ State.reset with boot := { cxlUp := false } } : State).boot.cxlUp = false) ∧
    (stagingOpen State.reset 64 = false ∧ stagingOpen tSeven 64 = true ∧ anyBad tSeven 64 8 = false ∧ settleHolds tSeven 64 = false ∧ tSeven.lpPoison = [] ∧ 64 % 64 + 8 ≤ 64) ∧
    (State.reset.boot.cxlUp = true ∧ (1023 : Nat) < 1024 ∧ (65535 : Nat) < 65536 ∧ State.reset.boot.standby = true) ∧
    (fget? (rHC 63 0x18) ({ State.reset with wlatch := [(rHC 63 0x18, 5)] } : State).wlatch = some 5 ∧ rget64 (rput64 State.reset (rHC 63 0x28) 5) (rHC 63 0x28) = 5) ∧
    (cfgOk (2 ^ 7 + 1) = true ∧ bitsAt (2 ^ 7 + 1) 5 5 = 4 ∧ rfld (tReg tRing0 (rHC 0 0x24) 0) (rHC 0 0x24) 0 2 = 0 ∧ hostArea (rget64 tRing0 (rHC 0 0)) (128 * 2 ^ 4) 4096 = true ∧ hostArea (rget64 tRing0 (rHC 0 0x10)) (64 * 2 ^ 4) 4096 = true ∧ hostArea (rget64 State.reset (rHC 0 8)) 64 64 = false) ∧
    (rfld (tReg tRing0 (rHC 0 0x24) 2) (rHC 0 0x24) 0 2 = 2 ∧ (0x81 : W32).getLsbD 0 = true) ∧
    (rfld (tReg tRing0 (rHC 0 0x20) 0x81) (rHC 0 0x20) 5 5 = 4 ∧ rfld tRing0 (rHC 0 0x24) 0 2 = 1) ∧
    (fget? (rHC 0 16) ({ State.reset with wlatch := [(rHC 0 16, 5)] } : State).wlatch = some 5 ∧ rfld State.reset (rHC 0 0x24) 0 2 = 0) := by decide +kernel

theorem witness_PowerAndSleep :
    (rfld (tSleep { tier := .active }) (rPW 0x300) 0 8 ≠ 0 ∧ rfld (tSleep { tier := .active }) (rPW 0x300) 8 8 ≠ 0 ∧ rfld (tSleep { tier := .active }) (rPW 0x300) 16 8 ≠ 0 ∧ rfld (tReg State.reset (rPW 0x300) 0) (rPW 0x300) 0 8 = 0 ∧ tileBusy (tSleep { tier := .active }) 0 = false ∧ tileBound (tSleep { tier := .active }) 0 = false ∧ tileBound (tCtx {} (tSleep { tier := .active })) 0 = true ∧ tileBusy (tSleep { tier := .active, jobs := [tJob] }) 0 = true) ∧
    (rfld (tReg (tSleep { tier := .gated }) (rPW (0x100 + 4 * regionOfTile 0)) 2) (rPW (0x100 + 4 * regionOfTile 0)) 0 2 = 2) ∧
    (Pll.base ∉ (tileOf State.reset 0).pllLost ∧ Pll.base ∈ (tileOf (putTile State.reset 0 { pllLost := [.base] }) 0).pllLost) ∧
    (causeFits 1 (.temp 63) = true ∧ State.reset.boot.causes = [] ∧ SlowCause.temp 63 ∈ ({ causes := [.temp 63] } : Boot).causes ∧ causePanel (.temp 63) = 1) ∧
    (State.reset.boot.resetPending = none) ∧
    (State.reset.boot.standby = true ∧ State.reset.boot.rim = true ∧ ({ standby := false, rim := false } : Boot).trialRun = none) := by decide +kernel

theorem witness_BringUp :
    (rfld (tReg State.reset 0x108 2) 0x108 4 1 = 0 ∧ rfld (tDue 5) 0x108 4 1 = 1 ∧ rfld State.reset 0x108 0 4 ≠ 2 ∧ (tReg State.reset 0x108 2).boot.resetPending = none) ∧
    (identityOk State.reset = true ∧ identityOk { State.reset with otp := [] } = false ∧ rfld State.reset 0x108 0 4 ≤ 1) ∧
    (stepDue (tDue 4) 4 = true ∧ stepDue State.reset 4 = false ∧ (tDue 4).boot.src = false ∧ (bankOrder (tDue 4)).find? (fun k => if k == 0 then true else true) = none ∧ ({ target := 10, src := true } : Boot).mboxDone = false) ∧
    (stepDue (tDue 5) 5 = true ∧ stepDue State.reset 5 = false ∧ regionLost { tDue 5 with otp := [] } 15 = false) ∧
    (stepDue (tDue 6) 6 = true ∧ stepDue State.reset 6 = false ∧ CarrierLink.wellHead 0 ∉ (tDue 6).boot.linksDown) ∧
    (stepDue (tDue 7) 7 = true ∧ (tDue 7).chans = [] ∧ stepDue (tDue 8) 8 = true ∧ genInUse { tDue 8 with otp := [] } = none) ∧
    (genInUse { tDue 8 with djOver := [2 ^ 31 + 2 * 2 ^ 27 + 5 * 2 ^ 21] } ≠ none ∧ defectEntries { tDue 8 with djOver := [2 ^ 31 + 2 * 2 ^ 27 + 5 * 2 ^ 21] } = [2 ^ 31 + 2 * 2 ^ 27 + 5 * 2 ^ 21]) ∧
    (stepDue (tDue 9) 9 = true ∧ pcoreState (tDue 9) 63 263 ≠ 2 ∧ (tileOf (tDue 9) 63).fenced = false) ∧
    (stepDue (tDue 10) 10 = true ∧ ({ tDue 10 with boot := { target := 10, cxlUp := false } } : State).boot.lastWarm = false ∧ bankBase 1 = 0x4000000) ∧
    (fwRuns State.reset = false ∧ fwRuns (tDue 6) = true ∧ State.reset.boot.wdogArmed = false) := by decide +kernel

theorem witness_ResetCausesAndResets :
    (State.reset.boot.resetPending = none ∧ (tReset .cold).boot.resetPending = some .cold ∧ (tReset .warm).boot.resetPending = some .warm ∧ rfld State.reset 0x108 0 4 < 4 ∧ 4 ≤ rfld (tDue 6) 0x108 0 4) ∧
    ((tReset .warm).boot.dumped = true ∧ dumpDue { tReset .warm with boot := { resetPending := some .warm, past7 := true } } = true) ∧
    (State.reset.boot.resetPending ≠ some .cold) := by decide +kernel

theorem witness_Dumps :
    (dumpDue State.reset = false ∧ dumpDue { State.reset with boot := { resetPending := some .warm, past7 := true } } = true ∧ ({ resetPending := some .warm, past7 := true } : Boot).dumped = false) ∧
    ((0 : W32).getLsbD 0 = false ∧ (1 : W32).getLsbD 0 = true ∧ rfld State.reset 0x108 0 4 < 7) ∧
    (¬ (rfld (rput64 tSeven (rDG 0x18) 0x400000000000) 0x108 0 4 < 7 ∨ rfld (rput64 tSeven (rDG 0x18) 0x400000000000) (rDG 0x28) 0 1 = 1 ∨ rget64 (rput64 tSeven (rDG 0x18) 0x400000000000) (rDG 0x10) % 64 ≠ 0 ∨ rget64 (rput64 tSeven (rDG 0x18) 0x400000000000) (rDG 0x18) < 0x400000000000)) ∧
    (rfld tDump (rDG 0x28) 0 1 = 1 ∧ tDump.boot.cxlUp = true ∧ tDump.boot.copy = (64, 0x400000000000, 64 * 1) ∧ chanState tDump ((64 + 64 * 0) / 25165824) = 0 ∧ rfld State.reset (rDG 0x28) 0 1 = 0) ∧
    (rfld (rsetf tDump (rChan 0) 0 2 1) (rDG 0x28) 0 1 = 1 ∧ chanState (rsetf tDump (rChan 0) 0 2 1) ((64 + 64 * 0) / 25165824) ≠ 0) ∧
    ((5 : W32).getLsbD 0 = true) := by decide +kernel

theorem witness_FirmwareAndAttestation :
    ((0 : W32).toNat % 4 ≠ 1 ∧ (5 : W32).toNat % 4 = 1 ∧ rfld (tReg tFw (rFW 0x20) 1) (rFW 0x20) 0 1 = 1 ∧ rfld tFw (rFW 0x20) 0 1 = 0 ∧ ready State.reset = false ∧ ready tFw = true ∧ tFw.boot.fwHost.isSome ∧ applyRefusal tFw (readPkg tFw) = some 0x1801) ∧
    (State.reset.boot.applyPkg = none ∧ pkgImage (runningImage tFw) (leBytes 16 256 ++ leBytes 24 384 ++ List.replicate 344 0) = some []) ∧
    ((1 : W32).toNat % 4 ≠ 2 ∧ (2 : W32).toNat % 4 = 2 ∧ bankState { tFw with boot := {}, flash := [(0, 0x3F)] } 0 = 2 ∧ fwRuns { tFw with boot := {}, flash := [(0, 0x3F)] } = true) ∧
    (takesChunks State.reset = false ∧ takesChunks tRec = true ∧ tRec.boot.mboxBy = none ∧ bitsAt (0x1000 : W32).toNat 0 13 = 4096 ∧ bitsAt (0x1FFF : W32).toNat 0 13 = 8191 ∧ tRec.boot.mboxDone = false) ∧
    ((0x400000000040 : Nat) % 64 = 0 ∧ rget64 (rput64 State.reset (rFW 0x220) 0x400000000040) (rFW 0x220) = 0x400000000040 ∧ attCtxs State.reset = []) := by decide +kernel

theorem witness_RegistersAndTap :
    (regRow? 0x10C ≠ none ∧ blockOpen State.reset 0x10C = true ∧ writeActs 0x10C 50 State.reset = none ∧ (regRow? 0x10C).map (·.pair) = some 0 ∧ rwOk 0x10C 50 = true ∧ rwOk 0x10C 9 = false ∧ regRow? 0x1FC = none ∧ blockOpen State.reset 0x800100 = false) ∧
    ((regRow? 0x124).map (·.pair) = some 1 ∧ (regRow? 0x128).map (·.pair) = some 2 ∧ fget? (0x128 - 4) ({ State.reset with rlatch := [(0x124, 7)] } : State).rlatch = some 7 ∧ (regRow? 0x108).map (·.pair) = some 0) ∧
    (State.reset.boot.standby = true) := by decide +kernel

theorem witness_BlockCodeRoundTrip :
    (tFields.fmt < 2 ^ 8 ∧ tFields.nblk < 2 ^ 8 ∧ tFields.vbytes < 2 ^ 16 ∧ tFields.gen < 2 ^ 16 ∧ tFields.ctx < 2 ^ 8 ∧ tFields.pslot < 2 ^ 8 ∧ tFields.plcid < 2 ^ 32 ∧ tFields.preplay < 2 ^ 32 ∧ tFields.pseq < 2 ^ 64 ∧ tFields.bidx < 2 ^ 64 ∧ tFields.wgen < 2 ^ 16 ∧ tFields.pord < 2 ^ 32 ∧ tFields.payload.length = 4096) := by decide +kernel

theorem witness_FormatRoundTrip :
    (0x7E < 2 ^ e4m3.width ∧ (e4m3.decode 0x7E).isFin = true ∧ 0x80 < 2 ^ e4m3.width ∧ (e4m3.decode 0x80).isFin = true) := by decide +kernel

theorem witness_QuietMirrorLinesAreStable :
    (0 ∈ tLines.presence ∧ 0 ∉ tLines.snoops ∧ 0 ∈ (stepped tLines).presence ∧ 0 ∉ (stepped tLines).snoops) := by decide +kernel

theorem witness_MemoryStaysCanonical :
    (Memory.wf memDefault (tReset .warm).mem = true) := by decide +kernel

/-! ## A command that no sender can form is not well-formed -/

theorem test_wf_stream : streamOk ⟨16383, 2⟩ = true ∧ streamOk ⟨16384, 0⟩ = false ∧ streamOk ⟨0, 3⟩ = false := by decide

theorem test_wf_tags : tagsOk ⟨0, 0, 0, 0⟩ = true ∧ tagsOk ⟨16384, 0, 0, 0⟩ = false ∧ tagsOk ⟨0, 3, 0, 0⟩ = false ∧
    tagsOk ⟨0, 0, 2 ^ 64, 0⟩ = false ∧ tagsOk ⟨0, 0, 0, 2 ^ 32⟩ = false := by decide

theorem test_wf_block : blockOk {} = true ∧ blockOk { fmt := 256 } = false ∧ blockOk { nblk := 241 } = false ∧
    blockOk { vbytes := 4097 } = false ∧ blockOk { gen := 2 ^ 16 } = false ∧ blockOk { ctx := 64 } = false ∧
    blockOk { pslot := 4 } = false ∧ blockOk { plcid := 2 ^ 32 } = false ∧ blockOk { preplay := 2 ^ 32 } = false ∧
    blockOk { pseq := 2 ^ 64 } = false ∧ blockOk { bidx := 2 ^ 64 } = false ∧ blockOk { wgen := 2 ^ 16 } = false ∧
    blockOk { pord := 2 ^ 32 } = false ∧ blockOk { payload := List.replicate 4097 0 } = false := by decide +kernel

theorem test_wf_memory_request : memReqOk (.load ⟨0, 3⟩ 0 ⟨0, 1⟩) = false ∧ memReqOk (.store 0 [(2 ^ 64 - 1, [0, 0])] ⟨0, 1⟩) = false ∧
    memReqOk (.block { unit := 88, job := 0, dest := .range 0, st := ⟨0, 1⟩ } {}) = false := by decide +kernel

theorem test_wf_frame : frameOk {} = true ∧ frameOk { dmod := 0xFFFF } = true ∧ frameOk { dmod := 1024 } = false ∧
    frameOk { smod := 1024 } = false ∧ frameOk { ty := 7 } = false ∧ frameOk { hops := 5 } = false ∧
    frameOk { cgen := 2 ^ 16 } = false ∧ frameOk { lseq := 2 ^ 32 } = false ∧ frameOk { lack := 2 ^ 32 } = false ∧
    frameOk { dseq := 2 ^ 32 } = false ∧ frameOk { term := 2 ^ 16 } = false ∧ frameOk { win := 256 } = false ∧
    frameOk { wblk := 2 ^ 32 } = false := by decide +kernel

theorem test_wf_units : linkOk (.mesh 2 0 0 0) = false ∧ linkOk (.edge 0 24 0) = false ∧ linkOk (.wellHead 24) = false ∧
    linkOk (.seam 0 128 true) = false ∧ linkOk (.stack 96 0) = false ∧ linkOk (.stack 0 4) = false ∧ causeOk (.temp 64) = false ∧ causeOk (.volt 16) = false ∧
    katOk (.core 64 0) = false ∧ katOk (.well 0 264) = false ∧ katOk (.cistern 24) = false ∧ katOk (.port 64) = false := by decide

theorem test_wf_core_commands : Instr.wf (.add ⟨0, 3⟩ {}) = false ∧ Instr.wf (.ld ⟨16384, 0⟩ {} []) = false ∧
    Instr.wf (.faultReport ⟨0, 0⟩ 65536 ⟨0, 1⟩) = false ∧ Instr.wf (.soSignalArrive 65536 0 ⟨.head, ⟨0, 1⟩⟩) = false ∧ Instr.wf (.soSignalArrive 0 0 ⟨(.core 16384), ⟨0, 1⟩⟩) = false ∧
    Instr.wf (.coreFailure 0 0 6) = false ∧ Instr.wf (.coreFailure 0 0 0) = false ∧ Instr.wf (.gatherLineFlush 0 65536 []) = false ∧
    Instr.wf (.tileFailure 64) = false ∧ Instr.wf (.pumpDescriptorEnd 88 0 0) = false := by decide +kernel

theorem test_wf_block_commands : Instr.wf (.cisternAmoadd 0 0 4 ⟨.int64, 0⟩ ⟨0, 1⟩ []) = false ∧ Instr.wf (.zeroFill 64 0 0) = false ∧
    Instr.wf (.csChanRetire 0 16 0) = false ∧ Instr.wf (.entryAcceptance ⟨64, []⟩) = false ∧ Instr.wf (.bind 0 (2 ^ 64)) = false ∧
    Instr.wf (.layerUpdate 0 0 []) = false ∧ Instr.wf (.settle 0 ⟨4097, []⟩) = false ∧ Instr.wf (.laneFail 0 9) = false ∧
    Instr.wf (.moduleLost 1024) = false ∧ Instr.wf (.fnCtrlEn 256) = false ∧ Instr.wf (.fnSetWrite 0 64 0) = false ∧
    Instr.wf (.panelModeChange 2) = false := by decide +kernel

theorem test_wf_host_commands : Instr.wf (.tailLineInvalidate 0 [] []) = false ∧ Instr.wf (.stagingRead 63 2 []) = false ∧
    Instr.wf (.mirrorRead 1024) = false ∧ Instr.wf (.mirrorWrite 65536) = false ∧ Instr.wf (.registerPairRead ⟨0x4000000, 4⟩) = false ∧
    Instr.wf (.hcRingConfigWrite 0 0x30 0) = false ∧ Instr.wf (.powerControllerSample [] 0 ⟨0, 0, 0, 0⟩) = false ∧
    Instr.wf (.registerWrite 4 3 0) = false ∧ Instr.wf (.registerWrite 0x4000000 4 0) = false ∧
    Instr.wf (.mctpAttestation []) = false ∧ Instr.wf (.regionPowerUp [] 0) = false := by decide +kernel

/-! ## The examples of the spec -/

/-- The state after a command. -/
def after (c : Instr) (s : State) : State := match exec c s with | .next t => t | _ => s

/-- The module example: T(5,6) is tile 46 in PR11, and its register block starts at 0x12E_0000. -/
theorem test_tile_46 : regionOfTile 46 = 11 ∧ rTL 46 0 = 0x12E0000 := by decide

/-- R33: the packing example of FP6 E2M3. -/
theorem test_fp6_packing : packElems 6 [0x08, 0x24, 0x1F, 0x00] = [0x08, 0xF9, 0x01] ∧ elemAt 6 [0x08, 0xF9, 0x01] 2 = 0x1F ∧
    e2m3.decode 0x1F = .fin false 15 (-1) := by decide +kernel

/-- R36: the quantising example, amax 1,000 with E4M3 elements. -/
theorem test_mx_quantise : scaleByte (.fp e4m3) [.fin false 1000 0, .fin false 33 (-3)] = (0x80, false) ∧
    e4m3.encode .rne (.fin false 500 0) = (0x7E, { ov := true, nx := true }) := by decide +kernel

/-- R40: the draw example, 1.3 to E2M1 with the draw 0x4000_0000 is 1.5, and with a draw not below the threshold 1.0. -/
theorem test_stochastic : (e2m1.encode (.sr 0x40000000) (f32.decode 0x3FA66666)).1 = 3 ∧
    (e2m1.encode (.sr 0x99999800) (f32.decode 0x3FA66666)).1 = 2 := by decide +kernel

/-- R39: E4M3 450 and 470. -/
theorem test_e4m3_overflow : e4m3.encode .rne (.fin false 450 0) = (0x7E, { nx := true }) ∧
    e4m3.encode .rne (.fin false 470 0) = (0x7E, { ov := true, nx := true }) := by decide +kernel

/-- The E4M3 to E5M2 tie: 1.125 becomes 1.0. -/
theorem test_e4m3_to_e5m2 : (e5m2.encode .rne (e4m3.decode 0x39)).1 = 0x3C := by decide +kernel

/-- R45: the block-sum example, 30 × 2^-18 with the two large products cancelled. -/
theorem test_block_sum : blockExact (.fin false 200704 0 :: .fin true 200704 0 :: List.replicate 30 (.fin false 1 (-18))) 0 = 0x38F00000 := by
  decide +kernel

/-- R52: the compensated mode on the cancellation example. -/
theorem test_compensated : kcValue ([0x4B800000, 0x3F400000, 0xCB800000].foldl kcStep (0, 0)) = 0x3F400000 := by decide +kernel

/-- R93: the narrowing example on logical core 11,800, and the request beyond the narrowed length. -/
theorem test_bnar :
    let b : BPair := { base := 0x100B86000000, len := 0x400000, r := true, w := true, x := false }
    let s := tS { (tArch.sput 3 0x100000).sput 4 0x80000 with b := tArch.b.set 1 b }
    let t := after (.bnar tU { dst := 1, src1 := 3, src2 := 4 }) s
    ((archOf t tU).b[1].base, (archOf t tU).b[1].len) = (0x100B86100000, 0x80000) ∧
    (slotOf (after (.bnar tU { dst := 1, src1 := 3, src2 := 3 }) t) tU).fstat = 0x2003 := by decide +kernel

/-- The panel example: element (45, 85) and the scale of row 45, block 2, of an MXFP8 panel with M = 128 and K = 96. -/
theorem test_panel_offsets : (⟨0x40000, 128, 96, 8, true⟩ : Panel).elemOff 45 85 = 0x415BD ∧
    (⟨0x40000, 128, 96, 8, true⟩ : Panel).scaleOff 45 2 = 0x430AD := by decide +kernel

/-- R147: `vshuf.dn` by 4 with VL 20: lanes 16 to 19 become zero and set pix, lanes from 20 on stay. -/
theorem test_vshuf_dn :
    let s := tS { tV 100 0 with vl := 20 }
    let t := archOf (after (.vshuf tU { dst := 4, src1 := 2, mod := 1, imm := 4 }) s) tU
    (lane (t.vget 4) 0, lane (t.vget 4) 15, lane (t.vget 4) 16, lane (t.vget 4) 20) = (104, 119, 0, 0) := by decide +kernel

/-- R154: the softmax example, `rscale` of a block with amax 0.3 (E4M3). -/
theorem test_rscale :
    (archOf (after (.rscale tU { dst := 4, src1 := 2 }) (tS (tArch.vput 2 (Vector.replicate 32 0x3E99999A)))) tU).sget 4 = 117 := by
  decide +kernel

/-- R205: the check value of the nine bytes "123456789". -/
theorem test_crc : crc32c ([0x31, 0x32, 0x33, 0x34, 0x35, 0x36, 0x37, 0x38, 0x39] : List W8) = 0xE3069283 := by decide +kernel

/-- R209: the address example lies in channel 1 of stack 2, register CS_CHAN_9 of CN0. -/
theorem test_channel : chanOf 0x1200042000 = 9 ∧ rChan 9 = 0x800124 := by decide

/-- R225: the entry of the retirement example, 0x8120_0042, belongs to channel 1 of stack 2. -/
theorem test_retirement : mrChan 0x81200042 = 9 ∧ bitsAt 0x81200042 0 23 = 0x200042 ∧ bitAt 0x81200042 31 = true := by decide +kernel

/-- R277: the clip example, 1.0 over 2.5 is 0.4. -/
theorem test_clip : clipOf 2 0x3F800000 0x4004000000000000 = 0x3ECCCCCD ∧ clipOf 2 0x40400000 0x4004000000000000 = 0x3F800000 := by
  decide +kernel

/-- R278: the tap example, margin 1 and H = 0.0213 give 140; a non-finite element takes one off the old entry. -/
theorem test_tap_scale :
    let p : Pattern := { upd := [0, 0, 1, 1, 0, 0, 0, 0, 0, 0, 0, 0, 0, 0, 0, 0] }
    (scaleEntry p 0 { a := 0x3CAE7D56 } 9 []).2 = some 140 ∧ (scaleEntry p 0 { f := 1 } 9 []).2 = some 8 := by decide +kernel

/-- R285: the loss example has a tolerance of 3.94 × 10^-4; one contribution leaves none. -/
theorem test_loss_tolerance : lossClose 0x3F800CCD 0x3F800000 0x4251999A 0x3F800000 64 = true ∧
    lossClose 0x3F800D80 0x3F800000 0x4251999A 0x3F800000 64 = false ∧ lossClose 0x3F800001 0x3F800000 0x4251999A 0x3F800000 1 = false := by
  decide +kernel

/-! ## Single commands -/

/-- The value of s1 after a command on s2 and s3. -/
def s1After (c : Instr) (x y : W64) : W64 := (archOf (after c (tS (tA x y))) tU).sget 1

/-- R95: wrapping, signed and unsigned orders, shifts by the low six bits. -/
theorem test_scalar : s1After (.add tU tF) 0xFFFFFFFFFFFFFFFF 2 = 1 ∧ s1After (.sra tU tF) 0x8000000000000000 68 = 0xF800000000000000 ∧
    s1After (.slt tU tF) 0xFFFFFFFFFFFFFFFF 0 = 1 ∧ s1After (.sltu tU tF) 0xFFFFFFFFFFFFFFFF 0 = 0 ∧
    s1After (.mulh tU tF) 0xFFFFFFFFFFFFFFFF 1 = 0xFFFFFFFFFFFFFFFF ∧ s1After (.mulhu tU tF) 0xFFFFFFFFFFFFFFFF 2 = 1 := by decide +kernel

/-- The pc advances by 8 and s0 stays zero. -/
theorem test_s0 : (archOf (after (.add tU { tF with dst := 0 }) (tS (tA 1 2))) tU).sget 0 = 0 ∧
    (archOf (after (.add tU { tF with dst := 0 }) (tS (tA 1 2))) tU).pc = 8 := by decide +kernel

/-- A far load waits for its data, little-endian and sign-extended when it comes. -/
theorem test_load_return :
    (archOf (after (.loadReturn tU 4) (tS tArch)) tU).sget 1 = 0 ∧
    (archOf (after (.loadReturn tU 4) (tRun (tCore { tSlot tArch with loads := [tLoad] }))) tU).sget 1 = 0x04030201 := by decide +kernel

/-- R165: a store to the own well is visible at its address, low byte first. -/
theorem test_store :
    let t := after (.st tU { src1 := 2, src2 := 3, mod := 8 } []) (tS (tA 0x40 0x11223344))
    (cellGet memDefault 0x100000000040 t.mem, cellGet memDefault 0x100000000043 t.mem) = (0x44, 0x11) := by decide +kernel

/-- R30: 1.0 + 1.5 is 2.5 and the bits of a sum that needs rounding follow RNE. -/
theorem test_float : add32 0x3F800000 0x3FC00000 = 0x40200000 ∧ add32 0x4B800000 0x3F800000 = 0x4B800000 ∧
    (f32.divB .rne 0x3F800000 0).2.dz = true ∧ mul32 0x7F7FFFFF 0x40000000 = 0x7F800000 := by decide +kernel

/-- The table gives no row bits: no word spells a command. -/
theorem test_decode_none : decodeTableWord 32 0 = none := rfl

end Sys2Proof.Tests
end

section
/-! SUPPORT. Bits and fields of numbers, reads of registers after writes, and what a command outside the streams shows. -/

namespace Sys2Proof.Machine

/-! ## Bits of a number -/

theorem bitAt_eq_testBit (v i : Nat) : bitAt v i = v.testBit i := by
  rw [bitAt, Nat.testBit_eq_decide_div_mod_eq, beq_eq_decide]

/-- Numbers without a common bit add without a carry. -/
theorem add_eq_or_of_and_eq_zero {a b : Nat} (h : a &&& b = 0) : a + b = a ||| b := by
  have hlt : a + b < 2 ^ (a + b) := Nat.lt_two_pow_self
  have hand : BitVec.ofNat (a + b) a &&& BitVec.ofNat (a + b) b = 0#(a + b) := by
    rw [← BitVec.ofNat_and, h]
  have hsum := congrArg BitVec.toNat (BitVec.add_eq_or_of_and_eq_zero _ _ hand)
  rw [← BitVec.ofNat_add, ← BitVec.ofNat_or, BitVec.toNat_ofNat, BitVec.toNat_ofNat, Nat.mod_eq_of_lt hlt] at hsum
  have hor : a ||| b < 2 ^ (a + b) := Nat.or_lt_two_pow (by omega) (by omega)
  rwa [Nat.mod_eq_of_lt hor] at hsum

/-- Taking the bits of a mask off a number clears them. -/
theorem sub_and_eq_ldiff (a m : Nat) : a - (a &&& m) = a.ldiff m := by
  have hdisj : (a &&& m) &&& a.ldiff m = 0 := by
    refine Nat.eq_of_testBit_eq fun i => ?_
    rw [Nat.testBit_and, Nat.testBit_and, Nat.testBit_ldiff, Nat.zero_testBit]
    cases a.testBit i <;> cases m.testBit i <;> rfl
  have hunion : (a &&& m) ||| a.ldiff m = a := by
    refine Nat.eq_of_testBit_eq fun i => ?_
    rw [Nat.testBit_or, Nat.testBit_and, Nat.testBit_ldiff]
    cases a.testBit i <;> cases m.testBit i <;> rfl
  have hsum := add_eq_or_of_and_eq_zero hdisj
  omega

/-- A masked replacement takes each bit of the mask from the new value and every other bit from the old one. -/
theorem testBit_replace (old new m i : Nat) :
    (old - (old &&& m) + (new &&& m)).testBit i = if m.testBit i then new.testBit i else old.testBit i := by
  rw [sub_and_eq_ldiff]
  have hdisj : old.ldiff m &&& (new &&& m) = 0 := by
    refine Nat.eq_of_testBit_eq fun i => ?_
    rw [Nat.testBit_and, Nat.testBit_and, Nat.testBit_ldiff, Nat.zero_testBit]
    cases m.testBit i <;> simp
  rw [add_eq_or_of_and_eq_zero hdisj, Nat.testBit_or, Nat.testBit_and, Nat.testBit_ldiff]
  cases m.testBit i <;> simp

theorem testBit_bitsAt (v lo w i : Nat) : (bitsAt v lo w).testBit i = (decide (i < w) && v.testBit (lo + i)) := by
  rw [bitsAt, Nat.testBit_mod_two_pow, Nat.testBit_div_two_pow, Nat.add_comm i lo]

/-- A field in place is the number under the field's mask. -/
theorem bitsAt_mul_eq_and (v lo w : Nat) : bitsAt v lo w * 2 ^ lo = v &&& (2 ^ w - 1) <<< lo := by
  refine Nat.eq_of_testBit_eq fun i => ?_
  rw [Nat.testBit_mul_two_pow, testBit_bitsAt, Nat.testBit_and, Nat.testBit_shiftLeft, Nat.testBit_two_pow_sub_one]
  by_cases h : lo ≤ i
  · simp [h, Bool.and_comm]
  · simp [h]

/-- Replacing a field changes the field's bits and no other. -/
theorem testBit_putBits (v lo w x i : Nat) : (putBits v lo w x).testBit i =
    if lo ≤ i ∧ i < lo + w then x.testBit (i - lo) else v.testBit i := by
  have hx : x % 2 ^ w * 2 ^ lo = (x <<< lo) &&& (2 ^ w - 1) <<< lo := by
    rw [← bitsAt_mul_eq_and, bitsAt, Nat.shiftLeft_eq, Nat.mul_div_cancel _ (Nat.two_pow_pos lo)]
  rw [putBits, bitsAt_mul_eq_and, hx, testBit_replace, Nat.testBit_shiftLeft, Nat.testBit_shiftLeft, Nat.testBit_two_pow_sub_one]
  by_cases h : lo ≤ i
  · have hw : i - lo < w ↔ i < lo + w := by omega
    simp [h, hw]
  · simp [h]

theorem bitsAt_lt (v lo w : Nat) : bitsAt v lo w < 2 ^ w := Nat.mod_lt _ (Nat.two_pow_pos w)

/-! ## Registers -/

theorem rget_rput_same (s : State) (o v : Nat) : rget (rput s o v) o = v % 2 ^ 32 := by
  simp [rget, rput]

theorem rget_rput_ne {k o : Nat} (h : k ≠ o) (s : State) (v : Nat) : rget (rput s o v) k = rget s k := by
  simp [rget, rput, fget?_fset_ne h]

/-- A field reads as what was put into it. -/
theorem rfld_rsetf_same (s : State) (o : Nat) {lo w : Nat} (h : lo + w ≤ 32) (v : Nat) :
    rfld (rsetf s o lo w v) o lo w = v % 2 ^ w := by
  refine Nat.eq_of_testBit_eq fun i => ?_
  rw [rfld, rsetf, rget_rput_same, testBit_bitsAt, Nat.testBit_mod_two_pow, testBit_putBits, Nat.testBit_mod_two_pow]
  by_cases hi : i < w
  · have h32 : lo + i < 32 := by omega
    simp [hi, h32]
  · simp [hi]

/-- Another field of the register keeps its value. -/
theorem rfld_rsetf_apart (s : State) (o : Nat) {lo w k n : Nat} (hk : k + n ≤ 32) (h : k + n ≤ lo ∨ lo + w ≤ k) (v : Nat) :
    rfld (rsetf s o lo w v) o k n = rfld s o k n := by
  refine Nat.eq_of_testBit_eq fun i => ?_
  rw [rfld, rfld, rsetf, rget_rput_same, testBit_bitsAt, Nat.testBit_mod_two_pow, testBit_putBits, testBit_bitsAt]
  by_cases hi : i < n
  · have h32 : k + i < 32 := by omega
    have hout : ¬(lo ≤ k + i ∧ k + i < lo + w) := by omega
    simp [hi, h32, hout]
  · simp [hi]

theorem rget_rsetf_ne {k o : Nat} (h : k ≠ o) (s : State) (lo w v : Nat) : rget (rsetf s o lo w v) k = rget s k :=
  rget_rput_ne h s _

theorem rfld_rsetf_ne {k o : Nat} (h : k ≠ o) (s : State) (lo w v a n : Nat) :
    rfld (rsetf s o lo w v) k a n = rfld s k a n := by
  rw [rfld, rget_rsetf_ne h, rfld]

theorem rget64_rsetf_ne {k o : Nat} (h : k ≠ o) (h4 : k + 4 ≠ o) (s : State) (lo w v : Nat) :
    rget64 (rsetf s o lo w v) k = rget64 s k := by
  rw [rget64, rget_rsetf_ne h, rget_rsetf_ne h4, rget64]

/-- A pair of registers reads as the 64-bit number that was put into it. -/
theorem rget64_rput64 (s : State) (o : Nat) {v : Nat} (h : v < 2 ^ 64) : rget64 (rput64 s o v) o = v := by
  rw [rget64, rput64, rget_rput_same, rget_rput_ne (by omega), rget_rput_same]
  omega

/-- Registers read the same in states with the same registers. -/
theorem rget_congr {s t : State} (h : t.regs = s.regs) (o : Nat) : rget t o = rget s o := by
  rw [rget, rget, h]

theorem rfld_congr {s t : State} (h : t.regs = s.regs) (o lo w : Nat) : rfld t o lo w = rfld s o lo w := by
  rw [rfld, rget_congr h, rfld]

/-! ## What a command shows -/

/-- A command outside the cores' streams shows what its effect changes. -/
theorem shown_eq {f : State → State} {s t : State} (h : f s = t) : shown f s = .next (publish s t) := by
  rw [shown, h]

end Sys2Proof.Machine
end

section
/-! SUPPORT. Runs of bytes, the regions of the address space and the host rings. -/

namespace Sys2Proof.Machine

/-! ## Runs of bytes -/

theorem mem_atAddr {a : Nat} {bs : List W8} {e : Nat × W8} (h : e ∈ atAddr a bs) : a ≤ e.1 ∧ e.1 < a + bs.length := by
  induction bs generalizing a with
  | nil => simp [atAddr] at h
  | cons b r ih =>
    rcases List.mem_cons.mp h with rfl | h
    · simp
    · have := ih h
      simp only [List.length_cons]
      omega

/-- Every address of a run of bytes is one of its places. -/
theorem exists_mem_atAddr (a : Nat) (bs : List W8) {x : Nat} (h1 : a ≤ x) (h2 : x < a + bs.length) : ∃ e ∈ atAddr a bs, e.1 = x := by
  induction bs generalizing a with
  | nil => simp at h2; omega
  | cons b r ih =>
    by_cases hx : x = a
    · exact ⟨(a, b), List.mem_cons_self, hx.symm⟩
    · obtain ⟨e, he, hex⟩ := ih (a + 1) (by omega) (by simp only [List.length_cons] at h2; omega)
      exact ⟨e, List.mem_cons_of_mem _ he, hex⟩

/-- A run of bytes reads back as it was written. -/
theorem cellGet_cellSets_atAddr (d : W8) (a : Nat) (bs : List W8) (m : List Host.Cell) :
    (span a bs.length).map (fun x => cellGet d x (cellSets d (atAddr a bs) m)) = bs := by
  induction bs generalizing a m with
  | nil => rfl
  | cons b r ih =>
    have hspan : span a (r.length + 1) = a :: span (a + 1) r.length := by
      simp [span, List.range_succ_eq_map, Function.comp_def, Nat.add_comm 1, Nat.add_assoc]
    have hset : cellSets d (atAddr a (b :: r)) m = cellSets d (atAddr (a + 1) r) (cellSet d a b m) := rfl
    have hhead : cellGet d a (cellSets d (atAddr (a + 1) r) (cellSet d a b m)) = b := by
      rw [cellGet_cellSets_ne d a _ _ fun e he => by have := mem_atAddr he; omega, cellGet_cellSet_same]
    rw [List.length_cons, hspan, List.map_cons, hset, hhead, ih]

/-- A run of bytes begins with the shorter run. -/
theorem take_bytesAt (s : State) (a : Nat) {k n : Nat} (h : k ≤ n) : (bytesAt s a n).take k = bytesAt s a k := by
  rw [bytesAt, bytesAt, span, span, ← List.map_take, ← List.map_take, List.take_range, Nat.min_eq_left h]

theorem mem_span {a n x : Nat} : x ∈ span a n ↔ a ≤ x ∧ x < a + n := by
  simp only [span, List.mem_map, List.mem_range]
  exact ⟨fun ⟨i, hi, hx⟩ => by omega, fun h => ⟨x - a, by omega, by omega⟩⟩

/-! ## Where an address lies -/

/-- Table 4.7: host memory. -/
theorem regionOf_host (s : State) {x : Nat} (h1 : 0x400000000000 ≤ x) (h2 : x < 0x800000000000) : regionOf s x = .host := by
  have hlp : ¬ x < 96 * 0x800000000 := by omega
  have hwell : ¬ (0x100000000000 ≤ x ∧ x < wellBase 16384) := by simp only [wellBase]; omega
  simp [regionOf, hlp, hwell, h1, h2]

/-- Table 4.7: when an address lies in LPDDR. -/
theorem regionOf_eq_lpddr {s : State} {x c : Nat} (h : regionOf s x = .lpddr c) :
    x < 96 * 0x800000000 ∧ x % 0x800000000 < 0x780000000 ∧ chanState s (chanOf x) ≠ 2 ∧ chanOf x = c := by
  unfold regionOf at h
  split at h
  · rename_i hx
    split at h
    · rename_i hq
      simp only [Bool.and_eq_true, decide_eq_true_eq, bne_iff_ne] at hq
      exact ⟨hx, hq.1, hq.2, Region.lpddr.inj h⟩
    · nomatch h
  · split at h
    · nomatch h
    · split at h <;> nomatch h

/-- R209: the bytes of a line lie in one channel. -/
theorem regionOf_line {s : State} {x y c : Nat} (h : regionOf s x = .lpddr c) (hl : y / 64 = x / 64) : regionOf s y = .lpddr c := by
  obtain ⟨hx, hq, hs, hc⟩ := regionOf_eq_lpddr h
  have hch : chanOf y = chanOf x := by simp only [chanOf]; omega
  have hy : y < 96 * 0x800000000 := by omega
  have hyq : y % 0x800000000 < 0x780000000 := by omega
  rw [hc] at hs
  simp [regionOf, hy, hyq, hch, hc, hs]

/-- A byte of host memory that is not poisoned reads as memory holds it. -/
theorem byteAt_host {s : State} {x : Nat} (hr : regionOf s x = .host) (hp : x / 64 ∉ s.hostPoison) :
    byteAt s x = cellGet memDefault x s.mem := by
  simp [byteAt, badAt, hr, hp]

/-- A byte of LPDDR on an active channel that is not poisoned reads as memory holds it. -/
theorem byteAt_lpddr {s : State} {x c : Nat} (hr : regionOf s x = .lpddr c) (hs : chanState s c = 0) (hp : x / 64 ∉ s.lpPoison) :
    byteAt s x = cellGet memDefault x s.mem := by
  simp [byteAt, badAt, hr, hs, hp]

/-! ## Rings -/

@[simp] theorem hringOf_putHring (s : State) (r : Nat) (h : HRing) : hringOf (putHring s r h) r = h := by
  simp [hringOf, putHring]

@[simp] theorem putHring_regs (s : State) (r : Nat) (h : HRing) : (putHring s r h).regs = s.regs := rfl
@[simp] theorem putHring_mem (s : State) (r : Nat) (h : HRing) : (putHring s r h).mem = s.mem := rfl
@[simp] theorem putHring_cores (s : State) (r : Nat) (h : HRing) : (putHring s r h).cores = s.cores := rfl
@[simp] theorem putHring_boot (s : State) (r : Nat) (h : HRing) : (putHring s r h).boot = s.boot := rfl

/-- R383: reading a tail line changes the ring's tail alone, and only upwards of the next sequence number. -/
theorem readTail_eq (s : State) (r : Nat) : readTail s r = s ∨
    readTail s r = putHring s r { hringOf s r with tail := leNat (bytesAt s (rget64 s (rHC r 8)) 8) } := by
  unfold readTail
  simp only
  split
  · exact .inl rfl
  · exact .inr rfl

end Sys2Proof.Machine
end

section
/-! PROOFS. The state after reset: O55. -/

namespace Sys2Proof.Machine

/-- At reset every register but WH_RST_CAUSE holds its reset value. -/
theorem rget_reset {o : Nat} (h : o ≠ 0x114) : rget State.reset o = regReset o := by
  simp [rget, State.reset, fget?, h]

/-- Table 13.11: at reset every context is EMPTY with binding generation 1. -/
theorem ctx_reset {n : Nat} (h : n < 64) : ctxState State.reset n = 0 ∧ ctxGen State.reset n = 1 := by
  have hreg : ∀ n < 64, regReset (rFnCtx n) = 0x10000 := by decide +kernel
  have hne : rFnCtx n ≠ 0x114 := by simp only [rFnCtx, rFN]; omega
  simp [ctxState, ctxGen, rfld, rget_reset hne, hreg n h, bitsAt]

/-- Table 13.8: at reset functions 1 to 3 are ON and every other function is OFF. -/
theorem fnState_reset {f : Nat} (h : f < 192) : fnState State.reset f = if 1 ≤ f ∧ f ≤ 3 then 2 else 0 := by
  have hreg : ∀ f < 192, regReset (rFnStat f) = if 1 ≤ f ∧ f ≤ 3 then 2 else 0 := by decide +kernel
  have hne : rFnStat f ≠ 0x114 := by simp only [rFnStat, rFN]; omega
  rw [fnState, rfld, rget_reset hne, hreg f h]
  split <;> rfl

/-- R383: at reset every host ring is disabled. -/
theorem ringState_reset {r : Nat} (h : r < 64) : rfld State.reset (rHC r 0x24) 0 2 = 0 := by
  have hreg : ∀ r < 64, regReset (rHC r 0x24) = 0 := by decide +kernel
  have hne : rHC r 0x24 ≠ 0x114 := by simp only [rHC]; omega
  rw [rfld, rget_reset hne, hreg r h]
  rfl

/-- R60: at reset no slot is bound. -/
theorem slotOf_reset (u : StreamId) : (slotOf State.reset u).bound = false := by
  have hslots : ∀ i : Nat, (((({} : CoreSt).slots)[i]?).getD {}).bound = false := by
    intro i
    match i with
    | 0 | 1 | 2 => rfl
    | n + 3 => rw [Vector.getElem?_eq_none (by omega)]; rfl
  exact hslots u.slot

end Sys2Proof.Machine

namespace Sys2Proof.Proofs

open Sys2Proof.Machine

/-- Settles O55: each register of the claim is at its reset value (`rget_reset`), and no sparse part of the state has an entry.
The reset state is that of logs 3 to 6. -/
theorem resetState : Obligations.ResetState := by
  unfold Obligations.ResetState
  have hbring : rget State.reset 0x108 = 0 := by rw [rget_reset (by decide)]; decide +kernel
  have hreasons : rget State.reset 0x8000 = 0 := by rw [rget_reset (by decide)]; decide +kernel
  refine ⟨rfl, ?_, ?_, rfl, fun n => ctx_reset, fun f => fnState_reset, fun r => ringState_reset, slotOf_reset, fun _ => rfl, rfl, rfl,
    rfl, wf_reset.1, ?_, ?_⟩
  · simp [rfld, hbring, bitsAt]
  · simp [rfld, hbring, bitsAt]
  · simp [reasons, rfld, hreasons, bitsAt]
  · simp [ready, rfld, hbring, bitsAt]

end Sys2Proof.Proofs
end

section
/-! PROOFS. Register writes and reads, and the TAP: O54. -/

namespace Sys2Proof.Machine

/-! ## Access codes -/

/-- R14: no bit of a register is both RW and W1C. -/
theorem rw_w1c_disjoint {o : Nat} {r : RegRow} (h : regRow? o = some r) (i : Nat) :
    (r.rw.testBit i && r.w1c.testBit i) = false := by
  have hrows : ∀ r ∈ regRows, r.rw &&& r.w1c = 0 := by decide +kernel
  rw [← Nat.testBit_and, hrows r (List.mem_of_find?_eq_some h), Nat.zero_testBit]

/-- R14: each bit of a written register changes by its access code. -/
theorem bitAt_fieldWrite {r : RegRow} {o : Nat} (h : regRow? o = some r) (v : Nat) (s : State) {i : Nat} (hi : i < 32) :
    bitAt (rget (fieldWrite r o v s) o) i = (if bitAt r.rw i then bitAt v i
      else if bitAt r.w1c i && bitAt v i then false else bitAt (rget s o) i) := by
  have hdisj := rw_w1c_disjoint h i
  simp only [fieldWrite, rget_rput_same, bitAt_eq_testBit, Nat.testBit_mod_two_pow, hi, decide_true, Bool.true_and]
  rw [sub_and_eq_ldiff, Nat.testBit_ldiff, testBit_replace, Nat.testBit_and]
  cases hrw : r.rw.testBit i
  · cases r.w1c.testBit i <;> cases v.testBit i <;> simp
  · simp_all

/-! ## Register accesses -/

/-- R13: only an aligned 32-bit write acts. -/
theorem registerWrite_unaligned {o size : Nat} (h : size ≠ 4 ∨ o % 4 ≠ 0) (value : W64) (s : State) :
    exec (.registerWrite o size value) s = .next (publish s s) := by
  have hoff : (size == 4 && o % 4 == 0) = false := by
    rcases h with h | h <;> simp [h]
  exact shown_eq (if_neg (by simp [hoff]))

/-- An aligned 32-bit write is the register write of its low word. -/
theorem registerWrite_aligned {o size : Nat} (hs : size = 4) (ho : o % 4 = 0) (value : W64) (s : State) :
    exec (.registerWrite o size value) s = .next (publish s (regWrite o (value.toNat % 2 ^ 32) s)) :=
  shown_eq (if_pos (by simp [hs, ho]))

/-- R13, R427: where no register answers, a write is ignored. -/
theorem regWrite_closed {o : Nat} {s : State} (h : regRow? o = none ∨ blockOpen s o = false) (v : Nat) : regWrite o v s = s := by
  unfold regWrite
  rcases h with h | h
  · simp [h]
  · split <;> simp [h]

/-- R14, R16: a write of a register that does not act and is no half of a pair. -/
theorem regWrite_plain {o v : Nat} {s : State} {r : RegRow} (hr : regRow? o = some r) (hopen : blockOpen s o = true)
    (hact : writeActs o v s = none) (hpair : r.pair = 0) :
    regWrite o v s = if rwOk o v then fieldWrite r o v s else s := by
  simp [regWrite, hr, hopen, hact, hpair]

/-- R14: an aligned 32-bit write of a register that does not act changes its fields. -/
theorem registerWrite_fields {o size : Nat} (value : W64) {s : State} {r : RegRow} (hs : size = 4) (ho : o % 4 = 0)
    (hr : regRow? o = some r) (hopen : blockOpen s o = true) (hact : writeActs o (value.toNat % 2 ^ 32) s = none)
    (hpair : r.pair = 0) (hok : rwOk o (value.toNat % 2 ^ 32) = true) :
    exec (.registerWrite o size value) s = .next (publish s (fieldWrite r o (value.toNat % 2 ^ 32) s)) := by
  rw [registerWrite_aligned hs ho, regWrite_plain hr hopen hact hpair, if_pos hok]

section
variable {o : Nat} {s : State} {r : RegRow} (ho : o % 4 = 0) (hr : regRow? o = some r) (hopen : blockOpen s o = true)
include ho hr hopen

/-- R12: a read of a register that is no half of a pair. -/
theorem pairRead_single (hp : r.pair = 0) : pairRead o 4 s = answer s (leBytes 4 (regRead s o)) false := by
  simp [pairRead, ho, hr, hopen, hp]

/-- R12: a read of the low word fills the pair's latch with the high word. -/
theorem pairRead_low (hp : r.pair = 1) : pairRead o 4 s =
    answer { s with rlatch := fset o (BitVec.ofNat 32 (regRead s (o + 4))) s.rlatch } (leBytes 4 (regRead s o)) false := by
  simp [pairRead, ho, hr, hopen, hp]

/-- R12: a read of the high word gives what the latch holds, and empties it. -/
theorem pairRead_high (hp : r.pair = 2) {w : W32} (hw : fget? (o - 4) s.rlatch = some w) : pairRead o 4 s =
    answer { s with rlatch := ferase (o - 4) s.rlatch } (leBytes 4 w.toNat) false := by
  simp [pairRead, ho, hr, hopen, hp, hw]

end

/-- R13: any other read returns zeros. -/
theorem pairRead_unaligned {o n : Nat} (h : n ≠ 4 ∨ o % 4 ≠ 0) (s : State) :
    pairRead o n s = answer s (List.replicate n 0) false := by
  have hbad : (n != 4 || o % 4 != 0) = true := by simpa using h
  simp [pairRead, hbad]

/-- R13, R427: where no register answers, a read returns zero. -/
theorem pairRead_closed {o : Nat} {s : State} (h : regRow? o = none ∨ blockOpen s o = false) :
    pairRead o 4 s = answer s (leBytes 4 0) false := by
  by_cases ho : o % 4 = 0
  · rcases h with h | h
    · simp [pairRead, ho, h]
    · cases hr : regRow? o <;> simp [pairRead, ho, hr, h]
  · exact pairRead_unaligned (.inr ho) s

/-! ## The TAP -/

section
variable {s : State} (h : s.boot.standby = true ∨ s.boot.rim = true) (data : List Bool)
include h

theorem tap_powered : (!(s.boot.standby || s.boot.rim)) = false := by
  rcases h with h | h <;> simp [h]

/-- R413: the bypass register is one bit. -/
theorem tapRun_bypass : tapRun .bypass data s =
    answer (modBoot s fun b => { b with tapIr := .bypass }) (packBits (scanOut [false] data)) false := by
  simp [tapRun, tap_powered h]

/-- R413: the identification register holds IDCODE. -/
theorem tapRun_idcode : tapRun .idcode data s = answer (modBoot s fun b => { b with tapIr := .idcode })
    (packBits (scanOut ((List.range 32).map (bitAt 0x16400567)) data)) false := by
  simp [tapRun, tap_powered h]

/-- R413: a scan of the boundary cells loads them and shifts out what they sampled. -/
theorem tapRun_cells {i : TapInstr} (hi : i = .extest ∨ i = .samplePreload) : tapRun i data s =
    answer (useFree (modBoot s fun b => { b with tapIr := i, tapCells := data }))
      (packBits ((List.range data.length).map (Config.tapPins s.freeCtr))) false := by
  rcases hi with rfl | rfl <;> simp [tapRun, tap_powered h] <;> rfl

end

end Sys2Proof.Machine

namespace Sys2Proof.Proofs

open Sys2Proof.Machine

/-- Settles O54, by the equations of `regWrite`, `pairRead` and `tapRun` and, for the access codes, bit by bit (`bitAt_fieldWrite`).
The TAP is that of log 16, and which blocks answer and which values are reserved is that of log 39. -/
theorem registersAndTap : Obligations.RegistersAndTap := by
  unfold Obligations.RegistersAndTap
  intro s o size value r data
  refine ⟨fun h => registerWrite_unaligned h value s, fun h => ⟨?_, ?_⟩, fun h => ?_, fun hs ho hr hopen hact hpair hok => ?_,
    fun hs ho hr hopen hact hok hpair => ?_, fun ho hr hopen => ⟨fun hp => ?_, fun hp => ?_, fun w hp hw => ?_⟩,
    fun hp i => ⟨?_, ?_, ?_⟩⟩
  · by_cases ha : size = 4 ∧ o % 4 = 0
    · rw [registerWrite_aligned ha.1 ha.2, regWrite_closed h]
    · exact registerWrite_unaligned (by omega) value s
  · exact shown_eq (pairRead_closed h)
  · exact shown_eq (pairRead_unaligned h s)
  · exact ⟨_, registerWrite_fields value hs ho hr hopen hact hpair hok, rfl, fun k hk => rget_rput_ne hk _ _,
      fun i hi => bitAt_fieldWrite hr _ s hi⟩
  · rw [registerWrite_aligned hs ho, regWrite_plain hr hopen hact hpair, hok]
    rfl
  · exact shown_eq (pairRead_single ho hr hopen hp)
  · exact shown_eq (pairRead_low ho hr hopen hp)
  · exact shown_eq (pairRead_high ho hr hopen hp hw)
  · rintro rfl
    exact shown_eq (tapRun_bypass hp data)
  · rintro rfl
    exact shown_eq (tapRun_idcode hp data)
  · exact fun hi => ⟨_, shown_eq (tapRun_cells hp data hi), rfl, rfl, rfl⟩

end Sys2Proof.Proofs
end

section
/-! PROOFS. The host link: O48. -/

namespace Sys2Proof.Machine

/-! ## Tail lines and the link -/

theorem hostWrites_nil (s : State) : hostWrites s [] = s := by simp [hostWrites, cellSets]

/-- A line that the host writes to its own memory reads back. -/
theorem bytesAt_hostWrites {s : State} {a : Nat} {bs : List W8} (hb : bs.length = 64) (ha : hostArea a 64 64 = true) :
    bytesAt (hostWrites s (atAddr a bs)) a 64 = bs := by
  simp only [hostArea, Bool.and_eq_true, beq_iff_eq, decide_eq_true_eq] at ha
  obtain ⟨⟨hal, hlo⟩, hhi⟩ := ha
  have hown : (atAddr a bs).filter (fun e => 0x400000000000 ≤ e.1 && e.1 < 0x800000000000) = atAddr a bs := by
    refine List.filter_eq_self.mpr fun e he => ?_
    have := mem_atAddr he
    simp only [Bool.and_eq_true, decide_eq_true_eq]
    omega
  have hbyte : ∀ x ∈ span a bs.length, byteAt (hostWrites s (atAddr a bs)) x =
      cellGet memDefault x (cellSets memDefault (atAddr a bs) s.mem) := by
    intro x hx
    rw [mem_span] at hx
    have hclear : x / 64 ∉ (hostWrites s (atAddr a bs)).hostPoison := by
      intro hk
      simp only [hostWrites, hown, List.mem_filter, Bool.not_eq_true', List.any_eq_false, beq_iff_eq] at hk
      obtain ⟨e, he, hex⟩ := exists_mem_atAddr a bs hx.1 hx.2
      exact hk.2 e he (by rw [hex])
    rw [byteAt_host (regionOf_host _ (by omega) (by omega)) hclear]
    simp only [hostWrites, hown]
  rw [← hb, bytesAt, List.map_congr_left hbyte, cellGet_cellSets_atAddr]

/-- R383: the host's tail line is in memory, and the engine takes a tail that is not below the next sequence number. -/
theorem tailWritten_spec {s : State} {ring : Nat} {bs : List W8} (hon : ringOn s ring = true) (hup : s.boot.cxlUp = true)
    (hb : bs.length = 64) (ha : hostArea (rget64 s (rHC ring 8)) 64 64 = true) :
    let t := tailWritten ring bs [] s
    (hringOf t ring).tail = (if leAt bs 0 8 < rget64 s (rHC ring 0x28) then (hringOf s ring).tail else leAt bs 0 8) ∧
    bytesAt t (rget64 s (rHC ring 8)) 64 = bs ∧ t.regs = s.regs ∧ t.cores = s.cores := by
  have hr : ¬ 63 < ring := by
    simp only [ringOn, Bool.and_eq_true, decide_eq_true_eq] at hon
    omega
  let s1 := hostWrites s (atAddr (rget64 s (rHC ring 8)) bs)
  have hw : bytesAt s1 (rget64 s (rHC ring 8)) 64 = bs := bytesAt_hostWrites hb ha
  have ht : tailWritten ring bs [] s = readTail s1 ring := by
    have hread : (ringOn s1 ring && s1.boot.cxlUp) = true := Bool.and_eq_true_iff.mpr ⟨hon, hup⟩
    simp only [tailWritten, hostWrites_nil, hr, if_false, List.take_of_length_le hb.le]
    exact if_pos hread
  have htail : leNat (bytesAt s1 (rget64 s (rHC ring 8)) 8) = leAt bs 0 8 := by
    rw [← take_bytesAt s1 _ (show 8 ≤ 64 by omega), hw, leAt, List.drop_zero]
  have hread : readTail s1 ring = if leAt bs 0 8 < rget64 s (rHC ring 0x28) then s1
      else putHring s1 ring { hringOf s ring with tail := leAt bs 0 8 } := by
    rw [← htail]
    rfl
  simp only [ht, hread]
  split
  · exact ⟨rfl, hw, rfl, rfl⟩
  · exact ⟨by rw [hringOf_putHring], hw, rfl, rfl⟩

/-- R375: the link is up, no write to host memory waits, and the cores are as before. -/
def linkServed (cores : FMap CoreSt) (s : State) : Prop := s.boot.cxlUp = true ∧ s.hostHeld = [] ∧ s.cores = cores

section
variable {cores : FMap CoreSt} {s : State}

theorem linkServed_hostStore (h : linkServed cores s) (bs : List (Nat × W8)) : linkServed cores (hostStore s bs) := by
  have hup : (!s.boot.cxlUp) = false := by simp [h.1]
  rw [hostStore, hup]
  exact h

theorem linkServed_putHring (h : linkServed cores s) (r : Nat) (x : HRing) : linkServed cores (putHring s r x) := h

theorem linkServed_ringIrq (h : linkServed cores s) (r : Nat) (on : Bool) : linkServed cores (ringIrq s r on) := by
  cases on <;> exact h

theorem linkServed_drainRing (h : linkServed cores s) (r : Nat) : linkServed cores (drainRing s r) := by
  unfold drainRing
  simp only
  split <;> exact h

/-- Writing the records that waited keeps the link served. -/
theorem linkServed_flushRing (n : Nat) (h : linkServed cores s) (r : Nat) : linkServed cores (flushRing n s r) := by
  induction n generalizing s with
  | zero => exact linkServed_drainRing h r
  | succ n ih =>
    unfold flushRing
    simp only
    split
    · exact linkServed_drainRing h r
    · split
      · exact h
      · exact ih (linkServed_ringIrq (linkServed_putHring (linkServed_hostStore h _) r _) r _)

theorem linkServed_readTail (h : linkServed cores s) (r : Nat) : linkServed cores (readTail s r) := by
  rcases readTail_eq s r with e | e <;> rw [e] <;> exact h

/-- A fold of steps that keep the link served keeps it. -/
theorem linkServed_foldl {α : Type} (f : State → α → State) (l : List α)
    (hf : ∀ s a, linkServed cores s → linkServed cores (f s a)) (h : linkServed cores s) : linkServed cores (l.foldl f s) := by
  induction l generalizing s with
  | nil => exact h
  | cons a l ih => exact ih (hf s a h)

end

/-- R375: once the link is back, nothing waits for it. -/
theorem linkServed_linkUp (s : State) : linkServed s.cores (linkUp s) := by
  have hstart : linkServed s.cores { s with boot := { s.boot with cxlUp := true }, hostHeld := [] } := ⟨rfl, rfl, rfl⟩
  refine linkServed_foldl _ _ (fun t r h => ?_) (linkServed_foldl _ _ (fun t r h => linkServed_flushRing _ h r)
    (linkServed_hostStore hstart s.hostHeld))
  split
  · exact linkServed_readTail h r
  · exact h

/-! ## The staging window -/

/-- R377: nothing of a window is reached while the link is down. -/
theorem windows_down {s : State} (h : s.boot.cxlUp = false) (dpa len line : Nat) (bs : List W8) :
    exec (.stagingRead dpa len []) s = .next (publish s s) ∧ exec (.stagingWrite dpa bs []) s = .next (publish s s) ∧
    exec (.mirrorRead line) s = .next (publish s s) :=
  ⟨shown_eq (by simp [stagingRead, h]), shown_eq (by simp [stagingWrite, h]), shown_eq (by simp [h])⟩

/-- R377: the line that was read is in the snoop filter. -/
theorem mem_filterAdd (s : State) (k : Nat) : k ∈ (filterAdd s k).snoopFilter := by
  unfold filterAdd
  split
  · rename_i h
    exact List.contains_iff_mem.mp h
  · split
    · simp
    · split
      · simp_all
      · simp only
        split <;> simp

/-- R377: the snoop filter and the snoops are all that a new line changes. -/
theorem filterAdd_frame (s : State) (k : Nat) : (filterAdd s k).reply = s.reply ∧ (filterAdd s k).mem = s.mem ∧
    (filterAdd s k).regs = s.regs ∧ (filterAdd s k).cores = s.cores := by
  unfold filterAdd
  split
  · exact ⟨rfl, rfl, rfl, rfl⟩
  · split
    · exact ⟨rfl, rfl, rfl, rfl⟩
    · split
      · exact ⟨rfl, rfl, rfl, rfl⟩
      · simp only
        split <;> exact ⟨rfl, rfl, rfl, rfl⟩

theorem stagingOpen_iff {s : State} {a : Nat} : stagingOpen s a = true ↔
    7 ≤ bringStep s ∧ ∃ c, regionOf s a = .lpddr c ∧ chanState s c = 0 := by
  unfold stagingOpen
  cases h : regionOf s a <;> simp

/-- Bytes written to a line that the window reaches read back. -/
theorem bytesAt_line_write {s : State} {dpa : Nat} {bs : List W8} (ho : stagingOpen s dpa = true) (hl : dpa % 64 + bs.length ≤ 64)
    (hp : s.lpPoison = []) :
    bytesAt { s with mem := cellSets memDefault (atAddr dpa bs) s.mem } dpa bs.length = bs := by
  obtain ⟨_, c, hreg, hact⟩ := stagingOpen_iff.mp ho
  rw [bytesAt, List.map_congr_left fun x hx => ?_, cellGet_cellSets_atAddr memDefault dpa bs s.mem]
  rw [mem_span] at hx
  exact byteAt_lpddr (regionOf_line hreg (by omega)) hact (by simp [hp])

/-- A byte outside those written reads as before. -/
theorem byteAt_outside_write {s : State} {a x : Nat} {bs : List W8} (hx : x < a ∨ a + bs.length ≤ x) :
    byteAt { s with mem := cellSets memDefault (atAddr a bs) s.mem } x = byteAt s x := by
  have hcell : cellGet memDefault x (cellSets memDefault (atAddr a bs) s.mem) = cellGet memDefault x s.mem :=
    cellGet_cellSets_ne _ _ _ _ fun e he => by have := mem_atAddr he; omega
  have hreg : regionOf { s with mem := cellSets memDefault (atAddr a bs) s.mem } x = regionOf s x := rfl
  simp only [byteAt, badAt, hreg, hcell]
  rfl

section
variable {s : State} {dpa len : Nat} (hup : s.boot.cxlUp = true) (hend : dpa + len ≤ 0x30000000000) (hline : dpa % 64 + len ≤ 64)
  (hlen : len ≠ 0)
include hup hend hline hlen

/-- R377: an access of bytes of one line of the window, over the link. -/
theorem staging_inside : (!s.boot.cxlUp || decide (0x30000000000 < dpa + len) || decide (64 < dpa % 64 + len) || len == 0) = false := by
  simp [hup, hend, hline, hlen]

/-- R377, R427: a read of a line that the window does not reach gives all ones, poisoned, and sets HC_ERR. -/
theorem stagingRead_closed (ho : stagingOpen s dpa = false) :
    stagingRead dpa len [] s = { rsetf s 0x201004 0 1 1 with reply := ⟨List.replicate len 0xFF#8, true⟩ } := by
  simp only [stagingRead, staging_inside hup hend hline hlen, ho]
  rfl

/-- R377: a read of good data. -/
theorem stagingRead_open (ho : stagingOpen s dpa = true) (hgood : anyBad s dpa len = false) :
    stagingRead dpa len [] s = filterAdd (answer s (bytesAt s dpa len) false) (dpa / 64) := by
  have hm : memErrs s [] (inRun dpa len) = s := rfl
  simp [stagingRead, staging_inside hup hend hline hlen, ho, hm, hgood]

/-- R377: a write that nothing holds up goes to memory. -/
theorem stagingWrite_open {bs : List W8} (hb : bs.length = len) (ho : stagingOpen s dpa = true) (hs : settleHolds s dpa = false)
    (hp : s.lpPoison = []) : stagingWrite dpa bs [] s = { s with mem := cellSets memDefault (atAddr dpa bs) s.mem } := by
  subst hb
  have hne : bs.isEmpty = false := List.isEmpty_eq_false_iff.mpr (List.ne_nil_of_length_pos (Nat.pos_of_ne_zero hlen))
  have hm : (if bs.length < 64 then memErrs s [] (inRun dpa bs.length) else s) = s := ite_self s
  simp [stagingWrite, hup, hend, hline, hne, ho, hs, hm, stagingStore, overPoison, hp]

/-- R227, R377: a write of a line that the window does not reach changes registers alone, and sets HC_ERR. -/
theorem stagingWrite_closed {bs : List W8} (hb : bs.length = len) (ho : stagingOpen s dpa = false) :
    let t := stagingWrite dpa bs [] s
    t = { s with regs := t.regs } ∧ rfld t 0x201004 0 1 = 1 := by
  subst hb
  have hne : bs.isEmpty = false := List.isEmpty_eq_false_iff.mpr (List.ne_nil_of_length_pos (Nat.pos_of_ne_zero hlen))
  have ht : stagingWrite dpa bs [] s = hostErr (countDrop s dpa) 0 := by
    simp [stagingWrite, hup, hend, hline, hne, ho]
  have hdrop : countDrop s dpa = { s with regs := (countDrop s dpa).regs } := by
    unfold countDrop rcount
    split
    · split
      · split <;> rfl
      · rfl
    · rfl
  simp only [ht]
  refine ⟨?_, rfld_rsetf_same _ _ (by omega) 1⟩
  conv_lhs => rw [hdrop]
  rfl

end

/-! ## Ring registers -/

@[simp] theorem putHring_putHring (s : State) (r : Nat) (h k : HRing) : putHring (putHring s r k) r h = putHring s r h := by
  simp [putHring]

/-- R12: the low word of a pair waits for its high word. -/
theorem pairWrite_low (s : State) (o : Nat) (v : W32) (put : State → Nat → State) :
    pairWrite s o false v put = { s with wlatch := fset o v s.wlatch } := rfl

/-- R12: the high word commits the pair with the low word that waits. -/
theorem pairWrite_high {s : State} {o : Nat} {w : W32} (h : fget? o s.wlatch = some w) (v : W32) (put : State → Nat → State) :
    pairWrite s o true v put = put { s with wlatch := ferase o s.wlatch } (w.toNat + 2 ^ 32 * v.toNat) := by
  simp [pairWrite, h]

theorem pair_lt (w v : W32) : w.toNat + 2 ^ 32 * v.toNat < 2 ^ 64 := by
  have := w.isLt
  have := v.isLt
  omega

@[simp] theorem rput64_mem (s : State) (o v : Nat) : (rput64 s o v).mem = s.mem := rfl
@[simp] theorem rput64_cores (s : State) (o v : Nat) : (rput64 s o v).cores = s.cores := rfl
@[simp] theorem rput64_accepted (s : State) (o v : Nat) : (rput64 s o v).accepted = s.accepted := rfl

/-- R346: what leaves the journal changes the journal alone. -/
theorem releaseJournal_eq (s : State) (r n : Nat) : releaseJournal s r n = { s with journal := (releaseJournal s r n).journal } := rfl

/-- R385: a consumer index outside its bounds is ignored, and HC_ERR says so. -/
theorem consWrite_outside {r n : Nat} {s : State} (h : n < rget64 s (rHC r 0x18) ∨ rget64 s (rHC r 0x28) < n) :
    consWrite r s n = rsetf s 0x201004 3 1 1 := by
  rw [consWrite, if_pos (by simpa using h)]
  rfl

/-- R385: a consumer index inside its bounds is taken over. -/
theorem consWrite_inside {r n : Nat} {s : State} (h1 : rget64 s (rHC r 0x18) ≤ n) (h2 : n ≤ rget64 s (rHC r 0x28)) (hn : n < 2 ^ 64) :
    rget64 (consWrite r s n) (rHC r 0x18) = n ∧ (consWrite r s n).mem = s.mem ∧ (consWrite r s n).cores = s.cores ∧
    (consWrite r s n).accepted = s.accepted := by
  obtain ⟨j, hj⟩ : ∃ j, releaseJournal (rput64 s (rHC r 0x18) n) r n = { rput64 s (rHC r 0x18) n with journal := j } :=
    ⟨_, releaseJournal_eq _ r n⟩
  have hput : rget64 { rput64 s (rHC r 0x18) n with journal := j } (rHC r 0x18) = n := rget64_rput64 s _ hn
  have hbad : (decide (n < rget64 s (rHC r 0x18)) || decide (rget64 s (rHC r 0x28) < n)) = false := by
    simp [h1, h2]
  simp only [consWrite, hbad, Bool.false_eq_true, if_false, hj]
  split
  · refine ⟨?_, by simp⟩
    rw [rget64_rsetf_ne (by rw [rHC]; omega) (by rw [rHC]; omega), hput]
  · exact ⟨hput, by simp⟩

/-! ## A ring's configuration (R387) -/

/-- R387: the size and the vector of a disabled ring are taken over with either value of en. -/
def ringSized (r v : Nat) (s : State) : State :=
  rsetf (rsetf s (rHC r 0x20) 5 5 (bitsAt v 5 5)) (rHC r 0x20) 10 6 (bitsAt v 10 6)

/-- Writing a ring's size leaves its state and its addresses. -/
theorem ringSized_frame (r v : Nat) (s : State) : rfld (ringSized r v s) (rHC r 0x24) 0 2 = rfld s (rHC r 0x24) 0 2 ∧
    ringAddrs (ringSized r v s) r (bitsAt v 5 5) = ringAddrs s r (bitsAt v 5 5) := by
  have hpair : ∀ o ≤ 0x10, rget64 (ringSized r v s) (rHC r o) = rget64 s (rHC r o) := by
    intro o ho
    rw [ringSized, rget64_rsetf_ne (by simp only [rHC]; omega) (by simp only [rHC]; omega),
      rget64_rsetf_ne (by simp only [rHC]; omega) (by simp only [rHC]; omega)]
  refine ⟨?_, ?_⟩
  · rw [ringSized, rfld_rsetf_ne (by simp only [rHC]; omega), rfld_rsetf_ne (by simp only [rHC]; omega)]
  · simp only [ringAddrs, hpair 0 (by omega), hpair 8 (by omega), hpair 0x10 (by omega)]

/-- A ring's size and vector read as they were written. -/
theorem ringSized_fields (r v : Nat) (s : State) : rfld (ringSized r v s) (rHC r 0x20) 5 5 = bitsAt v 5 5 ∧
    rfld (ringSized r v s) (rHC r 0x20) 10 6 = bitsAt v 10 6 := by
  refine ⟨?_, ?_⟩
  · rw [ringSized, rfld_rsetf_apart _ _ (by omega) (by omega), rfld_rsetf_same _ _ (by omega), Nat.mod_eq_of_lt (bitsAt_lt _ _ _)]
  · rw [ringSized, rfld_rsetf_same _ _ (by omega), Nat.mod_eq_of_lt (bitsAt_lt _ _ _)]

/-- R383, R387: a ring right after it was enabled, with a tail. -/
def ringStarted (r v n : Nat) (s : State) : State :=
  putHring (rsetf (rsetf (ringSized r v s) (rHC r 0x20) 0 1 1) (rHC r 0x24) 0 2 1) r { hringOf s r with tail := n, draining := false }

/-- R387: a ring that was enabled holds the size it was given and does not drain. -/
theorem ringStarted_fields (r v n : Nat) (s : State) :
    rfld (ringStarted r v n s) (rHC r 0x24) 0 2 = 1 ∧ rfld (ringStarted r v n s) (rHC r 0x20) 0 1 = 1 ∧
    rfld (ringStarted r v n s) (rHC r 0x20) 5 5 = bitsAt v 5 5 ∧ (hringOf (ringStarted r v n s) r).draining = false := by
  have hne : rHC r 0x20 ≠ rHC r 0x24 := by simp only [rHC]; omega
  unfold ringStarted
  refine ⟨?_, ?_, ?_, by rw [hringOf_putHring]⟩ <;> rw [rfld_congr (putHring_regs _ _ _)]
  · exact rfld_rsetf_same _ _ (by omega) _
  · rw [rfld_rsetf_ne hne, rfld_rsetf_same _ _ (by omega)]
    rfl
  · rw [rfld_rsetf_ne hne, rfld_rsetf_apart _ _ (by omega) (by omega), (ringSized_fields r v s).1]

/-- R387: a ring that begins to drain, with the vector it was given. -/
def ringDraining (r v : Nat) (s : State) : State :=
  putHring (rsetf (rsetf (rsetf s (rHC r 0x20) 10 6 (bitsAt v 10 6)) (rHC r 0x20) 0 1 0) (rHC r 0x24) 0 2 2) r
    { hringOf s r with draining := true }

/-- R387: a ring that begins to drain is no longer enabled, and says that it drains. -/
theorem ringDraining_fields (r v : Nat) (s : State) : rfld (ringDraining r v s) (rHC r 0x20) 0 1 = 0 ∧
    rfld (ringDraining r v s) (rHC r 0x24) 0 2 = 2 ∧ (hringOf (ringDraining r v s) r).draining = true := by
  unfold ringDraining
  refine ⟨?_, ?_, by rw [hringOf_putHring]⟩ <;> rw [rfld_congr (putHring_regs _ _ _)]
  · rw [rfld_rsetf_ne (by simp only [rHC]; omega), rfld_rsetf_same _ _ (by omega)]
    rfl
  · exact rfld_rsetf_same _ _ (by omega) _

/-- R387: the end of a drain touches HC_RING_STAT and the ring's own state alone. -/
theorem drainRing_frame (s : State) (r : Nat) : rfld (drainRing s r) (rHC r 0x20) 0 1 = rfld s (rHC r 0x20) 0 1 ∧
    (drainRing s r).mem = s.mem ∧ (drainRing s r).cores = s.cores := by
  unfold drainRing
  simp only
  split
  · refine ⟨?_, rfl, rfl⟩
    rw [rfld_rsetf_ne (by simp only [rHC]; omega)]
    rfl
  · exact ⟨rfl, rfl, rfl⟩

section
variable {r : Nat}

/-- R387: a ring that drains is disabled at once where nothing of it is left. -/
theorem drainRing_state {s : State} (hd : (hringOf s r).draining = true) (h2 : rfld s (rHC r 0x24) 0 2 = 2) :
    rfld (drainRing s r) (rHC r 0x24) 0 2 = if (∃ e ∈ s.accepted, e.ring = r) ∨ (hringOf s r).done ≠ [] then 2 else 0 := by
  by_cases hleft : (∃ e ∈ s.accepted, e.ring = r) ∨ (hringOf s r).done ≠ []
  · rw [if_pos hleft, drainRing, if_neg, h2]
    simp only [hd, Bool.true_and, Bool.and_eq_true, List.isEmpty_iff, Bool.not_eq_true', List.any_eq_false, beq_iff_eq, not_and]
    intro hdone hnone
    rcases hleft with ⟨e, he, hring⟩ | hne
    · exact hnone e he hring
    · exact hne hdone
  · obtain ⟨hnone, hdone⟩ := not_or.mp hleft
    rw [if_neg hleft, drainRing, if_pos, rfld_rsetf_same _ _ (by omega)]
    · rfl
    · simp only [hd, Bool.true_and, Bool.and_eq_true, List.isEmpty_iff, Bool.not_eq_true', List.any_eq_false, beq_iff_eq]
      exact ⟨not_not.mp hdone, fun e he hring => hnone ⟨e, he, hring⟩⟩

/-- R387: the pair of a disabled ring takes the number. -/
theorem ringPair_disabled {s : State} (h : rfld s (rHC r 0x24) 0 2 = 0) (o n : Nat) :
    ringPair r o s n = rput64 s (rHC r o) n := by
  simp [ringPair, h]

/-- R387: the pair of a ring that is not disabled stays, and HC_ERR says so. -/
theorem ringPair_in_use {s : State} (h : rfld s (rHC r 0x24) 0 2 ≠ 0) (o n : Nat) :
    ringPair r o s n = rsetf s 0x201004 2 1 1 := by
  simp [ringPair, h, hostErr]

/-- R387: RING_ENABLE with en = 0 does nothing. -/
theorem ringEnable_off {v : W32} (hv : v.getLsbD 0 = false) (s : State) : exec (.ringEnable r v) s = .next (publish s s) :=
  (shown_eq (if_neg (Bool.eq_false_iff.mp hv)) : execRingEnable r v s = _)

/-- R387: RING_ENABLE with en = 1. -/
theorem ringEnable_on {v : W32} (hv : v.getLsbD 0 = true) (s : State) :
    exec (.ringEnable r v) s = .next (publish s (ringEnable r v.toNat s)) :=
  (shown_eq (if_pos hv) : execRingEnable r v s = _)

/-- R387: RING_DISABLE with en = 1 does nothing. -/
theorem ringDisable_on {v : W32} (hv : v.getLsbD 0 = true) (s : State) : exec (.ringDisable r v) s = .next (publish s s) :=
  (shown_eq (if_pos hv) : execRingDisable r v s = _)

/-- R387: RING_DISABLE with en = 0. -/
theorem ringDisable_off {v : W32} (hv : v.getLsbD 0 = false) (s : State) :
    exec (.ringDisable r v) s = .next (publish s (ringDisable r v.toNat s)) :=
  (shown_eq (if_neg (Bool.eq_false_iff.mp hv)) : execRingDisable r v s = _)

section
variable (hr : r < 64)
include hr

/-- R12, R385: HC_CPL_CONS_WRITE is a write of one word of the pair HC_CPL_CONS. -/
theorem hcCplConsWrite_eq (high : Bool) (v : W32) (s : State) :
    exec (.hcCplConsWrite r high v) s = .next (publish s (pairWrite s (rHC r 0x18) high v (consWrite r))) :=
  (shown_eq (if_neg (by omega)) : execHcCplConsWrite r high v s = _)

/-- R387: HC_RING_CFG is written by RING_ENABLE and RING_DISABLE. -/
theorem hcRingConfigWrite_cfg (v : W32) (s : State) : exec (.hcRingConfigWrite r 0x20 v) s =
    if v.getLsbD 0 then exec (.ringEnable r v) s else exec (.ringDisable r v) s := by
  have hc : exec (.hcRingConfigWrite r 0x20 v) s =
      .next (publish s (if v.getLsbD 0 then ringEnable r v.toNat s else ringDisable r v.toNat s)) :=
    (shown_eq (if_neg (by omega)) : execHcRingConfigWrite r 0x20 v s = _)
  rw [hc]
  cases hv : v.getLsbD 0
  · rw [ringDisable_off hv]
    rfl
  · rw [ringEnable_on hv]
    rfl

/-- R12, R387: the words of HC_RING_BASE, HC_RING_TAILA and HC_CPL_BASE are written as pairs. -/
theorem hcRingConfigWrite_pair {o : Nat} (ho : o ∈ [0, 8, 0x10]) (v : W32) (s : State) :
    exec (.hcRingConfigWrite r o v) s = .next (publish s (pairWrite s (rHC r o) false v (ringPair r o))) ∧
    exec (.hcRingConfigWrite r (o + 4) v) s = .next (publish s (pairWrite s (rHC r o) true v (ringPair r o))) := by
  have h63 : ¬ 63 < r := by omega
  simp only [List.mem_cons, List.not_mem_nil, or_false] at ho
  rcases ho with rfl | rfl | rfl <;>
    exact ⟨(shown_eq (by simp [ringConfig, h63]) : execHcRingConfigWrite r _ v s = _),
      (shown_eq (by simp [ringConfig, h63]) : execHcRingConfigWrite r _ v s = _)⟩

section
variable {v : Nat} (hc : cfgOk v = true)
include hc

/-- R16, R387: a write of HC_RING_CFG that is taken. -/
theorem ringGuard_false : (decide (63 < r) || !(cfgOk v)) = false := by simp [hc]; omega

/-- R387: a disabled ring whose addresses do not fit is not enabled. -/
theorem ringEnable_bad {s : State} (h0 : rfld s (rHC r 0x24) 0 2 = 0) (ha : ringAddrs s r (bitsAt v 5 5) = false) :
    ringEnable r v s = hostErr (ringSized r v s) 2 := by
  have ha' : ringAddrs (ringSized r v s) r (bitsAt v 5 5) = false := by rw [(ringSized_frame r v s).2, ha]
  unfold ringSized at ha'
  simp [ringEnable, ringGuard_false hr hc, h0, ha', ringSized]

/-- R383, R387: a disabled ring is enabled, and its tail line is read while the link is up. -/
theorem ringEnable_good {s : State} (h0 : rfld s (rHC r 0x24) 0 2 = 0) (ha : ringAddrs s r (bitsAt v 5 5) = true) :
    ∃ n, ringEnable r v s = ringStarted r v n s := by
  have ha' : ringAddrs (ringSized r v s) r (bitsAt v 5 5) = true := by rw [(ringSized_frame r v s).2, ha]
  unfold ringSized at ha'
  cases hup : s.boot.cxlUp
  · exact ⟨0, by simp [ringEnable, ringGuard_false hr hc, h0, ha', hup, ringStarted, ringSized, hringOf]⟩
  · have hs : ringEnable r v s = readTail (ringStarted r v 0 s) r := by
      simp [ringEnable, ringGuard_false hr hc, h0, ha', hup, ringStarted, ringSized, hringOf]
    rcases readTail_eq (ringStarted r v 0 s) r with e | e
    · exact ⟨0, hs.trans e⟩
    · refine ⟨leNat (bytesAt (ringStarted r v 0 s) (rget64 (ringStarted r v 0 s) (rHC r 8)) 8), (hs.trans e).trans ?_⟩
      simp [ringStarted]

/-- R387: enabling a draining ring sets HC_ERR (log 34). -/
theorem ringEnable_draining {s : State} (h2 : rfld s (rHC r 0x24) 0 2 = 2) :
    ringEnable r v s = rsetf s 0x201004 2 1 1 := by
  have hon : ringOn s r = false := by simp [ringOn, h2]
  simp [ringEnable, ringGuard_false hr hc, h2, hon, hostErr]

/-- R387: a disabled ring takes a size and a vector and stays disabled. -/
theorem ringDisable_disabled {s : State} (h0 : rfld s (rHC r 0x24) 0 2 = 0) :
    ringDisable r v s = rsetf (ringSized r v s) (rHC r 0x20) 0 1 0 := by
  simp [ringDisable, ringGuard_false hr hc, h0, ringSized]

/-- R387: an enabled ring begins to drain. -/
theorem ringDisable_enabled {s : State} (h1 : rfld s (rHC r 0x24) 0 2 = 1) (hz : bitsAt v 5 5 = rfld s (rHC r 0x20) 5 5) :
    ringDisable r v s = drainRing (ringDraining r v s) r := by
  simp [ringDisable, ringGuard_false hr hc, h1, hz, ringDraining, hringOf]

end

end

end

/-! ## What the commands of the link give -/

/-- R377: a staging read answers with the bytes, tracks the line, and leaves memory, registers and cores. -/
theorem stagingRead_open_spec {s : State} {dpa len : Nat} (hup : s.boot.cxlUp = true) (hend : dpa + len ≤ 0x30000000000)
    (hline : dpa % 64 + len ≤ 64) (hlen : len ≠ 0) (ho : stagingOpen s dpa = true) (hgood : anyBad s dpa len = false) :
    ∃ t, exec (.stagingRead dpa len []) s = .next (publish s t) ∧ t.reply = ⟨bytesAt s dpa len, false⟩ ∧
      dpa / 64 ∈ t.snoopFilter ∧ t.mem = s.mem ∧ t.regs = s.regs ∧ t.cores = s.cores :=
  ⟨_, (shown_eq (stagingRead_open hup hend hline hlen ho hgood) : execStagingRead dpa len [] s = _),
    (filterAdd_frame _ _).1, mem_filterAdd _ _, (filterAdd_frame _ _).2⟩

/-- R377: a staging write is in LPDDR afterwards, and nothing else is changed. -/
theorem stagingWrite_open_spec {s : State} {dpa len : Nat} {bs : List W8} (hup : s.boot.cxlUp = true)
    (hend : dpa + len ≤ 0x30000000000) (hline : dpa % 64 + len ≤ 64) (hlen : len ≠ 0) (ho : stagingOpen s dpa = true)
    (hb : bs.length = len) (hs : settleHolds s dpa = false) (hp : s.lpPoison = []) :
    ∃ t, exec (.stagingWrite dpa bs []) s = .next (publish s t) ∧ bytesAt t dpa len = bs ∧
      (∀ x, x < dpa ∨ dpa + len ≤ x → byteAt t x = byteAt s x) ∧ t.regs = s.regs ∧ t.cores = s.cores := by
  refine ⟨_, (shown_eq (stagingWrite_open hup hend hline hlen hb ho hs hp) : execStagingWrite dpa bs [] s = _), ?_⟩
  subst hb
  exact ⟨bytesAt_line_write ho hline hp, fun x hx => byteAt_outside_write hx, rfl, rfl⟩

/-- R387: a ring whose addresses fit is enabled, empty, with the size that was written. -/
theorem ringEnable_good_spec {s : State} {r : Nat} {v : W32} (hr : r < 64) (hv : v.getLsbD 0 = true) (hc : cfgOk v.toNat = true)
    (h0 : rfld s (rHC r 0x24) 0 2 = 0) (ha : ringAddrs s r (bitsAt v.toNat 5 5) = true) :
    ∃ t, exec (.ringEnable r v) s = .next (publish s t) ∧ rfld t (rHC r 0x24) 0 2 = 1 ∧ rfld t (rHC r 0x20) 0 1 = 1 ∧
      rfld t (rHC r 0x20) 5 5 = bitsAt v.toNat 5 5 ∧ (hringOf t r).draining = false ∧ t.mem = s.mem ∧ t.cores = s.cores := by
  obtain ⟨n, hn⟩ := ringEnable_good hr hc h0 ha
  obtain ⟨hstate, hen, hsize, hdrain⟩ := ringStarted_fields r v.toNat n s
  exact ⟨ringStarted r v.toNat n s, by rw [ringEnable_on hv, hn], hstate, hen, hsize, hdrain,
    by simp [ringStarted, ringSized], by simp [ringStarted, ringSized]⟩

/-- R387: a ring whose addresses do not fit stays disabled, and HC_ERR says so. -/
theorem ringEnable_bad_spec {s : State} {r : Nat} {v : W32} (hr : r < 64) (hv : v.getLsbD 0 = true) (hc : cfgOk v.toNat = true)
    (h0 : rfld s (rHC r 0x24) 0 2 = 0) (ha : ringAddrs s r (bitsAt v.toNat 5 5) = false) :
    ∃ t, exec (.ringEnable r v) s = .next (publish s t) ∧ rfld t (rHC r 0x24) 0 2 = 0 ∧ rfld t 0x201004 2 1 = 1 := by
  refine ⟨hostErr (ringSized r v.toNat s) 2, by rw [ringEnable_on hv, ringEnable_bad hr hc h0 ha], ?_, rfld_rsetf_same _ _ (by omega) _⟩
  rw [hostErr, rfld_rsetf_ne (by simp only [rHC]; omega), (ringSized_frame r v.toNat s).1, h0]

/-- R387: a disabled ring takes size and vector with en = 0, in registers alone. -/
theorem ringDisable_disabled_spec {s : State} {r : Nat} {v : W32} (hr : r < 64) (hv : v.getLsbD 0 = false)
    (hc : cfgOk v.toNat = true) (h0 : rfld s (rHC r 0x24) 0 2 = 0) :
    ∃ t, exec (.ringDisable r v) s = .next (publish s t) ∧ rfld t (rHC r 0x24) 0 2 = 0 ∧ rfld t (rHC r 0x20) 0 1 = 0 ∧
      rfld t (rHC r 0x20) 5 5 = bitsAt v.toNat 5 5 ∧ rfld t (rHC r 0x20) 10 6 = bitsAt v.toNat 10 6 ∧
      t = { s with regs := t.regs } := by
  obtain ⟨hsize, hvec⟩ := ringSized_fields r v.toNat s
  refine ⟨rsetf (ringSized r v.toNat s) (rHC r 0x20) 0 1 0, by rw [ringDisable_off hv, ringDisable_disabled hr hc h0],
    ?_, ?_, ?_, ?_, rfl⟩
  · rw [rfld_rsetf_ne (by simp only [rHC]; omega), (ringSized_frame r v.toNat s).1, h0]
  · exact rfld_rsetf_same _ _ (by omega) _
  · rw [rfld_rsetf_apart _ _ (by omega) (by omega), hsize]
  · rw [rfld_rsetf_apart _ _ (by omega) (by omega), hvec]

/-- R387: an enabled ring drains while entries or records of it are left, and is disabled otherwise. -/
theorem ringDisable_enabled_spec {s : State} {r : Nat} {v : W32} (hr : r < 64) (hv : v.getLsbD 0 = false)
    (hc : cfgOk v.toNat = true) (h1 : rfld s (rHC r 0x24) 0 2 = 1) (hz : bitsAt v.toNat 5 5 = rfld s (rHC r 0x20) 5 5) :
    ∃ t, exec (.ringDisable r v) s = .next (publish s t) ∧ rfld t (rHC r 0x20) 0 1 = 0 ∧ t.mem = s.mem ∧ t.cores = s.cores ∧
      rfld t (rHC r 0x24) 0 2 = if (∃ e ∈ s.accepted, e.ring = r) ∨ (hringOf s r).done ≠ [] then 2 else 0 := by
  obtain ⟨hen, hmem, hcores⟩ := drainRing_frame (ringDraining r v.toNat s) r
  obtain ⟨hoff, hstate, hdrain⟩ := ringDraining_fields r v.toNat s
  refine ⟨drainRing (ringDraining r v.toNat s) r, by rw [ringDisable_off hv, ringDisable_enabled hr hc h1 hz], hen.trans hoff,
    hmem.trans (by simp [ringDraining]), hcores.trans (by simp [ringDraining]), ?_⟩
  rw [drainRing_state hdrain hstate, ringDraining, hringOf_putHring]
  rfl

end Sys2Proof.Machine

namespace Sys2Proof.Proofs

open Sys2Proof.Machine

/-- Settles O48, command by command through the equations of `tailWritten`, `linkUp`, the windows' reads and writes and the ring
registers. What the spec leaves open (the MCTP answer, log 12; enabling a draining ring and the tail's bytes, log 34) is as the
model has it. -/
theorem hostLink : Obligations.HostLink := by
  unfold Obligations.HostLink
  refine ⟨fun s ring line dpa len bs => ?_, fun s r v w hr => ?_⟩
  · refine ⟨fun hon hup hb ha => ⟨_, rfl, tailWritten_spec hon hup hb ha⟩, rfl, fun hrim => ?_, fun hrim => ?_,
      fun hdown => windows_down hdown dpa len line bs, fun hup hend hline hlen => ⟨fun ho => ?_,
        stagingRead_open_spec hup hend hline hlen, fun ho => stagingWrite_open_spec hup hend hline hlen ho,
        fun ho hb => ⟨_, rfl, stagingWrite_closed hup hend hline hlen hb ho⟩⟩,
      fun hup hl => ?_, fun hup hl => ?_, ⟨rfl, rfl⟩, fun hpow => ?_, fun hsb hrim => ?_⟩
    · exact ⟨linkUp s, (shown_eq (if_pos hrim) : execCxlLinkUp s = _), linkServed_linkUp s⟩
    · exact (shown_eq (if_neg (by simp [hrim])) : execCxlLinkUp s = _)
    · exact (shown_eq (stagingRead_closed hup hend hline hlen ho) : execStagingRead dpa len [] s = _)
    · exact (shown_eq (if_neg (by simp [hup]; omega)) : execMirrorRead line s = _)
    · exact (shown_eq (if_neg (by simp [hup]; omega)) : execMirrorWrite line s = _)
    · have hp : (s.boot.standby || s.boot.rim) = true := by simpa using hpow
      exact ⟨(shown_eq (if_pos hp) : execMctpHealthRead s = _), (shown_eq (if_pos hp) : execMctpControlMessage bs s = _)⟩
    · have hp : ¬(s.boot.standby || s.boot.rim) = true := by simp [hsb, hrim]
      exact ⟨(shown_eq (if_neg hp) : execMctpHealthRead s = _), (shown_eq (if_neg hp) : execMctpControlMessage bs s = _)⟩
  · refine ⟨?_, fun hw => ⟨fun hout => ?_, fun hlo hhi => ?_⟩, fun hv => ringEnable_off hv s, fun hv => ringDisable_on hv s,
      fun hv hc h0 => ⟨fun hbase hcpl htail => ?_, fun htail => ?_⟩, fun hv hc h2 => ?_, ringDisable_disabled_spec hr,
      ringDisable_enabled_spec hr, hcRingConfigWrite_cfg hr v s, fun o ho => ⟨?_, fun hw h0 => ?_, fun hw h0 => ?_⟩⟩
    · rw [hcCplConsWrite_eq hr, pairWrite_low]
    · rw [hcCplConsWrite_eq hr, pairWrite_high hw, consWrite_outside (s := { s with wlatch := ferase (rHC r 0x18) s.wlatch }) hout]
    · rw [hcCplConsWrite_eq hr, pairWrite_high hw]
      exact ⟨_, rfl, consWrite_inside hlo hhi (pair_lt w v)⟩
    · exact ringEnable_good_spec hr hv hc h0 (by simp only [ringAddrs, hbase, hcpl, htail]; rfl)
    · exact ringEnable_bad_spec hr hv hc h0 (by simp only [ringAddrs, htail, Bool.and_false])
    · rw [ringEnable_on hv, ringEnable_draining hr hc h2]
    · rw [(hcRingConfigWrite_pair hr ho v s).1, pairWrite_low]
    · rw [(hcRingConfigWrite_pair hr ho v s).2, pairWrite_high hw,
        ringPair_disabled (s := { s with wlatch := ferase (rHC r o) s.wlatch }) h0]
      exact ⟨_, rfl, rget64_rput64 _ _ (pair_lt w v), rfl⟩
    · rw [(hcRingConfigWrite_pair hr ho v s).2, pairWrite_high hw,
        ringPair_in_use (s := { s with wlatch := ferase (rHC r o) s.wlatch }) h0]

end Sys2Proof.Proofs
end

section
/-! PROOFS. Pumps: O18. -/

namespace Sys2Proof.Machine

/-! ## Tiles, cisterns and their descriptors -/

@[simp] theorem tileOf_putTile (s : State) (t : Nat) (x : TileSt) : tileOf (putTile s t x) t = x := by
  simp [tileOf, putTile]

@[simp] theorem cistOf_putCist (s : State) (j : Nat) (x : CistSt) : cistOf (putCist s j x) j = x := by
  simp [cistOf, putCist]

@[simp] theorem tileOf_putSlot (s : State) (u : StreamId) (x : SlotSt) (t : Nat) : tileOf (putSlot s u x) t = tileOf s t := rfl

@[simp] theorem slotOf_putTile (s : State) (t : Nat) (x : TileSt) (u : StreamId) : slotOf (putTile s t x) u = slotOf s u := rfl

/-- The descriptors of a unit are those that were put there. -/
@[simp] theorem jobsOf_putJobs (s : State) (unit : Nat) (l : List PumpJob) : jobsOf (putJobs s unit l) unit = l := by
  by_cases h : unit < 64 <;> simp [jobsOf, putJobs, h]

/-- A unit's descriptors stand in its tile or cistern. -/
theorem jobsOf_congr {s t : State} (ht : t.tiles = s.tiles) (hc : t.cists = s.cists) (unit : Nat) : jobsOf t unit = jobsOf s unit := by
  simp only [jobsOf, tileOf, cistOf, ht, hc]

/-- A unit's descriptor of a number has that number. -/
theorem id_of_jobOf {s : State} {unit id : Nat} {j : PumpJob} (h : jobOf s unit id = some j) : j.id = id := by
  simpa using List.find?_some h

/-! ## Posting a descriptor (R111, R197) -/

/-- R101, R111: the offset of the own well that `ppost` names. -/
def postOff (s : State) (u : StreamId) (f : Fields) : Nat := (memOff (slotOf s u).arch f).toNat

/-- R197: a tile's descriptors that have not started (log 44). -/
def unstarted (q : TileSt) : Nat := (q.jobs.filter fun j => j.phase != .running).length

/-- R111: the descriptor that `ppost` queues. -/
def postedJob (s : State) (u : StreamId) (f : Fields) : PumpJob :=
  { id := (tileOf s (u.lcid / 256)).jobCtr, lcid := u.lcid, slot := u.slot, addr := postOff s u f, st := (coreOf s u.lcid).st,
    seq := (slotOf s u).opn.seq, replay := fget 0 (slotOf s u).opn.seq (slotOf s u).replays, pairs := (slotOf s u).arch.b,
    epoch := (slotOf s u).arch.epoch.toNat }

/-- R197: the state with that descriptor at the end of its tile's queue. -/
def posted (s : State) (u : StreamId) (f : Fields) : State :=
  let q := tileOf s (u.lcid / 256)
  putTile s (u.lcid / 256) { q with jobs := q.jobs ++ [postedJob s u f], jobCtr := q.jobCtr + 1 }

/-- R111, R197: what `ppost` does with zero in its unused fields; alignment is checked before the bound (log 45). -/
theorem ppostBody_eq {f : Fields} (hd : f.dst = 0) (h2 : f.src2 = 0) (hm : f.mod = 0) (u : StreamId) (s : State) :
    ppostBody u f s = if postOff s u f % 64 ≠ 0 then .fault 0x2004
      else if scratch (coreOf s u.lcid) < postOff s u f + 64 then .fault 0x2003
      else if 256 ≤ unstarted (tileOf s (u.lcid / 256)) then .wait .pumpQueue
      else .ok (posted s u f) := by
  simp only [ppostBody, hd, h2, hm, bne_self_eq_false, Bool.or_self, Bool.false_eq_true, if_false, bne_iff_ne, gt_iff_lt, ge_iff_le]
  rfl

section
variable {u : StreamId} {f : Fields} {s : State} (h : issues u .lane0 f [.s f.src1] s = true)
  (hd : f.dst = 0) (h2 : f.src2 = 0) (hm : f.mod = 0)
include h hd h2 hm

theorem ppost_unaligned (ho : postOff s u f % 64 ≠ 0) : exec (.ppost u f) s = .next (faulted s u 0x2004) := by
  refine congrArg Host.Outcome.next ((issue_eq h _).trans ?_)
  rw [ppostBody_eq hd h2 hm, if_pos ho]
  rfl

theorem ppost_outside (ho : postOff s u f % 64 = 0) (hs : scratch (coreOf s u.lcid) < postOff s u f + 64) :
    exec (.ppost u f) s = .next (faulted s u 0x2003) := by
  refine congrArg Host.Outcome.next ((issue_eq h _).trans ?_)
  rw [ppostBody_eq hd h2 hm, if_neg (not_not.mpr ho), if_pos hs]
  rfl

theorem ppost_full (ho : postOff s u f % 64 = 0) (hs : postOff s u f + 64 ≤ scratch (coreOf s u.lcid))
    (hq : 256 ≤ unstarted (tileOf s (u.lcid / 256))) : exec (.ppost u f) s = .next (park s u .pumpQueue) := by
  refine congrArg Host.Outcome.next ((issue_eq h _).trans ?_)
  rw [ppostBody_eq hd h2 hm, if_neg (not_not.mpr ho), if_neg (by omega), if_pos hq]
  rfl

theorem ppost_room (ho : postOff s u f % 64 = 0) (hs : postOff s u f + 64 ≤ scratch (coreOf s u.lcid))
    (hq : unstarted (tileOf s (u.lcid / 256)) < 256) : exec (.ppost u f) s = .next (finish (posted s u f) u) := by
  refine congrArg Host.Outcome.next ((issue_eq h _).trans ?_)
  rw [ppostBody_eq hd h2 hm, if_neg (not_not.mpr ho), if_neg (by omega), if_neg (by omega)]
  rfl

end

/-! ## Descriptors that run (R199, R202, R206) -/

/-- An access without errors leaves the state. -/
theorem meetErrs_nil (s : State) (touch : Nat → Bool) : meetErrs s [] touch = s := rfl

/-- R198, R199: a descriptor as it starts: the fields of a posted one are read from the well. -/
def startedJob (s : State) (j : PumpJob) : PumpJob :=
  { j with phase := .running, desc := if j.sched then j.desc else descOf (bytesAt s (wellBase j.lcid + j.addr) 64) }

/-- R197, R323: a unit with room, and a descriptor of the present binding. -/
theorem pumpRun_guard {s : State} {unit : Nat} {j : PumpJob} (hst : j.st = heldStamp s j.st.ctx)
    (hroom : ((jobsOf s unit).filter fun x => x.phase == .running).length < 64) :
    (decide (64 ≤ ((jobsOf s unit).filter fun x => x.phase == .running).length) || j.st != heldStamp s j.st.ctx) = false := by
  rw [← hst]
  simp [hroom]

section
variable {s : State} {unit id : Nat} {j : PumpJob} (hj : jobOf s unit id = some j)
include hj

/-- R199: a descriptor whose posting stitch has not retired does not start. -/
theorem pumpMeets_unretired (hp : j.phase = .unretired) : pumpMeets unit id [] s = s := by
  simp [pumpMeets, hj, hp]

/-- R194, R199: without errors on the way, a descriptor of a unit within reach runs. -/
theorem pumpMeets_awake (hp : j.phase ≠ .unretired) (htier : unit < 64 → (tileOf s unit).tier = .active) :
    pumpMeets unit id [] s = pumpRun unit id s := by
  have hp' : (j.phase == .unretired) = false := by simpa using hp
  simp only [pumpMeets, hj, hp', Bool.false_eq_true, if_false, meetErrs_nil, pumpStart]
  split
  · rename_i hu
    simp [atWell, htier hu]
  · rfl

section
variable (hp : j.phase = .ready) (hsched : j.sched = false) (hst : j.st = heldStamp s j.st.ctx)
  (hroom : ((jobsOf s unit).filter fun x => x.phase == .running).length < 64)
include hp hsched hst hroom

/-- R199: a descriptor that breaks a rule of Table 8.5 ends as it starts. -/
theorem pumpRun_refused {st : Nat}
    (hc : descCheck (putJob s unit (startedJob s j)) (startedJob s j) (startedJob s j).desc = some st) :
    pumpRun unit id s = endJob (putJob s unit (startedJob s j)) unit (startedJob s j) st := by
  simp only [startedJob, hsched, Bool.false_eq_true, if_false] at hc
  simp only [pumpRun, hj, hp, hsched, pumpRun_guard hst hroom, Bool.false_eq_true, if_false, hc, startedJob]

/-- R199: a descriptor in order starts, and moves what it can (log 24). -/
theorem pumpRun_started (hc : descCheck (putJob s unit (startedJob s j)) (startedJob s j) (startedJob s j).desc = none) :
    pumpRun unit id s = pumpGo ((startedJob s j).desc.len + 1) (putJob s unit (startedJob s j)) unit id := by
  simp only [startedJob, hsched, Bool.false_eq_true, if_false] at hc
  simp only [pumpRun, hj, hp, hsched, pumpRun_guard hst hroom, Bool.false_eq_true, if_false, hc, startedJob]

end

end

/-- R202: the well's status and done bytes leave the units alone. -/
theorem writeDone_frame (s : State) (j : PumpJob) (status : Nat) :
    (writeDone s j status).tiles = s.tiles ∧ (writeDone s j status).cists = s.cists := by
  unfold writeDone
  split
  · exact ⟨rfl, rfl⟩
  · exact ⟨rfl, rfl⟩

/-- R202: a descriptor's end reports a status of class 0x2. -/
theorem report_mem_endJob (s : State) (unit : Nat) (j : PumpJob) {status : Nat} (h : status / 4096 = 2) :
    .faultReport ⟨j.lcid, j.slot⟩ status j.st ∈ (endJob s unit j status).out := by
  simp [endJob, h, emit]

/-- R202: what an end of a descriptor leaves of a unit's descriptors: the others. -/
theorem jobsOf_endJob (s : State) (unit : Nat) (j : PumpJob) (status : Nat) :
    jobsOf (endJob s unit j status) unit = (jobsOf s unit).filter fun x => x.id != j.id := by
  let s1 := putJobs s unit ((jobsOf s unit).filter fun x => x.id != j.id)
  obtain ⟨ht, hc⟩ := writeDone_frame s1 j status
  have hsent : (endJob s unit j status).tiles = (writeDone s1 j status).tiles ∧
      (endJob s unit j status).cists = (writeDone s1 j status).cists := by
    unfold endJob
    simp only
    repeat' split
    all_goals exact ⟨rfl, rfl⟩
  rw [jobsOf_congr (hsent.1.trans ht) (hsent.2.trans hc), jobsOf_putJobs]

/-- R206: without errors on the way, a block asked for once more goes to the ring that it was sent to. -/
theorem resendBody_ring {s : State} {unit id l k : Nat} {j : PumpJob} (hj : jobOf s unit id = some j) {w : Sent} (hw : j.wait = [w])
    (hprov : w.prov = none) (hkind : j.desc.dkind ≠ 3) (hdest : w.d.dest = .ring l k) :
    let s1 := arrive s (.resend unit id w.place j.st)
    resendBody unit id w.place j.st s = emit s1 (.block w.d (buildBlock s1 j w.piece w.prod w.bidx).1) := by
  have hj1 : jobOf (arrive s (.resend unit id w.place j.st)) unit id = some j := hj
  simp [resendBody, hj1, hw, hprov, hkind, hdest]

end Sys2Proof.Machine

namespace Sys2Proof.Proofs

open Sys2Proof.Machine

/-- Settles O18, by the equations of `ppostBody`, `pumpRun`, `endJob` and `resendBody`. The queue counts descriptors not started
(log 44), alignment comes before the bound (log 45), a start moves all it can (log 24), and an end signals whatever its status
(log 47), as the model has it. -/
theorem pumps : Obligations.Pumps := by
  unfold Obligations.Pumps
  refine ⟨fun u f s h hd h2 hm => ?_, fun s unit id st j hj => ?_⟩
  · refine ⟨fun ho hs => ⟨fun hq => ?_, ppost_full h hd h2 hm ho hs⟩, ppost_unaligned h hd h2 hm, ppost_outside h hd h2 hm⟩
    refine ⟨_, postedJob s u f, ppost_room h hd h2 hm ho hs hq, ?_, rfl, rfl, rfl, rfl, rfl, rfl, rfl, ?_, rfl, rfl⟩
    · simp [finish, posted]
    · simp [finish, posted, slot_lt_of_issues h]
  · refine ⟨fun hp => ?_, fun hp hsched hst htier hroom => ⟨fun status hc => ?_, fun hc => ?_⟩, fun hp hend => ?_,
      fun hp hbad hzero => ?_, fun w b hw hb hprov hkind l k hdest => ?_⟩
    · exact (shown_eq (pumpMeets_unretired hj hp) : execPumpDescriptorStart unit id [] s = _)
    · exact (shown_eq ((pumpMeets_awake hj (by simp [hp]) htier).trans (pumpRun_refused hj hp hsched hst hroom hc)) :
        execPumpDescriptorStart unit id [] s = _)
    · exact (shown_eq ((pumpMeets_awake hj (by simp [hp]) htier).trans (pumpRun_started hj hp hsched hst hroom hc)) :
        execPumpDescriptorStart unit id [] s = _)
    · refine ⟨_, (shown_eq ?_ : execPumpDescriptorEnd unit id st s = _), rfl, fun x hx => ?_, report_mem_endJob s unit j⟩
      · simp only [hj, hp]
        exact if_pos (by simpa using hend)
      · rw [jobsOf_endJob, List.mem_filter, id_of_jobOf hj] at hx
        simpa using hx.2
    · refine (shown_eq ?_ : execPumpDescriptorEnd unit id st s = _)
      simp only [hj, hp]
      have hno : ¬(st ∈ pumpStatuses ∨ st = 0 ∧ jobComplete j = true) := by
        rintro (hmem | ⟨h0, hcomplete⟩)
        · exact hbad hmem
        · exact absurd hcomplete (by simpa [h0] using hzero)
      exact if_neg (by simpa using hno)
    · subst hb
      refine (shown_eq ?_ : execResendRequest unit id ⟨w.place, []⟩ j.st s = _)
      simp only [hj, beq_self_eq_true, if_true, meetErrs_nil]
      exact resendBody_ring hj hw hprov hkind hdest

end Sys2Proof.Proofs
end

section
/-! PROOFS. Number formats: an encoding read and rounded back: O57. -/

namespace Sys2Proof.Machine

/-! ## Encodings of a format -/

/-- An encoding is its sign, its exponent and its mantissa, each in its place. -/
theorem encoding_eq {f : Fmt} {b : Nat} (h : b < 2 ^ f.width) :
    f.signBit (bitAt b (f.eb + f.mb)) + (bitsAt b f.mb f.eb * 2 ^ f.mb + bitsAt b 0 f.mb) = b := by
  have hlow : bitsAt b f.mb f.eb * 2 ^ f.mb + bitsAt b 0 f.mb = b % 2 ^ (f.eb + f.mb) := by
    rw [bitsAt, bitsAt, pow_zero, Nat.div_one, Nat.add_comm f.eb, pow_add, Nat.mod_mul, Nat.mul_comm, Nat.add_comm]
  have htop : b / 2 ^ (f.eb + f.mb) < 2 := by
    rw [Nat.div_lt_iff_lt_mul (Nat.two_pow_pos _), ← pow_succ']
    exact h.trans_eq (by rw [Fmt.width, Nat.add_assoc, Nat.add_comm])
  have hsign : (bitAt b (f.eb + f.mb)).toNat = b / 2 ^ (f.eb + f.mb) := by
    rw [bitAt, Nat.mod_eq_of_lt htop]
    interval_cases b / 2 ^ (f.eb + f.mb) <;> rfl
  rw [hlow, Fmt.signBit, hsign, Nat.mul_comm, Nat.div_add_mod]

/-- The magnitude bits below the exponents that Inf and NaN take. -/
theorem magnitude_lt_infBits {f : Fmt} {e m : Nat} (he : e + 1 ≤ 2 ^ f.eb - 1) (hm : m < 2 ^ f.mb) :
    e * 2 ^ f.mb + m < f.infBits :=
  calc e * 2 ^ f.mb + m < (e + 1) * 2 ^ f.mb := by rw [Nat.succ_mul]; omega
    _ ≤ f.infBits := Nat.mul_le_mul_right _ he

/-- The magnitude bits of any encoding. -/
theorem magnitude_lt {f : Fmt} {e m : Nat} (he : e < 2 ^ f.eb) (hm : m < 2 ^ f.mb) : e * 2 ^ f.mb + m < 2 ^ (f.eb + f.mb) :=
  calc e * 2 ^ f.mb + m < (e + 1) * 2 ^ f.mb := by rw [Nat.succ_mul]; omega
    _ ≤ 2 ^ f.eb * 2 ^ f.mb := Nat.mul_le_mul_right _ he
    _ = 2 ^ (f.eb + f.mb) := (pow_add ..).symm

/-- The magnitude bits are all ones only where the exponent's and the mantissa's are. -/
theorem magnitude_ne_allOnes {f : Fmt} {e m : Nat} (hm : m < 2 ^ f.mb) (h : ¬(e = 2 ^ f.eb - 1 ∧ m = 2 ^ f.mb - 1)) :
    e * 2 ^ f.mb + m ≠ 2 ^ (f.eb + f.mb) - 1 := by
  intro hones
  have hsum : 2 ^ f.mb * e + (m + 1) = 2 ^ f.mb * 2 ^ f.eb := by
    have := Nat.two_pow_pos (f.eb + f.mb)
    rw [← pow_add, Nat.add_comm f.mb, Nat.mul_comm]
    omega
  have hdvd : 2 ^ f.mb ∣ m + 1 := (Nat.dvd_add_right (Dvd.intro _ rfl)).mp (hsum ▸ Dvd.intro _ rfl)
  have hm1 : m + 1 = 2 ^ f.mb := Nat.le_antisymm hm (Nat.le_of_dvd (Nat.succ_pos m) hdvd)
  have he1 : e + 1 = 2 ^ f.eb := Nat.eq_of_mul_eq_mul_left (Nat.two_pow_pos f.mb) (by rw [← hsum, hm1, Nat.mul_succ])
  exact h ⟨by omega, by omega⟩

/-- R29: the value of a finite encoding has the implicit bit where the exponent is not zero, and its magnitude bits are at most
those of the largest finite value. -/
theorem decode_of_isFin {f : Fmt} {b : Nat} (h : (f.decode b).isFin = true) :
    bitsAt b f.mb f.eb * 2 ^ f.mb + bitsAt b 0 f.mb ≤ f.maxBits ∧
    f.decode b = if bitsAt b f.mb f.eb = 0 then .fin (bitAt b (f.eb + f.mb)) (bitsAt b 0 f.mb) (1 - (f.bias : Int) - f.mb)
      else .fin (bitAt b (f.eb + f.mb)) (2 ^ f.mb + bitsAt b 0 f.mb) ((bitsAt b f.mb f.eb : Int) - f.bias - f.mb) := by
  have he := bitsAt_lt b f.mb f.eb
  have hm := bitsAt_lt b 0 f.mb
  unfold Fmt.decode at h ⊢
  unfold Fmt.maxBits
  generalize bitsAt b f.mb f.eb = e at *
  generalize bitsAt b 0 f.mb = m at *
  by_cases hieee : f.ieee = true
  · have hexp : e ≠ 2 ^ f.eb - 1 := by
      rintro rfl
      by_cases m = 0 <;> simp_all [FV.isFin]
    have := magnitude_lt_infBits (f := f) (e := e) (by omega) hm
    simp only [hieee, if_true]
    exact ⟨by omega, by simp [hexp]⟩
  · have hlt := magnitude_lt he hm
    by_cases htop : f.nanTop = true
    · have hones : ¬(e = 2 ^ f.eb - 1 ∧ m = 2 ^ f.mb - 1) := by
        rintro ⟨rfl, rfl⟩
        simp [hieee, htop, FV.isFin] at h
      have := magnitude_ne_allOnes hm hones
      simp only [hieee, htop]
      exact ⟨by simp; omega, by simp [hones]⟩
    · simp only [hieee, htop]
      exact ⟨by simp; omega, by simp⟩

/-! ## Rounding a value that the format holds -/

/-- A value that is already a multiple of the last place is kept. -/
theorem roundAt_self (mode : RMode) (m : Nat) (e : Int) : roundAt mode m e e = (m, false) := by
  simp [roundAt]

/-- R38, R39: a value whose last place is the format's and that lies in range is kept in every rounding mode, without a flag. -/
theorem roundFin_exact {f : Fmt} (mode : RMode) (neg : Bool) {m : Nat} {e : Int} (hm : m ≠ 0) (hk : f.lastPlace m e = e)
    (hp : f.pack m e ≤ f.maxBits) : f.roundFin mode neg m e = (f.signBit neg + f.pack m e, {}) := by
  have hnot : ¬ f.pack m e > f.maxBits := Nat.not_lt.mpr hp
  cases mode <;> simp [Fmt.roundFin, hm, hk, roundAt_self, hnot]

/-- A subnormal mantissa stands in the place of the subnormals. -/
theorem lastPlace_subnormal {f : Fmt} {m : Nat} (h0 : m ≠ 0) (hm : m < 2 ^ f.mb) :
    f.lastPlace m (1 - (f.bias : Int) - f.mb) = 1 - (f.bias : Int) - f.mb := by
  have := (Nat.log2_lt h0).mpr hm
  simp only [Fmt.lastPlace]
  omega

/-- A normal mantissa stands in the place of its exponent. -/
theorem lastPlace_normal {f : Fmt} {e m : Nat} (he : e ≠ 0) (hm : m < 2 ^ f.mb) :
    f.lastPlace (2 ^ f.mb + m) ((e : Int) - f.bias - f.mb) = (e : Int) - f.bias - f.mb := by
  have hlog : Nat.log2 (2 ^ f.mb + m) = f.mb :=
    (Nat.log2_eq_iff (by have := Nat.two_pow_pos f.mb; omega)).mpr ⟨Nat.le_add_right .., by rw [pow_succ]; omega⟩
  simp only [Fmt.lastPlace, hlog]
  omega

theorem pack_normal {f : Fmt} {e m : Nat} (hm : m < 2 ^ f.mb) :
    f.pack (2 ^ f.mb + m) ((e : Int) - f.bias - f.mb) = e * 2 ^ f.mb + m := by
  have hlt : 2 ^ f.mb + m < 2 ^ (f.mb + 1) := by rw [pow_succ]; omega
  simp [Fmt.pack, hlt]

/-- R29, R38: what a format can hold it keeps, whatever the rounding mode. -/
theorem encode_decode {f : Fmt} (mode : RMode) {b : Nat} (hb : b < 2 ^ f.width) (hfin : (f.decode b).isFin = true) :
    f.encode mode (f.decode b) = (b, {}) := by
  obtain ⟨hmax, hval⟩ := decode_of_isFin hfin
  have hm := bitsAt_lt b 0 f.mb
  have hb := encoding_eq hb
  rw [hval]
  by_cases he : bitsAt b f.mb f.eb = 0
  · rw [if_pos he, Fmt.encode]
    rw [he, Nat.zero_mul, Nat.zero_add] at hb hmax
    by_cases h0 : bitsAt b 0 f.mb = 0
    · rw [h0, Nat.add_zero] at hb
      simp [h0, Fmt.roundFin, hb]
    · have hpack : f.pack (bitsAt b 0 f.mb) (1 - (f.bias : Int) - f.mb) = bitsAt b 0 f.mb := if_pos hm
      rw [roundFin_exact mode _ h0 (lastPlace_subnormal h0 hm) (hpack.trans_le hmax), hpack, hb]
  · have h0 : 2 ^ f.mb + bitsAt b 0 f.mb ≠ 0 := by have := Nat.two_pow_pos f.mb; omega
    rw [if_neg he, Fmt.encode, roundFin_exact mode _ h0 (lastPlace_normal he hm) ((pack_normal hm).trans_le hmax), pack_normal hm, hb]

end Sys2Proof.Machine

namespace Sys2Proof.Proofs

open Sys2Proof.Machine

/-- Settles O57: the exponent and mantissa of a finite encoding stand in the format's own last place, so that nothing is rounded
(`encode_decode`, which holds of every format). -/
theorem formatRoundTrip : Obligations.FormatRoundTrip := by
  unfold Obligations.FormatRoundTrip
  intro f _ b mode hb hfin
  exact encode_decode mode hb hfin

end Sys2Proof.Proofs
end

section
/-! SUPPORT. Lanes of vector registers, flags of the vector engine, and lane operations. -/

namespace Sys2Proof.Machine

/-! ## Lanes -/

theorem lane_eq (v : Vector W32 32) {i : Nat} (h : i < 32) : lane v i = v[i] := by
  simp [lane, h]

theorem mem_activeLanes {a : Arch} {m : BitVec 3} {i : Nat} : i ∈ activeLanes a m ↔ i < 32 ∧ laneOn a m i = true := by
  simp [activeLanes]

/-- Lanes written with values that depend on the lane alone. -/
theorem getElem_setLanes_map (v : Vector W32 32) (l : List Nat) (g : Nat → W32) {i : Nat} (h : i < 32) :
    (setLanes v (l.map fun i => (i, g i)))[i] = if i ∈ l then g i else v[i] := by
  induction l generalizing v with
  | nil => rfl
  | cons j r ih =>
    have hstep : setLanes v ((j :: r).map fun i => (i, g i)) = setLanes (v.setIfInBounds j (g j)) (r.map fun i => (i, g i)) := rfl
    rw [hstep, ih, Vector.getElem_setIfInBounds h]
    by_cases hr : i ∈ r
    · simp [hr]
    · by_cases hj : j = i
      · simp [hj]
      · simp [hr, hj, Ne.symm hj]

/-- R144: the active lanes take their results and the others keep their bits. -/
theorem setLanes_activeLanes (a : Arch) (f : Fields) (g : Nat → W32) :
    setLanes (a.vget f.dst) ((activeLanes a f.mask).map fun i => (i, g i)) =
      Vector.ofFn fun i => if laneOn a f.mask i then g i else (a.vget f.dst)[i] := by
  ext i h
  rw [getElem_setLanes_map _ _ _ h, Vector.getElem_ofFn]
  simp [mem_activeLanes, h]

/-! ## Flags -/

/-- R148: no flag changes nothing. -/
@[simp] theorem raiseV_none (a : Arch) : a.raiseV {} = a := by
  simp [Arch.raiseV, FFlags.bits]

@[simp] theorem laneFlags_none (a : Arch) (f : Fields) : laneFlags a f (fun _ => {}) = {} := by
  have hfold : ∀ l : List Nat, (l.map fun _ => ({} : FFlags)).foldl FFlags.or {} = {} := by
    intro l
    induction l with
    | nil => rfl
    | cons _ _ ih => exact ih
  exact hfold _

/-! ## Lane operations -/

/-- R144, R148: a lane operation on the register image: its results on the active lanes and their flags. -/
theorem vlanes_eq (a : Arch) (f : Fields) (g : Nat → W32 × FFlags) :
    vlanes a f g = (lanesBecome a f fun i => (g i).1).raiseV (laneFlags a f fun i => (g i).2) := by
  simp only [vlanes, List.map_map, Function.comp_def, setLanes_activeLanes, lanesBecome, laneFlags]

/-- R161: what a two-source lane operation leaves. -/
theorem vbin_eq {u : StreamId} {f : Fields} {s : State} (h : issues u .lanes f [.v f.src1, .v f.src2, .w f.dst] s = true)
    (hi : f.imm = 0) {ok : Bool} (hk : ok = true) (g : W32 → W32 → W32 × FFlags) :
    vbin u f ok g s = ran s u (vlanes (archOf s u) f fun i =>
      g (lane ((archOf s u).vget f.src1) i) (lane ((archOf s u).vget f.src2) i)) :=
  issueArch_eq h (.inr (by simp)) (by simp [hk, hi]) _

/-- R161: what a two-source lane operation without flags leaves. -/
theorem vbinI_eq {u : StreamId} {f : Fields} {s : State} (h : issues u .lanes f [.v f.src1, .v f.src2, .w f.dst] s = true)
    (hi : f.imm = 0) {m : Nat} (hm : f.mod.toNat = m) (g : W32 → W32 → W32) :
    vbinI u f m g s = ran s u (lanesBecome (archOf s u) f fun i =>
      g (lane ((archOf s u).vget f.src1) i) (lane ((archOf s u).vget f.src2) i)) := by
  rw [vbinI, vbin_eq h hi (by simp [hm]), vlanes_eq, laneFlags_none, raiseV_none]

/-- What a one-source lane operation leaves. -/
theorem vun_eq {u : StreamId} {f : Fields} {s : State} (h : issues u .lanes f [.v f.src1, .w f.dst] s = true)
    (h2 : f.src2 = 0) {ok : Bool} (hk : ok = true) (g : W32 → W32 × FFlags) :
    vun u f ok g s = ran s u (vlanes (archOf s u) f fun i => g (lane ((archOf s u).vget f.src1) i)) :=
  issueArch_eq h (.inr (by simp)) (by simp [hk, h2]) _

/-- What a one-source lane operation without flags leaves. -/
theorem vun_eq_lanesBecome {u : StreamId} {f : Fields} {s : State} (h : issues u .lanes f [.v f.src1, .w f.dst] s = true)
    (h2 : f.src2 = 0) {ok : Bool} (hk : ok = true) (g : W32 → W32) :
    vun u f ok (fun a => (g a, {})) s =
      ran s u (lanesBecome (archOf s u) f fun i => g (lane ((archOf s u).vget f.src1) i)) := by
  rw [vun_eq h h2 hk, vlanes_eq, laneFlags_none, raiseV_none]

end Sys2Proof.Machine
end

section
/-! PROOFS. FP32 lane arithmetic: O21. -/

namespace Sys2Proof.Machine

/-! ## FP32 words -/

/-- The two values of a modifier that has one bit. -/
theorem getLsbD_zero_of_lt_two {m : BitVec 6} (h : m.toNat < 2) : m.getLsbD 0 = decide (m = 1) := by
  revert m
  decide

/-- R149: the rounding that mod names. -/
theorem rzMode_eq {f : Fields} (h : f.mod.toNat < 2) : rzMode f = if f.mod = 1 then .rz else .rne := by
  rw [rzMode, getLsbD_zero_of_lt_two h]
  simp

/-- R149: what FP32 arithmetic on two sources leaves, in the rounding that mod names. -/
theorem vbin_w32 {u : StreamId} {f : Fields} {s : State} (h : issues u .lanes f [.v f.src1, .v f.src2, .w f.dst] s = true)
    (hi : f.imm = 0) (hm : f.mod.toNat < 2) (r : RMode → Nat → Nat → Nat × FFlags) :
    let x (i : Nat) : Nat × FFlags := r (if f.mod = 1 then .rz else .rne) (lane ((archOf s u).vget f.src1) i).toNat
      (lane ((archOf s u).vget f.src2) i).toNat
    vbin u f (f.mod.toNat < 2) (fun a b => w32 (r (rzMode f) a.toNat b.toNat)) s =
      ran s u ((lanesBecome (archOf s u) f fun i => BitVec.ofNat 32 (x i).1).raiseV (laneFlags (archOf s u) f fun i => (x i).2)) := by
  intro x
  rw [vbin_eq h hi (decide_eq_true hm), vlanes_eq, rzMode_eq hm]
  rfl

@[simp] theorem isNan32_iff (a : W32) : isNan32 a = true ↔ f32.decode a.toNat = .nan := by
  simp [isNan32]

/-- R31: a NaN operand gives the canonical NaN. -/
theorem vmin32_nan {a b : W32} (h : f32.decode a.toNat = .nan ∨ f32.decode b.toNat = .nan) : vmin32 a b = nan32 := by
  simp [vmin32, h]

theorem vmin32_eq {a b : W32} (ha : f32.decode a.toNat ≠ .nan) (hb : f32.decode b.toNat ≠ .nan) :
    vmin32 a b = if (f32.decode b.toNat).lt (f32.decode a.toNat) = true then b else a :=
  if_neg (by simp [ha, hb])

/-- R31: a NaN operand gives the canonical NaN. -/
theorem vmax32_nan {a b : W32} (h : f32.decode a.toNat = .nan ∨ f32.decode b.toNat = .nan) : vmax32 a b = nan32 := by
  simp [vmax32, h]

theorem vmax32_eq {a b : W32} (ha : f32.decode a.toNat ≠ .nan) (hb : f32.decode b.toNat ≠ .nan) :
    vmax32 a b = if (f32.decode a.toNat).lt (f32.decode b.toNat) = true then b else a :=
  if_neg (by simp [ha, hb])

/-- A word is its sign bit and its magnitude. -/
theorem getLsbD_sign_magnitude (c : BitVec 1) (w : W32) {i : Nat} (h : i < 32) :
    (c ++ w.extractLsb' 0 31).getLsbD i = if i = 31 then c.getLsbD 0 else w.getLsbD i := by
  rw [BitVec.getLsbD_append]
  by_cases hi : i = 31
  · simp [hi]
  · have : i < 31 := by omega
    simp [hi, this]

/-- The bits of the mask that keeps a magnitude. -/
theorem getLsbD_magnitudeMask {i : Nat} (h : i < 32) : (0x7FFFFFFF#32).getLsbD i = decide (i ≠ 31) := by
  revert i
  decide

/-- The bits of the mask that keeps a sign. -/
theorem getLsbD_signMask {i : Nat} (h : i < 32) : (0x80000000#32).getLsbD i = decide (i = 31) := by
  revert i
  decide

theorem magnitude_eq_append (w : W32) : w &&& 0x7FFFFFFF#32 = 0#1 ++ w.extractLsb' 0 31 := by
  refine BitVec.eq_of_getLsbD_eq fun i h => ?_
  rw [getLsbD_sign_magnitude _ _ h, BitVec.getLsbD_and, getLsbD_magnitudeMask h]
  by_cases hi : i = 31 <;> simp [hi]

theorem negated_eq_append (w : W32) : w ^^^ 0x80000000#32 = ~~~(w.extractLsb' 31 1) ++ w.extractLsb' 0 31 := by
  refine BitVec.eq_of_getLsbD_eq fun i h => ?_
  rw [getLsbD_sign_magnitude _ _ h, BitVec.getLsbD_xor, getLsbD_signMask h]
  by_cases hi : i = 31 <;> simp [hi]

theorem copySign_eq_append (w c : W32) :
    w &&& 0x7FFFFFFF#32 ||| c &&& 0x80000000#32 = c.extractLsb' 31 1 ++ w.extractLsb' 0 31 := by
  refine BitVec.eq_of_getLsbD_eq fun i h => ?_
  rw [getLsbD_sign_magnitude _ _ h, BitVec.getLsbD_or, BitVec.getLsbD_and, BitVec.getLsbD_and, getLsbD_magnitudeMask h,
    getLsbD_signMask h]
  by_cases hi : i = 31 <;> simp [hi]

end Sys2Proof.Machine

namespace Sys2Proof.Proofs

open Sys2Proof.Machine

/-- Settles O21: `vlanes_eq` for the arithmetic, and what `vmin32`, `vmax32` and the sign operations give on each word. That
`vcsgn` gives the canonical NaN for a NaN in s1 alone is the reading of log 48. -/
theorem vectorFloat : Obligations.VectorFloat := by
  unfold Obligations.VectorFloat
  refine ⟨fun u f s hi hmod => ?_, fun u f s hi => ⟨fun h => ?_, fun h h2 => ?_⟩⟩
  · refine ⟨fun h => ⟨congrArg _ (vbin_w32 h hi hmod f32.addB), congrArg _ (vbin_w32 h hi hmod f32.subB),
      congrArg _ (vbin_w32 h hi hmod f32.mulB)⟩, fun h => ?_⟩
    · exact congrArg Host.Outcome.next ((issueArch_eq h (.inl rfl) (by simp [hi, hmod]) _).trans (by
        rw [vlanes_eq, rzMode_eq hmod]; rfl))
  · refine ⟨fun hm => ⟨_, congrArg _ (vbinI_eq h hi (by rw [hm]; rfl) _), fun i => ⟨vmin32_nan, fun ha hb => ?_⟩⟩,
      fun hm => ⟨_, congrArg _ (vbinI_eq h hi (by rw [hm]; rfl) _), fun i => ⟨vmax32_nan, fun ha hb => ?_⟩⟩,
      fun hm => ⟨_, congrArg _ (vbinI_eq h hi (by rw [hm]; rfl) _), fun i => ?_⟩⟩
    · rw [vmin32_eq ha hb]
      exact ⟨fun hl => if_pos hl, fun hl => if_neg hl⟩
    · rw [vmax32_eq ha hb]
      exact ⟨fun hl => if_pos hl, fun hl => if_neg hl⟩
    · simp only [isNan32_iff, copySign_eq_append]
      exact ⟨fun hn => if_pos hn, fun hn => if_neg hn⟩
  · refine ⟨fun hm => ⟨_, congrArg _ (vun_eq_lanesBecome h h2 (by rw [hm, hi]; rfl) _), fun i => ?_⟩,
      fun hm => ⟨_, congrArg _ (vun_eq_lanesBecome h h2 (by rw [hm, hi]; rfl) _), fun i => ?_⟩⟩
    · simp only [isNan32_iff, magnitude_eq_append]
      exact ⟨fun hn => if_pos hn, fun hn => if_neg hn⟩
    · simp only [isNan32_iff, negated_eq_append]
      exact ⟨fun hn => if_pos hn, fun hn => if_neg hn⟩

end Sys2Proof.Proofs
end

section
/-! PROOFS. Conversions of vector lanes: O25. -/

namespace Sys2Proof.Machine

/-! ## Parts of a vector register -/

/-- R143: the widths that elements are stored in. -/
def storedWidth (w : Nat) : Prop := w = 4 ∨ w = 8 ∨ w = 16 ∨ w = 32

theorem storedWidth_of_vfmt {c w : Nat} {el : Elem} (h : vfmt c = some (el, w)) : storedWidth w := by
  have hw : ∀ c < 12, ∀ r ∈ vfmt c, storedWidth r.2 := by
    simp only [storedWidth]
    decide
  by_cases hc : c < 12
  · exact hw c hc _ h
  · obtain ⟨k, rfl⟩ := Nat.exists_eq_add_of_le (Nat.not_lt.mp hc)
    rw [Nat.add_comm] at h
    exact nomatch h

section
variable {w p i j : Nat} (hw : storedWidth w)
include hw

/-- R143: the elements of a part lie in the register's lanes, each within one lane. -/
theorem element_place (hp : p < 32 / w) (hi : i < 32) : w * p + i * w / 32 < 32 ∧ i * w % 32 + w ≤ 32 := by
  rcases hw with rfl | rfl | rfl | rfl <;> omega

/-- R143: two elements of a part in one lane share no bit. -/
theorem element_apart (h : j ≠ i) (hl : w * p + j * w / 32 = w * p + i * w / 32) :
    j * w % 32 + w ≤ i * w % 32 ∨ i * w % 32 + w ≤ j * w % 32 := by
  rcases hw with rfl | rfl | rfl | rfl <;> omega

/-- R143: an element reads as it was written. -/
theorem partGet_partSet_same (v : Vector W32 32) (hp : p < 32 / w) (hi : i < 32) (x : Nat) :
    partGet (partSet w p v (i, x)) w p i = x % 2 ^ w := by
  obtain ⟨hlane, hbits⟩ := element_place hw hp hi
  refine Nat.eq_of_testBit_eq fun k => ?_
  rw [partGet, partSet, lane_eq _ hlane, Vector.getElem_setIfInBounds_self, testBit_bitsAt, Nat.testBit_mod_two_pow,
    BitVec.toNat_ofNat, Nat.testBit_mod_two_pow, testBit_putBits]
  by_cases hk : k < w
  · have h32 : i * w % 32 + k < 32 := by omega
    simp [hk, h32]
  · simp [hk]

/-- R143: writing an element leaves the others of its part. -/
theorem partGet_partSet_ne (v : Vector W32 32) (hp : p < 32 / w) (hj : j < 32) (h : j ≠ i) (x : Nat) :
    partGet (partSet w p v (i, x)) w p j = partGet v w p j := by
  obtain ⟨hlane, hbits⟩ := element_place hw hp hj
  rw [partGet, partGet, partSet, lane_eq _ hlane, Vector.getElem_setIfInBounds hlane]
  by_cases hl : w * p + i * w / 32 = w * p + j * w / 32
  · have hapart := element_apart hw h hl.symm
    rw [if_pos hl]
    refine Nat.eq_of_testBit_eq fun k => ?_
    rw [testBit_bitsAt, testBit_bitsAt, BitVec.toNat_ofNat, Nat.testBit_mod_two_pow, testBit_putBits]
    by_cases hk : k < w
    · have h32 : j * w % 32 + k < 32 := by omega
      have hout : ¬(i * w % 32 ≤ j * w % 32 + k ∧ j * w % 32 + k < i * w % 32 + w) := by omega
      simp [h32, hout, ← hl]
    · simp [hk]
  · rw [if_neg hl, lane_eq _ hlane]

/-- R143, R153: elements written with values that depend on the lane alone. -/
theorem partGet_foldl_partSet (hp : p < 32 / w) (hi : i < 32) (g : Nat → Nat) (l : List Nat) (v : Vector W32 32) :
    partGet ((l.map fun i => (i, g i)).foldl (partSet w p) v) w p i = if i ∈ l then g i % 2 ^ w else partGet v w p i := by
  induction l generalizing v with
  | nil => rfl
  | cons j r ih =>
    rw [List.map_cons, List.foldl_cons, ih]
    by_cases hr : i ∈ r
    · simp [hr]
    · by_cases hj : i = j
      · subst hj
        simp [hr, partGet_partSet_same hw v hp hi]
      · simp [hr, hj, partGet_partSet_ne hw v hp hi hj]

end

/-- The elements of a part that the active lanes name take their values, and the others keep theirs. -/
theorem partGet_activeLanes {w p i : Nat} (hw : storedWidth w) (hp : p < 32 / w) (hi : i < 32) (a : Arch) (f : Fields) (g : Nat → Nat) :
    partGet (((activeLanes a f.mask).map fun i => (i, g i)).foldl (partSet w p) (a.vget f.dst)) w p i =
      if laneOn a f.mask i = true then g i % 2 ^ w else partGet (a.vget f.dst) w p i := by
  simp [partGet_foldl_partSet hw hp hi, mem_activeLanes, hi]

/-! ## The two conversions -/

/-- R38, R40: the rounding that mod names. -/
theorem cvtMode_eq (f : Fields) (key ctr : W64) (i : Nat) : cvtMode f key ctr i =
    if f.mod = 0 then .rne else if f.mod = 1 then .rz
    else .sr ((mix (key ^^^ (ctr * 32#64 + BitVec.ofNat 64 i))).toNat % 2 ^ 32) := by
  unfold cvtMode
  split
  · rename_i h
    rw [if_pos (BitVec.eq_of_toNat_eq h)]
  · rename_i h
    have h1 : f.mod = 1 := BitVec.eq_of_toNat_eq h
    simp [h1]
  · rename_i h0 h1
    rw [if_neg fun h => h0 (by rw [h]; rfl), if_neg fun h => h1 (by rw [h]; rfl), drawLane]

/-- R40: a stochastic conversion uses one counter value. -/
theorem useCtr_eq (a : Arch) (f : Fields) : a.useCtr f = if f.mod = 2 then { a with srctr := a.srctr + 1 } else a := by
  simp [Arch.useCtr]

theorem cvtDstPart_lt {f : Fields} (h : cvtOk f = true) {es ed : Elem} {ws wd : Nat} (hs : vfmt (cvtSrc f) = some (es, ws))
    (hd : vfmt (cvtDst f) = some (ed, wd)) : cvtDstPart f < 32 / wd := by
  simp only [cvtOk, hs, hd, Bool.and_eq_true, decide_eq_true_eq] at h
  tauto

theorem quantDstPart_lt {f : Fields} (h : quantOk f = true) {ed : Elem} {wd : Nat} (hd : vfmt (cvtDst f) = some (ed, wd)) :
    cvtDstPart f < 32 / wd := by
  simp only [quantOk, hd, Bool.and_eq_true, decide_eq_true_eq] at h
  tauto

/-- R153: codes that differ are converted. -/
theorem cvtElem_eq {src dst : Nat} {es ed : Elem} {ws wd : Nat} (hs : vfmt src = some (es, ws)) (hd : vfmt dst = some (ed, wd))
    (h : src ≠ dst) (mode : RMode) (b : Nat) : cvtElem src dst mode b = ed.encode mode (es.decode b) := by
  simp [cvtElem, hs, hd, h]

/-- R153: what `vcvt` leaves: the elements of its active lanes in the destination part. -/
theorem cvtArch_eq (key : W64) {f : Fields} (a : Arch) {es ed : Elem} {ws wd : Nat} (hs : vfmt (cvtSrc f) = some (es, ws))
    (hd : vfmt (cvtDst f) = some (ed, wd)) : ∃ fl, cvtArch key f a = ((a.vput f.dst
      (((activeLanes a f.mask).map fun i => (i, (cvtElem (cvtSrc f) (cvtDst f) (cvtMode f key a.srctr i)
        (partGet (a.vget f.src1) ws (cvtSrcPart f) i)).1)).foldl (partSet wd (cvtDstPart f)) (a.vget f.dst))).raiseV fl).useCtr f := by
  simp only [cvtArch, hs, hd, List.map_map, Function.comp_def]
  exact ⟨_, rfl⟩

/-- R154: the element that `vquant` writes for a lane's word under a scale byte. -/
def quantElem (el : Elem) (scale : Nat) (mode : RMode) (x : W32) : Nat :=
  if scale = 255 then 0 else (el.encode mode ((f32.decode x.toNat).scale (127 - (scale : Int)))).1

/-- R154: what `vquant` leaves: the elements of its active lanes in the destination part. -/
theorem quantArch_eq (key : W64) {f : Fields} (a : Arch) {ed : Elem} {wd : Nat} (hd : vfmt (cvtDst f) = some (ed, wd)) :
    ∃ fl, quantArch key f a = ((a.vput f.dst (((activeLanes a f.mask).map fun i => (i, quantElem ed ((a.sget f.src2).toNat % 256)
      (cvtMode f key a.srctr i) (lane (a.vget f.src1) i))).foldl (partSet wd (cvtDstPart f)) (a.vget f.dst))).raiseV fl).useCtr f := by
  by_cases hscale : (a.sget f.src2).toNat % 256 = 255
  · simp only [quantArch, quantElem, hd, hscale, List.map_map, Function.comp_def]
    exact ⟨_, rfl⟩
  · simp only [quantArch, quantElem, hd, hscale, beq_iff_eq, if_false, List.map_map, Function.comp_def]
    exact ⟨_, rfl⟩

end Sys2Proof.Machine

namespace Sys2Proof.Proofs

open Sys2Proof.Machine

/-- Settles O25: `cvtArch` and `quantArch` write the elements of the active lanes into one part of the register, where each reads
back as written and the others are untouched (`partGet_activeLanes`). -/
theorem vectorConversion : Obligations.VectorConversion := by
  unfold Obligations.VectorConversion
  refine fun u f s => ⟨fun h hok es ws ed wd (hs : vfmt (cvtSrc f) = _) (hd : vfmt (cvtDst f) = _) => ?_,
    fun h hok ed wd (hd : vfmt (cvtDst f) = _) => ?_⟩
  · obtain ⟨fl, hfl⟩ := cvtArch_eq (coreOf s u.lcid).key (archOf s u) hs hd
    refine ⟨_, fl, congrArg _ ((issueArch_eq h (.inr (by simp)) hok _).trans (congrArg _ (hfl.trans (useCtr_eq _ _)))),
      fun i hi => ?_⟩
    have hread := partGet_activeLanes (storedWidth_of_vfmt hd) (cvtDstPart_lt hok hs hd) hi (archOf s u) f
    exact ⟨fun hoff => (hread _).trans (if_neg (by simp [hoff])), fun hon (hne : cvtSrc f ≠ cvtDst f) => (hread _).trans (by
      rw [if_pos hon, cvtElem_eq hs hd hne, cvtMode_eq]; rfl)⟩
  · obtain ⟨fl, hfl⟩ := quantArch_eq (coreOf s u.lcid).key (archOf s u) hd
    refine ⟨_, fl, congrArg _ ((issueArch_eq h (.inr (by simp)) hok _).trans (congrArg _ (hfl.trans (useCtr_eq _ _)))),
      fun i hi => ?_⟩
    have hread := partGet_activeLanes (storedWidth_of_vfmt hd) (quantDstPart_lt hok hd) hi (archOf s u) f
    refine ⟨fun hoff => (hread _).trans (if_neg (by simp [hoff])), fun hon hsc => (hread _).trans ?_, fun hon hsc => (hread _).trans ?_⟩
    · rw [if_pos hon, quantElem, if_pos hsc, Nat.zero_mod]
    · rw [if_pos hon, quantElem, if_neg hsc, cvtMode_eq]

end Sys2Proof.Proofs
end

section
/-! PROOFS. The reduction unit: O27. -/

namespace Sys2Proof.Machine

/-! ## The order of values -/

/-- The number that a value stands for, between the two infinities; NaN has none. -/
def FV.number : FV → WithBot (WithTop ℚ)
  | .nan => ⊥
  | .inf true => ⊥
  | .inf false => (⊤ : WithTop ℚ)
  | .fin n m e => .some (.some (signed n m * 2 ^ e))

/-- A dyadic number under a common exponent. -/
theorem signed_mul_zpow (n : Bool) (m : Nat) {e k : Int} (h : k ≤ e) :
    ((signed n m * (2 ^ (e - k).toNat : Nat) : Int) : ℚ) * 2 ^ k = signed n m * 2 ^ e := by
  obtain ⟨d, rfl⟩ := Int.le.dest h
  have hd : (k + d - k).toNat = d := by omega
  rw [hd, zpow_add₀ two_ne_zero, zpow_natCast]
  push_cast
  ring

/-- R30: the order of values that are no NaN is that of their numbers. -/
theorem lt_iff_number {a b : FV} (ha : a ≠ .nan) (hb : b ≠ .nan) : a.lt b = true ↔ a.number < b.number := by
  match a, b with
  | .nan, _ => exact absurd rfl ha
  | _, .nan => exact absurd rfl hb
  | .inf x, .inf y => cases x <;> cases y <;> simp [FV.lt, FV.number]
  | .inf true, .fin _ _ _ => exact iff_of_true rfl (WithBot.bot_lt_coe _)
  | .inf false, .fin _ _ _ => exact iff_of_false Bool.false_ne_true (not_lt_of_ge (WithBot.coe_le_coe.mpr le_top))
  | .fin _ _ _, .inf true => exact iff_of_false Bool.false_ne_true not_lt_bot
  | .fin _ _ _, .inf false => exact iff_of_true rfl (WithBot.coe_lt_coe.mpr (WithTop.coe_lt_top _))
  | .fin n m e, .fin n' m' e' =>
    have h2 : (0 : ℚ) < 2 ^ (min e e') := zpow_pos (by norm_num) _
    simp only [FV.lt, FV.number, decide_eq_true_eq, WithBot.coe_lt_coe, WithTop.coe_lt_coe]
    rw [← signed_mul_zpow n m (min_le_left e e'), ← signed_mul_zpow n' m' (min_le_right e e'), mul_lt_mul_iff_left₀ h2]
    exact Int.cast_lt.symm

/-! ## Sums -/

/-- R158: a node of the tree: the sum of two words, and the flags so far. -/
def treeNode (a b : W32 × FFlags) : W32 × FFlags :=
  (add32 a.1 b.1, (a.2.or b.2).or (f32.addB .rne a.1.toNat b.1.toNat).2)

/-- R158: a level adds the first half of a list to its second half. -/
theorem treeLevel_range (h : Nat) (g : Nat → W32 × FFlags) :
    treeLevel ((List.range (2 * h)).map g) = (List.range h).map fun i => treeNode (g i) (g (i + h)) := by
  have hlen : (2 * h) / 2 = h := by omega
  refine List.ext_getElem ?_ fun i h1 h2 => ?_
  · simp [treeLevel]; omega
  · simp [treeLevel, treeNode, w32, add32, hlen, Nat.add_comm]

/-- The word that a reduction reads in a lane: an inactive lane is +0. -/
def treeLane (a : Arch) (f : Fields) (i : Nat) : W32 × FFlags :=
  (if laneOn a f.mask i then lane (a.vget f.src1) i else 0, {})

/-- R158: the fixed tree over 32 lanes, node by node. -/
theorem treeSum_eq (a : Arch) (f : Fields) :
    let x1 (i : Nat) := treeNode (treeLane a f i) (treeLane a f (i + 16))
    let x2 (i : Nat) := treeNode (x1 i) (x1 (i + 8))
    let x3 (i : Nat) := treeNode (x2 i) (x2 (i + 4))
    let x4 (i : Nat) := treeNode (x3 i) (x3 (i + 2))
    treeSum a f = treeNode (x4 0) (x4 1) := by
  intro x1 x2 x3 x4
  have h1 : treeLevel ((List.range 32).map (treeLane a f)) = (List.range 16).map x1 := treeLevel_range 16 _
  have h2 : treeLevel ((List.range 16).map x1) = (List.range 8).map x2 := treeLevel_range 8 _
  have h3 : treeLevel ((List.range 8).map x2) = (List.range 4).map x3 := treeLevel_range 4 _
  have h4 : treeLevel ((List.range 4).map x3) = (List.range 2).map x4 := treeLevel_range 2 _
  have h5 : treeLevel ((List.range 2).map x4) = (List.range 1).map fun i => treeNode (x4 i) (x4 (i + 1)) := treeLevel_range 1 _
  have htree : treeSum a f =
    (treeLevel (treeLevel (treeLevel (treeLevel (treeLevel ((List.range 32).map (treeLane a f)))))))[0]?.getD (0, {}) := rfl
  rw [htree, h1, h2, h3, h4, h5]
  rfl

/-- R156: without an active lane the prior value comes back. -/
theorem rsumArch_inactive {f : Fields} {a : Arch} (h : activeLanes a f.mask = []) :
    rsumArch f a = a.sput f.dst ((if f.mod.getLsbD 0 then 0 else priorLo a f).zeroExtend 64) := by
  simp [rsumArch, h]

/-- R158: the tree's sum is added to the prior value. -/
theorem rsumArch_active {f : Fields} {a : Arch} (h : activeLanes a f.mask ≠ []) : ∃ fl, rsumArch f a =
    (a.sput f.dst ((add32 (if f.mod.getLsbD 0 then 0 else priorLo a f) (treeSum a f).1).zeroExtend 64)).raiseV fl := by
  have hne : (activeLanes a f.mask).isEmpty = false := by simpa using h
  simp only [rsumArch, hne]
  exact ⟨_, rfl⟩

/-- Adding values one by one is adding their sum. -/
theorem foldl_add_eq_sum {α : Type} (g : α → W64) (l : List α) (x : W64) :
    l.foldl (fun x e => x + g e) x = x + (l.map g).sum := by
  induction l generalizing x with
  | nil => simp
  | cons e r ih => rw [List.foldl_cons, ih, List.map_cons, List.sum_cons, BitVec.add_assoc]

/-! ## Maxima and minima -/

/-- R159: does the second word replace the first in a maximum, or in a minimum? -/
def better (isMax : Bool) (v x : W32) : Bool := if isMax then lt32 v x else lt32 x v

/-- R159: what `.abs` makes of a word. -/
def magWord (abs : Bool) (w : W32) : W32 := if abs then w &&& 0x7FFFFFFF#32 else w

theorem better_irrefl (isMax : Bool) {v : W32} (hv : ¬isNan32 v = true) : ¬better isMax v v = true := by
  rw [isNan32_iff] at hv
  have hlt : ¬lt32 v v = true := fun h => lt_irrefl _ ((lt_iff_number hv hv).mp h)
  simpa [better] using hlt

/-- What replaces a word that replaced another replaces that other. -/
theorem better_trans {isMax : Bool} {v x y : W32} (hv : ¬isNan32 v = true) (hx : ¬isNan32 x = true) (hy : ¬isNan32 y = true)
    (h1 : better isMax v x = true) (h2 : better isMax x y = true) : better isMax v y = true := by
  rw [isNan32_iff] at hv hx hy
  cases isMax
  · exact (lt_iff_number hy hv).mpr (((lt_iff_number hy hx).mp h2).trans ((lt_iff_number hx hv).mp h1))
  · exact (lt_iff_number hv hy).mpr (((lt_iff_number hv hx).mp h1).trans ((lt_iff_number hx hy).mp h2))

/-- What does not replace the better of two words does not replace the other. -/
theorem not_better_of_not_better {isMax : Bool} {v x y : W32} (hv : ¬isNan32 v = true) (hx : ¬isNan32 x = true)
    (hy : ¬isNan32 y = true) (h1 : ¬better isMax v x = true) (h2 : ¬better isMax y v = true) : ¬better isMax y x = true := by
  rw [isNan32_iff] at hv hx hy
  have hle : ∀ {a b : W32}, f32.decode a.toNat ≠ .nan → f32.decode b.toNat ≠ .nan → ¬lt32 a b = true →
      (f32.decode b.toNat).number ≤ (f32.decode a.toNat).number :=
    fun ha hb h => not_lt.mp fun hlt => h ((lt_iff_number ha hb).mpr hlt)
  cases isMax
  · exact fun h => absurd ((lt_iff_number hx hy).mp h) (not_lt.mpr ((hle hv hy h2).trans (hle hx hv h1)))
  · exact fun h => absurd ((lt_iff_number hy hx).mp h) (not_lt.mpr ((hle hv hx h1).trans (hle hy hv h2)))

/-- R159: without a NaN, the better of the two words and its index. -/
theorem pickExt_number {isMax : Bool} {acc : W32 × W32 × Bool} {x : W32 × W32} (hv : ¬isNan32 acc.1 = true)
    (hx : ¬isNan32 x.1 = true) : pickExt isMax acc x = if better isMax acc.1 x.1 = true then (x.1, x.2, false) else acc := by
  obtain ⟨v, i, pri⟩ := acc
  simp [pickExt, better, hv, hx]

/-- R159: a NaN on either side stays. -/
theorem isNan32_pickExt (isMax : Bool) (acc : W32 × W32 × Bool) (x : W32 × W32) :
    isNan32 (pickExt isMax acc x).1 = (isNan32 acc.1 || isNan32 x.1) := by
  obtain ⟨v, i, pri⟩ := acc
  by_cases hv : isNan32 v = true
  · simp only [pickExt, hv, if_true]
    split <;> simp [hv]
  · by_cases hx : isNan32 x.1 = true
    · simp [pickExt, hv, hx]
    · rw [pickExt_number hv hx]
      split <;> simp [hv, hx]

/-- R159: a NaN anywhere makes the result NaN. -/
theorem isNan32_foldl_pickExt (isMax : Bool) (l : List (W32 × W32)) (acc : W32 × W32 × Bool) :
    isNan32 (l.foldl (pickExt isMax) acc).1 = (isNan32 acc.1 || l.any fun e => isNan32 e.1) := by
  induction l generalizing acc with
  | nil => simp
  | cons e r ih => rw [List.foldl_cons, ih, isNan32_pickExt, List.any_cons, Bool.or_assoc]

/-- R159: without a NaN, the result is one of the words, with its index, and none of the words replaces it. -/
theorem foldl_pickExt_number (isMax : Bool) (l : List (W32 × W32)) {acc : W32 × W32 × Bool} (hv : ¬isNan32 acc.1 = true)
    (hl : ∀ e ∈ l, ¬isNan32 e.1 = true) :
    let r := l.foldl (pickExt isMax) acc
    (r.1 = acc.1 ∧ r.2.1 = acc.2.1 ∨ ∃ e ∈ l, r.1 = e.1 ∧ r.2.1 = e.2) ∧ ¬better isMax r.1 acc.1 = true ∧
      ∀ e ∈ l, ¬better isMax r.1 e.1 = true := by
  induction l generalizing acc with
  | nil => exact ⟨.inl ⟨rfl, rfl⟩, better_irrefl isMax hv, by simp⟩
  | cons x r ih =>
    obtain ⟨hx, hr⟩ := List.forall_mem_cons.mp hl
    have hres : ¬isNan32 ((x :: r).foldl (pickExt isMax) acc).1 = true := by
      rw [isNan32_foldl_pickExt, Bool.or_eq_true, List.any_eq_true]
      exact fun h => h.elim hv fun ⟨e, he, hn⟩ => hl e he hn
    simp only [List.foldl_cons, pickExt_number hv hx] at hres ⊢
    by_cases hb : better isMax acc.1 x.1 = true
    · simp only [hb, if_true] at hres ⊢
      obtain ⟨hmem, hnot, hall⟩ := ih (acc := (x.1, x.2, false)) hx hr
      refine ⟨.inr ?_, fun h => hnot (better_trans hres hv hx h hb), List.forall_mem_cons.mpr ⟨hnot, hall⟩⟩
      rcases hmem with hmem | ⟨e, he, hmem⟩
      · exact ⟨x, List.mem_cons_self, hmem⟩
      · exact ⟨e, List.mem_cons_of_mem _ he, hmem⟩
    · simp only [hb] at hres ⊢
      obtain ⟨hmem, hnot, hall⟩ := ih hv hr
      refine ⟨hmem.imp_right fun ⟨e, he, hm⟩ => ⟨e, List.mem_cons_of_mem _ he, hm⟩, hnot,
        List.forall_mem_cons.mpr ⟨not_better_of_not_better hv hx hres hb hnot, hall⟩⟩

/-- The words and indices that a maximum or minimum compares. -/
def extremeWords (abs : Bool) (base : W32) (l : List (Nat × W32)) : List (W32 × W32) :=
  l.map fun e => (magWord abs e.2, base + BitVec.ofNat 32 e.1)

theorem extreme_eq {l : List (Nat × W32)} (h : l ≠ []) (isMax abs : Bool) (pv pi base : W32) :
    let r := (extremeWords abs base l).foldl (pickExt isMax) (magWord abs pv, pi, true)
    extreme isMax abs pv pi base l = (if isNan32 r.1 then nan32 else r.1, r.2.1) := by
  have hne : l.isEmpty = false := by simpa using h
  simp only [extreme, hne, extremeWords, List.foldl_map]
  rfl

section
variable {l : List (Nat × W32)} (h : l ≠ []) (isMax : Bool) {abs : Bool} {pv : W32} (pi base : W32)
include h

/-- R159: a NaN among the prior value and the lanes gives the canonical NaN. -/
theorem extreme_nan (hn : isNan32 (magWord abs pv) = true ∨ ∃ e ∈ l, isNan32 (magWord abs e.2) = true) :
    (extreme isMax abs pv pi base l).1 = nan32 := by
  have hres : isNan32 ((extremeWords abs base l).foldl (pickExt isMax) (magWord abs pv, pi, true)).1 = true := by
    rw [isNan32_foldl_pickExt, Bool.or_eq_true, List.any_eq_true]
    exact hn.imp_right fun ⟨e, he, hm⟩ => ⟨_, List.mem_map_of_mem he, hm⟩
  rw [extreme_eq h]
  exact if_pos hres

/-- R159: without a NaN, one of the prior value and the lanes, that none of them replaces, with its index. -/
theorem extreme_number (hv : ¬isNan32 (magWord abs pv) = true) (hl : ∀ e ∈ l, ¬isNan32 (magWord abs e.2) = true) :
    let r := extreme isMax abs pv pi base l
    (r.1 = magWord abs pv ∧ r.2 = pi ∨ ∃ e ∈ l, r.1 = magWord abs e.2 ∧ r.2 = base + BitVec.ofNat 32 e.1) ∧
      ¬better isMax r.1 (magWord abs pv) = true ∧ ∀ e ∈ l, ¬better isMax r.1 (magWord abs e.2) = true := by
  have hwords : ∀ x ∈ extremeWords abs base l, ¬isNan32 x.1 = true := List.forall_mem_map.mpr hl
  have hres : ¬isNan32 ((extremeWords abs base l).foldl (pickExt isMax) (magWord abs pv, pi, true)).1 = true := by
    rw [isNan32_foldl_pickExt, Bool.or_eq_true, List.any_eq_true]
    exact fun hn => hn.elim hv fun ⟨x, hx, hn⟩ => hwords x hx hn
  obtain ⟨hmem, hnot, hall⟩ := foldl_pickExt_number isMax (extremeWords abs base l) (acc := (magWord abs pv, pi, true)) hv hwords
  rw [extreme_eq h, if_neg hres]
  refine ⟨hmem.imp_right fun ⟨x, hx, hr⟩ => ?_, hnot, fun e he => hall _ (List.mem_map_of_mem he)⟩
  obtain ⟨e, he, rfl⟩ := List.mem_map.mp hx
  exact ⟨e, he, hr⟩

end

/-! ## Scale bytes -/

theorem isFin_of_isZero {v : FV} (h : v.isZero = true) : v.isFin = true := by
  cases v <;> simp_all [FV.isZero, FV.isFin]

/-- R36: a NaN in a block. -/
theorem scaleByte_nan (el : Elem) {vs : List FV} (h : .nan ∈ vs) : scaleByte el vs = (255, true) := by
  have hany : (vs.any fun v => v == .nan) = true := List.any_eq_true.mpr ⟨_, h, by simp⟩
  simp [scaleByte, hany]

/-- R36: the scale byte of a block of finite values follows the largest magnitude. -/
theorem scaleByte_finite (el : Elem) {vs : List FV} (h : ∀ v ∈ vs, v.isFin = true) {n : Bool} {m : Nat} {e : Int}
    (ha : amaxOf vs = .fin n m e) : scaleByte el vs =
      if m = 0 then (0, false) else ((max (-127) (min 127 (floorLog2 m e - el.emax)) + 127).toNat, false) := by
  have hnan : (vs.any fun v => v == .nan) = false := by
    rw [List.any_eq_false]
    rintro v hv hn
    have := h v hv
    simp_all [FV.isFin]
  have hinf : (!el.hasInf && vs.any fun v => !v.isFin) = false := by
    rw [Bool.and_eq_false_iff, List.any_eq_false]
    exact .inr fun v hv => by simp [h v hv]
  simp only [scaleByte, hnan, hinf, ha, beq_iff_eq]
  rfl

/-- R36: one step of the search for the largest magnitude. -/
def amaxStep (a v : FV) : FV := if v.isFin && a.lt v.abs then v.abs else a

theorem amaxOf_eq (vs : List FV) : amaxOf vs = vs.foldl amaxStep (.fin false 0 0) := rfl

/-- No zero exceeds a value without a sign. -/
theorem amaxStep_zero {v : FV} (h : v.isZero = true) (m : Nat) (e : Int) : amaxStep (.fin false m e) v = .fin false m e := by
  have hlt : (FV.fin false m e).lt v.abs = false := by
    match v with
    | .fin n 0 d => simp [FV.lt, FV.abs, signed]
  simp [amaxStep, hlt]

theorem amaxStep_self (m : Nat) (e : Int) : amaxStep (.fin false m e) (.fin false m e) = .fin false m e :=
  ite_self _

/-- Every positive value exceeds zero. -/
theorem amaxStep_positive {m : Nat} (h : 0 < m) (e : Int) : amaxStep (.fin false 0 0) (.fin false m e) = .fin false m e := by
  have hlt : (FV.fin false 0 0).lt (.fin false m e) = true := by
    simp [FV.lt, signed]
    positivity
  simp [amaxStep, FV.abs, FV.isFin, hlt]

/-- R36: a magnitude that is met again, among zeros, stays the largest. -/
theorem foldl_amaxStep_stays {m : Nat} {e : Int} {vs : List FV} (h : ∀ v ∈ vs, v.isZero = true ∨ v = .fin false m e) :
    vs.foldl amaxStep (.fin false m e) = .fin false m e := by
  induction vs with
  | nil => rfl
  | cons v r ih =>
    obtain ⟨hv, hr⟩ := List.forall_mem_cons.mp h
    have hstep : amaxStep (.fin false m e) v = .fin false m e :=
      hv.elim (amaxStep_zero · m e) fun hv => hv ▸ amaxStep_self m e
    rw [List.foldl_cons, hstep, ih hr]

/-- R36: the largest magnitude among zeros. -/
theorem amaxOf_zeros {vs : List FV} (h : ∀ v ∈ vs, v.isZero = true) : amaxOf vs = .fin false 0 0 :=
  foldl_amaxStep_stays fun v hv => .inl (h v hv)

/-- R36: the largest magnitude among zeros and one positive value. -/
theorem amaxOf_single {m : Nat} {e : Int} (hm : 0 < m) {vs : List FV} (h : ∀ v ∈ vs, v.isZero = true ∨ v = .fin false m e)
    (hmem : .fin false m e ∈ vs) : amaxOf vs = .fin false m e := by
  rw [amaxOf_eq]
  induction vs with
  | nil => exact nomatch hmem
  | cons v r ih =>
    obtain ⟨hv, hr⟩ := List.forall_mem_cons.mp h
    rw [List.foldl_cons]
    by_cases hx : v = .fin false m e
    · rw [hx, amaxStep_positive hm, foldl_amaxStep_stays hr]
    · rw [amaxStep_zero (hv.resolve_right hx), ih hr ((List.mem_cons.mp hmem).resolve_left (Ne.symm hx))]

/-! ## The reductions -/

/-- R156: what a reduction leaves. -/
theorem reduce_eq {u : StreamId} {f : Fields} {s : State} (h : issues u .lanes f [.v f.src1, .s f.dst] s = true)
    (h2 : f.src2 = 0) (hi : f.imm = 0) {ok : Bool} (hk : ok = true) (g : Arch → Arch) :
    reduce u f ok g s = ran s u (g (archOf s u)) :=
  issueArch_eq h (.inl rfl) (by simp [hk, h2, hi]) g

/-- R156: the prior value, or the identity under `.bx`. -/
theorem prior_eq {α : Type} {f : Fields} (h : f.mod.toNat < 2) (x y : α) :
    (if f.mod.getLsbD 0 = true then x else y) = if f.mod = 1 then x else y := by
  rw [getLsbD_zero_of_lt_two h]
  simp

/-- A mask register is named by three bits. -/
theorem src1_of_mask {f : Fields} {p : BitVec 3} (h : f.src1 = p.zeroExtend 5) :
    f.src1.extractLsb' 0 3 = p ∧ f.src1.toNat < 8 := by
  have hall : ∀ p : BitVec 3, (p.zeroExtend 5).extractLsb' 0 3 = p ∧ (p.zeroExtend 5).toNat < 8 := by decide
  rw [h]
  exact hall p

theorem argWord_eq (r k : W32) : (r.zeroExtend 64 ||| (k.zeroExtend 64 <<< 32) : W64) = k ++ r := by
  refine BitVec.eq_of_getLsbD_eq fun i h => ?_
  rw [BitVec.getLsbD_append]
  by_cases hi : i < 32
  · simp [hi]; omega
  · have hsub : i - 32 < 32 := by omega
    have hr : r.getLsbD i = false := BitVec.getLsbD_of_ge r i (Nat.not_lt.mp hi)
    simp [hi, h, hsub, hr]

theorem highWord_eq (p : W64) : (p >>> 32).setWidth 32 = p.extractLsb' 32 32 := by
  refine BitVec.eq_of_getLsbD_eq fun i h => ?_
  simp [h]

/-- R159: `rargmax.f32` writes the index above the value. -/
theorem rargArch_eq (f : Fields) (a : Arch) :
    let r := extreme true (f.mod.getLsbD 1) (if f.mod.getLsbD 0 then extIdent true (f.mod.getLsbD 1) else priorLo a f)
      (if f.mod.getLsbD 0 then BitVec.allOnes 32 else (a.sget f.dst).extractLsb' 32 32) ((a.sget f.src2).setWidth 32) (activeVals a f)
    rargArch f a = a.sput f.dst (r.2 ++ r.1) := by
  rw [rargArch, argWord_eq, highWord_eq]
  rfl

/-! ## Maxima and minima over the active lanes -/

section
variable (isMax abs : Bool) (pv pi base : W32) (a : Arch) (f : Fields)

/-- R159: the word that a maximum or minimum compares in a lane. -/
def laneWord (i : Nat) : W32 := magWord abs (lane (a.vget f.src1) i)

/-- R156: without an active lane the prior value and index come back. -/
theorem extreme_inactive (h : activeLanes a f.mask = []) : extreme isMax abs pv pi base (activeVals a f) = (pv, pi) := by
  simp [extreme, activeVals, h]

variable {a f} (h : activeLanes a f.mask ≠ [])
include h

/-- R159: a NaN among the prior value and the active lanes gives the canonical NaN. -/
theorem extreme_lanes_nan (hn : f32.decode (magWord abs pv).toNat = .nan ∨
    ∃ i ∈ activeLanes a f.mask, f32.decode (laneWord abs a f i).toNat = .nan) :
    (extreme isMax abs pv pi base (activeVals a f)).1 = nan32 := by
  refine extreme_nan (List.map_eq_nil_iff.not.mpr h) isMax pi base ?_
  rcases hn with hn | ⟨i, hi, hn⟩
  · exact .inl ((isNan32_iff _).mpr hn)
  · exact .inr ⟨(i, lane (a.vget f.src1) i), List.mem_map_of_mem hi, (isNan32_iff _).mpr hn⟩

/-- R159: without a NaN, one of the prior value and the active lanes, that none of them replaces, with its index. -/
theorem extreme_lanes_number (hv : f32.decode (magWord abs pv).toNat ≠ .nan)
    (hx : ∀ i ∈ activeLanes a f.mask, f32.decode (laneWord abs a f i).toNat ≠ .nan) :
    let r := extreme isMax abs pv pi base (activeVals a f)
    (r.1 = magWord abs pv ∧ r.2 = pi ∨ ∃ i ∈ activeLanes a f.mask, r.1 = laneWord abs a f i ∧ r.2 = base + BitVec.ofNat 32 i) ∧
      ¬better isMax r.1 (magWord abs pv) = true ∧ ∀ i ∈ activeLanes a f.mask, ¬better isMax r.1 (laneWord abs a f i) = true := by
  have hwords : ∀ e ∈ activeVals a f, ¬isNan32 (magWord abs e.2) = true :=
    List.forall_mem_map.mpr fun i hi => (isNan32_iff _).not.mpr (hx i hi)
  obtain ⟨hmem, hnot, hall⟩ :=
    extreme_number (List.map_eq_nil_iff.not.mpr h) isMax pi base ((isNan32_iff _).not.mpr hv) hwords
  refine ⟨hmem.imp_right fun ⟨e, he, hr⟩ => ?_, hnot,
    fun i hi => hall (i, lane (a.vget f.src1) i) (List.mem_map_of_mem hi)⟩
  obtain ⟨i, hi, rfl⟩ := List.mem_map.mp he
  exact ⟨i, hi, hr⟩

end

/-- R156, R159: the value of a maximum or minimum: the prior value, the canonical NaN, or a word that none of them replaces. -/
theorem extreme_value (isMax abs : Bool) (pv pi base : W32) (a : Arch) (f : Fields) :
    let act := activeLanes a f.mask
    let nan (w : W32) : Prop := f32.decode w.toNat = .nan
    let r := (extreme isMax abs pv pi base (activeVals a f)).1
    (act = [] → r = pv) ∧ (act ≠ [] → (nan (magWord abs pv) ∨ ∃ i ∈ act, nan (laneWord abs a f i)) → r = nan32) ∧
    (act ≠ [] → ¬nan (magWord abs pv) → (∀ i ∈ act, ¬nan (laneWord abs a f i)) →
      (r = magWord abs pv ∨ ∃ i ∈ act, r = laneWord abs a f i) ∧ ¬better isMax r (magWord abs pv) = true ∧
        ∀ i ∈ act, ¬better isMax r (laneWord abs a f i) = true) := by
  refine ⟨fun h => congrArg Prod.fst (extreme_inactive isMax abs pv pi base a f h),
    fun h => extreme_lanes_nan isMax abs pv pi base h, fun h hv hx => ?_⟩
  obtain ⟨hmem, hnot⟩ := extreme_lanes_number isMax abs pv pi base h hv hx
  exact ⟨hmem.imp And.left fun ⟨i, hi, hr⟩ => ⟨i, hi, hr.1⟩, hnot⟩

/-- R159: without a NaN, the index is the prior one, where no active lane exceeds the prior value, or that of a lane with the
result's value. -/
theorem extreme_index (abs : Bool) (pv pi base : W32) (a : Arch) (f : Fields) (hv : f32.decode (magWord abs pv).toNat ≠ .nan)
    (hx : ∀ i ∈ activeLanes a f.mask, f32.decode (laneWord abs a f i).toNat ≠ .nan) :
    let r := extreme true abs pv pi base (activeVals a f)
    (r.2 = pi ∧ ∀ i ∈ activeLanes a f.mask, ¬lt32 (magWord abs pv) (laneWord abs a f i) = true) ∨
      ∃ i ∈ activeLanes a f.mask, r.2 = base + BitVec.ofNat 32 i ∧ r.1 = laneWord abs a f i := by
  by_cases h : activeLanes a f.mask = []
  · exact .inl ⟨congrArg Prod.snd (extreme_inactive true abs pv pi base a f h), by simp [h]⟩
  · obtain ⟨hmem, -, hall⟩ := extreme_lanes_number true abs pv pi base h hv hx
    rcases hmem with ⟨hval, hidx⟩ | ⟨i, hi, hval, hidx⟩
    · exact .inl ⟨hidx, fun i hi => hval ▸ hall i hi⟩
    · exact .inr ⟨i, hi, hidx, hval⟩

/-! ## Scale bytes of the active lanes -/

/-- R36, R154: what `rscale` takes of a lane; an inactive lane counts as zero. -/
def scaleLane (a : Arch) (f : Fields) (i : Nat) : FV :=
  if laneOn a f.mask i then f32.decode (lane (a.vget f.src1) i).toNat else .fin false 0 0

theorem mem_scaleLanes {a : Arch} {f : Fields} {i : Nat} (h : i ∈ activeLanes a f.mask) :
    f32.decode (lane (a.vget f.src1) i).toNat ∈ (List.range 32).map (scaleLane a f) := by
  obtain ⟨hi, hon⟩ := mem_activeLanes.mp h
  exact List.mem_map.mpr ⟨i, List.mem_range.mpr hi, if_pos hon⟩

/-- What holds of zero and of each active lane holds of each value that `rscale` takes. -/
theorem forall_mem_scaleLanes {a : Arch} {f : Fields} {P : FV → Prop} (h0 : P (.fin false 0 0))
    (h : ∀ i ∈ activeLanes a f.mask, P (f32.decode (lane (a.vget f.src1) i).toNat)) :
    ∀ v ∈ (List.range 32).map (scaleLane a f), P v := by
  refine List.forall_mem_map.mpr fun i hi => ?_
  unfold scaleLane
  split
  · exact h i (mem_activeLanes.mpr ⟨List.mem_range.mp hi, ‹_›⟩)
  · exact h0

/-- R154: `rscale` writes the scale byte of its lanes. -/
theorem rscale_eq {u : StreamId} {f : Fields} {s : State} {el : Elem} {w : Nat}
    (h : issues u .lanes f [.v f.src1, .s f.dst] s = true) (hm : f.mod = 0) (h2 : f.src2 = 0) (hmx : mxCode (cvtDst f) = true)
    (hi : f.imm.toNat = 16 * cvtDst f) (hf : vfmt (cvtDst f) = some (el, w)) {n : Nat} {nv : Bool}
    (hb : scaleByte el ((List.range 32).map (scaleLane (archOf s u) f)) = (n, nv)) :
    exec (.rscale u f) s = .next (ran s u (((archOf s u).sput f.dst (BitVec.ofNat 64 n)).raiseV { nv := nv })) := by
  refine congrArg Host.Outcome.next ((issueArch_eq h (.inl rfl) (by simp [hm, h2, hmx, hi]) _).trans (congrArg (ran s u) ?_))
  simp only [hf]
  exact congrArg (fun r : Nat × Bool => ((archOf s u).sput f.dst (BitVec.ofNat 64 r.1)).raiseV { nv := r.2 }) hb

end Sys2Proof.Machine

namespace Sys2Proof.Proofs

open Sys2Proof.Machine

/-- Settles O27: the tree level by level (`treeSum_eq`), the maxima and minima by induction over the lanes with the order of the
values' numbers (`extreme_activeVals`), and the scale byte from the largest magnitude. -/
theorem reductions : Obligations.Reductions := by
  unfold Obligations.Reductions
  refine ⟨fun u f s hi h2 => ⟨fun h hm => ⟨fun hact => ?_, fun hact => ?_, ?_⟩, fun p hp hm h => ?_⟩, fun u f s hi hm => ?_,
    fun u f s el w h hm h2 hmx himm hf => ⟨fun ⟨i, hact, hn⟩ => ?_, fun hz => ?_, fun i hact m e hx hpos hz => ?_⟩⟩
  · exact congrArg _ ((reduce_eq h h2 hi (decide_eq_true hm) _).trans (by rw [rsumArch_inactive hact, prior_eq hm]; rfl))
  · obtain ⟨fl, hfl⟩ := rsumArch_active hact
    exact ⟨fl, congrArg _ ((reduce_eq h h2 hi (decide_eq_true hm) _).trans (by rw [hfl, prior_eq hm, treeSum_eq]; rfl))⟩
  · refine congrArg _ ((reduce_eq h h2 hi (decide_eq_true hm) _).trans ?_)
    simp only [foldl_add_eq_sum, prior_eq hm, activeVals, List.map_map]
    rfl
  · obtain ⟨hmask, hlt⟩ := src1_of_mask hp
    have hok : (f.mod == 0 && f.src2 == 0 && f.imm == 0 && decide (f.src1.toNat < 8)) = true := by simp [hm, h2, hi, hlt]
    exact ⟨congrArg _ ((issueArch_eq h (.inl rfl) hok _).trans (by simp only [maskLanes, hmask]; rfl)),
      congrArg _ ((issueArch_eq h (.inl rfl) hok _).trans (by simp only [maskLanes, hmask]; rfl))⟩
  · have hlt : decide (f.mod.toNat < 4) = true := decide_eq_true hm
    refine ⟨fun h2 h => ⟨⟨_, congrArg _ (reduce_eq h h2 hi hlt _), extreme_value true (f.mod.getLsbD 1) _ 0 0 _ f⟩,
      ⟨_, congrArg _ (reduce_eq h h2 hi hlt _), extreme_value false (f.mod.getLsbD 1) _ 0 0 _ f⟩⟩, fun h => ?_⟩
    refine ⟨_, _, congrArg _ ((issueArch_eq h (.inl rfl) (by simp [hlt, hi]) _).trans (congrArg _ (rargArch_eq f _))),
      extreme_value true (f.mod.getLsbD 1) _ _ _ _ f,
      fun hact => congrArg Prod.snd (extreme_inactive true (f.mod.getLsbD 1) _ _ _ _ f hact),
      fun hv hx => extreme_index (f.mod.getLsbD 1) _ _ _ _ f hv hx⟩
  · exact rscale_eq h hm h2 hmx himm hf (scaleByte_nan el (hn ▸ mem_scaleLanes hact))
  · have hzeros := forall_mem_scaleLanes (P := fun v => v.isZero = true) rfl hz
    exact rscale_eq h hm h2 hmx himm hf
      ((scaleByte_finite el (fun v hv => isFin_of_isZero (hzeros v hv)) (amaxOf_zeros hzeros)).trans (if_pos rfl))
  · have hvals := forall_mem_scaleLanes (a := archOf s u) (f := f) (P := fun v => v.isZero = true ∨ v = .fin false m e) (.inl rfl)
      fun j hj => if hji : j = i then .inr (hji ▸ hx) else .inl (hz j hj hji)
    have hmem : .fin false m e ∈ (List.range 32).map (scaleLane (archOf s u) f) := hx ▸ mem_scaleLanes hact
    have hfin : ∀ v ∈ (List.range 32).map (scaleLane (archOf s u) f), v.isFin = true :=
      fun v hv => (hvals v hv).elim isFin_of_isZero fun hv => by rw [hv]; rfl
    exact rscale_eq h hm h2 hmx himm hf ((scaleByte_finite el hfin (amaxOf_single hpos hvals hmem)).trans (if_neg (by omega)))

end Sys2Proof.Proofs
end

section
/-! SUPPORT. What a store to a well, a reading instruction and a run of tile writes leave alone. -/

namespace Sys2Proof.Machine

/-! ## Wells -/

@[simp] theorem readErrs_nil (s : State) (as : List Nat) : readErrs s [] as = s := rfl

@[simp] theorem slotOf_wellStore_nil (s : State) (l : Nat) (bs : List (Nat × W8)) (u : StreamId) :
    slotOf (wellStore s l bs []) u = slotOf s u := by
  have hc : (coreOf (wellStore s l bs []) u.lcid).slots = (coreOf s u.lcid).slots := by
    by_cases h : u.lcid = l
    · subst h
      simp [coreOf, wellStore, mergeErrs, wellErrs]
    · simp [coreOf, wellStore, mergeErrs, wellErrs, fget_fset_ne h]
  simp only [slotOf, CoreSt.slot, hc]

/-- Storing nothing leaves memory. -/
@[simp] theorem wellStore_nil_mem (s : State) (l : Nat) : (wellStore s l [] []).mem = s.mem := rfl

@[simp] theorem rcount_cores (s : State) (o n : Nat) : (rcount s o n).cores = s.cores := by
  unfold rcount; split <;> rfl

/-! ## Slots -/

theorem slotOf_congr {s t : State} (h : t.cores = s.cores) (u : StreamId) : slotOf t u = slotOf s u := by
  simp only [slotOf, coreOf, h]

/-- A core written with one slot changed keeps its other slots, and every other core's. -/
theorem slotOf_putCore_putSlot_ne {s : State} {u v : StreamId} {c : CoreSt} (hc : c.slots = (coreOf s u.lcid).slots) (x : SlotSt)
    (h : v ≠ u) : slotOf (putCore s u.lcid (c.putSlot u.slot x)) v = slotOf s v := by
  by_cases hl : v.lcid = u.lcid
  · have hs : v.slot ≠ u.slot := fun hs => h (by cases v; cases u; simp_all)
    rw [slotOf, hl, coreOf_putCore, core_slot_putSlot_ne _ _ hs, slotOf, hl, CoreSt.slot, CoreSt.slot, hc]
  · rw [slotOf, coreOf_putCore_ne hl, slotOf]

@[simp] theorem tiles_finish (s : State) (u : StreamId) (l : Nat) : (coreOf (finish s u) l).tiles = (coreOf s l).tiles := by
  by_cases h : l = u.lcid
  · subst h
    simp [finish, putSlot, CoreSt.putSlot]
  · rw [finish, putSlot, coreOf_putCore_ne h]

/-- R65: reading ring slots changes no more of a stitch than its inputs. -/
theorem readInputs_eq (c : CoreSt) (slot : Nat) (ranges : List (Nat × Nat)) (t : Stitch) :
    ∃ l, readInputs c slot ranges t = { t with inputs := l } := by
  unfold readInputs
  generalize ranges.flatMap (fun r => slotsHit c r.1 r.2) = hits
  induction hits generalizing t with
  | nil => exact ⟨t.inputs, rfl⟩
  | cons h r ih =>
    obtain ⟨l, hl⟩ := ih (t.read h.1 h.2.1
      (h.2.2.drain == slot && ((h.2.2.slot h.2.1).st == .provFull || ((h.2.2.slot h.2.1).st == .draining && (h.2.2.slot h.2.1).prov))))
    refine ⟨l, hl.trans ?_⟩
    unfold Stitch.read
    split <;> rfl

/-- R249: an instruction that leaves the stitch and its poison as they are loses nothing. -/
theorem withLoss_eq {u : StreamId} {g : State → State} {s t : State} (hg : g s = t)
    (hp : (slotOf t u).opn.poison = (slotOf s u).opn.poison) (hq : (slotOf t u).opn.seq = (slotOf s u).opn.seq) :
    withLoss u g s = t := by
  subst hg
  simp [withLoss, hp, hq]

/-! ## Tiles -/

/-- A tile that a run of writes does not name keeps its contents. -/
theorem fget_putTiles_ne {l : List (Nat × AccTile)} {k : Nat} (h : ∀ e ∈ l, e.1 ≠ k) (d : AccTile) (m : FMap AccTile) :
    fget d k (putTiles l m) = fget d k m := by
  unfold putTiles
  induction l generalizing m with
  | nil => rfl
  | cons e r ih =>
    obtain ⟨he, hr⟩ := List.forall_mem_cons.mp h
    rw [List.foldl_cons, ih hr, fget_fset_ne he.symm]

/-- A tile that a run of writes names with one value alone holds that value. -/
theorem fget_putTiles {l : List (Nat × AccTile)} {k : Nat} {v : AccTile} (hmem : (k, v) ∈ l) (h : ∀ e ∈ l, e.1 = k → e.2 = v)
    (d : AccTile) (m : FMap AccTile) : fget d k (putTiles l m) = v := by
  induction l generalizing m with
  | nil => exact nomatch hmem
  | cons e r ih =>
    obtain ⟨he, hr⟩ := List.forall_mem_cons.mp h
    have hstep : putTiles (e :: r) m = putTiles r (fset e.1 e.2 m) := rfl
    by_cases hin : (k, v) ∈ r
    · rw [hstep, ih hin hr]
    · obtain rfl : (k, v) = e := (List.mem_cons.mp hmem).resolve_right hin
      by_cases hk : ∀ x ∈ r, x.1 ≠ k
      · rw [hstep, fget_putTiles_ne hk, fget_fset_same]
      · push Not at hk
        obtain ⟨x, hx, hxk⟩ := hk
        exact absurd (by rw [← hxk, ← hr x hx hxk]; exact hx) hin

/-- A tile that a run of erasures does not name keeps its contents. -/
theorem fget_foldl_ferase_ne {ks : List Nat} {k : Nat} (h : k ∉ ks) (d : AccTile) (m : FMap AccTile) :
    fget d k (ks.foldl (fun m k => ferase k m) m) = fget d k m := by
  induction ks generalizing m with
  | nil => rfl
  | cons j r ih =>
    rw [List.mem_cons, not_or] at h
    rw [List.foldl_cons, ih h.2, fget, fget?_ferase_ne h.1, fget]

end Sys2Proof.Machine
end

section
/-! PROOFS. Matrix multiplication: O29. -/

namespace Sys2Proof.Machine

/-! ## The order of the block sums -/

/-- R48: the block sums are added in an order of all of them. -/
theorem sumOrder_perm (imm : W32) (mod : BitVec 6) (n i : Nat) {l : List Nat} (h : l.length = n) :
    (sumOrder imm mod n i l).Perm l := by
  induction n generalizing i l with
  | zero => rw [List.length_eq_zero_iff.mp h]; exact List.Perm.refl _
  | succ n ih =>
    have hk : Config.blockPick imm mod i % l.length < l.length := Nat.mod_lt _ (by omega)
    simp only [sumOrder, List.getElem?_eq_getElem hk]
    refine ((ih (i + 1) ?_).cons _).trans (List.getElem_cons_eraseIdx_perm hk)
    rw [List.length_eraseIdx_of_lt hk, h]
    rfl

/-- R48, R125: within 32,768 block sums an output adds those of its list to its prior value, in some order. -/
theorem accumulate_order (imm : W32) (mod : BitVec 6) (prior : W32) (n : Nat) (block : Nat → W32) :
    ∃ order : List Nat, order.Perm (List.range n) ∧
      accumulate imm mod false prior ((List.range n).map block) = order.foldl (fun acc v => add32 acc (block v)) prior := by
  have hperm := sumOrder_perm imm mod n 0 List.length_range
  refine ⟨_, hperm, ?_⟩
  rw [accumulate, if_neg Bool.false_ne_true, List.length_map, List.length_range]
  refine List.foldl_ext _ _ _ fun acc v hv => ?_
  simp [List.mem_range.mp (hperm.mem_iff.mp hv)]

/-! ## The tiles -/

/-- R132: a tile of +0. -/
def clearTile : AccTile := {}

/-- R125, R126: a tile of the default mode after the block sums of N-block j, row group g. -/
def sumTile (f : Fields) (o : MmaOp) (r : MmaRead) (old : AccTile) (j g : Nat) : AccTile :=
  let nb := o.k / 32
  { w := (List.range 1024).map fun i =>
      if 64 * g + i / 16 < o.m then
        accumulate f.imm f.mod (decide (32768 < blockCount old clearTile nb (i / 16) (i % 16))) (old.word (i / 16) (i % 16))
          (mmaSums o r (64 * g + i / 16) (16 * j + i % 16))
      else old.word (i / 16) (i % 16)
    sums := (List.range 1024).map fun i => old.entered (i / 16) (i % 16) + (if 64 * g + i / 16 < o.m then nb else 0)
    loaded := old.loaded }

section
variable (f : Fields) (o : MmaOp) (r : MmaRead) (old : AccTile) (j g : Nat) {row col : Nat} (hr : row < 64) (hc : col < 16)
include hr hc

theorem word_place : 16 * row + col < 1024 ∧ (16 * row + col) / 16 = row ∧ (16 * row + col) % 16 = col := by omega

theorem sumTile_word : (sumTile f o r old j g).word row col = if 64 * g + row < o.m then
    accumulate f.imm f.mod (decide (32768 < blockCount old clearTile (o.k / 32) row col)) (old.word row col)
      (mmaSums o r (64 * g + row) (16 * j + col)) else old.word row col := by
  obtain ⟨hlt, hdiv, hmod⟩ := word_place hr hc
  have hlen : 16 * row + col < (List.range 1024).length := hlt.trans_eq List.length_range.symm
  rw [AccTile.word, sumTile, List.getElem?_map, List.getElem?_eq_getElem hlen, List.getElem_range, Option.map_some,
    Option.getD_some, hdiv, hmod]

theorem sumTile_entered : (sumTile f o r old j g).entered row col =
    old.entered row col + (if 64 * g + row < o.m then o.k / 32 else 0) := by
  obtain ⟨hlt, hdiv, hmod⟩ := word_place hr hc
  have hlen : 16 * row + col < (List.range 1024).length := hlt.trans_eq List.length_range.symm
  rw [AccTile.entered, sumTile, List.getElem?_map, List.getElem?_eq_getElem hlen, List.getElem_range, Option.map_some, Option.getD_some,
    hdiv, hmod]

end

/-- R52: without `.kc` and `.dw` a row group of an N-block has one tile. -/
theorem mmaTile_eq {o : MmaOp} (hd : o.dw = false) (hk : o.kc = false) (f : Fields) (r : MmaRead) (old : FMap AccTile) (j g : Nat) :
    mmaTile f o r old j g = [(o.tileOf j g, sumTile f o r (if o.bx then clearTile else fget clearTile (o.tileOf j g) old) j g)] := by
  simp only [mmaTile, hd, hk, Bool.or_false, Bool.not_false, Bool.or_true, if_true, Bool.false_eq_true, if_false, List.map_map,
    Function.comp_def, apply_ite Prod.fst, -List.reduceReplicate]
  unfold sumTile clearTile
  with_reducible rfl

/-- R52: a pair has two tiles, one after the other. -/
theorem mmaTile_keys (f : Fields) (o : MmaOp) (r : MmaRead) (old : FMap AccTile) (j g : Nat) :
    (mmaTile f o r old j g).map Prod.fst = if o.kc then [o.tileOf j g, o.tileOf j g + 1] else [o.tileOf j g] := by
  unfold mmaTile
  cases o.kc <;> rfl

/-- R126: the tiles of N-block j, row group g are among those that the instruction uses. -/
theorem mmaTile_key_bounds {o : MmaOp} (hd : o.dw = false) {f : Fields} {r : MmaRead} {old : FMap AccTile} {j g : Nat}
    (hj : j < o.nblocks) (hg : g < o.groups) {e : Nat × AccTile} (he : e ∈ mmaTile f o r old j g) :
    o.t ≤ e.1 ∧ e.1 < o.t + o.tiles := by
  have hplace : j * o.groups + g + 1 ≤ o.groups * o.nblocks :=
    calc j * o.groups + g + 1 ≤ (j + 1) * o.groups := by rw [Nat.succ_mul]; omega
      _ ≤ o.nblocks * o.groups := Nat.mul_le_mul_right _ hj
      _ = o.groups * o.nblocks := Nat.mul_comm ..
  have hkey := mmaTile_keys f o r old j g ▸ List.mem_map_of_mem (f := Prod.fst) he
  simp only [MmaOp.tiles, MmaOp.tileOf, MmaOp.per, hd, Bool.false_eq_true, if_false] at hkey ⊢
  cases hk : o.kc
  · simp only [hk, Bool.false_eq_true, if_false, List.mem_singleton] at hkey ⊢
    omega
  · simp only [hk, if_true, List.mem_cons, List.not_mem_nil, or_false] at hkey ⊢
    omega

/-- Without `.kc` and `.dw` each row group of each N-block has a tile of its own. -/
theorem tileOf_inj {o : MmaOp} (hd : o.dw = false) (hk : o.kc = false) {j g j' g' : Nat} (hg : g < o.groups) (hg' : g' < o.groups)
    (h : o.tileOf j g = o.tileOf j' g') : j = j' ∧ g = g' := by
  have hsum : g + o.groups * j = g' + o.groups * j' := by
    simp only [MmaOp.tileOf, MmaOp.per, hd, hk, Bool.false_eq_true, if_false, Nat.one_mul] at h
    rw [Nat.mul_comm, Nat.mul_comm o.groups]
    omega
  have hdiv := congrArg (· / o.groups) hsum
  have hmod := congrArg (· % o.groups) hsum
  have hpos : 0 < o.groups := by omega
  simp only [Nat.add_mul_div_left _ _ hpos, Nat.div_eq_of_lt hg, Nat.div_eq_of_lt hg', Nat.add_mul_mod_self_left, Nat.mod_eq_of_lt hg,
    Nat.mod_eq_of_lt hg', Nat.zero_add] at hdiv hmod
  exact ⟨hdiv, hmod⟩

/-- R125, R126: the tiles after the instruction; under `.dw` its tiles end at +0. -/
def mmaTiles (f : Fields) (o : MmaOp) (r : MmaRead) (old : FMap AccTile) : FMap AccTile :=
  if o.dw then (span o.t o.tiles).foldl (fun m k => ferase k m) old
  else putTiles ((List.range o.nblocks).flatMap fun j => (List.range o.groups).flatMap fun g => mmaTile f o r old j g) old

/-- Which tiles an instruction without `.dw` writes. -/
theorem mem_mmaTiles {f : Fields} {o : MmaOp} {r : MmaRead} {old : FMap AccTile} {e : Nat × AccTile} :
    e ∈ ((List.range o.nblocks).flatMap fun j => (List.range o.groups).flatMap fun g => mmaTile f o r old j g) ↔
      ∃ j < o.nblocks, ∃ g < o.groups, e ∈ mmaTile f o r old j g := by
  simp only [List.mem_flatMap, List.mem_range]

/-- R126: the tiles that the instruction does not use keep their contents. -/
theorem fget_mmaTiles_ne {o : MmaOp} {k : Nat} (h : k < o.t ∨ o.t + o.tiles ≤ k) (f : Fields) (r : MmaRead) (d : AccTile)
    (old : FMap AccTile) : fget d k (mmaTiles f o r old) = fget d k old := by
  unfold mmaTiles
  split
  · exact fget_foldl_ferase_ne (fun hk => by have := mem_span.mp hk; omega) d old
  · rename_i hd
    refine fget_putTiles_ne (fun e he => ?_) d old
    obtain ⟨j, hj, g, hg, he⟩ := mem_mmaTiles.mp he
    have := mmaTile_key_bounds (by simpa using hd) hj hg he
    omega

/-- R125, R126: without `.kc` and `.dw` each tile holds its sums. -/
theorem fget_mmaTiles {o : MmaOp} (hd : o.dw = false) (hk : o.kc = false) {j g : Nat} (hj : j < o.nblocks) (hg : g < o.groups)
    (f : Fields) (r : MmaRead) (d : AccTile) (old : FMap AccTile) : fget d (o.tileOf j g) (mmaTiles f o r old) =
      sumTile f o r (if o.bx then clearTile else fget clearTile (o.tileOf j g) old) j g := by
  rw [mmaTiles, hd, if_neg Bool.false_ne_true]
  refine fget_putTiles (mem_mmaTiles.mpr ⟨j, hj, g, hg, by rw [mmaTile_eq hd hk]; exact List.mem_singleton_self _⟩)
    (fun e he hkey => ?_) d old
  obtain ⟨j', hj', g', hg', he⟩ := mem_mmaTiles.mp he
  rw [mmaTile_eq hd hk, List.mem_singleton] at he
  subst he
  obtain ⟨rfl, rfl⟩ := tileOf_inj hd hk hg' hg hkey
  rfl

/-! ## The instruction -/

theorem takeInjection_frame (s : State) (l : Nat) (b : Bool) :
    (takeInjection s l b).1.cores = s.cores ∧ (takeInjection s l b).1.mem = s.mem := by
  simp only [takeInjection]
  split <;> exact ⟨rfl, rfl⟩

/-- The operand ranges of an `mma`. -/
def mmaRanges (o : MmaOp) (a w : Nat) : List (Nat × Nat) := [(a, (o.panelA a).len), (w, (o.panelW w).len)]

/-- R65, R72, R124: the OPEN stitch after an `mma`: a verdict is pending. -/
def mmaStitch (c : CoreSt) (slot : Nat) (o : MmaOp) (a w : Nat) (v : Verdict) (bad : Bool) (t : Stitch) : Stitch :=
  let t1 := (readInputs c slot (mmaRanges o a w) t).wrote (span o.t o.tiles)
  { t1 with verdicts := t1.verdicts ++ [v], poison := t1.poison || bad }

theorem mmaStitch_fields (c : CoreSt) (slot : Nat) (o : MmaOp) (a w : Nat) (v : Verdict) (t : Stitch) :
    (mmaStitch c slot o a w v false t).verdicts = t.verdicts ++ [v] ∧ (mmaStitch c slot o a w v false t).poison = t.poison ∧
    (mmaStitch c slot o a w v false t).seq = t.seq := by
  obtain ⟨l, hl⟩ := readInputs_eq c slot (mmaRanges o a w) t
  simp [mmaStitch, Stitch.wrote, hl]

/-- R129: the bytes that `.dw` drains from address `base` on. -/
def mmaDrained (f : Fields) (o : MmaOp) (r : MmaRead) (base : Nat) : List (Nat × W8) :=
  if !o.dw then [] else (List.range o.nblocks).flatMap fun j => (List.range o.groups).flatMap fun g =>
    atAddr (base + (j * o.groups + g) * 4096)
      (wordBytes (tileWords (putTiles (mmaTile f o r [] j g) []) (o.tileOf j g) o.kc))

theorem mmaDrained_nil {o : MmaOp} (h : o.dw = false) (f : Fields) (r : MmaRead) (base : Nat) : mmaDrained f o r base = [] := by
  simp [mmaDrained, h]

/-- R138, R141: the rows counted as not checked in a tile's register, and whether an armed injection is consumed. -/
def mmaChecked (s : State) (tile : Nat) (u : StreamId) (o : MmaOp) (r : MmaRead) : State × Bool :=
  let ij := takeInjection s u.lcid (decide (skippedRows o r < o.m * o.nblocks * (mmaPasses o).length))
  (rcount ij.1 (rTL tile 0x2804) (skippedRows o r), ij.2)

theorem mmaChecked_frame (s : State) (tile : Nat) (u : StreamId) (o : MmaOp) (r : MmaRead) :
    (mmaChecked s tile u o r).1.cores = s.cores ∧ (mmaChecked s tile u o r).1.mem = s.mem := by
  obtain ⟨hc, hm⟩ := takeInjection_frame s u.lcid (decide (skippedRows o r < o.m * o.nblocks * (mmaPasses o).length))
  exact ⟨(rcount_cores ..).trans hc, (rcount_mem ..).trans hm⟩

/-- R139: the verdict of an `mma` that is pending. -/
def mmaVerdict (s : State) (u : StreamId) (o : MmaOp) (inj : Bool) : Verdict :=
  ⟨pairAligned o.fa o.fw, inj, runTile s u.lcid, runCore s u.lcid⟩

/-- R124: the slot after an `mma`, from the state `s` before it. -/
def mmaSlot (u : StreamId) (o : MmaOp) (a w : Nat) (inj bad : Bool) (s : State) (x : SlotSt) : SlotSt :=
  { x with opn := mmaStitch (coreOf s u.lcid) u.slot o a w (mmaVerdict s u o inj) bad x.opn }

/-- R124 to R129: a core `c` after the checks and stores of an `mma`, from the state `s` before it. -/
def mmaCore (u : StreamId) (f : Fields) (o : MmaOp) (r : MmaRead) (a w : Nat) (inj bad : Bool) (s : State) (c : CoreSt) : CoreSt :=
  { c with tiles := mmaTiles f o r (coreOf s u.lcid).tiles }.putSlot u.slot (mmaSlot u o a w inj bad s (c.slot u.slot))

/-- R124 to R129: the state after an `mma`, from the state `s` before it and the state `t` after its checks and stores. -/
def mmaPut (u : StreamId) (f : Fields) (o : MmaOp) (r : MmaRead) (a w : Nat) (inj bad : Bool) (s t : State) : State :=
  let t1 := putCore t u.lcid (mmaCore u f o r a w inj bad s (coreOf t u.lcid))
  if bad then useFree t1 else t1

/-- R124, R130: what `mma` does, part by part. -/
theorem mmaBody_eq (u : StreamId) (f : Fields) (errs : List SymErr) (s : State) :
    let c := coreOf s u.lcid
    let o := mmaOp f
    let a := ((slotOf s u).arch.sget f.src1).toNat
    let w := ((slotOf s u).arch.sget f.src2).toNat
    let d := ((slotOf s u).arch.sget f.dst).toNat
    let bytes := (mmaBytes o a w).map (wellBase u.lcid + ·)
    let s1 := readErrs s errs bytes
    let r := mmaRead o a w fun off => (byteAt s1 (wellBase u.lcid + off)).toNat
    let s2 := mmaChecked s1 (runTile s u.lcid) u o r
    let t := mmaPut u f o r a w s2.2 (bytes.any (badAt s1)) s
      (wellStore s2.1 u.lcid (mmaDrained f o r (wellBase u.lcid + d)) errs)
    mmaBody u f errs s = (mmaFault c u.slot f o a w d).elim
      ((notReady c u.slot (mmaRanges o a w)).elim (.ok t) fun k => .wait (.ring k true))
      .fault := by
  intro c o a w d bytes s1 r s2 t
  have hbody : mmaBody u f errs s = match mmaFault c u.slot f o a w d with
    | some st => .fault st
    | none => match notReady c u.slot (mmaRanges o a w) with
      | some k => .wait (.ring k true)
      | none => .ok t := rfl
  rw [hbody]
  cases mmaFault c u.slot f o a w d <;> cases notReady c u.slot (mmaRanges o a w) <;> rfl

section
variable {u : StreamId} (f : Fields) (o : MmaOp) (r : MmaRead) (a w : Nat) (inj : Bool) {s t : State}

theorem mmaPut_good : mmaPut u f o r a w inj false s t = putCore t u.lcid (mmaCore u f o r a w inj false s (coreOf t u.lcid)) := rfl

theorem mmaPut_tiles : (coreOf (mmaPut u f o r a w inj false s t) u.lcid).tiles = mmaTiles f o r (coreOf s u.lcid).tiles := by
  rw [mmaPut_good, coreOf_putCore]
  rfl

variable (ht : ∀ v, slotOf t v = slotOf s v)
include ht

theorem mmaPut_slot (hu : u.slot < 3) : slotOf (mmaPut u f o r a w inj false s t) u = mmaSlot u o a w inj false s (slotOf s u) := by
  rw [mmaPut_good, slotOf, coreOf_putCore, mmaCore, core_slot_putSlot _ _ _ hu, ← ht u]
  rfl

theorem mmaPut_slot_ne {v : StreamId} (hv : v ≠ u) : slotOf (mmaPut u f o r a w inj false s t) v = slotOf s v := by
  rw [mmaPut_good, mmaCore]
  refine (slotOf_putCore_putSlot_ne ?_ _ hv).trans (ht v)
  rfl

end

/-- Nothing of a list that is mapped has a property that no image has. -/
theorem any_map_eq_false {l : List Nat} {g : Nat → Nat} {p : Nat → Bool} (h : ∀ x ∈ l, p (g x) = false) :
    (l.map g).any p = false := by
  simpa using h

/-- R124 to R129: what an `mma` leaves whose operands are present and hold no poison. -/
theorem mmaBody_ok {u : StreamId} (hu : u.slot < 3) {f : Fields} {s : State} :
    let c := coreOf s u.lcid
    let o := mmaOp f
    let a := ((slotOf s u).arch.sget f.src1).toNat
    let w := ((slotOf s u).arch.sget f.src2).toNat
    mmaFault c u.slot f o a w ((slotOf s u).arch.sget f.dst).toNat = none → notReady c u.slot (mmaRanges o a w) = none →
    (∀ off ∈ mmaBytes o a w, badAt s (wellBase u.lcid + off) = false) →
    ∃ t inj, mmaBody u f [] s = .ok t ∧ slotOf t u = mmaSlot u o a w inj false s (slotOf s u) ∧
      (∀ v, v ≠ u → slotOf t v = slotOf s v) ∧ (o.dw = false → t.mem = s.mem) ∧
      (coreOf t u.lcid).tiles = mmaTiles f o (mmaRead o a w fun off => (byteAt s (wellBase u.lcid + off)).toNat) c.tiles := by
  intro c o a w hf hr hb
  have hbad : ((mmaBytes o a w).map (wellBase u.lcid + ·)).any (badAt s) = false := any_map_eq_false hb
  have hbody := mmaBody_eq u f [] s
  simp only [readErrs_nil] at hbody
  rw [hf, hr, hbad] at hbody
  obtain ⟨hcores, hmem⟩ := mmaChecked_frame s (runTile s u.lcid) u o
    (mmaRead o a w fun off => (byteAt s (wellBase u.lcid + off)).toNat)
  have hslots := fun bs v => (slotOf_wellStore_nil _ u.lcid bs v).trans (slotOf_congr hcores v)
  refine ⟨_, _, hbody, mmaPut_slot _ _ _ _ _ _ (hslots _) hu, fun v hv => mmaPut_slot_ne _ _ _ _ _ _ (hslots _) hv, fun hd => ?_,
    mmaPut_tiles ..⟩
  rw [mmaPut_good, putCore_mem, mmaDrained_nil hd, wellStore_nil_mem, hmem]

/-! ## The outputs -/

section
variable {o : MmaOp} (hd : o.dw = false) (hk : o.kc = false) {j g : Nat} (hj : j < o.nblocks) (hg : g < o.groups) (f : Fields)
  (r : MmaRead) (tiles : FMap AccTile) {row col : Nat} (hr : row < 64) (hc : col < 16)
include hd hk hj hg hr hc

/-- R48, R125: a row of the result has the block sums added to its prior value; up to 32,768 of them in some order. -/
theorem mmaTiles_output (hm : 64 * g + row < o.m) :
    let old : AccTile := if o.bx then {} else fget {} (o.tileOf j g) tiles
    let new : AccTile := fget {} (o.tileOf j g) (mmaTiles f o r tiles)
    new.entered row col = old.entered row col + o.k / 32 ∧
      (blockCount old {} (o.k / 32) row col ≤ 32768 → ∃ order : List Nat, order.Perm (List.range (o.k / 32)) ∧
        new.word row col = order.foldl (fun acc v => add32 acc (mmaBlock o r (64 * g + row) (16 * j + col) v)) (old.word row col)) := by
  intro old new
  have hnew : new = sumTile f o r old j g := fget_mmaTiles hd hk hj hg f r _ tiles
  rw [hnew, sumTile_entered f o r old j g hr hc, sumTile_word f o r old j g hr hc, if_pos hm, if_pos hm]
  refine ⟨rfl, fun hcount => ?_⟩
  have hover : decide (32768 < blockCount old clearTile (o.k / 32) row col) = false := decide_eq_false (Nat.not_lt.mpr hcount)
  rw [hover]
  exact accumulate_order ..

/-- R125: a row at or beyond M keeps its prior value. -/
theorem mmaTiles_beyond (hm : o.m ≤ 64 * g + row) :
    let old : AccTile := if o.bx then {} else fget {} (o.tileOf j g) tiles
    let new : AccTile := fget {} (o.tileOf j g) (mmaTiles f o r tiles)
    new.word row col = old.word row col ∧ new.entered row col = old.entered row col := by
  intro old new
  have hnew : new = sumTile f o r old j g := fget_mmaTiles hd hk hj hg f r _ tiles
  rw [hnew, sumTile_entered f o r old j g hr hc, sumTile_word f o r old j g hr hc, if_neg (Nat.not_lt.mpr hm),
    if_neg (Nat.not_lt.mpr hm)]
  exact ⟨rfl, rfl⟩

end

/-! ## Issuing the instruction -/

theorem slotOf_faulted {s : State} {u : StreamId} (hu : u.slot < 3) (status : Nat) :
    slotOf (faulted s u status) u = (slotOf s u).fail status (slotOf s u).arch.pc (slotOf s u).opn.seq :=
  slotOf_putSlot s u _ hu

theorem slotOf_finish {s : State} {u : StreamId} (hu : u.slot < 3) :
    slotOf (finish s u) u = { slotOf s u with wait := none, arch := (slotOf s u).arch.advance } :=
  slotOf_putSlot s u _ hu

theorem slotOf_finish_ne {s : State} {u v : StreamId} (h : v ≠ u) : slotOf (finish s u) v = slotOf s v :=
  slotOf_putSlot_ne s _ h

@[simp] theorem finish_mem (s : State) (u : StreamId) : (finish s u).mem = s.mem := rfl

section
variable {u : StreamId} {f : Fields} {s : State} (h : issues u .lane0 f [.s f.src1, .s f.src2, .s f.dst] s = true)
include h

/-- R124: an `mma` that leaves the stitch and its poison as they are shows what its action leaves. -/
theorem mma_eq {errs : List SymErr} {t : State} (ht : settleRes s u (mmaBody u f errs s) = t)
    (hp : (slotOf t u).opn.poison = (slotOf s u).opn.poison) (hq : (slotOf t u).opn.seq = (slotOf s u).opn.seq) :
    exec (.mma u f errs) s = .next (publish s t) :=
  shown_eq (withLoss_eq ((issue_eq h _).trans ht) hp hq)

/-- R130: a fault of Table 5.7 stops the slot. -/
theorem mma_fault {st : Nat} (hf : mmaFault (coreOf s u.lcid) u.slot f (mmaOp f) ((slotOf s u).arch.sget f.src1).toNat
    ((slotOf s u).arch.sget f.src2).toNat ((slotOf s u).arch.sget f.dst).toNat = some st) (errs : List SymErr) :
    exec (.mma u f errs) s = .next (publish s (faulted s u st)) := by
  have hbody : mmaBody u f errs s = .fault st := (mmaBody_eq u f errs s).trans (by rw [hf]; rfl)
  have hslot := slotOf_faulted (s := s) (slot_lt_of_issues h) st
  exact mma_eq h (congrArg (settleRes s u) hbody) (by rw [hslot]; rfl) (by rw [hslot]; rfl)

/-- R60: an operand in a ring slot that is not there yet makes the slot wait. -/
theorem mma_wait {k : Nat} (hf : mmaFault (coreOf s u.lcid) u.slot f (mmaOp f) ((slotOf s u).arch.sget f.src1).toNat
    ((slotOf s u).arch.sget f.src2).toNat ((slotOf s u).arch.sget f.dst).toNat = none)
    (hr : notReady (coreOf s u.lcid) u.slot (mmaRanges (mmaOp f) ((slotOf s u).arch.sget f.src1).toNat
      ((slotOf s u).arch.sget f.src2).toNat) = some k) (errs : List SymErr) :
    exec (.mma u f errs) s = .next (publish s (park s u (.ring k true))) := by
  have hbody : mmaBody u f errs s = .wait (.ring k true) := (mmaBody_eq u f errs s).trans (by rw [hf, hr]; rfl)
  have hslot := slotOf_putSlot s u { slotOf s u with wait := some (.ring k true) } (slot_lt_of_issues h)
  exact mma_eq h (congrArg (settleRes s u) hbody) (congrArg (·.opn.poison) hslot) (congrArg (·.opn.seq) hslot)

end

/-- Table 5.7: a pair of formats that runs on neither path. -/
theorem mmaFault_pair {o : MmaOp} (ha : o.fa < 14) (hw : o.fw < 14) (he : pairExact o.fa o.fw = false)
    (hl : pairAligned o.fa o.fw = false) (c : CoreSt) (slot : Nat) (f : Fields) (a w d : Nat) :
    mmaFault c slot f o a w d = some 0x2001 :=
  if_pos (by simp [ha, hw, he, hl])

/-- Table 5.7: a transposed operand outside slot 1. -/
theorem mmaFault_transposed {o : MmaOp} {slot : Nat} (hp : pairExact o.fa o.fw = true ∨ pairAligned o.fa o.fw = true)
    (ht : o.ta = true ∨ o.tw = true) (hs : slot ≠ 1) (c : CoreSt) (f : Fields) (a w d : Nat) :
    mmaFault c slot f o a w d = some 0x2001 := by
  have hpair : ¬(decide (o.fa < 14) && decide (o.fw < 14) && !pairExact o.fa o.fw && !pairAligned o.fa o.fw) = true := by
    rcases hp with hp | hp <;> simp [hp]
  have hslot : ((o.ta || o.tw) && slot != 1) = true := by simpa [hs] using ht
  exact (if_neg hpair).trans (if_pos hslot)

end Sys2Proof.Machine

namespace Sys2Proof.Proofs

open Sys2Proof.Machine

/-- Settles O29: `mmaBody_eq` says part by part what the instruction does; the tiles it uses are distinct (`tileOf_inj`), and each
output takes its block sums in the order of R48 (`sumOrder_perm`). That the faults come before the wait is log 45, and that a row at
or beyond M holds +0 under `.bx` is log 46. -/
theorem matrixMultiply : Obligations.MatrixMultiply := by
  unfold Obligations.MatrixMultiply
  constructor
  · intro u f s h c x o a w base hf hr hb
    have hu := slot_lt_of_issues h
    obtain ⟨t, inj, hbody, hslot, hne, hmem, htiles⟩ := mmaBody_ok hu hf hr hb
    obtain ⟨hverdicts, hpoison, hseq⟩ := mmaStitch_fields c u.slot o a w (mmaVerdict s u o inj) x.opn
    have hfin : slotOf (finish t u) u = _ := slotOf_finish hu
    rw [hslot] at hfin
    refine ⟨finish t u, mma_eq h (congrArg (settleRes s u) hbody) ((congrArg (·.opn.poison) hfin).trans hpoison)
        ((congrArg (·.opn.seq) hfin).trans hseq), congrArg (·.arch) hfin,
      ⟨mmaVerdict s u o inj, (congrArg (·.opn.verdicts) hfin).trans hverdicts, rfl, rfl, rfl⟩,
      fun v hv => (slotOf_finish_ne hv).trans (hne v hv), fun hd => (finish_mem t u).trans (hmem hd), fun k hk => ?_,
      fun hd hk j hj g hg => ?_⟩
    · rw [tiles_finish, htiles]
      exact fget_mmaTiles_ne hk ..
    · rw [tiles_finish, htiles]
      intro old new row hr col hc
      exact ⟨mmaTiles_output hd hk hj hg f _ c.tiles hr hc, mmaTiles_beyond hd hk hj hg f _ c.tiles hr hc⟩
  · intro u f errs s h c x o a w d
    exact ⟨fun st hf => mma_fault h hf errs, fun k hf hr => mma_wait h hf hr errs,
      fun ha hw he hl => mmaFault_pair ha hw he hl .., fun hp ht hs => mmaFault_transposed hp ht hs ..⟩

end Sys2Proof.Proofs
end

section
/-! PROOFS. One step of the block: O1. -/

namespace Sys2Proof.Machine

/-- R425: only a failing bring-up step changes more than its own clock. -/
theorem lateStep_eq (s : State) : lateStep s = s ∨ lateStep s = (modBoot s fun b => { b with stepAt := s.now }) ∨
    lateStep s = stepFail s 0xF605 ∧ (rfld s 0x108 4 1 = 1 ∨ bringStep s < 2) := by
  unfold lateStep
  split
  · exact .inr (.inl rfl)
  · split
    · rename_i h
      simp only [Bool.and_eq_true, Bool.or_eq_true, beq_iff_eq, decide_eq_true_eq] at h
      obtain ⟨⟨⟨hgo, _⟩, _⟩, _⟩ := h
      exact .inr (.inr ⟨rfl, hgo⟩)
    · exact .inl rfl

theorem lateStep_now (s : State) : (lateStep s).now = s.now := by
  rcases lateStep_eq s with h | h | ⟨h, -⟩ <;> simp [h, modBoot, stepFail]

theorem lateStep_mem (s : State) : (lateStep s).mem = s.mem := by
  rcases lateStep_eq s with h | h | ⟨h, -⟩ <;> simp [h, modBoot, stepFail]

/-- R425: with no bring-up under way no register changes. -/
theorem lateStep_regs {s : State} (h4 : rfld s 0x108 4 1 = 0) (h2 : 2 ≤ rfld s 0x108 0 4) : (lateStep s).regs = s.regs := by
  rcases lateStep_eq s with h | h | ⟨-, hgo | hlt⟩
  · rw [h]
  · rw [h]; rfl
  · exact absurd (h4.symm.trans hgo) (by decide)
  · exact absurd h2 (not_le.mpr hlt)

theorem step_idle {s : State} (h : s.pending = []) : step s = .next (idleTick s) := by
  unfold step; rw [h]

theorem step_command {s : State} {c : Instr} {rest : List Instr} (h : s.pending = c :: rest) :
    step s = exec c { s with pending := rest } := by
  unfold step; rw [h]

end Sys2Proof.Machine

namespace Sys2Proof.Proofs

open Sys2Proof.Machine

/-- Settles O1: `step` reads the queue, and of an idle cycle only `lateStep` can change a register (`lateStep_regs`). That an empty
queue lets a cycle pass is the model's choice (log 1). -/
theorem stepTakesFrontCommand : Obligations.StepTakesFrontCommand := by
  unfold Obligations.StepTakesFrontCommand
  exact ⟨fun _ _ _ h => step_command h, fun s h =>
    ⟨step_idle h, lateStep_now (coreTick s), lateStep_mem (coreTick s), fun h4 h2 => lateStep_regs (s := coreTick s) h4 h2⟩⟩

end Sys2Proof.Proofs
end

section
/-! SUPPORT. What writes to a well through and past its gather buffer leave alone. -/

namespace Sys2Proof.Machine

/-- R164, R178: `t` is `s` after writes to wells: memory, poison marks and gather buffers apart, nothing has changed. -/
def wellWritten (s t : State) : Prop :=
  ∃ m p c, t = { s with mem := m, wellPoison := p, cores := c } ∧ ∀ k, ∃ g, coreOf t k = { coreOf s k with gather := g }

namespace wellWritten

theorem refl (s : State) : wellWritten s s := ⟨_, _, _, rfl, fun _ => ⟨_, rfl⟩⟩

theorem trans {s t r : State} (h1 : wellWritten s t) (h2 : wellWritten t r) : wellWritten s r := by
  obtain ⟨m, p, c, rfl, hc⟩ := h1
  obtain ⟨m', p', c', rfl, hc'⟩ := h2
  refine ⟨m', p', c', rfl, fun k => ?_⟩
  obtain ⟨g, hg⟩ := hc k
  obtain ⟨g', hg'⟩ := hc' k
  exact ⟨g', by rw [hg', hg]⟩

theorem foldl {α : Type} {f : State → α → State} (hf : ∀ s a, wellWritten s (f s a)) (l : List α) (s : State) :
    wellWritten s (l.foldl f s) := by
  induction l generalizing s with
  | nil => exact refl s
  | cons a r ih => exact (hf s a).trans (ih _)

theorem regs {s t : State} (h : wellWritten s t) : t.regs = s.regs := by
  obtain ⟨_, _, _, rfl, -⟩ := h; rfl

theorem out {s t : State} (h : wellWritten s t) : t.out = s.out := by
  obtain ⟨_, _, _, rfl, -⟩ := h; rfl

theorem tiles {s t : State} (h : wellWritten s t) (k : Nat) : (coreOf t k).tiles = (coreOf s k).tiles := by
  obtain ⟨_, _, _, -, hc⟩ := h
  obtain ⟨g, hg⟩ := hc k
  rw [hg]

theorem slots {s t : State} (h : wellWritten s t) (k : Nat) : (coreOf t k).slots = (coreOf s k).slots := by
  obtain ⟨_, _, _, -, hc⟩ := h
  obtain ⟨g, hg⟩ := hc k
  rw [hg]

theorem slot {s t : State} (h : wellWritten s t) (u : StreamId) : slotOf t u = slotOf s u := by
  simp only [slotOf, CoreSt.slot, h.slots]

end wellWritten

/-- A core whose gather buffer alone is written. -/
theorem wellWritten_putCore_gather (s : State) (l : Nat) (g : List GLine) :
    wellWritten s (putCore s l { coreOf s l with gather := g }) := by
  refine ⟨_, _, _, rfl, fun k => ?_⟩
  by_cases hk : k = l
  · subst hk; exact ⟨g, coreOf_putCore ..⟩
  · exact ⟨_, coreOf_putCore_ne hk ..⟩

theorem wellWritten_wellStore (s : State) (l : Nat) (bs : List (Nat × W8)) : wellWritten s (wellStore s l bs []) := by
  refine ⟨_, _, _, rfl, fun k => ?_⟩
  by_cases hk : k = l
  · subst hk; exact ⟨_, fget_fset_same ..⟩
  · exact ⟨_, fget_fset_ne hk ..⟩

theorem wellWritten_gatherWrite (s : State) (l : Nat) (g : GLine) : wellWritten s (gatherWrite s l g []) :=
  (wellWritten_putCore_gather s l _).trans (wellWritten_wellStore _ l _)

theorem wellWritten_gatherFlush (s : State) (l : Nat) : wellWritten s (gatherFlush s l) :=
  .foldl (fun s g => wellWritten_gatherWrite s l g) _ s

end Sys2Proof.Machine
end

section
/-! PROOFS. The end of a stitch: O10. -/

namespace Sys2Proof.Machine

@[simp] theorem slotOf_useFree (s : State) (u : StreamId) : slotOf (useFree s) u = slotOf s u := rfl

/-- R72: the state after the gather buffer has been written at a closing snapshot differs from the old one in wells alone. -/
theorem closing_flush (s : State) (l : Nat) : wellWritten (useFree s) (gatherFlush (useFree s) l) := wellWritten_gatherFlush _ l

/-- R72, R100: the slot after the OPEN stitch has closed. -/
theorem slotOf_closeNow (s : State) {u : StreamId} (hu : u.slot < 3) (a0 : Arch) (isDone : Bool) :
    let x := slotOf s u
    let a := { a0 with mb := mbStart s u a0.mb }
    slotOf (closeNow s u a0 isDone) u =
      { x with arch := a, closed := some ⟨x.opn, a, x.opn.tilesW.map fun k => (k, fget {} k (coreOf s u.lcid).tiles)⟩,
               acyc := 0, wait := none, opn := { seq := x.opn.seq + 1, mb := a.mb },
               phase := if isDone then .closing else x.phase } := by
  intro x a
  have hw := closing_flush s u.lcid
  have hx : (coreOf (gatherFlush (useFree s) u.lcid) u.lcid).slot u.slot = x := hw.slot u
  have ht : (coreOf (gatherFlush (useFree s) u.lcid) u.lcid).tiles = (coreOf s u.lcid).tiles := hw.tiles u.lcid
  unfold closeNow
  simp only [hx, ht]
  rw [slotOf, coreOf_putCore, core_slot_putSlot _ _ _ hu]

theorem slotOf_closeNow_ne (s : State) {u w : StreamId} (h : w ≠ u) (a0 : Arch) (isDone : Bool) :
    slotOf (closeNow s u a0 isDone) w = slotOf s w := by
  unfold closeNow
  simp only
  rw [slotOf_putCore_putSlot_ne _ _ h]
  · exact (closing_flush s u.lcid).slot w
  · rfl

theorem closeNow_regs (s : State) (u : StreamId) (a0 : Arch) (isDone : Bool) : (closeNow s u a0 isDone).regs = s.regs :=
  (closing_flush s u.lcid).regs

theorem closeNow_out (s : State) (u : StreamId) (a0 : Arch) (isDone : Bool) : (closeNow s u a0 isDone).out = s.out :=
  (closing_flush s u.lcid).out

/-- R99: the end of a loop iteration moves the pc, the loops and VL alone. -/
theorem loopBack_mb (a : Arch) (nxt : W64) (l : List LoopRec) : (loopBack a nxt l).mb = a.mb := by
  induction l with
  | nil => rfl
  | cons l r ih =>
    simp only [loopBack]
    split_ifs
    · cases l.elems <;> rfl
    · exact ih
    · rfl

/-- R242: a slot of no training step keeps its c.mb. -/
theorem mbStart_idle {s : State} {u : StreamId} (h : (ctxOf s (coreOf s u.lcid).st.ctx).run = none) (mb : W64) :
    mbStart s u mb = mb := by
  unfold mbStart; rw [h]

/-- R242: in a training step c.mb of the stitch that opens is one of the step's order (log 19). -/
theorem mbStart_mem {s : State} {u : StreamId} {r : StepRun} (h : (ctxOf s (coreOf s u.lcid).st.ctx).run = some r) (mb : W64) :
    mbStart s u mb ∈ mbChoices r u.slot mb := by
  have hpos : 0 < (mbChoices r u.slot mb).length := by simp [mbChoices]
  unfold mbStart
  rw [h]
  simp only [List.getElem?_eq_getElem (Nat.mod_lt _ hpos), Option.getD_some]
  exact List.getElem_mem _

/-- R100, R112: the register image past the instruction that closes the stitch: `done` ends every loop. -/
def pastClose (a : Arch) (isDone : Bool) : Arch := if isDone then { a with pc := a.pc + 8, loops := [] } else a.advance

theorem pastClose_mb (a : Arch) (isDone : Bool) : (pastClose a isDone).mb = a.mb := by
  cases isDone
  · exact loopBack_mb ..
  · rfl

/-- R72: what the closing of the OPEN stitch leaves. -/
theorem closed_spec {s : State} {u : StreamId} (hu : u.slot < 3) (isDone : Bool) :
    let x := slotOf s u
    let t := finishJump (closeNow s u (pastClose x.arch isDone) isDone) u
    (slotOf t u).phase = (if isDone then .closing else x.phase) ∧
    (match (ctxOf s (coreOf s u.lcid).st.ctx).run with
      | none => (slotOf t u).arch.mb = x.arch.mb
      | some r => (slotOf t u).arch.mb ∈ mbChoices r u.slot x.arch.mb) ∧
    (slotOf t u).arch = { pastClose x.arch isDone with mb := (slotOf t u).arch.mb } ∧ (slotOf t u).opn.seq = x.opn.seq + 1 ∧
    (slotOf t u).opn.mb = (slotOf t u).arch.mb ∧ (slotOf t u).acyc = 0 ∧
    (∃ cl, (slotOf t u).closed = some cl ∧ cl.st = x.opn ∧ cl.image = (slotOf t u).arch) ∧
    (∀ w, w ≠ u → slotOf t w = slotOf s w) ∧ t.regs = s.regs ∧ t.out = s.out := by
  intro x t
  have ht : slotOf t u = _ := (slotOf_putSlot _ _ _ hu).trans (congrArg ({ · with wait := none }) (slotOf_closeNow s hu _ isDone))
  have hmb := pastClose_mb x.arch isDone
  rw [ht]
  refine ⟨rfl, ?_, rfl, rfl, rfl, rfl, ⟨_, rfl, rfl, rfl⟩, fun w hw => ?_, closeNow_regs s u (pastClose x.arch isDone) isDone,
    closeNow_out s u (pastClose x.arch isDone) isDone⟩
  · cases hr : (ctxOf s (coreOf s u.lcid).st.ctx).run with
    | none => exact (mbStart_idle hr _).trans hmb
    | some r => exact hmb ▸ mbStart_mem hr _
  · exact (slotOf_putSlot_ne _ _ hw).trans (slotOf_closeNow_ne s hw (pastClose x.arch isDone) isDone)

section
variable {u : StreamId} {s : State} (h : issues u .needP0 {} [] s = true)
include h

theorem stitch_eq : exec (.stitch u {}) s = .next (settleRes s u (closeBody u false s)) := congrArg _ (issue_eq h _)

theorem done_eq : exec (.done u {}) s = .next (settleRes s u (closeBody u true s)) := congrArg _ (issue_eq h _)

end

/-- R72: nothing holds the closing of the OPEN stitch up. -/
theorem closeBody_ready {s : State} {u : StreamId} (hc : (slotOf s u).closed = none) (hl : (slotOf s u).loads = []) (isDone : Bool) :
    closeBody u isDone s = .jump (closeNow s u (pastClose (slotOf s u).arch isDone) isDone) := by
  simp [closeBody, hc, hl, pastClose]

/-- R64, R112: a CLOSED stitch or an outstanding load holds it up. -/
theorem closeBody_waits {s : State} {u : StreamId} (hw : (slotOf s u).closed ≠ none ∨ (slotOf s u).loads ≠ []) (isDone : Bool) :
    closeBody u isDone s = .wait .stitch := by
  rw [← Option.isSome_iff_ne_none, ← List.isEmpty_eq_false_iff] at hw
  exact if_pos (by simpa using hw)

theorem canIssue_of_phase {s : State} {u : StreamId} (h : (slotOf s u).phase ≠ .running) : canIssue s u = false := by
  simp [canIssue, slotLive, h]

end Sys2Proof.Machine

namespace Sys2Proof.Proofs

open Sys2Proof.Machine

/-- Settles O10: `closed_spec` for the register images that the two instructions leave (`pastClose`). Which c.mb of the step's order
the next stitch opens with is the model's free choice (log 19, `mbStart_mem`). -/
theorem stitchAndDoneClose : Obligations.StitchAndDoneClose := by
  unfold Obligations.StitchAndDoneClose
  intro u s h x mbOk
  have hu := slot_lt_of_issues h
  rw [stitch_eq h, done_eq h]
  refine ⟨fun hc hl => ?_, fun hw => ?_⟩
  · rw [closeBody_ready hc hl, closeBody_ready hc hl]
    constructor
    · exact ⟨_, rfl, closed_spec hu false⟩
    · obtain ⟨hphase, hmb, harch, hseq, -, -, hcl, hne, hregs, hout⟩ := closed_spec (s := s) hu true
      exact ⟨_, rfl, hphase, canIssue_of_phase (by simp [settleRes, hphase]), hmb, harch, hseq, hcl, hne, hregs, hout⟩
  · rw [closeBody_waits hw, closeBody_waits hw]
    exact ⟨rfl, rfl⟩

end Sys2Proof.Proofs
end

section
/-! PROOFS. Faults of memory instructions, and what a program fault records: O14. -/

namespace Sys2Proof.Machine

/-! ## What `ld` and `st` raise (R101, R103, R104) -/

section
variable {u : StreamId} {f : Fields} (errs : List SymErr) {s : State}

theorem ldBody_reserved (h : f.src2 ≠ 0 ∨ f.mod.getLsbD 5 = true) : ldBody u f errs s = .fault 0x2002 :=
  if_pos (by simpa using h)

/-- The reserved fields of `ld` are zero. -/
theorem ldBody_fields (h2 : f.src2 = 0) (h5 : f.mod.getLsbD 5 = false) : ¬(f.src2 != 0 || f.mod.getLsbD 5) = true := by
  rw [h2, h5]; decide

theorem ldBody_outside (h2 : f.src2 = 0) (h5 : f.mod.getLsbD 5 = false) (ha : accessOk s u.lcid ((slotOf s u).arch.bget (memPair f))
    (memOff (slotOf s u).arch f).toNat (accWidth f) false = false) : ldBody u f errs s = .fault 0x2003 :=
  (if_neg (ldBody_fields h2 h5)).trans (if_pos (by simp [ha]))

theorem ldBody_misaligned (h2 : f.src2 = 0) (h5 : f.mod.getLsbD 5 = false)
    (ha : accessOk s u.lcid ((slotOf s u).arch.bget (memPair f)) (memOff (slotOf s u).arch f).toNat (accWidth f) false = true)
    (hm : pairAddr ((slotOf s u).arch.bget (memPair f)) (memOff (slotOf s u).arch f).toNat % accWidth f ≠ 0) :
    ldBody u f errs s = .fault 0x2004 :=
  (if_neg (ldBody_fields h2 h5)).trans ((if_neg (by simp [ha])).trans (if_pos (by simpa using hm)))

theorem stBody_reserved (h : f.dst ≠ 0 ∨ 16 ≤ f.mod.toNat) : stBody u f errs s = .fault 0x2002 :=
  if_pos (by simpa [Nat.div_eq_zero_iff] using h)

/-- The reserved fields of `st` are zero. -/
theorem stBody_fields (hd : f.dst = 0) (hm : f.mod.toNat < 16) : ¬(f.dst != 0 || f.mod.toNat / 16 != 0) = true := by
  simp [hd, Nat.div_eq_of_lt hm]

theorem stBody_outside (hd : f.dst = 0) (hm : f.mod.toNat < 16) (ha : accessOk s u.lcid ((slotOf s u).arch.bget (memPair f))
    (memOff (slotOf s u).arch f).toNat (accWidth f) true = false) : stBody u f errs s = .fault 0x2003 :=
  (if_neg (stBody_fields hd hm)).trans (if_pos (by simp [ha]))

theorem stBody_misaligned (hd : f.dst = 0) (hm : f.mod.toNat < 16)
    (ha : accessOk s u.lcid ((slotOf s u).arch.bget (memPair f)) (memOff (slotOf s u).arch f).toNat (accWidth f) true = true)
    (he : pairAddr ((slotOf s u).arch.bget (memPair f)) (memOff (slotOf s u).arch f).toNat % accWidth f ≠ 0) :
    stBody u f errs s = .fault 0x2004 :=
  (if_neg (stBody_fields hd hm)).trans ((if_neg (by simp [ha])).trans (if_pos (by simpa using he)))

/-! ## The state after a fault (R78, R79) -/

theorem ld_fault (h : issues u .lane0 f [.s f.src1, .s f.dst] s = true) {st : Nat} (hb : ldBody u f errs s = .fault st) :
    exec (.ld u f errs) s = .next (publish s (faulted s u st)) := by
  have hslot := slotOf_faulted (s := s) (slot_lt_of_issues h) st
  exact shown_eq (withLoss_eq ((issue_eq h _).trans (congrArg (settleRes s u) hb)) (by rw [hslot]; rfl) (by rw [hslot]; rfl))

theorem st_fault (h : issues u .lane0 f [.s f.src1, .s f.src2] s = true) {st : Nat} (hb : stBody u f errs s = .fault st) :
    exec (.st u f errs) s = .next (faulted s u st) :=
  congrArg _ ((issue_eq h _).trans (congrArg (settleRes s u) hb))

end

/-- R78: a faulted slot issues nothing. -/
theorem canIssue_faulted {s : State} {u : StreamId} (hu : u.slot < 3) (st : Nat) : canIssue (faulted s u st) u = false :=
  canIssue_of_phase (by rw [slotOf_faulted hu]; exact Phase.noConfusion)

theorem slotOf_faulted_ne {s : State} {u v : StreamId} (h : v ≠ u) (st : Nat) : slotOf (faulted s u st) v = slotOf s v :=
  slotOf_putSlot_ne s _ h

end Sys2Proof.Machine

namespace Sys2Proof.Proofs

open Sys2Proof.Machine

/-- Settles O14: the branches of `ldBody` and `stBody` in their order, and `slotOf_faulted` for what a fault records. That an access
out of range comes before a misaligned one is log 45. -/
theorem faultsOfAccessAndProgram : Obligations.FaultsOfAccessAndProgram := by
  unfold Obligations.FaultsOfAccessAndProgram
  constructor
  · intro u f errs s x b off w bad
    constructor
    · intro h
      have hbad {st : Nat} (hb : ldBody u f errs s = .fault st) : bad (.ld u f errs) st :=
        ⟨_, ld_fault errs h hb, rfl, rfl, slotOf_faulted (slot_lt_of_issues h) st⟩
      exact ⟨fun hr => hbad (ldBody_reserved errs hr), fun h2 h5 =>
        ⟨fun ha => hbad (ldBody_outside errs h2 h5 ha), fun ha hm => hbad (ldBody_misaligned errs h2 h5 ha hm)⟩⟩
    · intro h
      have hbad {st : Nat} (hb : stBody u f errs s = .fault st) : bad (.st u f errs) st :=
        ⟨_, st_fault errs h hb, rfl, rfl, slotOf_faulted (slot_lt_of_issues h) st⟩
      exact ⟨fun hr => hbad (stBody_reserved errs hr), fun hd hm =>
        ⟨fun ha => hbad (stBody_outside errs hd hm ha), fun ha he => hbad (stBody_misaligned errs hd hm ha he)⟩⟩
  · intro u s st hu _ x t
    exact ⟨slotOf_faulted hu st, rfl, fun v hv => slotOf_faulted_ne hv st, rfl, canIssue_faulted hu st⟩

end Sys2Proof.Proofs
end

section
/-! PROOFS. Gated writes: O13. -/

namespace Sys2Proof.Machine

/-! ## The gate buffer (R68) -/

/-- R68: the state after slot `u` has issued an instruction whose gated write is held. -/
def gated (s : State) (u : StreamId) (g : Gated) : State :=
  putSlot s u { slotOf s u with wait := none, arch := (slotOf s u).arch.advance,
                                opn := { (slotOf s u).opn with gates := (slotOf s u).opn.gates ++ [g] } }

/-- R68: there is room for `n` bytes beside those of the OPEN and the CLOSED stitch. -/
def gateRoom (x : SlotSt) (n : Nat) : Prop :=
  x.opn.gateBytes + n + (match x.closed with | some c => c.st.gateBytes | none => 0) ≤ 16384

section
variable {s : State} {u : StreamId} {g : Gated}

theorem settleRes_gate (hu : u.slot < 3) (h : gateRoom (slotOf s u) g.size) : settleRes s u (gate s u g) = gated s u g := by
  have hmine : ¬(slotOf s u).opn.gateBytes + g.size > 16384 := by unfold gateRoom at h; omega
  have hboth : ¬(slotOf s u).opn.gateBytes + g.size +
      (match (slotOf s u).closed with | some c => c.st.gateBytes | none => 0) > 16384 := not_lt.mpr h
  have hg : gate s u g = .ok (putSlot s u { slotOf s u with opn := { (slotOf s u).opn with gates := (slotOf s u).opn.gates ++ [g] } }) :=
    (if_neg hmine).trans (if_neg hboth)
  simp [hg, settleRes, finish, hu, gated]

theorem settleRes_gate_full (h : 16384 < (slotOf s u).opn.gateBytes + g.size) : settleRes s u (gate s u g) = faulted s u 0x2008 :=
  congrArg (settleRes s u) (if_pos h)

end

/-! ## Stores (R104) -/

/-- A write that stays in its line is one piece. -/
theorem pieces_atAddr {a : Nat} {bs : List W8} (hne : bs ≠ []) (h : a % 64 + bs.length ≤ 64) : pieces (atAddr a bs) = [(a, bs)] := by
  induction bs generalizing a with
  | nil => exact absurd rfl hne
  | cons b r ih =>
    cases r with
    | nil => rfl
    | cons b' r' =>
      have hlen : a % 64 + (r'.length + 2) ≤ 64 := h
      have ih' := ih (a := a + 1) (List.cons_ne_nil _ _) (by rw [List.length_cons]; omega)
      have hline : a / 64 = (a + 1) / 64 := by omega
      change (match pieces (atAddr (a + 1) (b' :: r')) with
        | [] => [(a, [b])]
        | p :: ps => if a + 1 = p.1 && a / 64 == p.1 / 64 then (a, b :: p.2) :: ps else (a, [b]) :: p :: ps) = _
      rw [ih']
      simp [hline]

/-- R103, R104: an aligned access of one register stays in its line. -/
theorem aligned_in_line {f : Fields} {ea : Nat} (h : ea % accWidth f = 0) : ea % 64 + accWidth f ≤ 64 := by
  have hk : f.mod.toNat / 4 % 4 < 4 := Nat.mod_lt _ (by decide)
  unfold accWidth at h ⊢
  generalize f.mod.toNat / 4 % 4 = k at h hk
  interval_cases k <;> omega

theorem accWidth_pos (f : Fields) : 0 < accWidth f := Nat.two_pow_pos _

section
variable {s : State} {u : StreamId} {f : Fields} (hd : f.dst = 0) (hm : f.mod.toNat / 16 = 0)
  (ha : accessOk s u.lcid ((slotOf s u).arch.bget (memPair f)) (memOff (slotOf s u).arch f).toNat (accWidth f) true = true)
  (he : pairAddr ((slotOf s u).arch.bget (memPair f)) (memOff (slotOf s u).arch f).toNat % accWidth f = 0)
include hd hm ha he

/-- R104: a legal `st` stores the low bytes of s[src2]. -/
theorem stBody_eq (errs : List SymErr) : stBody u f errs s =
    doStore s u (atAddr (pairAddr ((slotOf s u).arch.bget (memPair f)) (memOff (slotOf s u).arch f).toNat)
      (leBytes (accWidth f) ((slotOf s u).arch.sget f.src2).toNat)) true errs :=
  (if_neg (by simp [hd, hm])).trans ((if_neg (by simp [ha])).trans (if_neg (by simp [he])))

/-- R68: outside the own well it is gated. -/
theorem stBody_gated (ho : ownWell u.lcid (pairAddr ((slotOf s u).arch.bget (memPair f)) (memOff (slotOf s u).arch f).toNat) = false)
    (errs : List SymErr) : stBody u f errs s =
      gate s u (.store [(pairAddr ((slotOf s u).arch.bget (memPair f)) (memOff (slotOf s u).arch f).toNat,
        leBytes (accWidth f) ((slotOf s u).arch.sget f.src2).toNat)]) := by
  have hlen : (leBytes (accWidth f) ((slotOf s u).arch.sget f.src2).toNat).length = accWidth f := length_leBytes ..
  have hpos := accWidth_pos f
  obtain ⟨e, hmem, hfst⟩ := exists_mem_atAddr
    (pairAddr ((slotOf s u).arch.bget (memPair f)) (memOff (slotOf s u).arch f).toNat)
    (leBytes (accWidth f) ((slotOf s u).arch.sget f.src2).toNat) le_rfl (by omega)
  rw [stBody_eq hd hm ha he, doStore, if_neg, pieces_atAddr]
  · exact List.ne_nil_of_length_pos (by rw [hlen]; exact hpos)
  · rw [hlen]; exact aligned_in_line he
  · intro hall
    exact absurd (List.all_eq_true.mp hall e hmem) (by simp [hfst, ho])

end

/-! ## Atomic additions and signals (R105, R109, R298) -/

/-- R327: an index below the number that the context holds names an object. -/
theorem soPhys_isSome {s : State} {u : StreamId} {b : Binding} (hb : (ctxOf s (coreOf s u.lcid).st.ctx).bind = some b) {i : Nat}
    (hi : i < b.quarters.length * 256) : (soPhys s u i).isSome = true := by
  have hq : i / 256 < b.quarters.length := by omega
  simp [soPhys, hb, Binding.soCount, hi, Binding.so?, List.getElem?_eq_getElem hq]

section
variable {s : State} {u : StreamId} {f : Fields} (hd : f.dst = 0)
include hd

theorem amoBody_eq {ty : AmoType} (ht : amoType? f = some ty) {ch : Nat}
    (hr : regionOf s (pairAddr ((slotOf s u).arch.bget (memPair f)) (memOff (slotOf s u).arch f).toNat) = .lpddr ch)
    (ha : accessOk s u.lcid ((slotOf s u).arch.bget (memPair f)) (memOff (slotOf s u).arch f).toNat (amoWidth ty) true = true)
    (he : pairAddr ((slotOf s u).arch.bget (memPair f)) (memOff (slotOf s u).arch f).toNat % amoWidth ty = 0) :
    amoBody u f s = gate s u (.amo (pairAddr ((slotOf s u).arch.bget (memPair f)) (memOff (slotOf s u).arch f).toNat) ty
      ((slotOf s u).arch.sget f.src2)) := by
  simp only [amoBody, ht, hr, ha, he, hd]
  rfl

theorem sosBody_eq (hm : f.mod = 0) {b : Binding} (hb : (ctxOf s (coreOf s u.lcid).st.ctx).bind = some b)
    (hi : soIndex (slotOf s u).arch f < b.quarters.length * 256) :
    sosBody u f s = gate s u (.signal (soIndex (slotOf s u).arch f) false ((slotOf s u).arch.sget f.src2)) :=
  (if_neg (by simp [hm, hd])).trans (if_neg (by simp [Option.isNone_iff_eq_none, ← Option.isSome_iff_ne_none, soPhys_isSome hb hi]))

theorem sosCBody_eq (hm : f.mod = 1) {b : Binding} (hb : (ctxOf s (coreOf s u.lcid).st.ctx).bind = some b) (hc : b.cso = true)
    (hi : soIndex (slotOf s u).arch f < 4096) :
    sosCBody u f s = gate s u (.signal (soIndex (slotOf s u).arch f) true ((slotOf s u).arch.sget f.src2)) :=
  (if_neg (by simp [hm, hd])).trans (if_neg (by simp [casHeld, hb, hc, hi]))

end

end Sys2Proof.Machine

namespace Sys2Proof.Proofs

open Sys2Proof.Machine

/-- Settles O13: each body ends in `gate`, which holds the write where there is room (`settleRes_gate`). -/
theorem gatedWritesAreHeld : Obligations.GatedWritesAreHeld := by
  unfold Obligations.GatedWritesAreHeld
  intro u f s h hd x b i ea v held room
  have hu := slot_lt_of_issues h
  have holds {c : Instr} {body : State → Res} {g : Gated} {n : Nat}
      (hc : exec c s = .next (issue u .lane0 f [.s f.src1, .s f.src2] body s)) (hb : body s = gate s u g) (hn : g.size = n)
      (hroom : room n) : exec c s = .next (held g) := by
    rw [hc, issue_eq h, hb, settleRes_gate hu (hn ▸ hroom)]
    rfl
  refine ⟨fun hm ha he ho => ?_, fun ch hr => ⟨fun hm ha he hroom => ?_, fun hm ha he hroom => ?_, fun hm ha he hroom => ?_⟩,
    fun bd hbd hroom => ⟨fun hm hi => ?_, fun hm hc hi => ?_⟩⟩
  · have hb := stBody_gated (u := u) hd hm ha he ho []
    have hn : (Gated.store [(ea, leBytes (accWidth f) v.toNat)]).size = accWidth f := by simp [Gated.size]
    exact ⟨holds rfl hb hn, fun hfull => congrArg _ ((issue_eq h _).trans
      ((congrArg (settleRes s u) hb).trans (settleRes_gate_full (lt_of_lt_of_eq hfull (congrArg _ hn.symm)))))⟩
  · exact holds rfl (amoBody_eq hd (ty := .fp32) (by simp [amoType?, hm]) hr ha he) rfl hroom
  · exact holds rfl (amoBody_eq hd (ty := .int32) (by simp [amoType?, hm]) hr ha he) rfl hroom
  · exact holds rfl (amoBody_eq hd (ty := .int64) (by simp [amoType?, hm]) hr ha he) rfl hroom
  · exact holds rfl (sosBody_eq hd hm hbd hi) rfl hroom
  · exact holds rfl (sosCBody_eq hd hm hbd hc hi) rfl hroom

end Sys2Proof.Proofs
end

section
/-! PROOFS. Ring instructions: O16. -/

namespace Sys2Proof.Machine

/-! ## Rings of a core -/

@[simp] theorem ring?_putRing_same (c : CoreSt) (k : Nat) (r : RingSt) : (c.putRing k r).ring? k = some r := by
  simp [CoreSt.ring?, CoreSt.putRing]

theorem ring?_putRing_ne {k q : Nat} (h : q ≠ k) (c : CoreSt) (r : RingSt) : (c.putRing k r).ring? q = c.ring? q := by
  simp [CoreSt.ring?, CoreSt.putRing, fget?_fset_ne h]

@[simp] theorem ringSlot_putSlot_same (r : RingSt) (i : Nat) (x : RSlot) : (r.putSlot i x).slot i = x := by
  simp [RingSt.slot, RingSt.putSlot]

theorem ringSlot_putSlot_ne {i j : Nat} (h : j ≠ i) (r : RingSt) (x : RSlot) : (r.putSlot i x).slot j = r.slot j := by
  simp [RingSt.slot, RingSt.putSlot, fget_fset_ne h]

/-- Changing a slot of a core leaves its rings. -/
@[simp] theorem rings_putSlot (s : State) (u : StreamId) (x : SlotSt) (l : Nat) : (coreOf (putSlot s u x) l).rings = (coreOf s l).rings := by
  by_cases h : l = u.lcid
  · subst h; rw [putSlot, coreOf_putCore]; rfl
  · rw [putSlot, coreOf_putCore_ne h]

@[simp] theorem ring?_ran (s : State) (u : StreamId) (a : Arch) (l k : Nat) :
    (coreOf (ran s u a) l).ring? k = (coreOf s l).ring? k := by
  simp [CoreSt.ring?, ran]

@[simp] theorem ring?_finish (s : State) (u : StreamId) (l k : Nat) :
    (coreOf (finish s u) l).ring? k = (coreOf s l).ring? k := by
  simp [CoreSt.ring?, finish]

theorem slotOf_ran {s : State} {u : StreamId} (hu : u.slot < 3) (a : Arch) :
    slotOf (ran s u a) u = { slotOf s u with wait := none, arch := a.advance } := slotOf_putSlot _ _ _ hu

@[simp] theorem slot_putRing (c : CoreSt) (k : Nat) (r : RingSt) (i : Nat) : (c.putRing k r).slot i = c.slot i := rfl

/-! ## `racq` (R108, R173, R176) -/

/-- R173: a ring whose slot `i` is acquired to be filled. -/
def RingSt.takeW (r : RingSt) (i : Nat) : RingSt := { r.putSlot i { r.slot i with st := .filling } with acqW := some i }

/-- R173: a ring whose slot `i` is acquired to be drained. -/
def RingSt.takeR (r : RingSt) (i : Nat) : RingSt :=
  { r.putSlot i { r.slot i with st := .draining, prov := (r.slot i).st == .provFull } with acqR := some i }

section
variable {u : StreamId} {f : Fields} {s : State} {r : RingSt}

theorem racqWBody_undeclared (h : ringFor s u f true = none) : racqWBody u f s = .fault 0x2002 := by
  simp [racqWBody, h]

theorem racqRBody_undeclared (h : ringFor s u f false = none) : racqRBody u f s = .fault 0x2002 := by
  simp [racqRBody, h]

theorem racqWBody_again (h : ringFor s u f true = some r) {j : Nat} (hj : r.acqW = some j) :
    racqWBody u f s = .ok (setArch s u ((archOf s u).sput f.dst (r.offset j))) := by
  simp [racqWBody, h, hj, archOf]

theorem racqRBody_again (h : ringFor s u f false = some r) {j : Nat} (hj : r.acqR = some j) :
    racqRBody u f s = .ok (setArch s u ((archOf s u).sput f.dst (r.offset j))) := by
  simp [racqRBody, h, hj, archOf]

theorem racqWBody_wait (h : ringFor s u f true = some r) (hn : r.acqW = none) (hs : (r.slot (r.fillRun % r.count)).st ≠ .empty) :
    racqWBody u f s = .wait (.ring f.imm.toNat false) := by
  simp [racqWBody, h, hn, hs]

theorem racqRBody_wait (h : ringFor s u f false = some r) (hn : r.acqR = none) (hf : (r.slot (r.drainRun % r.count)).st ≠ .full)
    (hp : (r.slot (r.drainRun % r.count)).st ≠ .provFull) : racqRBody u f s = .wait (.ring f.imm.toNat true) := by
  simp [racqRBody, h, hn, hf, hp]

/-- R173: the core of a slot that has acquired slot `i` to fill it. -/
def takenW (s : State) (u : StreamId) (k : Nat) (r : RingSt) (i : Nat) : State :=
  putCore s u.lcid ((coreOf s u.lcid).putRing k (r.takeW i))

/-- R65, R173: the core of a slot that has acquired slot `i` to drain it; provisional data becomes an input of the OPEN stitch. -/
def takenR (s : State) (u : StreamId) (k : Nat) (r : RingSt) (i : Nat) : State :=
  putCore s u.lcid (((coreOf s u.lcid).putRing k (r.takeR i)).putSlot u.slot
    { slotOf s u with opn := (slotOf s u).opn.read k i ((r.slot i).st == .provFull) })

theorem slotOf_takenW (k i : Nat) : slotOf (takenW s u k r i) u = slotOf s u := by
  rw [takenW, slotOf, coreOf_putCore, slot_putRing, slotOf]

theorem slotOf_takenR (hu : u.slot < 3) (k i : Nat) : slotOf (takenR s u k r i) u =
    { slotOf s u with opn := (slotOf s u).opn.read k i ((r.slot i).st == .provFull) } := by
  rw [takenR, slotOf, coreOf_putCore, core_slot_putSlot _ _ _ hu]

theorem ring?_takenW_same (k i : Nat) : (coreOf (takenW s u k r i) u.lcid).ring? k = some (r.takeW i) := by
  rw [takenW, coreOf_putCore, ring?_putRing_same]

theorem ring?_takenR_same (k i : Nat) : (coreOf (takenR s u k r i) u.lcid).ring? k = some (r.takeR i) := by
  rw [takenR, coreOf_putCore]
  exact ring?_putRing_same ..

theorem ring?_takenW_ne {k q : Nat} (hq : q ≠ k) (i : Nat) :
    (coreOf (takenW s u k r i) u.lcid).ring? q = (coreOf s u.lcid).ring? q := by
  rw [takenW, coreOf_putCore, ring?_putRing_ne hq]

theorem racqWBody_take (h : ringFor s u f true = some r) (hn : r.acqW = none) (hs : (r.slot (r.fillRun % r.count)).st = .empty) :
    racqWBody u f s = .ok (setArch (takenW s u f.imm.toNat r (r.fillRun % r.count)) u
      ((archOf s u).sput f.dst (r.offset (r.fillRun % r.count)))) := by
  rw [archOf, ← slotOf_takenW (r := r) f.imm.toNat (r.fillRun % r.count)]
  simp only [racqWBody, h, hn, hs, beq_self_eq_true, if_true]
  rfl

theorem racqRBody_take (hu : u.slot < 3) (h : ringFor s u f false = some r) (hn : r.acqR = none)
    (hs : (r.slot (r.drainRun % r.count)).st = .full ∨ (r.slot (r.drainRun % r.count)).st = .provFull) :
    racqRBody u f s = .ok (setArch (takenR s u f.imm.toNat r (r.drainRun % r.count)) u
      ((archOf s u).sput f.dst (r.offset (r.drainRun % r.count)))) := by
  have ha : archOf s u = (slotOf (takenR s u f.imm.toNat r (r.drainRun % r.count)) u).arch := by
    rw [slotOf_takenR hu]; rfl
  have hc : ((r.slot (r.drainRun % r.count)).st == .full || (r.slot (r.drainRun % r.count)).st == .provFull) = true := by
    simpa using hs
  rw [ha]
  simp only [racqRBody, h, hn, hc, if_true]
  rfl

/-! ## `rrel` (R95, R108, R173) -/

/-- R173: the data of slot `i` as `rrel.w` leaves it, with the tags of the OPEN stitch of slot `u`. -/
def provSlot (u : StreamId) (y : SlotSt) (x : RSlot) : RSlot :=
  { x with st := .provFull, prov := false, vouched := false, tags := some ⟨u.lcid, u.slot, y.opn.seq, fget 0 y.opn.seq y.replays⟩,
           ords := [], vords := [], ingress := false,
           mAt := y.mPass + y.opn.verdicts.length + (match y.closed with | some cl => cl.st.verdicts.length | none => 0),
           clean := !y.opn.poison }

/-- R173, R176: a ring whose acquired slot `i` has been filled. -/
def RingSt.passW (r : RingSt) (u : StreamId) (y : SlotSt) (i : Nat) : RingSt :=
  { r.putSlot i (provSlot u y (r.slot i)) with acqW := none, fillRun := (r.fillRun + 1) % r.count }

/-- R176: a ring whose acquired slot has been drained. -/
def RingSt.passR (r : RingSt) : RingSt := { r with acqR := none, drainRun := (r.drainRun + 1) % r.count }

/-- The core with a ring and the OPEN stitch of the slot replaced. -/
def putRingOpn (s : State) (u : StreamId) (k : Nat) (r : RingSt) (t : Stitch) : State :=
  putCore s u.lcid (((coreOf s u.lcid).putRing k r).putSlot u.slot { slotOf s u with opn := t })

theorem slotOf_putRingOpn (hu : u.slot < 3) (k : Nat) (t : Stitch) : slotOf (putRingOpn s u k r t) u = { slotOf s u with opn := t } := by
  rw [putRingOpn, slotOf, coreOf_putCore, core_slot_putSlot _ _ _ hu]

theorem ring?_putRingOpn (k : Nat) (t : Stitch) : (coreOf (putRingOpn s u k r t) u.lcid).ring? k = some r := by
  rw [putRingOpn, coreOf_putCore]
  exact ring?_putRing_same ..

theorem rrelWBody_pass (hd : f.dst = 0) (h : ringFor s u f true = some r) {i : Nat} (hi : r.acqW = some i) :
    rrelWBody u f s = .ok (putRingOpn s u f.imm.toNat (r.passW u (slotOf s u) i)
      { (slotOf s u).opn with filled := (slotOf s u).opn.filled ++ [(f.imm.toNat, i)] }) := by
  simp only [rrelWBody, h, hd, hi]
  rfl

theorem rrelRBody_pass (hd : f.dst = 0) (h : ringFor s u f false = some r) {i : Nat} (hi : r.acqR = some i) :
    rrelRBody u f s = .ok (putRingOpn s u f.imm.toNat r.passR
      { (slotOf s u).opn.read f.imm.toNat i (r.slot i).prov with drained := (slotOf s u).opn.drained ++ [(f.imm.toNat, i)] }) := by
  simp only [rrelRBody, h, hd, hi]
  rfl

theorem rrelWBody_none (hd : f.dst = 0) (h : ringFor s u f true = some r) (hn : r.acqW = none) :
    rrelWBody u f s = .ok (setArch s u { (slotOf s u).arch with sstat := (slotOf s u).arch.sstat ||| 2 }) := by
  simp only [rrelWBody, h, hd, hn]
  rfl

theorem rrelRBody_none (hd : f.dst = 0) (h : ringFor s u f false = some r) (hn : r.acqR = none) :
    rrelRBody u f s = .ok (setArch s u { (slotOf s u).arch with sstat := (slotOf s u).arch.sstat ||| 2 }) := by
  simp only [rrelRBody, h, hd, hn]
  rfl

end

/-- R65: provisional data read becomes an input, other data does not. -/
theorem read_full (t : Stitch) (k i : Nat) : t.read k i false = t := rfl

theorem mem_inputs_read (t : Stitch) (k i : Nat) : (k, i) ∈ (t.read k i true).inputs := by
  by_cases h : (k, i) ∈ t.inputs <;> simp [Stitch.read, h]

end Sys2Proof.Machine

namespace Sys2Proof.Proofs

open Sys2Proof.Machine

/-- Settles O16, by the equation of each body for the ring's state. -/
theorem rings : Obligations.Rings := by
  unfold Obligations.Rings
  constructor
  · intro u f s r h a k
    have hu := slot_lt_of_issues h
    have outW {b : Res} (hb : racqWBody u f s = b) : exec (.racqW u f) s = .next (settleRes s u b) :=
      congrArg _ ((issue_eq h _).trans (hb ▸ rfl))
    have outR {b : Res} (hb : racqRBody u f s = b) : exec (.racqR u f) s = .next (settleRes s u b) :=
      congrArg _ ((issue_eq h _).trans (hb ▸ rfl))
    refine ⟨fun hr => ?_, fun hr => ?_, fun hr => outW (racqWBody_undeclared hr), fun hr => outR (racqRBody_undeclared hr)⟩
    · intro i
      refine ⟨fun j hj => (outW (racqWBody_again hr hj)).trans (congrArg _ (finish_setArch hu _)), fun hn hs => ?_,
        fun hn hs => outW (racqWBody_wait hr hn hs)⟩
      refine ⟨_, (outW (racqWBody_take hr hn hs)).trans (congrArg _ (finish_setArch hu _)), ?_, rfl, rfl,
        ⟨r.takeW i, ?_, rfl, ?_, fun j hj => ?_, rfl, rfl⟩, fun q hq => ?_⟩
      · exact congrArg (·.arch) (slotOf_ran hu _)
      · rw [ring?_ran]; exact ring?_takenW_same k i
      · exact congrArg (·.st) (ringSlot_putSlot_same r i _)
      · exact ringSlot_putSlot_ne hj r _
      · rw [ring?_ran]; exact ring?_takenW_ne hq i
    · intro i
      refine ⟨fun j hj => (outR (racqRBody_again hr hj)).trans (congrArg _ (finish_setArch hu _)), fun hn hs => ?_,
        fun hn hf hp => outR (racqRBody_wait hr hn hf hp)⟩
      have hopn : (slotOf (ran (takenR s u k r i) u (a.sput f.dst (r.offset i))) u).opn =
          (slotOf s u).opn.read k i ((r.slot i).st == .provFull) := by
        rw [slotOf_ran hu, slotOf_takenR hu]
      refine ⟨_, (outR (racqRBody_take hu hr hn hs)).trans (congrArg _ (finish_setArch hu _)), ?_, rfl, rfl,
        ⟨r.takeR i, ?_, rfl, ?_, ?_, fun j hj => ?_⟩, fun hp => ?_, fun hf => ?_⟩
      · exact congrArg (·.arch) (slotOf_ran hu _)
      · rw [ring?_ran]; exact ring?_takenR_same k i
      · exact congrArg (·.st) (ringSlot_putSlot_same r i _)
      · have hprov : ((r.takeR i).slot i).prov = ((r.slot i).st == .provFull) := congrArg (·.prov) (ringSlot_putSlot_same r i _)
        rw [hprov, beq_iff_eq]
      · exact ringSlot_putSlot_ne hj r _
      · rw [hopn, hp]; exact mem_inputs_read _ k i
      · rw [hopn, hf]; exact read_full _ k i
  · intro u f s r h hd x k
    have hu := slot_lt_of_issues h
    have outW {b : Res} (hb : rrelWBody u f s = b) : exec (.rrelW u f) s = .next (settleRes s u b) :=
      congrArg _ ((issue_eq h _).trans (hb ▸ rfl))
    have outR {b : Res} (hb : rrelRBody u f s = b) : exec (.rrelR u f) s = .next (settleRes s u b) :=
      congrArg _ ((issue_eq h _).trans (hb ▸ rfl))
    constructor
    · intro hr
      refine ⟨fun i hi => ⟨_, r.passW u x i, outW (rrelWBody_pass hd hr hi), ?_, ?_, ?_, rfl, rfl, rfl, fun j hj => ?_, ?_, ?_,
        rfl, rfl, rfl⟩, fun hn => (outW (rrelWBody_none hd hr hn)).trans (congrArg _ (finish_setArch hu _))⟩
      · exact (ring?_finish ..).trans (ring?_putRingOpn ..)
      · exact congrArg (·.st) (ringSlot_putSlot_same r i _)
      · exact congrArg (·.tags) (ringSlot_putSlot_same r i _)
      · exact ringSlot_putSlot_ne hj r _
      · exact (congrArg (·.opn) (slotOf_finish hu)).trans (congrArg (·.opn) (slotOf_putRingOpn hu ..))
      · exact (congrArg (·.arch) (slotOf_finish hu)).trans (congrArg (·.arch.advance) (slotOf_putRingOpn hu ..))
    · intro hr
      refine ⟨fun i hi => ⟨_, r.passR, outR (rrelRBody_pass hd hr hi), ?_, rfl, rfl, rfl, rfl, ?_, ?_, rfl, rfl, rfl⟩,
        fun hn => (outR (rrelRBody_none hd hr hn)).trans (congrArg _ (finish_setArch hu _))⟩
      · exact (ring?_finish ..).trans (ring?_putRingOpn ..)
      · exact (congrArg (·.opn.drained) (slotOf_finish hu)).trans (congrArg (·.opn.drained) (slotOf_putRingOpn hu ..))
      · exact (congrArg (·.arch) (slotOf_finish hu)).trans (congrArg (·.arch.advance) (slotOf_putRingOpn hu ..))

end Sys2Proof.Proofs
end

section
/-! PROOFS. Messages under a stamp: O33, refuted. -/

namespace Sys2Proof.Machine

/-- R324: a dropped item whose sender still holds its stamp faults the context, as FN_CTX reads after the drop has been counted. -/
theorem dropFrom_fault {s : State} {st : Stamp} (hg : st.gen ≠ 0) (hs : st = heldStamp s st.ctx) (hc : ctxState (dropItem s) st.ctx ≠ 3) :
    dropFrom s st = contextFault (dropItem s) st.ctx 0x6101 := by
  have hheld : st = heldStamp (dropItem s) st.ctx := hs
  exact if_pos (by simp [hg, hc, ← hheld])

/-- A state in which FN_GEN_DROP counts 3 items, and entry 64 of the contexts, beyond the 64 that there are, holds a stamp: its FN_CTX
register would lie where FN_GEN_DROP does. -/
def dropAtCtx64 : State := { rput State.reset (rFN 0xA00) 3 with ctxs := [(64, { held := 1 })] }

/-- The signal that arrives there: the object holds another stamp. -/
def signalCtx64 : Instr := .soSignalArrive 0 0 ⟨.head, ⟨64, 1⟩⟩

/-- The state once the signal has left the mesh and its drop has been counted. -/
def signalDropped : State := dropItem (arrive dropAtCtx64 (.signal .head 0 0 ⟨64, 1⟩))

theorem meshHolds_signalCtx64 : meshHolds dropAtCtx64 (.signal .head 0 0 ⟨64, 1⟩) = false := by decide +kernel

/-- HALTED before the drop: the count reads 3. -/
theorem ctxState_dropAtCtx64 : ctxState dropAtCtx64 64 = 3 := by decide +kernel

/-- EMPTY after it: the count reads 4. -/
theorem ctxState_signalDropped : ctxState signalDropped 64 = 0 := by decide +kernel

theorem exec_signalCtx64 : exec signalCtx64 dropAtCtx64 = .next (publish dropAtCtx64 (contextFault signalDropped 64 0x6101)) := by
  refine shown_eq ((if_neg (Bool.eq_false_iff.mp meshHolds_signalCtx64)).trans ((if_neg (by decide +kernel)).trans ?_))
  exact dropFrom_fault (by decide) rfl (ne_of_eq_of_ne ctxState_signalDropped (by decide))

/-- R321: the fault halts the context, which enters the journal. -/
theorem journal_signalCtx64 : (contextFault signalDropped 64 0x6101).journal ≠ signalDropped.journal := by
  have h : ((contextFault signalDropped 64 0x6101).journal.length == signalDropped.journal.length) = false := by decide +kernel
  exact fun e => by simp [e] at h

end Sys2Proof.Machine

namespace Sys2Proof.Proofs

open Sys2Proof.Machine

/-- Refutes O33: a signal dropped under a stamp of context 64, beyond the 64 contexts. Its FN_CTX register would be FN_GEN_DROP, whose
count of 3 reads as HALTED before the drop and of 4 as EMPTY after it, so that the context faults where the statement has the drop
alone. For the 64 contexts that exist the two registers are apart. -/
theorem not_stampedMessages : ¬ Obligations.StampedMessages := by
  unfold Obligations.StampedMessages
  intro h
  obtain ⟨-, -, -, hsignal, -, -⟩ := h dropAtCtx64 ⟨0, 0⟩ 0 0 0 .head 0 ⟨64, 1⟩
  obtain ⟨-, -, hdrop, -⟩ := hsignal meshHolds_signalCtx64
  have heq := (hdrop (.inr ⟨by decide +kernel, .inr ctxState_dropAtCtx64⟩)).symm.trans exec_signalCtx64
  exact journal_signalCtx64 (congrArg State.journal (Host.Outcome.next.inj heq)).symm

end Sys2Proof.Proofs
end

section
/-! SUPPORT. Sparse data by key: filters, renamed keys, runs of bytes and the lines of a write. -/

namespace Sys2Proof.Machine

/-! ## Entries of filtered and renamed data -/

theorem fget?_eq_none {α : Type} {k : Nat} {m : FMap α} (h : ∀ e ∈ m, e.1 ≠ k) : fget? k m = none := by
  induction m with
  | nil => rfl
  | cons e r ih =>
    obtain ⟨he, hr⟩ := List.forall_mem_cons.mp h
    exact (if_neg he.symm).trans (ih hr)

theorem fget?_filter {α : Type} (k : Nat) (q : Nat → Bool) (m : FMap α) :
    fget? k (m.filter fun e => q e.1) = if q k then fget? k m else none := by
  induction m with
  | nil => simp
  | cons e r ih =>
    by_cases hk : k = e.1
    · subst hk
      cases hq : q e.1 <;> simp [fget?, hq, ih]
    · cases hq : q e.1 <;> simp [fget?, hq, ih, hk]

theorem fget?_map {α : Type} {k a : Nat} {g : Nat → Nat} {m : FMap α} (h : ∀ e ∈ m, k = g e.1 ↔ a = e.1) :
    fget? k (m.map fun e => (g e.1, e.2)) = fget? a m := by
  induction m with
  | nil => rfl
  | cons e r ih =>
    obtain ⟨he, hr⟩ := List.forall_mem_cons.mp h
    simp only [List.map_cons, fget?, he, ih hr]

theorem fget?_of_mem {α : Type} {e : Nat × α} {m : FMap α} (hn : (m.map (·.1)).Nodup) (h : e ∈ m) : fget? e.1 m = some e.2 := by
  induction m with
  | nil => exact nomatch h
  | cons b r ih =>
    obtain ⟨hb, hr⟩ := List.nodup_cons.mp hn
    rcases List.mem_cons.mp h with rfl | h
    · exact if_pos rfl
    · have hne : e.1 ≠ b.1 := fun q => hb (List.mem_map.mpr ⟨e, h, q⟩)
      exact (if_neg hne).trans (ih hr h)

theorem fget?_atAddr (a i : Nat) (bs : List W8) : fget? (a + i) (atAddr a bs) = bs[i]? := by
  induction bs generalizing a i with
  | nil => rfl
  | cons b r ih =>
    cases i with
    | zero => exact if_pos rfl
    | succ i =>
      have hne : ¬a + (i + 1) = a := by omega
      have hnext : a + (i + 1) = a + 1 + i := by omega
      exact (if_neg hne).trans ((congrArg (fget? · _) hnext).trans (ih ..))

/-- A run of entries written one by one: the last entry of a place stays. -/
theorem fget?_foldl_fset {α : Type} {bs : FMap α} (hn : (bs.map (·.1)).Nodup) (k : Nat) (m : FMap α) :
    fget? k (bs.foldl (fun m e => fset e.1 e.2 m) m) = (fget? k bs).or (fget? k m) := by
  induction bs generalizing m with
  | nil => rfl
  | cons e r ih =>
    obtain ⟨he, hr⟩ := List.nodup_cons.mp hn
    rw [List.foldl_cons, ih hr]
    by_cases hk : k = e.1
    · subst hk
      have hnone : fget? e.1 r = none := fget?_eq_none fun x hx q => he (List.mem_map.mpr ⟨x, hx, q⟩)
      simp [fget?, hnone]
    · simp [fget?, hk, fget?_fset_ne hk]

/-- The bytes of a write, each place named once, read back; the others are unchanged. -/
theorem cellGet_cellSets {bs : List (Nat × W8)} (hn : (bs.map (·.1)).Nodup) (d : W8) (a : Nat) (m : List Host.Cell) :
    cellGet d a (cellSets d bs m) = (fget? a bs).getD (cellGet d a m) := by
  induction bs generalizing m with
  | nil => rfl
  | cons e r ih =>
    obtain ⟨he, hr⟩ := List.nodup_cons.mp hn
    have hset : cellSets d (e :: r) m = cellSets d r (cellSet d e.1 e.2 m) := rfl
    rw [hset, ih hr]
    by_cases ha : a = e.1
    · subst ha
      have hnone : fget? e.1 r = none := fget?_eq_none fun x hx q => he (List.mem_map.mpr ⟨x, hx, q⟩)
      simp [fget?, hnone]
    · simp [fget?, ha, cellGet_cellSet_ne ha]

/-! ## Sets of numbers and the lines of a write -/

@[simp] theorem mem_nins {k a : Nat} {l : List Nat} : a ∈ nins k l ↔ a = k ∨ a ∈ l := by
  induction l with
  | nil => simp [nins]
  | cons b r ih =>
    unfold nins
    split_ifs with h1 h2
    · subst h1; simp
    · simp
    · simp only [List.mem_cons, ih]; tauto

theorem pairwise_nins {k : Nat} {l : List Nat} (h : l.Pairwise (· < ·)) : (nins k l).Pairwise (· < ·) := by
  induction l with
  | nil => simp [nins]
  | cons b r ih =>
    obtain ⟨hb, hr⟩ := List.pairwise_cons.mp h
    unfold nins
    split_ifs with h1 h2
    · exact h
    · exact List.pairwise_cons.mpr ⟨List.forall_mem_cons.mpr ⟨h2, fun a ha => h2.trans (hb a ha)⟩, h⟩
    · refine List.pairwise_cons.mpr ⟨fun a ha => ?_, ih hr⟩
      rcases mem_nins.mp ha with rfl | ha
      · omega
      · exact hb a ha

/-- The lines that a write touches. -/
theorem mem_linesOf {bs : List (Nat × W8)} {ln : Nat} : ln ∈ linesOf bs ↔ ∃ e ∈ bs, e.1 / 64 * 64 = ln := by
  have key (l : List Nat) : ln ∈ bs.foldl (fun a e => nins (e.1 / 64 * 64) a) l ↔ ln ∈ l ∨ ∃ e ∈ bs, e.1 / 64 * 64 = ln := by
    induction bs generalizing l with
    | nil => simp
    | cons e r ih =>
      rw [List.foldl_cons, ih, mem_nins, List.exists_mem_cons_iff, eq_comm]
      tauto
  exact (key []).trans (by simp only [List.not_mem_nil, false_or])

theorem pairwise_linesOf (bs : List (Nat × W8)) : (linesOf bs).Pairwise (· < ·) := by
  have key (l : List Nat) (h : l.Pairwise (· < ·)) : (bs.foldl (fun a e => nins (e.1 / 64 * 64) a) l).Pairwise (· < ·) := by
    induction bs generalizing l with
    | nil => exact h
    | cons e r ih => exact ih _ (pairwise_nins h)
  exact key [] List.Pairwise.nil

theorem nodup_linesOf (bs : List (Nat × W8)) : (linesOf bs).Nodup := (pairwise_linesOf bs).imp Nat.ne_of_lt

/-- A write touches no more lines than a list of them that holds them all. -/
theorem length_linesOf_le {bs : List (Nat × W8)} {l : List Nat} (h : ∀ e ∈ bs, e.1 / 64 * 64 ∈ l) : (linesOf bs).length ≤ l.length := by
  refine (List.subperm_of_subset (nodup_linesOf bs) fun ln hln => ?_).length_le
  obtain ⟨e, he, rfl⟩ := mem_linesOf.mp hln
  exact h e he

end Sys2Proof.Machine
end

section
/-! SUPPORT. What reads of a well see after writes through and past its gather buffer (R107, R164, R178). -/

namespace Sys2Proof.Machine

/-! ## The lines of a gather buffer -/

/-- R178: the byte that the lines of a gather buffer hold for a well offset. -/
def gatherLook (gs : List GLine) (off : Nat) : Option W8 :=
  gs.findSome? fun g => if g.off == off / 64 * 64 then fget? (off % 64) g.bytes else none

theorem gatherByte_eq (c : CoreSt) (off : Nat) : gatherByte c off = gatherLook c.gather off := rfl

@[simp] theorem gatherLook_nil (off : Nat) : gatherLook [] off = none := rfl

theorem gatherLook_cons (g : GLine) (gs : List GLine) (off : Nat) : gatherLook (g :: gs) off =
    (if g.off = off / 64 * 64 then fget? (off % 64) g.bytes else none).or (gatherLook gs off) := by
  simp only [gatherLook, List.findSome?_cons, beq_iff_eq]
  cases (if g.off = off / 64 * 64 then fget? (off % 64) g.bytes else none) <;> rfl

theorem gatherLook_eq_none {gs : List GLine} {off : Nat} (h : ∀ g ∈ gs, g.off ≠ off / 64 * 64) : gatherLook gs off = none := by
  induction gs with
  | nil => rfl
  | cons g r ih =>
    obtain ⟨hg, hr⟩ := List.forall_mem_cons.mp h
    rw [gatherLook_cons, if_neg hg, ih hr, Option.or_none]

/-- The line of an offset is the only one that holds its bytes. -/
theorem gatherLook_of_mem {gs : List GLine} (hn : (gs.map (·.off)).Nodup) {g : GLine} (h : g ∈ gs) {off : Nat}
    (ho : g.off = off / 64 * 64) : gatherLook gs off = fget? (off % 64) g.bytes := by
  induction gs with
  | nil => exact nomatch h
  | cons b r ih =>
    obtain ⟨hb, hr⟩ := List.nodup_cons.mp hn
    rw [gatherLook_cons]
    rcases List.mem_cons.mp h with rfl | h
    · have hrest : gatherLook r off = none :=
        gatherLook_eq_none fun x hx q => hb (List.mem_map.mpr ⟨x, hx, q.trans ho.symm⟩)
      rw [if_pos ho, hrest, Option.or_none]
    · have hne : ¬b.off = off / 64 * 64 := fun q => hb (List.mem_map.mpr ⟨g, h, ho.trans q.symm⟩)
      rw [if_neg hne, Option.none_or, ih hr h]

/-- A line without the bytes that a store past the gather buffer replaces. -/
def GLine.without (l : Nat) (bs : List (Nat × W8)) (g : GLine) : GLine :=
  { g with bytes := g.bytes.filter fun e => !(bs.any fun x => x.1 == wellBase l + g.off + e.1) }

/-- R107: the lines of a gather buffer after a store past it. -/
def linesWithout (l : Nat) (bs : List (Nat × W8)) (gs : List GLine) : List GLine :=
  (gs.map (GLine.without l bs)).filter fun g => !g.bytes.isEmpty

/-- R107: the bytes that a store past the gather buffer replaces leave it; the others stay. -/
theorem gatherLook_without (l : Nat) (bs : List (Nat × W8)) (gs : List GLine) (off : Nat) :
    gatherLook (linesWithout l bs gs) off =
      if bs.any (·.1 == wellBase l + off) then none else gatherLook gs off := by
  unfold linesWithout
  induction gs with
  | nil => simp
  | cons g r ih =>
    have hline : (if g.off = off / 64 * 64 then fget? (off % 64) (g.without l bs).bytes else none) =
        if bs.any (·.1 == wellBase l + off) then none else if g.off = off / 64 * 64 then fget? (off % 64) g.bytes else none := by
      by_cases ho : g.off = off / 64 * 64
      · have hat : wellBase l + g.off + off % 64 = wellBase l + off := by omega
        have hf := fget?_filter (off % 64) (fun k => !(bs.any fun x => x.1 == wellBase l + g.off + k)) g.bytes
        rw [hat] at hf
        rw [if_pos ho, if_pos ho]
        refine hf.trans ?_
        cases bs.any (·.1 == wellBase l + off) <;> rfl
      · rw [if_neg ho, if_neg ho, ite_self]
    rw [List.map_cons, gatherLook_cons]
    cases he : (g.without l bs).bytes.isEmpty with
    | true =>
      rw [List.isEmpty_iff.mp he] at hline
      rw [List.filter_cons_of_neg (by simp [he]), ih]
      split_ifs at hline ⊢
      · rfl
      · rfl
      · rw [← hline]; rfl
      · rfl
    | false =>
      rw [List.filter_cons_of_pos (by simp [he]), gatherLook_cons, ih]
      change (if g.off = off / 64 * 64 then _ else none).or _ = _
      rw [hline]
      split_ifs <;> rfl

/-! ## A well's bytes -/

/-- R178: what a read of a well's byte sees where nothing is poisoned. -/
def wellByte (s : State) (l a : Nat) : W8 :=
  (gatherByte (coreOf s l) (a - wellBase l)).getD (cellGet memDefault a s.mem)

/-- `t` is `s` after the bytes `bs` have been written to well `l`: they read back, and no other byte changes. -/
structure wellStored (s t : State) (l : Nat) (bs : List (Nat × W8)) : Prop where
  written : wellWritten s t
  poison : t.wellPoison = s.wellPoison
  others : ∀ k, k ≠ l → coreOf t k = coreOf s k
  outside : ∀ a, ownWell l a = false → cellGet memDefault a t.mem = cellGet memDefault a s.mem
  inside : ∀ a, ownWell l a = true → wellByte t l a = (fget? a bs).getD (wellByte s l a)

theorem ownWell_iff {l a : Nat} : ownWell l a = true ↔ wellBase l ≤ a ∧ a < wellBase l + 0x400000 := by
  rw [ownWell, Bool.and_eq_true, decide_eq_true_iff, decide_eq_true_iff]
  unfold wellBase
  omega

theorem wellBase_mod (l : Nat) : wellBase l % 64 = 0 := by
  unfold wellBase
  omega

theorem any_fst_beq {α : Type} {bs : FMap α} {a : Nat} (h : fget? a bs = none) : bs.any (·.1 == a) = false := by
  induction bs with
  | nil => rfl
  | cons e r ih =>
    by_cases he : a = e.1
    · simp [fget?, he] at h
    · simp only [fget?, he, if_false] at h
      simp [ih h, Ne.symm he]

theorem wellStore_eq {s : State} (hp : s.wellPoison = []) (l : Nat) (bs : List (Nat × W8)) : wellStore s l bs [] =
    { s with mem := cellSets memDefault bs s.mem, wellPoison := [],
             cores := fset l { coreOf s l with gather := linesWithout l bs (coreOf s l).gather } s.cores } := by
  have hm : mergeErrs s [] bs = s := rfl
  unfold wellStore
  simp only [hm, hp, overPoison, List.filter_nil, List.contains_nil, Bool.not_false, Bool.true_or, List.filter_true]
  rfl

theorem coreOf_wellStore {s : State} (hp : s.wellPoison = []) (l : Nat) (bs : List (Nat × W8)) : coreOf (wellStore s l bs []) l =
    { coreOf s l with gather := linesWithout l bs (coreOf s l).gather } := by
  rw [wellStore_eq hp]
  exact fget_fset_same ..

/-- R107, R164: a store past the gather buffer. -/
theorem wellStored_wellStore {s : State} (hp : s.wellPoison = []) {l : Nat} {bs : List (Nat × W8)} (hn : (bs.map (·.1)).Nodup)
    (ho : ∀ e ∈ bs, ownWell l e.1 = true) : wellStored s (wellStore s l bs []) l bs where
  written := wellWritten_wellStore s l bs
  poison := by rw [wellStore_eq hp, hp]
  others := fun k hk => fget_fset_ne hk ..
  outside := fun a ha => by
    rw [wellStore_eq hp]
    exact cellGet_cellSets_ne _ _ _ _ fun e he q => by rw [← q, ho e he] at ha; exact nomatch ha
  inside := fun a ha => by
    have hback : wellBase l + (a - wellBase l) = a := by have := ownWell_iff.mp ha; omega
    have hmem : (wellStore s l bs []).mem = cellSets memDefault bs s.mem := by rw [wellStore_eq hp]
    rw [wellByte, coreOf_wellStore hp, hmem, gatherByte_eq, gatherLook_without, hback, cellGet_cellSets hn]
    cases hf : fget? a bs with
    | none => rw [any_fst_beq hf]; rfl
    | some v =>
      rw [if_pos]
      · rfl
      · by_contra h
        rw [fget?_eq_none fun e he q => h (List.any_eq_true.mpr ⟨e, he, by simp [q]⟩)] at hf
        exact nomatch hf

/-! ## Whole lines past the gather buffer and parts of lines into it -/

/-- The bytes of a write that lie in one line. -/
def inLine (ln : Nat) (bs : List (Nat × W8)) : List (Nat × W8) := bs.filter fun e => e.1 / 64 * 64 == ln

theorem fget?_inLine (ln a : Nat) (bs : List (Nat × W8)) :
    fget? a (inLine ln bs) = if a / 64 * 64 = ln then fget? a bs else none := by
  have h := fget?_filter a (fun k => k / 64 * 64 == ln) bs
  simp only [beq_iff_eq] at h
  exact h

theorem nodup_inLine {bs : List (Nat × W8)} (hn : (bs.map (·.1)).Nodup) (ln : Nat) : ((inLine ln bs).map (·.1)).Nodup :=
  hn.sublist (List.filter_sublist.map _)

/-- R178: the gather-buffer line that a part of a line makes in an empty place. -/
def partLine (l : Nat) (bs : List (Nat × W8)) (ln : Nat) : GLine :=
  ⟨ln - wellBase l, ((inLine ln bs).map fun e => (e.1 - ln, e.2)).foldl (fun m e => fset e.1 e.2 m) []⟩

theorem partLine_off (l : Nat) (bs : List (Nat × W8)) (ln : Nat) : (partLine l bs ln).off = ln - wellBase l := rfl

/-- The bytes of a part of a line, by their places in it. -/
theorem fget?_partLine {bs : List (Nat × W8)} (hn : (bs.map (·.1)).Nodup) (l : Nat) {a ln : Nat} (h : a / 64 * 64 = ln) :
    fget? (a - ln) (partLine l bs ln).bytes = fget? a bs := by
  have hmem {e : Nat × W8} (he : e ∈ inLine ln bs) : e.1 / 64 * 64 = ln := by simpa using (List.mem_filter.mp he).2
  have hnd : (((inLine ln bs).map fun e => (e.1 - ln, e.2)).map (·.1)).Nodup := by
    rw [List.map_map]
    refine (List.nodup_map_iff_inj_on ((nodup_inLine hn ln).of_map)).mpr fun x hx y hy q => ?_
    have hxy : x.1 = y.1 := by
      have := hmem hx; have := hmem hy; have hq : x.1 - ln = y.1 - ln := q; omega
    exact List.inj_on_of_nodup_map (nodup_inLine hn ln) hx hy hxy
  rw [partLine, fget?_foldl_fset hnd, fget?_nil, Option.or_none,
    fget?_map (g := (· - ln)) (a := a) fun e he => by have := hmem he; omega, fget?_inLine, if_pos h]

theorem length_fset_le {α : Type} (k : Nat) (v : α) (m : FMap α) : (fset k v m).length ≤ m.length + 1 := by
  induction m with
  | nil => simp [fset]
  | cons e r ih =>
    unfold fset
    split_ifs <;> simp
    omega

theorem length_foldl_fset_le {α : Type} (bs m : FMap α) :
    (bs.foldl (fun m e => fset e.1 e.2 m) m).length ≤ m.length + bs.length := by
  induction bs generalizing m with
  | nil => simp
  | cons e r ih =>
    have h1 := ih (fset e.1 e.2 m)
    have h2 := length_fset_le e.1 e.2 m
    simp only [List.foldl_cons, List.length_cons]
    omega

theorem length_inLine_le {bs : List (Nat × W8)} (hn : (bs.map (·.1)).Nodup) (ln : Nat) : (inLine ln bs).length ≤ 64 := by
  have hsub : (inLine ln bs).map (·.1) ⊆ span ln 64 := fun a ha => by
    obtain ⟨e, he, rfl⟩ := List.mem_map.mp ha
    have hl : e.1 / 64 * 64 = ln := by simpa using (List.mem_filter.mp he).2
    exact mem_span.mpr (by omega)
  have h := (List.subperm_of_subset (nodup_inLine hn ln) hsub).length_le
  simpa [span] using h

/-- R178: a part of a line is not complete. -/
theorem partLine_short {bs : List (Nat × W8)} (hn : (bs.map (·.1)).Nodup) (l : Nat) {ln : Nat} (h : (inLine ln bs).length ≠ 64) :
    (partLine l bs ln).bytes.length ≠ 64 := by
  have h1 := length_foldl_fset_le ((inLine ln bs).map fun e => (e.1 - ln, e.2)) []
  have h2 := length_inLine_le hn ln
  simp only [List.length_map, List.length_nil] at h1
  simp only [partLine]
  omega

/-- R178: a part of a line whose place in the buffer is free joins it. -/
theorem gatherPut_new {s : State} {l ln : Nat} {bs : List (Nat × W8)} (hfree : ∀ g ∈ (coreOf s l).gather, g.off ≠ ln - wellBase l)
    (hroom : (coreOf s l).gather.length < 16) (hshort : (partLine l bs ln).bytes.length ≠ 64) :
    gatherPut s l (ln - wellBase l) ((inLine ln bs).map fun e => (e.1 - ln, e.2)) [] =
      putCore s l { coreOf s l with gather := (coreOf s l).gather ++ [partLine l bs ln] } := by
  have hold : ((coreOf s l).gather.find? fun g => g.off == ln - wellBase l) = none :=
    List.find?_eq_none.mpr fun g hg => by simpa using hfree g hg
  unfold gatherPut
  simp only [hold, if_pos hroom, Option.isSome_none, Bool.false_eq_true, if_false]
  exact if_neg (by simpa [partLine] using hshort)

/-- A line that joins the gather buffer. -/
def gatherMore (s : State) (l : Nat) (g : GLine) : State := putCore s l { coreOf s l with gather := (coreOf s l).gather ++ [g] }

/-- R178: `t` is `s` after the lines `gs` have joined the gather buffer of well `l`. -/
structure gathered (s t : State) (l : Nat) (gs : List GLine) : Prop where
  written : wellWritten s t
  mem : t.mem = s.mem
  poison : t.wellPoison = s.wellPoison
  others : ∀ k, k ≠ l → coreOf t k = coreOf s k
  lines : (coreOf t l).gather = (coreOf s l).gather ++ gs

theorem gathered_nil (s : State) (l : Nat) : gathered s s l [] :=
  ⟨.refl s, rfl, rfl, fun _ _ => rfl, (List.append_nil _).symm⟩

theorem gathered_gatherMore (s : State) (l : Nat) (g : GLine) : gathered s (gatherMore s l g) l [g] :=
  ⟨wellWritten_putCore_gather s l _, rfl, rfl, fun _ hk => coreOf_putCore_ne hk .., by rw [gatherMore, coreOf_putCore]⟩

theorem gathered.trans {s t r : State} {l : Nat} {gs hs : List GLine} (h1 : gathered s t l gs) (h2 : gathered t r l hs) :
    gathered s r l (gs ++ hs) :=
  ⟨h1.written.trans h2.written, h2.mem.trans h1.mem, h2.poison.trans h1.poison,
    fun k hk => (h2.others k hk).trans (h1.others k hk), by rw [h2.lines, h1.lines, List.append_assoc]⟩

/-- R178: parts of several lines join the buffer one after another. -/
theorem foldl_gatherPut {l : Nat} {bs : List (Nat × W8)} (lns : List Nat) (s : State)
    (hnd : (((coreOf s l).gather ++ lns.map (partLine l bs)).map (·.off)).Nodup)
    (hroom : (coreOf s l).gather.length + lns.length ≤ 16) (hshort : ∀ ln ∈ lns, (partLine l bs ln).bytes.length ≠ 64) :
    gathered s (lns.foldl (fun s ln => gatherPut s l (ln - wellBase l) ((inLine ln bs).map fun e => (e.1 - ln, e.2)) []) s) l
      (lns.map (partLine l bs)) := by
  induction lns generalizing s with
  | nil => exact gathered_nil s l
  | cons ln r ih =>
    obtain ⟨hs1, hsr⟩ := List.forall_mem_cons.mp hshort
    have hlt : (coreOf s l).gather.length < 16 := by rw [List.length_cons] at hroom; omega
    have hfree : ∀ g ∈ (coreOf s l).gather, g.off ≠ ln - wellBase l := fun g hg => by
      rw [List.map_append] at hnd
      have hin : ln - wellBase l ∈ ((ln :: r).map (partLine l bs)).map (·.off) := List.mem_cons_self
      exact (List.nodup_append.mp hnd).2.2 g.off (List.mem_map_of_mem hg) _ hin
    have hmore := gathered_gatherMore s l (partLine l bs ln)
    have hlen : (coreOf (gatherMore s l (partLine l bs ln)) l).gather.length = (coreOf s l).gather.length + 1 := by
      rw [hmore.lines, List.length_append, List.length_singleton]
    rw [List.foldl_cons, gatherPut_new hfree hlt hs1]
    refine hmore.trans (ih (gatherMore s l (partLine l bs ln)) ?_ ?_ hsr)
    · rw [hmore.lines, List.append_assoc]; exact hnd
    · rw [hlen]; rw [List.length_cons] at hroom; omega

/-- The lines that a write covers whole. -/
def wholeLines (bs : List (Nat × W8)) : List Nat := (linesOf bs).filter fun ln => (inLine ln bs).length == 64

/-- The bytes of a write that lie in lines covered whole. -/
def wholeBytes (bs : List (Nat × W8)) : List (Nat × W8) := bs.filter fun e => (wholeLines bs).contains (e.1 / 64 * 64)

/-- The lines that a write covers in part. -/
def partLines (bs : List (Nat × W8)) : List Nat := (linesOf bs).filter fun ln => !((wholeLines bs).contains ln)

theorem mem_partLines {bs : List (Nat × W8)} {ln : Nat} : ln ∈ partLines bs ↔ ln ∈ linesOf bs ∧ (inLine ln bs).length ≠ 64 := by
  simp only [partLines, wholeLines, List.mem_filter, List.contains_iff_mem, Bool.not_eq_true', Bool.eq_false_iff, ne_eq, beq_iff_eq]
  tauto

theorem fget?_wholeBytes (a : Nat) (bs : List (Nat × W8)) :
    fget? a (wholeBytes bs) = if a / 64 * 64 ∈ wholeLines bs then fget? a bs else none := by
  have h := fget?_filter a (fun k => (wholeLines bs).contains (k / 64 * 64)) bs
  simp only [List.contains_iff_mem] at h
  exact h

/-- A line of a write that is not covered in part is covered whole, or not touched at all. -/
theorem fget?_wholeBytes_of_notMem {a : Nat} {bs : List (Nat × W8)} (h : a / 64 * 64 ∉ partLines bs) :
    fget? a (wholeBytes bs) = fget? a bs := by
  rw [fget?_wholeBytes]
  split_ifs with hw
  · rfl
  · refine (fget?_eq_none fun e he q => ?_).symm
    have hl : a / 64 * 64 ∈ linesOf bs := mem_linesOf.mpr ⟨e, he, by rw [q]⟩
    exact h (List.mem_filter.mpr ⟨hl, by simpa using hw⟩)

/-- R178: a write through the gather buffer: whole lines past it, then the parts of lines into it. -/
theorem wellPut_eq (s : State) (l : Nat) (bs : List (Nat × W8)) : wellPut s l bs [] =
    (partLines bs).foldl (fun s ln => gatherPut s l (ln - wellBase l) ((inLine ln bs).map fun e => (e.1 - ln, e.2)) [])
      (wellStore s l (wholeBytes bs) []) := rfl

/-- R178: a write through an empty gather buffer, of at most 16 lines. -/
theorem wellStored_wellPut {s : State} (hp : s.wellPoison = []) {l : Nat} (hg : (coreOf s l).gather = []) {bs : List (Nat × W8)}
    (hn : (bs.map (·.1)).Nodup) (ho : ∀ e ∈ bs, ownWell l e.1 = true) (hl : (linesOf bs).length ≤ 16) :
    wellStored s (wellPut s l bs []) l bs := by
  have hmod := wellBase_mod l
  have hbase {a : Nat} : ownWell l a = true → wellBase l ≤ a / 64 * 64 := fun ha => by
    have := ownWell_iff.mp ha; omega
  have hpart {ln : Nat} (h : ln ∈ partLines bs) : wellBase l ≤ ln := by
    obtain ⟨e, he, rfl⟩ := mem_linesOf.mp (mem_partLines.mp h).1
    exact hbase (ho e he)
  have h1 : wellStored s (wellStore s l (wholeBytes bs) []) l (wholeBytes bs) :=
    wellStored_wellStore hp (hn.sublist (List.filter_sublist.map _)) fun e he => ho e (List.mem_of_mem_filter he)
  have hg1 : (coreOf (wellStore s l (wholeBytes bs) []) l).gather = [] := by
    rw [coreOf_wellStore hp, hg]
    rfl
  have hnd : (((partLines bs).map (partLine l bs)).map (·.off)).Nodup := by
    rw [List.map_map]
    refine (List.nodup_map_iff_inj_on ((nodup_linesOf bs).filter _)).mpr fun x hx y hy q => ?_
    have := hpart hx
    have := hpart hy
    rw [Function.comp_apply, Function.comp_apply, partLine_off, partLine_off] at q
    omega
  have h2 : gathered (wellStore s l (wholeBytes bs) []) (wellPut s l bs []) l ((partLines bs).map (partLine l bs)) := by
    rw [wellPut_eq]
    exact foldl_gatherPut (partLines bs) _ (by rw [hg1]; exact hnd)
      (by rw [hg1, List.length_nil, Nat.zero_add]; exact (List.length_filter_le _ _).trans hl)
      fun ln hln => partLine_short hn l (mem_partLines.mp hln).2
  refine ⟨h1.written.trans h2.written, h2.poison.trans h1.poison, fun k hk => (h2.others k hk).trans (h1.others k hk),
    fun a ha => by rw [h2.mem]; exact h1.outside a ha, fun a ha => ?_⟩
  have hold := h1.inside a ha
  have hnone : ∀ t : State, (coreOf t l).gather = [] → wellByte t l a = cellGet memDefault a t.mem := fun t ht => by
    rw [wellByte, gatherByte_eq, ht]; rfl
  rw [hnone _ hg1] at hold
  have hle := hbase ha
  rw [wellByte, gatherByte_eq, h2.lines, hg1, List.nil_append, h2.mem, hold]
  by_cases hin : a / 64 * 64 ∈ partLines bs
  · have hlook : gatherLook ((partLines bs).map (partLine l bs)) (a - wellBase l) = fget? a bs := by
      have hoff : (partLine l bs (a / 64 * 64)).off = (a - wellBase l) / 64 * 64 := by
        rw [partLine_off]
        omega
      rw [gatherLook_of_mem hnd (List.mem_map_of_mem hin) hoff, ← fget?_partLine hn l rfl]
      congr 1
      omega
    rw [hlook, fget?_wholeBytes, if_neg]
    · rfl
    · exact fun hw => (mem_partLines.mp hin).2 (by simpa using (List.mem_filter.mp hw).2)
  · rw [gatherLook_eq_none, fget?_wholeBytes_of_notMem hin]
    · rfl
    · intro g hgm q
      obtain ⟨ln, hln, rfl⟩ := List.mem_map.mp hgm
      obtain ⟨e, he, hel⟩ := mem_linesOf.mp (mem_partLines.mp hln).1
      have := hpart hln
      rw [partLine_off] at q
      have heq : a / 64 * 64 = ln := by omega
      exact hin (heq ▸ hln)

/-! ## The bytes of the engine's address space after a write to a well -/

/-- A read sees no more of a state than its fail marks, its memory and its gather buffers. -/
theorem byteAt_congr {s t : State} (hr : t.regs = s.regs) (hlp : t.lpPoison = s.lpPoison) (hh : t.hostPoison = s.hostPoison)
    (hw : t.wellPoison = s.wellPoison) (hf : t.freeCtr = s.freeCtr) {a : Nat}
    (hm : cellGet memDefault a t.mem = cellGet memDefault a s.mem)
    (hg : ∀ l off, regionOf s a = .well l off → (coreOf t l).gather = (coreOf s l).gather) : byteAt t a = byteAt s a := by
  have hreg : regionOf t a = regionOf s a := by unfold regionOf chanState; simp only [rfld_congr hr]
  have hbad : badAt t a = badAt s a := by
    unfold badAt chanState
    simp only [hreg, hlp, hh, hw, rfld_congr hr]
  unfold byteAt
  rw [hbad, hf, hreg, hm]
  cases hreg' : regionOf s a with
  | well l off => simp only [gatherByte_eq, hg l off hreg']
  | lpddr c => rfl
  | host => rfl
  | none => rfl

/-- A slot's write leaves every byte as it is. -/
theorem byteAt_putSlot (s : State) (u : StreamId) (x : SlotSt) (a : Nat) : byteAt (putSlot s u x) a = byteAt s a := by
  refine byteAt_congr (s := s) (t := putSlot s u x) rfl rfl rfl rfl rfl rfl fun l off _ => ?_
  by_cases hl : l = u.lcid
  · subst hl; rw [putSlot, coreOf_putCore]; rfl
  · rw [putSlot, coreOf_putCore_ne hl]

/-- Table 4.7: an address in an existing core's own well. -/
theorem regionOf_ownWell (s : State) {l a : Nat} (hl : l < 16384) (h : ownWell l a = true) : regionOf s a = .well l (a - wellBase l) := by
  obtain ⟨h1, h2⟩ := ownWell_iff.mp h
  unfold wellBase at h1 h2
  have hnot : ¬a < 96 * 0x800000000 := by omega
  have hin : (decide (0x100000000000 ≤ a) && decide (a < wellBase 16384)) = true := by
    rw [Bool.and_eq_true, decide_eq_true_iff, decide_eq_true_iff]
    exact ⟨by omega, by unfold wellBase; omega⟩
  have hcore : (a - 0x100000000000) / 0x400000 = l := by omega
  have hoff : (a - 0x100000000000) % 0x400000 = a - wellBase l := by unfold wellBase; omega
  rw [regionOf, if_neg hnot, if_pos hin, hcore, hoff]

/-- Table 4.7: a well's address lies in that core's own well. -/
theorem ownWell_of_regionOf {s : State} {l off a : Nat} (h : regionOf s a = .well l off) : ownWell l a = true := by
  unfold regionOf at h
  split_ifs at h with _ _ h3
  rw [Bool.and_eq_true, decide_eq_true_iff, decide_eq_true_iff] at h3
  rw [Region.well.injEq] at h
  obtain ⟨hl, -⟩ := h
  refine ownWell_iff.mpr ?_
  unfold wellBase
  omega

theorem byteAt_ownWell {s : State} (hp : s.wellPoison = []) {l a : Nat} (hl : l < 16384) (h : ownWell l a = true) :
    byteAt s a = wellByte s l a := by
  have hr := regionOf_ownWell s hl h
  simp only [byteAt, badAt, hr, hp, List.contains_nil, Bool.false_eq_true, if_false]
  rfl

/-- R70, R178: after a write to a well its bytes read back, and every other byte of the address space reads as before. -/
theorem byteAt_of_wellStored {s t : State} {l : Nat} {bs : List (Nat × W8)} (h : wellStored s t l bs) (hp : s.wellPoison = [])
    (hl : l < 16384) (ho : ∀ e ∈ bs, ownWell l e.1 = true) (a : Nat) : byteAt t a = (fget? a bs).getD (byteAt s a) := by
  cases ha : ownWell l a with
  | true => rw [byteAt_ownWell (h.poison.trans hp) hl ha, byteAt_ownWell hp hl ha, h.inside a ha]
  | false =>
    have hnone : fget? a bs = none := fget?_eq_none fun e he q => by
      have he' := ho e he
      rw [q, ha] at he'
      exact nomatch he'
    have hmem := h.outside a ha
    have hoth := h.others
    have hpoison := h.poison
    obtain ⟨m, p, c, rfl, -⟩ := h.written
    rw [hnone]
    refine byteAt_congr (s := s) (t := { s with mem := m, wellPoison := p, cores := c }) rfl rfl rfl hpoison rfl hmem fun k off hk => ?_
    rw [hoth k fun q => by rw [← q, ownWell_of_regionOf hk] at ha; exact nomatch ha]

end Sys2Proof.Machine
end

section
/-! PROOFS. Stores to the own well: O12. -/

namespace Sys2Proof.Machine

/-! ## Runs of bytes, several of them -/

/-- R9: each byte of a number. -/
theorem getElem?_leBytes {n i : Nat} (h : i < n) (v : Nat) : (leBytes n v)[i]? = some (BitVec.ofNat 8 (v / 256 ^ i)) := by
  induction n generalizing i v with
  | zero => omega
  | succ n ih =>
    cases i with
    | zero => simp [leBytes]
    | succ i => simp [leBytes, ih (Nat.lt_of_succ_lt_succ h), Nat.div_div_eq_div_mul, Nat.pow_succ']

theorem nodup_atAddr (a : Nat) (bs : List W8) : ((atAddr a bs).map (·.1)).Nodup := by
  induction bs generalizing a with
  | nil => exact List.nodup_nil
  | cons b r ih =>
    refine List.nodup_cons.mpr ⟨fun hmem => ?_, ih (a + 1)⟩
    obtain ⟨e, he, hea⟩ := List.mem_map.mp hmem
    have hle := (mem_atAddr he).1
    rw [hea] at hle
    exact absurd hle (Nat.not_succ_le_self a)

theorem mem_atAddr_of_getElem? {a i : Nat} {bs : List W8} {v : W8} (h : bs[i]? = some v) : (a + i, v) ∈ atAddr a bs := by
  induction bs generalizing a i with
  | nil => exact nomatch h
  | cons b r ih =>
    cases i with
    | zero => exact List.mem_cons.mpr (.inl (by simpa using h.symm))
    | succ i =>
      have hnext : a + (i + 1) = a + 1 + i := by omega
      exact List.mem_cons_of_mem _ (hnext ▸ ih (by simpa using h))

/-- Runs of bytes at places of their own write each address once. -/
theorem nodup_runs {α : Type} {ls : List α} {at_ : α → Nat} {bytes : α → List W8}
    (h : ls.Pairwise fun x y => at_ x + (bytes x).length ≤ at_ y) : ((ls.flatMap fun x => atAddr (at_ x) (bytes x)).map (·.1)).Nodup := by
  rw [List.map_flatMap, List.nodup_flatMap]
  refine ⟨fun x _ => nodup_atAddr .., h.imp fun hxy a hx hy => ?_⟩
  obtain ⟨e, he, rfl⟩ := List.mem_map.mp hx
  obtain ⟨e', he', heq⟩ := List.mem_map.mp hy
  have := mem_atAddr he
  have := mem_atAddr he'
  omega

/-! ## A store to the own well as the slot issues it -/

/-- R57: a slot that issues belongs to a core of the module. -/
theorem lcid_lt_of_issues {u : StreamId} {mu : MaskUse} {f : Fields} {refs : List RegRef} {s : State}
    (h : issues u mu f refs s = true) : u.lcid < 16384 := by
  have hc := canIssue_of_issues h
  simp only [canIssue, slotLive, validStream, Bool.and_eq_true, decide_eq_true_eq] at hc
  omega

/-- R70: the slot's undo log is written. -/
def logged (s : State) (u : StreamId) (l : List (Nat × List W8)) : State :=
  putSlot s u { slotOf s u with opn := { (slotOf s u).opn with undo := l } }

/-- R70: a store of few lines finds room in the undo log. -/
theorem undoLog_eq {s : State} {u : StreamId} {bs : List (Nat × W8)} (h : (slotOf s u).opn.undo.length + (linesOf bs).length ≤ 128) :
    ∃ l, undoLog s u bs = some (logged s u l) := by
  have hplain (q : Nat × W8 → Bool) : (linesOf (bs.filter q)).length ≤ (linesOf bs).length :=
    length_linesOf_le fun e he => mem_linesOf.mpr ⟨e, List.mem_of_mem_filter he, rfl⟩
  have hfew (q : Nat × W8 → Bool) (p : Nat → Bool) : (slotOf s u).opn.undo.length + ((linesOf (bs.filter q)).filter p).length ≤ 128 := by
    have := List.length_filter_le p (linesOf (bs.filter q))
    have := hplain q
    omega
  exact ⟨_, if_neg (Nat.not_lt.mpr (hfew ..))⟩

/-- R70, R178: what a slot leaves when it has issued a store of `bs` to its own well. -/
structure storeIssued (s t : State) (u : StreamId) (bs : List (Nat × W8)) : Prop where
  bytes : ∀ a, byteAt t a = (fget? a bs).getD (byteAt s a)
  slot : slotOf t u = { slotOf s u with wait := none, arch := (slotOf s u).arch.advance,
                                        opn := { (slotOf s u).opn with undo := (slotOf t u).opn.undo } }
  others : ∀ v, v ≠ u → slotOf t v = slotOf s v
  regs : t.regs = s.regs
  out : t.out = s.out
  poison : t.wellPoison = []

section
variable {s : State} {u : StreamId} (hu : u.slot < 3) (hp : s.wellPoison = [])
include hu hp

/-- A store of no byte. -/
theorem storeIssued_nil : storeIssued s (settleRes s u (.ok s)) u [] where
  bytes := byteAt_putSlot s u _
  slot := by
    have h : slotOf (settleRes s u (.ok s)) u = _ := slotOf_finish hu
    rw [h]
  others := fun _ hv => slotOf_finish_ne hv
  regs := rfl
  out := rfl
  poison := hp

variable (hl : u.lcid < 16384) {bs : List (Nat × W8)} (hn : (bs.map (·.1)).Nodup) (ho : ∀ e ∈ bs, ownWell u.lcid e.1 = true)
  (hroom : (slotOf s u).opn.undo.length + (linesOf bs).length ≤ 128)
include hl hn ho hroom

/-- R70: a store to the own well is in the undo log, then in the well. -/
theorem storeIssued_doStore {scalar : Bool} (hg : scalar = true ∨ (coreOf s u.lcid).gather = [] ∧ (linesOf bs).length ≤ 16) :
    storeIssued s (settleRes s u (doStore s u bs scalar [])) u bs := by
  obtain ⟨l, hlog⟩ := undoLog_eq hroom
  have hall : (bs.all fun e => ownWell u.lcid e.1) = true := List.all_eq_true.mpr ho
  have hp' : (logged s u l).wellPoison = [] := hp
  have key {r : State} (hr : wellStored (logged s u l) r u.lcid bs) : storeIssued s (finish r u) u bs := by
    have hslot : slotOf r u = { slotOf s u with opn := { (slotOf s u).opn with undo := l } } := by
      rw [hr.written.slot, logged, slotOf_putSlot _ _ _ hu]
    refine ⟨fun a => ?_, ?_, fun v hv => ?_, hr.written.regs, hr.written.out, hr.poison.trans hp'⟩
    · rw [finish, byteAt_putSlot, byteAt_of_wellStored hr hp' hl ho, logged, byteAt_putSlot]
    · rw [slotOf_finish hu, hslot]
    · rw [slotOf_finish_ne hv, hr.written.slot, logged, slotOf_putSlot_ne _ _ hv]
  rw [doStore, if_pos hall, ownStore, hlog]
  cases scalar with
  | true => exact key (wellStored_wellStore hp' hn ho)
  | false =>
    obtain ⟨hempty, hfew⟩ := hg.resolve_left Bool.false_ne_true
    have hempty' : (coreOf (logged s u l) u.lcid).gather = [] := by
      rw [logged, putSlot, coreOf_putCore]
      exact hempty
    exact key (wellStored_wellPut hp' hempty' hn ho hfew)

end

/-! ## The lanes of `vst` -/

/-- R101, R146: words of one access that both lie in the own well are as far apart as their offsets. -/
theorem pairAddr_lane {l : Nat} {b : BPair} {off i j : Nat} (hij : i ≤ j) (hj : j < 32)
    (hi : ownWell l (pairAddr b (off + 4 * i)) = true) (hj' : ownWell l (pairAddr b (off + 4 * j)) = true) :
    pairAddr b (off + 4 * j) = pairAddr b (off + 4 * i) + 4 * (j - i) := by
  have h1 := ownWell_iff.mp hi
  have h2 := ownWell_iff.mp hj'
  unfold pairAddr wellBase at *
  omega

theorem pairwise_activeLanes (a : Arch) (m : BitVec 3) : (activeLanes a m).Pairwise (· < ·) :=
  (List.pairwise_lt_range).filter _

/-- R146: the address of a lane's word. -/
def laneAddr (a : Arch) (f : Fields) (i : Nat) : Nat := pairAddr (a.bget (memPair f)) ((memOff a f).toNat + 4 * i)

/-- R146: the bytes of a lane's word. -/
def laneBytes (a : Arch) (f : Fields) (i : Nat) : List W8 := leBytes 4 ((a.vget f.src2)[i]?.getD 0).toNat

/-- R146: the bytes that `vst` writes. -/
def vstBytes (a : Arch) (f : Fields) : List (Nat × W8) :=
  (activeLanes a f.mask).flatMap fun i => atAddr (laneAddr a f i) (laneBytes a f i)

section
variable {a : Arch} {f : Fields} {l : Nat}

theorem mem_vstBytes {e : Nat × W8} (h : e ∈ vstBytes a f) :
    ∃ i, i < 32 ∧ laneOn a f.mask i = true ∧ laneAddr a f i ≤ e.1 ∧ e.1 < laneAddr a f i + 4 := by
  obtain ⟨i, hi, he⟩ := List.mem_flatMap.mp h
  obtain ⟨h32, hon⟩ := mem_activeLanes.mp hi
  obtain ⟨h1, h2⟩ := mem_atAddr he
  rw [laneBytes, length_leBytes] at h2
  exact ⟨i, h32, hon, h1, h2⟩

variable (hown : ∀ i < 32, laneOn a f.mask i = true → ∀ k < 4, ownWell l (laneAddr a f i + k) = true)
include hown

theorem ownWell_vstBytes : ∀ e ∈ vstBytes a f, ownWell l e.1 = true := fun e he => by
  obtain ⟨i, hi, hon, h1, h2⟩ := mem_vstBytes he
  have hat : laneAddr a f i + (e.1 - laneAddr a f i) = e.1 := by omega
  have h := hown i hi hon (e.1 - laneAddr a f i) (by omega)
  rwa [hat] at h

theorem laneAddr_apart {i j : Nat} (hi : i ∈ activeLanes a f.mask) (hj : j ∈ activeLanes a f.mask) (hij : i ≤ j) :
    laneAddr a f j = laneAddr a f i + 4 * (j - i) := by
  obtain ⟨hi32, hion⟩ := mem_activeLanes.mp hi
  obtain ⟨hj32, hjon⟩ := mem_activeLanes.mp hj
  exact pairAddr_lane hij hj32 (hown i hi32 hion 0 (by decide)) (hown j hj32 hjon 0 (by decide))

theorem nodup_vstBytes : ((vstBytes a f).map (·.1)).Nodup := by
  refine nodup_runs ((pairwise_activeLanes a f.mask).imp_of_mem fun hi hj hij => ?_)
  rw [laneAddr_apart hown hi hj hij.le, laneBytes, length_leBytes]
  omega

/-- R146: each active lane's word is among the bytes written. -/
theorem fget?_vstBytes {i k : Nat} (hi : i < 32) (hon : laneOn a f.mask i = true) (hk : k < 4) :
    fget? (laneAddr a f i + k) (vstBytes a f) = some (BitVec.ofNat 8 (((a.vget f.src2)[i]).toNat / 256 ^ k)) := by
  have hb : (laneBytes a f i)[k]? = some (BitVec.ofNat 8 (((a.vget f.src2)[i]).toNat / 256 ^ k)) := by
    rw [laneBytes, getElem?_leBytes hk, Vector.getElem?_eq_getElem hi, Option.getD_some]
  exact fget?_of_mem (e := (_, _)) (nodup_vstBytes hown)
    (List.mem_flatMap.mpr ⟨i, mem_activeLanes.mpr ⟨hi, hon⟩, mem_atAddr_of_getElem? hb⟩)

/-- R70: 32 words beside one another touch at most three lines. -/
theorem length_linesOf_vstBytes : (linesOf (vstBytes a f)).length ≤ 3 := by
  cases hact : activeLanes a f.mask with
  | nil => rw [vstBytes, hact]; exact Nat.zero_le 3
  | cons i r =>
    have hmem : i ∈ activeLanes a f.mask := hact ▸ List.mem_cons_self
    have hpw := pairwise_activeLanes a f.mask
    rw [hact] at hpw
    obtain ⟨hfirst, -⟩ := List.pairwise_cons.mp hpw
    let ln := laneAddr a f i / 64 * 64
    refine length_linesOf_le (l := [ln, ln + 64, ln + 128]) fun e he => ?_
    obtain ⟨j, hj, hon, h1, h2⟩ := mem_vstBytes he
    have hjm : j ∈ activeLanes a f.mask := mem_activeLanes.mpr ⟨hj, hon⟩
    have hij : i ≤ j := by
      rw [hact] at hjm
      rcases List.mem_cons.mp hjm with rfl | hr
      · exact le_rfl
      · exact (hfirst j hr).le
    have hfar := laneAddr_apart hown hmem hjm hij
    have hln : e.1 / 64 * 64 = ln ∨ e.1 / 64 * 64 = ln + 64 ∨ e.1 / 64 * 64 = ln + 128 := by omega
    simpa using hln

end

/-- R146: a legal `vst` stores the words of its active lanes. -/
theorem vstBody_eq {s : State} {u : StreamId} {f : Fields} (hd : f.dst = 0) (hm : f.mod.toNat / 4 = 2)
    (hok : ∀ i < 32, laneOn (slotOf s u).arch f.mask i = true →
      accessOk s u.lcid ((slotOf s u).arch.bget (memPair f)) ((memOff (slotOf s u).arch f).toNat + 4 * i) 4 true = true ∧
      laneAddr (slotOf s u).arch f i % 4 = 0) (errs : List SymErr) :
    vstBody u f errs s = if activeLanes (slotOf s u).arch f.mask = [] then .ok s
      else doStore s u (vstBytes (slotOf s u).arch f) false errs := by
  have hlanes (q : Nat × Nat → Bool) (h : ∀ i < 32, laneOn (slotOf s u).arch f.mask i = true →
      q (i, (memOff (slotOf s u).arch f).toNat + 4 * i) = false) : (laneOffs (slotOf s u).arch f).any q = false := by
    refine List.any_eq_false.mpr fun e he => ?_
    obtain ⟨i, hi, rfl⟩ := List.mem_map.mp he
    obtain ⟨h32, hon⟩ := mem_activeLanes.mp hi
    exact Bool.not_eq_true _ ▸ h i h32 hon
  have hfault : laneFault s u.lcid ((slotOf s u).arch.bget (memPair f)) (laneOffs (slotOf s u).arch f) true = none := by
    rw [laneFault, hlanes _ fun i hi hon => by simp [(hok i hi hon).1], hlanes _ fun i hi hon => by simpa [laneAddr] using (hok i hi hon).2]
    rfl
  have hbytes : (laneOffs (slotOf s u).arch f).flatMap (fun l => atAddr (pairAddr ((slotOf s u).arch.bget (memPair f)) l.2)
      (leBytes 4 (((slotOf s u).arch.vget f.src2)[l.1]?.getD 0).toNat)) = vstBytes (slotOf s u).arch f := List.flatMap_map ..
  have hempty : (laneOffs (slotOf s u).arch f).isEmpty = true ↔ activeLanes (slotOf s u).arch f.mask = [] := by
    rw [List.isEmpty_iff, laneOffs, List.map_eq_nil_iff]
  unfold vstBody
  simp only [hfault, hbytes, hempty, hd, hm]
  rfl

end Sys2Proof.Machine

namespace Sys2Proof.Proofs

open Sys2Proof.Machine

/-- Settles O12: the bytes enter the undo log and the well (`storeIssued_doStore`), those of `vst` through the empty gather
buffer as whole lines and parts of lines (`wellStored_wellPut`). -/
theorem ownWellStores : Obligations.OwnWellStores := by
  unfold Obligations.OwnWellStores
  constructor
  · intro u f s h hd hm x b off w ea ha he ho hundo hp
    have hlen : (leBytes (accWidth f) (x.arch.sget f.src2).toNat).length = w := length_leBytes ..
    have hown : ∀ e ∈ atAddr ea (leBytes (accWidth f) (x.arch.sget f.src2).toNat), ownWell u.lcid e.1 = true := fun e hmem => by
      obtain ⟨h1, h2⟩ := mem_atAddr hmem
      have hat : ea + (e.1 - ea) = e.1 := by omega
      have := ho (e.1 - ea) (by omega)
      rwa [hat] at this
    have hline : (linesOf (atAddr ea (leBytes (accWidth f) (x.arch.sget f.src2).toNat))).length ≤ 1 :=
      length_linesOf_le (l := [ea / 64 * 64]) fun e hmem => by
        obtain ⟨h1, h2⟩ := mem_atAddr hmem
        have hin : ea % 64 + w ≤ 64 := aligned_in_line he
        have hln : e.1 / 64 * 64 = ea / 64 * 64 := by omega
        exact List.mem_singleton.mpr hln
    have hst : storeIssued s _ u _ := storeIssued_doStore (slot_lt_of_issues h) hp (lcid_lt_of_issues h)
      (nodup_atAddr ea (leBytes (accWidth f) (x.arch.sget f.src2).toNat)) hown
      ((Nat.add_le_add_left hline _).trans hundo) (scalar := true) (.inl rfl)
    have hexec : exec (.st u f []) s = .next (settleRes s u (doStore s u (atAddr ea (leBytes (accWidth f) (x.arch.sget f.src2).toNat)) true [])) :=
      congrArg _ ((issue_eq h _).trans (congrArg (settleRes s u) (stBody_eq hd hm ha he [])))
    refine ⟨_, hexec, fun i hi => ?_, fun addr haddr => ?_, hst.slot, hst.others, hst.regs, hst.out, hst.poison⟩
    · rw [hst.bytes, fget?_atAddr, getElem?_leBytes (n := accWidth f) hi]
      rfl
    · rw [hst.bytes, fget?_eq_none]
      · rfl
      · intro e hmem q
        have := mem_atAddr hmem
        omega
  · intro u f s h hd hm x b off hok hundo hp hg
    have hl := lcid_lt_of_issues h
    have hown : ∀ i < 32, laneOn x.arch f.mask i = true → ∀ k < 4, ownWell u.lcid (laneAddr x.arch f i + k) = true :=
      fun i hi hon => (hok i hi hon).2.2
    have hfew := length_linesOf_vstBytes hown
    have hbody := vstBody_eq (u := u) hd hm (fun i hi hon => ⟨(hok i hi hon).1, (hok i hi hon).2.1⟩) []
    have hst : storeIssued s (settleRes s u (vstBody u f [] s)) u (vstBytes x.arch f) := by
      rw [hbody]
      split_ifs with hact
      · rw [vstBytes, hact]
        exact storeIssued_nil (slot_lt_of_issues h) hp
      · exact storeIssued_doStore (slot_lt_of_issues h) hp hl (nodup_vstBytes hown) (ownWell_vstBytes hown)
          ((Nat.add_le_add_left hfew _).trans hundo) (.inr ⟨hg, hfew.trans (by decide)⟩)
    have hexec : exec (.vst u f []) s = .next (settleRes s u (vstBody u f [] s)) := congrArg _ (issue_eq h _)
    refine ⟨_, hexec, fun i hi hon k hk => ?_, fun addr haddr => ?_, hst.slot, hst.others, hst.regs, hst.out⟩
    · exact (hst.bytes (laneAddr x.arch f i + k)).trans (by rw [fget?_vstBytes hown hi hon hk, Option.getD_some])
    · rw [hst.bytes, fget?_eq_none]
      · rfl
      · intro e hmem q
        obtain ⟨i, hi, hon, h1, h2⟩ := mem_vstBytes hmem
        have hout : addr < laneAddr x.arch f i ∨ laneAddr x.arch f i + 4 ≤ addr := haddr i hi hon
        omega

end Sys2Proof.Proofs
end

section
/-! SUPPORT. What frames given to the cascade's ports leave alone (R291, R293, R311). -/

namespace Sys2Proof.Machine

/-- R291: `t` is `s` after frames have been given to the ports or handed over inside the module. -/
def framed (s t : State) : Prop :=
  ∃ o i p d, t = { s with out := o, inbox := i, ports := p, casc := { s.casc with dtx := d } }

namespace framed

theorem refl (s : State) : framed s s := ⟨_, _, _, _, rfl⟩

theorem trans {s t r : State} (h1 : framed s t) (h2 : framed t r) : framed s r := by
  obtain ⟨_, _, _, _, rfl⟩ := h1
  obtain ⟨_, _, _, _, rfl⟩ := h2
  exact ⟨_, _, _, _, rfl⟩

theorem foldl {α : Type} {f : State → α → State} (hf : ∀ s a, framed s (f s a)) (l : List α) (s : State) : framed s (l.foldl f s) := by
  induction l generalizing s with
  | nil => exact refl s
  | cons a r ih => exact (hf s a).trans (ih _)

theorem cores {s t : State} (h : framed s t) : t.cores = s.cores := by
  obtain ⟨_, _, _, _, rfl⟩ := h; rfl

end framed

theorem framed_emit (s : State) (m : Msg) : framed s (emit s m) := ⟨_, _, _, _, rfl⟩

theorem framed_putPort (s : State) (n : Nat) (p : PortSt) : framed s (putPort s n p) := ⟨_, _, _, _, rfl⟩

theorem framed_flushPort (k : Nat) (s : State) (n : Nat) : framed s (flushPort k s n) := by
  induction k generalizing s with
  | zero => exact .refl s
  | succ k ih =>
    simp only [flushPort]
    split
    · exact .refl s
    · split
      · exact .refl s
      · exact ((framed_putPort ..).trans (framed_emit ..)).trans (ih _)

theorem framed_portSend (s : State) (n : Nat) (f : Frame) : framed s (portSend s n f) :=
  (framed_putPort s n _).trans (framed_flushPort _ _ n)

theorem framed_sendFrame (s : State) (m : Nat) (fr : Frame) : framed s (sendFrame s m fr) := by
  have hdtx (d : FMap Nat) : framed s { s with casc := { s.casc with dtx := d } } := ⟨_, _, _, _, rfl⟩
  unfold sendFrame
  simp only
  split_ifs
  · exact ⟨_, _, _, _, rfl⟩
  · cases framePort s { fr with dmod := m, smod := s.casc.self, hops := 4, cgen := s.casc.cgen, term := s.casc.term } with
    | none => exact hdtx _
    | some q => exact (hdtx _).trans (framed_portSend ..)

theorem framed_sendAll (s : State) (ms : List Nat) (fr : Frame) : framed s (sendAll s ms fr) :=
  .foldl (fun s m => framed_sendFrame s m fr) ms s

theorem framed_toLeads (s : State) (fr : Frame) : framed s (toLeads s fr) := framed_sendAll ..

/-- R66 step 5, R74: verdicts about sent data leave through the mesh and the ports; the tile's forward list alone changes. -/
theorem framed_sendVerdicts (s : State) (tile : Nat) (es : List FwdEntry) (confirm : Bool) :
    ∃ fwd, framed (putTile s tile { tileOf s tile with fwd := fwd }) (sendVerdicts s tile es confirm) := by
  refine ⟨_, .foldl (fun s d => ?_) _ _⟩
  simp only
  cases es.filter fun e => (e.lcid, e.remote, e.win) == d with
  | nil => exact .refl s
  | cons e r =>
    simp only
    cases e.remote with
    | none => exact framed_emit ..
    | some m => exact framed_sendFrame ..

end Sys2Proof.Machine
end

section
/-! PROOFS. Verdicts, retirement and wait limits: O32. -/

namespace Sys2Proof.Machine

/-! ## Retirement (R66) -/

theorem modSlots_slots (g : RSlot → RSlot) (l : List (Nat × Nat)) (c : CoreSt) : (modSlots g l c).slots = c.slots := by
  unfold modSlots
  induction l generalizing c with
  | nil => rfl
  | cons e r ih =>
    rw [List.foldl_cons, ih]
    cases c.ring? e.1 <;> rfl

theorem foldl_cacheWrite_slots (gs : List Gated) (c : CoreSt) : (gs.foldl cacheWrite c).slots = c.slots := by
  induction gs generalizing c with
  | nil => rfl
  | cons g r ih =>
    rw [List.foldl_cons, ih]
    cases g <;> rfl

theorem hostStore_cores (s : State) (bs : List (Nat × W8)) : (hostStore s bs).cores = s.cores := by
  unfold hostStore
  split_ifs <;> rfl

/-- A run of steps that each keep the cores. -/
theorem foldl_cores {α : Type} {f : State → α → State} (hf : ∀ s a, (f s a).cores = s.cores) (l : List α) (s : State) :
    (l.foldl f s).cores = s.cores := by
  induction l generalizing s with
  | nil => rfl
  | cons a r ih => rw [List.foldl_cons, ih, hf]

/-- R68: the release of a gated write leaves the cores alone. -/
theorem releaseGate_cores (s : State) (u : StreamId) (g : Gated) : (releaseGate s u g).cores = s.cores := by
  cases g with
  | store ps =>
    simp only [releaseGate]
    rw [(framed.foldl (fun s c => framed_emit s _) _ _).cores, foldl_cores fun s p => hostStore_cores s _]
  | amo a ty v => rfl
  | signal so cas v =>
    simp only [releaseGate]
    split
    · split
      · rfl
      · exact (framed_sendAll ..).cores
    · split
      · split <;> rfl
      · rfl

theorem sendVerdicts_cores (s : State) (tile : Nat) (es : List FwdEntry) (confirm : Bool) :
    (sendVerdicts s tile es confirm).cores = s.cores := by
  obtain ⟨_, h⟩ := framed_sendVerdicts s tile es confirm
  exact h.cores

theorem reportForward_cores (s : State) (n : Nat) : (reportForward s n).cores = s.cores := by
  simp only [reportForward]
  split
  · rfl
  · split
    · exact (framed_toLeads ..).cores
    · rfl

/-- R66: the slot whose CLOSED stitch has retired. -/
def retiredSlot (x : SlotSt) (cl : Closed) : SlotSt :=
  { x with retired := cl.image, retSeq := cl.st.seq + 1, retTiles := cl.tiles.foldl (fun m e => fset e.1 e.2 m) x.retTiles,
           closed := none, buf := !x.buf, tileBuf := cl.tiles.foldl (fun m e => fset e.1 (!x.buf) m) x.tileBuf,
           phase := if x.phase == .closing then .partDone else x.phase }

/-- R66: retirement changes its slot as `retiredSlot` says. -/
theorem slotOf_retireStitch (s : State) {u : StreamId} (hu : u.slot < 3) (cl : Closed) :
    slotOf (retireStitch s u cl) u = retiredSlot (slotOf s u) cl := by
  have hx : (modSlots emptySlot cl.st.drained (modSlots confirmSlot (filledBy (coreOf s u.lcid) u cl.st.seq cl.st.filled)
      { coreOf s u.lcid with rings := fmapAll (fun _ r => ringRetire u.slot r) (coreOf s u.lcid).rings })).slot u.slot = slotOf s u := by
    simp only [CoreSt.slot, modSlots_slots, slotOf]
  unfold retireStitch
  simp only [hx]
  rw [slotOf_congr (sendVerdicts_cores ..), slotOf_congr (putTile_cores ..),
    slotOf_congr (foldl_cores (fun s g => releaseGate_cores s u g) ..), slotOf, coreOf_putCore, CoreSt.slot, foldl_cacheWrite_slots]
  exact core_slot_putSlot _ _ _ hu

/-! ## Loads (R106, R170) -/

theorem foldl_cacheTouch_slots (f : Nat → List W8) (ls : List Nat) (c : CoreSt) :
    (ls.foldl (fun c ln => cacheTouch c ln (f ln)) c).slots = c.slots := by
  induction ls generalizing c with
  | nil => rfl
  | cons l r ih => rw [List.foldl_cons, ih]; rfl

/-- R106: the data of an outstanding load return to a tile whose cores run. -/
theorem loadReturn_spec {s : State} {u : StreamId} {id : Nat} {l : Load} {d : FMap W8} (hu : u.slot < 3)
    (hl : (slotOf s u).loads.find? (fun l => l.id == id) = some l) (hd : l.data = some d) (hb : l.bad = false)
    (hs : seamHolds s (loadFrom s l.addr) (coreRouter u.lcid) = false) (ht : (tileOf s (runTile s u.lcid)).tier = .active) :
    slotOf (loadReturn u id s) u =
      { slotOf s u with arch := putLoaded (slotOf s u).arch l.addr (fun a => (fget? a l.known).getD (fget 0 a d)) l.dst l.over_,
                        loads := (slotOf s u).loads.filter fun k => k.id != id } ∧
      (loadReturn u id s).mem = s.mem ∧ (loadReturn u id s).regs = s.regs := by
  unfold loadReturn
  simp only [hl, hd, hb, hs, atCore, ht, Bool.false_eq_true, if_false]
  refine ⟨?_, rfl, rfl⟩
  change slotOf (putCore _ u.lcid _) u = _
  rw [slotOf, coreOf_putCore, CoreSt.slot, foldl_cacheTouch_slots]
  exact slotOf_putSlot s u _ hu

/-! ## Verdicts (R77, R82, R139) -/

section
variable {s : State} {u : StreamId} {v : Verdict} {y : SlotSt} (hv : takeVerdict (slotOf s u) = some (v, y))
include hv

theorem verdictBody_passed (hi : v.injected = false) : verdictBody u true s = putSlot s u { y with mPass := y.mPass + 1 } := by
  simp [verdictBody, hv, hi]

/-- R82: what TL_WIT_FAIL and TL_WIT_LAST show of a failed verdict. -/
def verdictShown (s : State) (u : StreamId) (v : Verdict) (y : SlotSt) : State :=
  rput (rcount (putSlot s u y) (rTL v.tile 0x2800) 1) (rTL v.tile 0x2808)
    (v.pcore % 512 + u.slot % 4 * 2 ^ 9 + v.aligned.toNat * 2 ^ 11 + 2 ^ 31)

theorem verdictBody_failed {pass : Bool} (hp : pass = false ∨ v.injected = true) : verdictBody u pass s =
    if (ranBy (verdictShown s u v y) v.tile v.pcore).contains u.lcid then
      failWitness (verdictShown s u v y) v.tile v.pcore (coreOf s u.lcid).st.ctx
    else replayLimit (discardSlot (verdictShown s u v y) u ((slotOf s u).closed.all fun c => c.st.verdicts.isEmpty) true) u.lcid := by
  have hfail : (pass && !v.injected) = false := by rcases hp with h | h <;> simp [h]
  simp only [verdictBody, hv, hfail]
  rfl

end

theorem verdictBody_none {s : State} {u : StreamId} (hv : takeVerdict (slotOf s u) = none) (pass : Bool) : verdictBody u pass s = s := by
  simp only [verdictBody, hv]

theorem execWitnessVerdict_eq {s : State} (hr : s.boot.resetPending = none) (l i : Nat) (pass : Bool) :
    execWitnessVerdict l i pass s = .next (publish s (verdictBody ⟨l, i⟩ pass s)) :=
  shown_eq (if_neg (by simp [hr]))

end Sys2Proof.Machine

namespace Sys2Proof.Proofs

open Sys2Proof.Machine

/-- Settles O32: each command's effect, branch by branch; retirement by `slotOf_retireStitch`. -/
theorem slotProgress : Obligations.SlotProgress := by
  unfold Obligations.SlotProgress
  intro u s x n
  refine ⟨fun hr v y hv => ⟨fun hi => ?_, ?_⟩, fun hv pass => ?_,
    fun cl hcl hvalid hr => ⟨fun hc => ?_, fun hc => ?_⟩, fun hc ha => ?_, fun hw => ⟨fun id l hl => ?_, fun k read hwait hready => ?_,
    fun n d target hwait hmet => ?_, fun n d target hwait => ?_⟩, fun hw id => ⟨?_, ?_, ?_⟩, fun l d id hl hd hb hu hs ht => ?_, fun hc hb => ?_⟩
  · exact (execWitnessVerdict_eq hr ..).trans (by rw [verdictBody_passed hv hi])
  · intro pass hp w
    have h : execWitnessVerdict u.lcid u.slot pass s = _ := (execWitnessVerdict_eq hr ..).trans (by rw [verdictBody_failed hv hp])
    exact ⟨fun hran => h.trans (by rw [if_pos]; exacts [rfl, List.contains_iff_mem.mpr hran]),
      fun hran => h.trans (by rw [if_neg]; exacts [rfl, fun hc => hran (List.contains_iff_mem.mp hc)])⟩
  · change execWitnessVerdict u.lcid u.slot pass s = _
    refine shown_eq (f := fun s => if s.boot.resetPending.isSome then s else verdictBody ⟨u.lcid, u.slot⟩ pass s) ?_
    rw [verdictBody_none hv, ite_self]
  · replace hcl : (slotOf s u).closed = some cl := hcl
    change execStitchRetire u s = _
    simp only [execStitchRetire, shown, hcl, hc, Bool.and_false]
    rfl
  · have hu : u.slot < 3 := by simp only [validStream, Bool.and_eq_true, decide_eq_true_eq] at hvalid; exact hvalid.2
    have hslot : slotOf (reportForward (retireStitch s u cl) n) u = retiredSlot x cl := by
      rw [slotOf_congr (reportForward_cores ..), slotOf_retireStitch s hu]
    refine ⟨reportForward (retireStitch s u cl) n, ?_, ?_⟩
    · replace hcl : (slotOf s u).closed = some cl := hcl
      change execStitchRetire u s = _
      simp only [execStitchRetire, shown, hcl, hvalid, hr, hc]
      rfl
    · rw [hslot]
      exact ⟨rfl, rfl, rfl, rfl, rfl⟩
  · exact (shown_eq (if_pos (by simp only [hc, Bool.true_and]; exact ha)) : execStitchTooLong u s = _)
  · replace hl : (slotOf s u).loads.find? (fun l => l.id == id) = some l := hl
    change execLoadWaitLimit u id s = _
    simp only [execLoadWaitLimit, shown, hl, hw, if_true]
  · replace hwait : (slotOf s u).wait = some (.ring k read) := hwait
    change execRacqWaitLimit u s = _
    simp only [execRacqWaitLimit, shown, hwait, hw, hready]
    rfl
  · replace hwait : (slotOf s u).wait = some (.so n false d target) := hwait
    change execSoWaitLimit u s = _
    simp only [execSoWaitLimit, shown, hwait, hw, hmet, dropWaits]
    rfl
  · replace hwait : (slotOf s u).wait = some (.so n true d target) := hwait
    refine ⟨dropWaits s u, ?_, ?_⟩
    · change execSoWaitLimit u s = _
      simp only [execSoWaitLimit, shown, hwait, hw]
      rfl
    · simp only [dropWaits, hwait]
      exact ⟨fun r hr => by simpa using (List.mem_filter.mp hr).2, trivial⟩
  · change execLoadWaitLimit u id s = _
    simp only [execLoadWaitLimit, shown, hw]
    split <;> rfl
  · change execRacqWaitLimit u s = _
    simp only [execRacqWaitLimit, shown, hw]
    split <;> rfl
  · change execSoWaitLimit u s = _
    simp only [execSoWaitLimit, shown, hw]
    rfl
  · obtain ⟨hslot, hmem, hregs⟩ := loadReturn_spec hu hl hd hb hs ht
    have hloss : withLoss u (loadReturn u id) s = loadReturn u id s := withLoss_eq rfl (by rw [hslot]) (by rw [hslot])
    refine ⟨loadReturn u id s, (shown_eq hloss : execLoadReturn u id s = _), ?_, ?_, ?_, hmem, hregs⟩
    · rw [archOf, hslot]
    · rw [hslot]
    · rw [hslot]
  · exact (shown_eq (if_pos (by simp only [hc, Bool.true_and]; rw [hb]; rfl)) : execCoreHang u s = _)

end Sys2Proof.Proofs
end

section
/-! PROOFS. Failures of parts: O35. -/

namespace Sys2Proof.Machine

/-! ## What health and the defect journal write (R365, R366, R444) -/

/-- R365, R366: `t` is `s` after failures have been noted: the defect journal and the module's health registers, all below 0x9000,
apart, nothing has changed. -/
def noted (s t : State) : Prop :=
  ∃ r o d, t = { s with regs := r, otp := o, djOver := d } ∧ ∀ k, 0x9000 ≤ k → rget t k = rget s k

namespace noted

theorem refl (s : State) : noted s s := ⟨_, _, _, rfl, fun _ _ => rfl⟩

theorem trans {s t u : State} (h1 : noted s t) (h2 : noted t u) : noted s u := by
  obtain ⟨_, _, _, rfl, hr⟩ := h1
  obtain ⟨_, _, _, rfl, hr'⟩ := h2
  exact ⟨_, _, _, rfl, fun k hk => (hr' k hk).trans (hr k hk)⟩

variable {s t : State} (h : noted s t)
include h

theorem mem : t.mem = s.mem := by obtain ⟨_, _, _, rfl, -⟩ := h; rfl
theorem cores : t.cores = s.cores := by obtain ⟨_, _, _, rfl, -⟩ := h; rfl
theorem tiles : t.tiles = s.tiles := by obtain ⟨_, _, _, rfl, -⟩ := h; rfl
theorem cists : t.cists = s.cists := by obtain ⟨_, _, _, rfl, -⟩ := h; rfl
theorem boot : t.boot = s.boot := by obtain ⟨_, _, _, rfl, -⟩ := h; rfl

theorem rfld_eq {k : Nat} (hk : 0x9000 ≤ k) (lo w : Nat) : rfld t k lo w = rfld s k lo w := by
  obtain ⟨_, _, _, -, hr⟩ := h
  rw [rfld, hr k hk, rfld]

end noted

theorem noted_rput (s : State) {o : Nat} (h : o < 0x9000) (v : Nat) : noted s (rput s o v) :=
  ⟨_, _, _, rfl, fun k hk => rget_rput_ne (by omega) s v⟩

theorem noted_rsetf (s : State) {o : Nat} (h : o < 0x9000) (lo w v : Nat) : noted s (rsetf s o lo w v) := noted_rput s h _

theorem noted_raiseReason (s : State) (n : Nat) : noted s (raiseReason s n) :=
  (noted_rsetf s (by decide) ..).trans (noted_rsetf _ (by decide) ..)

theorem noted_defectAppend (s : State) (kind fields : Nat) : noted s (defectAppend s kind fields) := by
  have hprog (i w v : Nat) : noted s (rsetf (otpProgram s i w) 0x8010 0 11 v) :=
    noted.trans ⟨_, _, _, rfl, fun _ _ => rfl⟩ (noted_rsetf _ (by decide) ..)
  unfold defectAppend
  simp only
  split
  · exact .refl s
  · split
    · split
      · exact (hprog ..).trans (noted_raiseReason ..)
      · exact hprog ..
    · split
      · exact ⟨_, _, _, rfl, fun _ _ => rfl⟩
      · exact .refl s

theorem noted_countChans (s : State) : noted s (countChans s) := by
  have h : noted s (rsetf (if (badChans s).length == 0 then s else rsetf s 0x8014 0 1 1) 0x8008 0 9 (badChans s).length) := by
    split
    · exact noted_rsetf s (by decide) ..
    · exact (noted_rsetf s (by decide) ..).trans (noted_rsetf _ (by decide) ..)
  unfold countChans
  simp only
  split
  · exact h.trans (noted_raiseReason ..)
  · exact h

theorem noted_countHealth (s : State) : noted s (countHealth s) := noted_rput s (by decide) _

/-! ## Fenced and quarantined cores (R80 to R84) -/

/-- R80: a core's register and its tile's summary as the core is fenced or quarantined. -/
def pcoreOut (s : State) (t p state cause : Nat) : State :=
  coreSummary (rsetf (rsetf (rsetf (rsetf s (rPcore t p) 9 2 state) (rPcore t p) 0 9 0x1FF) (rPcore t p) 11 1 0) (rPcore t p) 16 8 cause) t

theorem pcoreOut_mem (s : State) (t p b cause : Nat) : (pcoreOut s t p b cause).mem = s.mem := by
  simp only [pcoreOut, coreSummary, rput_mem, rsetf_mem]

theorem pcoreOut_cores (s : State) (t p b cause : Nat) : (pcoreOut s t p b cause).cores = s.cores := by
  simp only [pcoreOut, coreSummary, rput_cores, rsetf_cores]

theorem noted_setPcore (s : State) (t p b cause : Nat) : noted (pcoreOut (dropInjection s t p) t p b cause) (setPcore s t p b cause) := by
  unfold setPcore
  simp only
  split
  · exact noted_defectAppend ..
  · exact .refl _

theorem dropInjection_frame (s : State) (t p : Nat) : (dropInjection s t p).mem = s.mem ∧ (dropInjection s t p).cores = s.cores := by
  unfold dropInjection
  split <;> exact ⟨rfl, rfl⟩

theorem failCore_fenced {s : State} {t p : Nat} (h : pcoreState s t p = 2) (cause : Nat) : failCore s t p cause = s :=
  if_pos (by simp [h])

section
variable {t p : Nat} (ht : t < 64) (hp : p < 264)
include ht hp

/-- R80: a fenced or quarantined core's register, and what stays. -/
theorem setPcore_spec (s : State) {b cause : Nat} (hb : b < 4) (hc : cause < 256) :
    pcoreState (setPcore s t p b cause) t p = b ∧ rfld (setPcore s t p b cause) (rPcore t p) 16 8 = cause ∧
      rfld (setPcore s t p b cause) (rPcore t p) 0 9 = 0x1FF ∧ (setPcore s t p b cause).mem = s.mem ∧
      (setPcore s t p b cause).cores = s.cores := by
  have hsum : rPcore t p ≠ rTL t 0x2000 := by unfold rPcore rTL; omega
  have hbig : 0x9000 ≤ rPcore t p := by unfold rPcore rTL; omega
  have hset := noted_setPcore s t p b cause
  have hdrop := dropInjection_frame s t p
  have hfld (lo w : Nat) : rfld (setPcore s t p b cause) (rPcore t p) lo w =
      rfld (rsetf (rsetf (rsetf (rsetf (dropInjection s t p) (rPcore t p) 9 2 b) (rPcore t p) 0 9 0x1FF)
        (rPcore t p) 11 1 0) (rPcore t p) 16 8 cause) (rPcore t p) lo w := by
    rw [hset.rfld_eq hbig, pcoreOut, coreSummary, rfld, rget_rput_ne hsum, rfld]
  refine ⟨?_, ?_, ?_, by rw [hset.mem, pcoreOut_mem, hdrop.1], by rw [hset.cores, pcoreOut_cores, hdrop.2]⟩
  · rw [pcoreState, hfld, rfld_rsetf_apart _ _ (by decide) (by decide), rfld_rsetf_apart _ _ (by decide) (by decide),
      rfld_rsetf_apart _ _ (by decide) (by decide), rfld_rsetf_same _ _ (by decide)]
    omega
  · rw [hfld, rfld_rsetf_same _ _ (by decide)]
    omega
  · rw [hfld, rfld_rsetf_apart _ _ (by decide) (by decide), rfld_rsetf_apart _ _ (by decide) (by decide),
      rfld_rsetf_same _ _ (by decide)]
    rfl

/-- R80: a core that is not fenced yet is lost. -/
theorem failCore_eq {s : State} (h : pcoreState s t p ≠ 2) (cause : Nat) : failCore s t p cause = loseCore s t p 2 cause :=
  if_neg (by simp [h]; omega)

/-- R83: a free spare core is fenced. -/
theorem failCore_spare {s : State} (h : pcoreState s t p = 1) (cause : Nat) : failCore s t p cause = setPcore s t p 2 cause := by
  rw [failCore_eq ht hp (by omega)]
  simp [loseCore, h]

/-- R82, R366: a core leaves quarantine for a fence. -/
theorem failCore_quarantined {s : State} (h : pcoreState s t p = 3) (cause : Nat) : failCore s t p cause =
    if (freeSpare (setPcore s t p 2 cause) t).isNone then raiseReason (setPcore s t p 2 cause) 1 else setPcore s t p 2 cause := by
  rw [failCore_eq ht hp (by omega)]
  simp [loseCore, h]

/-- R81: the logical core of a lost active core, its guests' stitches discarded, moves, or the tile fails. -/
theorem failCore_active {s : State} (h : pcoreState s t p = 0) {l : Nat} (hl : servedBy s t p = some l) (cause : Nat) :
    failCore s t p cause =
      (rehome ((guestsOf s l).foldl (fun s g => replayLimit (discardCore s g true) g) (setPcore s t p 2 cause)) t l true).getD
        (failTile ((guestsOf s l).foldl (fun s g => replayLimit (discardCore s g true) g) (setPcore s t p 2 cause)) t) := by
  rw [failCore_eq ht hp (by omega)]
  have hran : (ranBy s t p).tail = guestsOf s l := by rw [ranBy, hl]; rfl
  simp only [loseCore, h, hl, hran, Bool.false_eq_true, if_false, bne_self_eq_false, beq_self_eq_true]
  cases rehome ((guestsOf s l).foldl (fun s g => replayLimit (discardCore s g true) g) (setPcore s t p 2 cause)) t l true <;> rfl

/-- R141: an injection armed for the core alone. -/
theorem armInjection_spec {s : State} {v : W32} (hz : rfld s (rTL t 0x280C) 17 1 = 0) (hv : v.toNat % 512 = p) :
    rfld (armInjection t v s) (rTL t 0x280C) 0 9 = p ∧ armInjection t v s = { s with regs := (armInjection t v s).regs } ∧
      (rfld (armInjection t v s) (rTL t 0x280C) 17 1 = 1 ↔ v.getLsbD 16 = true ∧ pcoreBound s t p = true) := by
  have hstate (q : Nat) (hq : q < 264) : pcoreState (rsetf s (rTL t 0x280C) 0 9 p) t q = pcoreState s t q :=
    rfld_rsetf_ne (by unfold rPcore rTL; omega) ..
  have hserved : servedBy (rsetf s (rTL t 0x280C) 0 9 p) t p = servedBy s t p := by
    unfold servedBy
    rw [hstate p hp]
    rfl
  have hbound : pcoreBound (rsetf s (rTL t 0x280C) 0 9 p) t p = pcoreBound s t p := by
    unfold pcoreBound
    rw [hserved]
    rfl
  have hgo : ¬(decide (63 < t) || decide (263 < v.toNat % 512) || rfld s (rTL t 0x280C) 17 1 == 1) = true := by
    simp [hz, hv]; omega
  have heq : armInjection t v s = if (v.getLsbD 16 && pcoreBound s t p) = true then
      rsetf (rsetf s (rTL t 0x280C) 0 9 p) (rTL t 0x280C) 17 1 1 else rsetf s (rTL t 0x280C) 0 9 p := by
    refine (if_neg hgo).trans ?_
    rw [hv, hbound]
  rw [heq]
  split_ifs with harm
  · refine ⟨?_, rfl, ?_⟩
    · rw [rfld_rsetf_apart _ _ (by decide) (by decide), rfld_rsetf_same _ _ (by decide)]
      omega
    · rw [rfld_rsetf_same _ _ (by decide)]
      simpa using harm
  · refine ⟨?_, rfl, ?_⟩
    · rw [rfld_rsetf_same _ _ (by decide)]
      omega
    · rw [rfld_rsetf_apart _ _ (by decide) (by decide), hz]
      simpa using harm

end

/-- R82: a core that passes its quarantine is a spare, on probation for the context whose verdict failed. -/
theorem quarantinePassed_spec {t p : Nat} (hp : p < 264) (s : State) (again : Bool) :
    let u := coreSummary (rsetf (rsetf s (rPcore t p) 9 2 1) (rPcore t p) 12 1 again.toNat) t
    pcoreState u t p = 1 ∧ rfld u (rPcore t p) 12 1 = again.toNat ∧ u = { s with regs := u.regs } := by
  intro u
  have hsum : rPcore t p ≠ rTL t 0x2000 := by unfold rPcore rTL; omega
  have hfld (lo w : Nat) : rfld u (rPcore t p) lo w =
      rfld (rsetf (rsetf s (rPcore t p) 9 2 1) (rPcore t p) 12 1 again.toNat) (rPcore t p) lo w := by
    simp only [u, coreSummary, rfld, rget_rput_ne hsum]
  refine ⟨?_, ?_, rfl⟩
  · rw [pcoreState, hfld, rfld_rsetf_apart _ _ (by decide) (by decide), rfld_rsetf_same _ _ (by decide)]
    rfl
  · rw [hfld, rfld_rsetf_same _ _ (by decide)]
    cases again <;> rfl

/-! ## Channels and cisterns (R227, R368) -/

theorem rChan_ge (c : Nat) : 0x9000 ≤ rChan c := by unfold rChan rCS; omega

theorem rChan_inj {c d : Nat} (h : rChan c = rChan d) : c = d := by unfold rChan rCS at h; omega

/-- R227: the state of a channel as it has failed, before it is counted. -/
def chanOut (s : State) (c cause : Nat) : State := rsetf (rsetf s (rChan c) 0 2 1) (rChan c) 4 4 cause

section
variable {s : State} {c : Nat} (hc : c < 384) (h0 : chanState s c = 0) (cause : Nat)
include hc h0

theorem noted_failChan : noted (chanOut s c cause) (failChan s c cause) := by
  have heq : failChan s c cause = countChans (defectAppend (chanOut s c cause) 5 (c / 4 * 2 ^ 20 + c % 4 * 2 ^ 18 + cause * 2 ^ 14)) :=
    if_neg (by simp [h0]; omega)
  rw [heq]
  exact (noted_defectAppend ..).trans (noted_countChans _)

theorem chanState_failChan_same : chanState (failChan s c cause) c = 1 := by
  rw [chanState, (noted_failChan hc h0 cause).rfld_eq (rChan_ge c), chanOut, rfld_rsetf_apart _ _ (by decide) (by decide),
    rfld_rsetf_same _ _ (by decide)]
  rfl

theorem chanCause_failChan : rfld (failChan s c cause) (rChan c) 4 4 = cause % 16 := by
  rw [(noted_failChan hc h0 cause).rfld_eq (rChan_ge c), chanOut, rfld_rsetf_same _ _ (by decide)]
  rfl

theorem chanState_failChan_ne {d : Nat} (hd : d ≠ c) : chanState (failChan s c cause) d = chanState s d := by
  have hne : rChan d ≠ rChan c := fun h => hd (rChan_inj h)
  rw [chanState, (noted_failChan hc h0 cause).rfld_eq (rChan_ge d), chanOut, rfld_rsetf_ne hne, rfld_rsetf_ne hne, chanState]

end

/-- R227: what the failure of a channel keeps, whether the channel was active or not. -/
theorem failChan_keeps (s : State) (c cause : Nat) : (failChan s c cause).mem = s.mem ∧ (failChan s c cause).cores = s.cores ∧
    (failChan s c cause).cists = s.cists ∧ (∀ d, chanState s d ≠ 0 → chanState (failChan s c cause) d ≠ 0) := by
  by_cases h : c < 384 ∧ chanState s c = 0
  · obtain ⟨hc, h0⟩ := h
    have hn := noted_failChan hc h0 cause
    refine ⟨hn.mem, hn.cores, hn.cists, fun d hd => ?_⟩
    rw [chanState_failChan_ne hc h0 cause fun q => hd (by rw [q]; exact h0)]
    exact hd
  · have heq : failChan s c cause = s := if_pos (by simp only [Bool.or_eq_true, decide_eq_true_eq, bne_iff_ne, ne_eq]; omega)
    rw [heq]
    exact ⟨rfl, rfl, rfl, fun _ hd => hd⟩

/-- R368: the channels of a list fail. -/
theorem failChans_spec (cs : List Nat) (cause : Nat) (s : State) (hcs : ∀ c ∈ cs, c < 384) :
    let t := cs.foldl (fun s c => failChan s c cause) s
    t.mem = s.mem ∧ t.cores = s.cores ∧ t.cists = s.cists ∧ (∀ d, chanState s d ≠ 0 ∨ d ∈ cs → chanState t d ≠ 0) := by
  induction cs generalizing s with
  | nil => exact ⟨rfl, rfl, rfl, fun d hd => hd.resolve_right List.not_mem_nil⟩
  | cons c r ih =>
    obtain ⟨hc, hr⟩ := List.forall_mem_cons.mp hcs
    obtain ⟨hm, hco, hci, hch⟩ := failChan_keeps s c cause
    obtain ⟨hm', hco', hci', hch'⟩ := ih (failChan s c cause) hr
    refine ⟨hm'.trans hm, hco'.trans hco, hci'.trans hci, fun d hd => hch' d ?_⟩
    rcases hd with hd | hd
    · exact .inl (hch d hd)
    · rcases List.mem_cons.mp hd with rfl | hd
      · by_cases h0 : chanState s d = 0
        · exact .inl (by rw [chanState_failChan_same hc h0]; decide)
        · exact .inl (hch d h0)
      · exact .inr hd

/-- R368: a cistern fails with its sixteen channels. -/
theorem failCist_spec {s : State} {j : Nat} (hj : j < 24) (hf : (cistOf s j).fenced = false) :
    (cistOf (failCist s j) j).fenced = true ∧ (∀ c, 16 * j ≤ c → c < 16 * j + 16 → chanState (failCist s j) c ≠ 0) ∧
      (failCist s j).mem = s.mem ∧ (failCist s j).cores = s.cores := by
  have heq : failCist s j = countHealth (rsetf ((span (16 * j) 16).foldl (fun s c => failChan s c 2)
      (putCist (defectAppend s 4 (j * 2 ^ 22)) j { cistOf s j with fenced := true, jobs := [] })) 0x8014 0 1 1) :=
    if_neg (by simp [hf]; omega)
  have hd := noted_defectAppend s 4 (j * 2 ^ 22)
  obtain ⟨hm, hco, hci, hch⟩ := failChans_spec (span (16 * j) 16) 2
    (putCist (defectAppend s 4 (j * 2 ^ 22)) j { cistOf s j with fenced := true, jobs := [] })
    fun c hc => by have := mem_span.mp hc; omega
  have hn := (noted_rsetf ((span (16 * j) 16).foldl (fun s c => failChan s c 2)
    (putCist (defectAppend s 4 (j * 2 ^ 22)) j { cistOf s j with fenced := true, jobs := [] })) (o := 0x8014) (by decide) 0 1 1).trans
      (noted_countHealth _)
  rw [← heq] at hn
  refine ⟨?_, fun c h1 h2 => ?_, by rw [hn.mem, hm, putCist_mem, hd.mem],
    by rw [hn.cores, hco, putCist_cores, hd.cores]⟩
  · rw [cistOf, hn.cists, hci]
    exact congrArg CistSt.fenced (cistOf_putCist ..)
  · rw [chanState, hn.rfld_eq (rChan_ge c)]
    exact hch c (.inr (mem_span.mpr ⟨h1, h2⟩))

/-- R369: a carrier link other than a stack's goes down. -/
theorem failLink_spec {s : State} {link : CarrierLink} (hl : ∀ n c, link ≠ .stack n c) (hup : link ∉ s.boot.linksDown) :
    (failLink s link).boot.linksDown = s.boot.linksDown ++ [link] ∧ rfld (failLink s link) 0x8008 24 1 = 1 ∧
      (failLink s link).mem = s.mem ∧ (failLink s link).cores = s.cores := by
  have heq : failLink s link = rsetf (defectAppend { s with boot := { s.boot with linksDown := s.boot.linksDown ++ [link] } } 6
      (linkFields link)) 0x8008 24 1 1 := by
    cases link with
    | stack n c => exact absurd rfl (hl n c)
    | _ => exact if_neg (by simpa using hup)
  have hd := noted_defectAppend { s with boot := { s.boot with linksDown := s.boot.linksDown ++ [link] } } 6 (linkFields link)
  rw [heq]
  exact ⟨by rw [rsetf_boot, hd.boot], (rfld_rsetf_same _ _ (by decide) 1).trans (by decide), by rw [rsetf_mem, hd.mem],
    by rw [rsetf_cores, hd.cores]⟩

/-! ## Host cores that switch (R357) -/

theorem switchHost_alone {s : State} {h : Nat} (hg : guestsOf s h = []) : switchHost h s = s := by
  simp only [switchHost, hg, List.findIdx?_cons, List.findIdx?_nil]
  cases (coreOf s h).out <;> simp

theorem findIdx?_running_pair (s : State) (h g : Nat) : ([h, g].findIdx? fun l => !(coreOf s l).out) =
    if (coreOf s h).out = false then some 0 else if (coreOf s g).out = false then some 1 else none := by
  cases hh : (coreOf s h).out <;> cases hg : (coreOf s g).out <;> simp [List.findIdx?_cons, hh, hg]

/-- R357: a host with one guest hands its core from the one that runs to the other. -/
theorem switchHost_pair {s : State} {h g a b : Nat} (hg : guestsOf s h = [g]) (hne : g ≠ h) (hab : a = h ∧ b = g ∨ a = g ∧ b = h)
    (ha : (coreOf s a).out = false) (hb : (coreOf s b).out = true) : switchHost h s =
      if maySwitch (coreOf s a) then putCore (putCore s a { coreOf s a with out := true }) b { coreOf s b with out := false, ran := 0 }
      else s := by
  have hba : b ≠ a := by rcases hab with ⟨rfl, rfl⟩ | ⟨rfl, rfl⟩ <;> omega
  have hcore : coreOf (putCore s a { coreOf s a with out := true }) b = coreOf s b := coreOf_putCore_ne hba ..
  have hnow : ∃ i, ([h, g].findIdx? fun l => !(coreOf s l).out) = some i ∧ [h, g][i]?.getD h = a ∧ [h, g][(i + 1) % 2]?.getD h = b := by
    rw [findIdx?_running_pair]
    rcases hab with ⟨rfl, rfl⟩ | ⟨rfl, rfl⟩
    · exact ⟨0, by simp [ha], rfl, rfl⟩
    · exact ⟨1, by simp [ha, hb], rfl, rfl⟩
  obtain ⟨i, hi, hia, hib⟩ := hnow
  have hlen : [h, g].length = 2 := rfl
  simp only [switchHost, hg, hi, hlen, hia, hib, hcore]
  cases maySwitch (coreOf s a) <;> simp [Ne.symm hba]

/-! ## Stalled bursts (R363, R364) -/

/-- R363: the younger list of stalls begins with those that still last. -/
theorem stall_eq (s : State) (unit : Nat) (j : PumpJob) : stall s unit j =
    putJob { s with boot := { s.boot with stalls := stalledJobs s ++ [(unit, j.id)] } } unit { j with stalled := true } := by
  have hold : (s.boot.stalls.filter fun e => (stalledJobs s).contains e) = stalledJobs s := by
    refine List.filter_congr fun e he => ?_
    rw [Bool.eq_iff_iff, List.contains_iff_mem, stalledJobs, List.mem_filter]
    exact and_iff_right he
  unfold stall
  rw [hold]

theorem execStalledBurst_eq {s : State} {unit job : Nat} {d : PumpJob} (hd : jobOf s unit job = some d) :
    execStalledBurst unit job s = .next (publish s (if d.phase == .running && !d.stalled then stall s unit d else s)) := by
  simp only [execStalledBurst, shown, hd]

theorem execStallResume_eq {s : State} {unit job : Nat} {d : PumpJob} (hd : jobOf s unit job = some d) :
    execStallResume unit job s = .next (publish s (putJob (if unit < 64 then rouse s unit else s) unit { d with stalled := false })) := by
  simp only [execStallResume, shown, hd]

/-- R364: a stall that has lasted its interval is counted and shown. -/
theorem stallEvent_spec {s : State} (hi : rfld s 0x8020 0 16 ≠ 0) (hc : stallCount s ≠ 0) :
    (stallEvent s).boot.stalledEvents = (s.boot.stalledEvents + 1) % 2 ^ 64 ∧ rfld (stallEvent s) 0x8024 23 1 = 1 ∧
      (stallEvent s).mem = s.mem ∧ (stallEvent s).cores = s.cores := by
  have hgo : ¬(rfld s 0x8020 0 16 == 0 || stallCount s == 0) = true := by simp [hi, hc]
  have hbit : rfld (rsetf { s with boot := { s.boot with stalledEvents := (s.boot.stalledEvents + 1) % 2 ^ 64 } } 0x8024 23 1 1)
      0x8024 23 1 = 1 := (rfld_rsetf_same _ _ (by decide) 1).trans (by decide)
  unfold stallEvent
  rw [if_neg hgo]
  simp only
  split
  · exact ⟨by rw [emit_boot, rsetf_boot], (rfld_congr (emit_regs ..) ..).trans hbit, by rw [emit_mem, rsetf_mem],
      by rw [emit_cores, rsetf_cores]⟩
  · exact ⟨by rw [rsetf_boot], hbit, by rw [rsetf_mem], by rw [rsetf_cores]⟩

/-! ## Wells that serve no core (R351) -/

theorem failWell_unused {s : State} {t w : Nat} (ht : t < 64) (hw : w < 264) (hf : (tileOf s t).failedWells.contains w = false)
    (hn : ∀ l, t * 256 ≤ l → l < t * 256 + 256 → pwellOf s l ≠ w) : (tileOf (failWell s t w) t).failedWells.contains w = true ∧
      (failWell s t w).mem = s.mem ∧ (failWell s t w).cores = s.cores := by
  have hfind : ((span (t * 256) 256).find? fun l => pwellOf s l == w) = none :=
    List.find?_eq_none.mpr fun l hl => by
      obtain ⟨h1, h2⟩ := mem_span.mp hl
      simpa using hn l h1 h2
  have heq : failWell s t w = defectAppend (putTile s t { tileOf s t with failedWells := nins w (tileOf s t).failedWells }) 1
      (t * 2 ^ 21 + w * 2 ^ 12) := by
    refine (if_neg (by simp only [hf, Bool.or_false, Bool.or_eq_true, decide_eq_true_eq]; omega)).trans ?_
    simp only [hfind]
  have hd := noted_defectAppend (putTile s t { tileOf s t with failedWells := nins w (tileOf s t).failedWells }) 1
    (t * 2 ^ 21 + w * 2 ^ 12)
  rw [heq]
  refine ⟨?_, by rw [hd.mem, putTile_mem], by rw [hd.cores, putTile_cores]⟩
  have htile : tileOf (defectAppend (putTile s t { tileOf s t with failedWells := nins w (tileOf s t).failedWells }) 1
      (t * 2 ^ 21 + w * 2 ^ 12)) t = { tileOf s t with failedWells := nins w (tileOf s t).failedWells } := by
    rw [tileOf, hd.tiles]
    exact tileOf_putTile ..
  rw [htile, List.contains_iff_mem]
  exact mem_nins.mpr (.inl rfl)

end Sys2Proof.Machine

namespace Sys2Proof.Proofs

open Sys2Proof.Machine

/-- Settles O35: the failure of each kind of unit by the lemma that says what it leaves. -/
theorem failuresOfUnits : Obligations.FailuresOfUnits := by
  unfold Obligations.FailuresOfUnits
  constructor
  · intro s t p cause r w v
    have hcause (h1 : 1 ≤ cause) (h5 : cause ≤ 5) {u : State} (h : failCore s t p cause = u) :
        exec (.coreFailure t p cause) s = .next (publish s u) :=
      (shown_eq ((if_pos (by simp [h1, h5])).trans h) : execCoreFailure t p cause s = _)
    have hquar (pass : Bool) (ht : t < 64) (hp : p < 264) (hs : pcoreState s t p = 3) {u : State}
        (h : (if pass then coreSummary (rsetf (rsetf s (rPcore t p) 9 2 1) (rPcore t p) 12 1
          ((fget? p (tileOf s t).probation).isSome).toNat) t else failCore s t p 4) = u) :
        exec (.quarantineResult t p pass) s = .next (publish s u) :=
      (shown_eq ((if_neg (by simp [hs]; omega)).trans h) : execQuarantineResult t p pass s = _)
    refine ⟨fun ht hp h1 h5 hs => ⟨hcause h1 h5 (failCore_spare ht hp hs cause), fun hv => ?_⟩,
      fun ht hp hc b hb => setPcore_spec ht hp s (by simp at hb; omega) hc, ?_,
      fun ht hp hs => ?_, fun hv => ?_, fun ht hp hs => ⟨⟨_, hquar true ht hp hs rfl, quarantinePassed_spec hp s _⟩,
        hquar false ht hp hs (failCore_quarantined ht hp hs 4)⟩, fun ht hp hz hv => ?_, fun ht hf => ?_, fun hf => ?_,
      fun ht hw hf hn => ⟨_, rfl, failWell_unused ht hw hf hn⟩, fun hr h0 => rfl, fun hr h1 => ?_, fun hr h3 => ?_⟩
    · exact (shown_eq ((if_pos hv).trans (failCore_spare ht hp hs 5)) : execTlPcoreFence t p v s = _)
    · intro ht hp h1 h5 hs l hl lost
      have heq := failCore_active ht hp hs hl cause
      exact ⟨fun u hu => hcause h1 h5 (heq.trans (by rw [show rehome _ t l true = some u from hu]; rfl)),
        fun hu => hcause h1 h5 (heq.trans (by rw [show rehome _ t l true = none from hu]; rfl))⟩
    · exact (shown_eq (by rw [failCore_fenced hs, ite_self]) : execCoreFailure t p cause s = _)
    · exact (shown_eq (if_neg (by rw [hv]; decide)) : execTlPcoreFence t p v s = _)
    · obtain ⟨hfld, hregs, harm⟩ := armInjection_spec ht hp hz hv
      exact ⟨_, rfl, hfld, hregs, harm⟩
    · exact (shown_eq (if_neg (by simp [hf]; omega)) : execTileFailure t s = _)
    · exact (shown_eq (if_pos (by simp [hf])) : execTileFailure t s = _)
    · exact (shown_eq (if_pos (by simp [h1])) : execPowerRegionFault r s = _)
    · exact (shown_eq (if_neg (by simp [h3]; omega)) : execRegionUndervoltage r s = _)
  · intro s j k h unit job v
    refine ⟨fun hj hf => ⟨_, rfl, failCist_spec hj hf⟩, fun hf => ?_, fun hj hk hv h0 => ?_, fun hv => ?_,
      fun link hl hup => ⟨_, rfl, failLink_spec hl hup⟩, fun n i hn hi h0 => ?_, fun hg => ?_,
      fun g a b hg hne hab ha hb => ⟨fun hm => ?_, fun hm => ?_⟩,
      fun d hd hrun => ⟨fun hst => ?_, fun hst => ?_, execStallResume_eq hd⟩, fun hi hc => ⟨_, rfl, stallEvent_spec hi hc⟩,
      fun hno => ?_, fun hj => ⟨?_, ?_⟩⟩
    · exact (shown_eq (if_pos (by simp [hf])) : execCisternFailure j s = _)
    · have hc : 16 * j + k < 384 := by omega
      have hn := noted_failChan hc h0 5
      exact ⟨_, (shown_eq (if_pos (by simp [hj, hk, hv])) : execCsChanRetire j k v s = _), chanState_failChan_same hc h0 5,
        chanCause_failChan hc h0 5, hn.mem, hn.cores⟩
    · exact (shown_eq (if_neg (by rw [hv, Bool.and_false]; decide)) : execCsChanRetire j k v s = _)
    · have hmod : 4 * n + i % 4 = 4 * n + i := by omega
      have hc : 4 * n + i < 384 := by omega
      have hlink : failLink s (.stack n i) = failChan s (4 * n + i) 1 := congrArg (failChan s · 1) hmod
      exact ⟨_, (shown_eq hlink : execCarrierLinkFailure (.stack n i) s = _), chanState_failChan_same hc h0 1,
        fun c _ hne => chanState_failChan_ne hc h0 1 hne, (noted_failChan hc h0 1).mem⟩
    · exact (shown_eq (switchHost_alone hg) : execHostCoreSwitch h s = _)
    · exact (shown_eq ((switchHost_pair hg hne hab ha hb).trans (if_pos hm)) : execHostCoreSwitch h s = _)
    · exact (shown_eq ((switchHost_pair hg hne hab ha hb).trans (if_neg (by simp [hm]))) : execHostCoreSwitch h s = _)
    · refine (execStalledBurst_eq hd).trans ?_
      rw [if_pos (by simp [hrun, hst]), stall_eq]
    · refine (execStalledBurst_eq hd).trans ?_
      rw [if_neg (by simp [hst])]
    · exact (shown_eq (if_pos (by simpa using hno)) : exec .stalledEvent s = _)
    · exact (shown_eq (if_neg (by omega)) : execCisternThrottle j s = _)
    · exact (shown_eq (if_neg (by omega)) : execCisternThrottleRelease j s = _)

end Sys2Proof.Proofs
end

section
/-! SUPPORT. Which operations keep the cascade's master and its term (R297): all that a discard of provisional data sets off. -/

namespace Sys2Proof.Machine

/-- R297: the highest term seen and the master. -/
def led (s : State) : Nat × Nat := (s.casc.term, s.casc.master)

/-- A run of steps that each keep term and master. -/
theorem led_foldl {α : Type} {f : State → α → State} (hf : ∀ s a, led (f s a) = led s) (l : List α) (s : State) :
    led (l.foldl f s) = led s := by
  induction l generalizing s with
  | nil => rfl
  | cons a r ih => rw [List.foldl_cons, ih, hf]

theorem framed.led {s t : State} (h : framed s t) : led t = led s := by
  obtain ⟨_, _, _, _, rfl⟩ := h; rfl

theorem wellWritten.led {s t : State} (h : wellWritten s t) : led t = led s := by
  obtain ⟨_, _, _, rfl, -⟩ := h; rfl

/-! ## The state's own operations -/

@[simp] theorem led_rput (s : State) (o v : Nat) : led (rput s o v) = led s := rfl
@[simp] theorem led_rsetf (s : State) (o lo w v : Nat) : led (rsetf s o lo w v) = led s := rfl
@[simp] theorem led_emit (s : State) (m : Msg) : led (emit s m) = led s := rfl
@[simp] theorem led_emits (s : State) (ms : List Msg) : led (emits s ms) = led s := rfl
@[simp] theorem led_putTile (s : State) (t : Nat) (x : TileSt) : led (putTile s t x) = led s := rfl
@[simp] theorem led_putCist (s : State) (j : Nat) (x : CistSt) : led (putCist s j x) = led s := rfl
@[simp] theorem led_putCore (s : State) (l : Nat) (c : CoreSt) : led (putCore s l c) = led s := rfl
@[simp] theorem led_putSlot (s : State) (u : StreamId) (x : SlotSt) : led (putSlot s u x) = led s := rfl
@[simp] theorem led_putCtx (s : State) (n : Nat) (x : CtxSt) : led (putCtx s n x) = led s := rfl
@[simp] theorem led_putHring (s : State) (r : Nat) (h : HRing) : led (putHring s r h) = led s := rfl
@[simp] theorem led_useFree (s : State) : led (useFree s) = led s := rfl
@[simp] theorem led_jput (s : State) (same : JRec → Bool) (r : JRec) : led (jput s same r) = led s := rfl
@[simp] theorem led_jso (s : State) (n : Nat) : led (jso s n) = led s := rfl
@[simp] theorem led_setCtxState (s : State) (n v : Nat) : led (setCtxState s n v) = led s := rfl
@[simp] theorem led_sendHalts (s : State) (n : Nat) : led (sendHalts s n) = led s := rfl
@[simp] theorem led_snoopLines (s : State) (as : List Nat) : led (snoopLines s as) = led s := rfl

@[simp] theorem led_rcount (s : State) (o n : Nat) : led (rcount s o n) = led s := by
  unfold rcount
  split <;> rfl

@[simp] theorem led_putJobs (s : State) (unit : Nat) (l : List PumpJob) : led (putJobs s unit l) = led s := by
  unfold putJobs
  split <;> rfl

/-! ## Memory -/

@[simp] theorem led_hostStore (s : State) (bs : List (Nat × W8)) : led (hostStore s bs) = led s := by
  unfold hostStore
  split <;> rfl

@[simp] theorem led_wellStore (s : State) (l : Nat) (bs : List (Nat × W8)) : led (wellStore s l bs) = led s :=
  (wellWritten_wellStore s l bs).led

@[simp] theorem led_gatherFlush (s : State) (l : Nat) : led (gatherFlush s l) = led s := (wellWritten_gatherFlush s l).led

@[simp] theorem led_lpStore (s : State) (bs : List (Nat × W8)) : led (lpStore s bs) = led s := by
  unfold lpStore
  split
  · rfl
  · simp only
    split
    · exact led_rcount ..
    · rfl

@[simp] theorem led_anyStore (s : State) (bs : List (Nat × W8)) : led (anyStore s bs) = led s := by
  refine led_foldl (fun s ln => ?_) _ s
  simp only
  split <;> simp

/-! ## Frames (R291, R293, R311) -/

@[simp] theorem led_sendFrame (s : State) (m : Nat) (fr : Frame) : led (sendFrame s m fr) = led s := (framed_sendFrame s m fr).led

@[simp] theorem led_toLeads (s : State) (fr : Frame) : led (toLeads s fr) = led s := (framed_toLeads s fr).led

@[simp] theorem led_sendVerdicts (s : State) (tile : Nat) (es : List FwdEntry) (confirm : Bool) :
    led (sendVerdicts s tile es confirm) = led s := by
  obtain ⟨_, h⟩ := framed_sendVerdicts s tile es confirm
  exact h.led.trans (led_putTile ..)

/-! ## Retirement of entries (R340, R387) -/

@[simp] theorem led_drainRing (s : State) (r : Nat) : led (drainRing s r) = led s := by
  unfold drainRing
  simp only
  split <;> simp

@[simp] theorem led_ringIrq (s : State) (r : Nat) (on : Bool) : led (ringIrq s r on) = led s := by
  unfold ringIrq
  split <;> rfl

@[simp] theorem led_putRecord (s : State) (r seq : Nat) (b : List W8) : led (putRecord s r seq b) = led s := led_hostStore ..

@[simp] theorem led_flushRing (n : Nat) (s : State) (r : Nat) : led (flushRing n s r) = led s := by
  induction n generalizing s with
  | zero => exact led_drainRing ..
  | succ n ih =>
    simp only [flushRing]
    split
    · simp
    · split
      · rfl
      · simp [ih]

@[simp] theorem led_retire (s : State) (e : Entry) (i : RecInfo) : led (retire s e i) = led s := by
  have hso : led (if e.ctx < 64 then jso s e.ctx else s) = led s := by split <;> rfl
  simp only [retire, led_flushRing, led_putHring]
  exact hso

/-! ## Contexts that fault (R79, R252, R321) -/

@[simp] theorem led_writeDone (s : State) (j : PumpJob) (status : Nat) : led (writeDone s j status) = led s := by
  unfold writeDone
  split <;> simp

@[simp] theorem led_cancelJobs (s : State) (n : Nat) (which : PumpJob → Bool) : led (cancelJobs s n which) = led s := by
  refine led_foldl (fun s u => ?_) _ s
  have hstep (s : State) (j : PumpJob) : led (if j.phase == .unretired then s else writeDone s j 0x5151) = led s := by
    split <;> simp
  simp only [led_foldl hstep, led_putJobs]

@[simp] theorem led_withdrawSteps (s : State) (n : Nat) : led (withdrawSteps s n) = led s := by
  simp only [withdrawSteps, led_foldl (fun _ _ => led_retire ..), led_putCtx]

@[simp] theorem led_finishBatch (s : State) (n status : Nat) : led (finishBatch s n status) = led s := by
  unfold finishBatch
  simp only
  rw [led_foldl]
  · rfl
  · intro s b
    split <;> simp

@[simp] theorem led_writeScales (s : State) (n : Nat) (p : Pattern) (r : StepRun) : led (writeScales s n p r) = led s := by
  unfold writeScales
  split
  · rfl
  · refine led_foldl (fun s e => ?_) _ s
    simp only
    split <;> simp

@[simp] theorem led_leaveTables (s : State) (n : Nat) (r : StepRun) (status : Nat) : led (leaveTables s n r status) = led s := by
  unfold leaveTables
  split
  · split
    · rfl
    · simp [writeTables]
  · rfl

@[simp] theorem led_sendImage (s : State) (n : Nat) (m : MirrorImage) : led (sendImage s n m) = led s := by
  unfold sendImage
  split
  · exact (led_foldl (fun _ _ => led_sendFrame ..) ..).trans (led_useFree s)
  · rfl

@[simp] theorem led_imageGo (s : State) (n : Nat) : led (imageGo s n) = led s := by
  simp only [imageGo]
  split
  · split
    · rfl
    · simp
  · rfl

@[simp] theorem led_freeKept (s : State) (n : Nat) : led (freeKept s n) = led s := by
  simp only [freeKept]
  split
  · rfl
  · split
    · rfl
    · exact led_foldl (fun _ _ => led_putCore ..) ..

@[simp] theorem led_finishStep (s : State) (n status : Nat) : led (finishStep s n status) = led s := by
  simp only [finishStep]
  split
  · rfl
  · split
    · rfl
    · split
      · rfl
      · simp [writeRetries]

@[simp] theorem led_contextFault (s : State) (n status : Nat) : led (contextFault s n status) = led s := by
  have hend : led (endCommand (sendHalts s n) n status) = led s := by
    unfold endCommand
    split
    · simp
    · split <;> simp
  unfold contextFault
  simp only
  split <;> simp [hend]

/-! ## Discards (R73 to R75) -/

@[simp] theorem led_dropWaits (s : State) (u : StreamId) : led (dropWaits s u) = led s := by
  unfold dropWaits
  split <;> rfl

@[simp] theorem led_discardOne (s : State) (u : StreamId) (keep replay : Bool) : led (discardOne s u keep replay).1 = led s :=
  calc led (discardOne s u keep replay).1
    _ = _ := led_rcount ..
    _ = _ := led_foldl (fun _ _ => led_sendVerdicts ..) ..
    _ = _ := led_putTile ..
    _ = _ := led_putCore ..
    _ = _ := led_foldl (fun _ _ => led_wellStore ..) ..
    _ = _ := led_gatherFlush ..
    _ = led s := led_dropWaits ..

@[simp] theorem led_discardChain (n : Nat) (s : State) (l : Nat) (is : List (Nat × Bool)) (replay : Bool) :
    led (discardChain n s l is replay) = led s := by
  induction n generalizing s is with
  | zero => rfl
  | succ n ih =>
    cases is with
    | nil => rfl
    | cons i r => exact (ih ..).trans (led_discardOne ..)

@[simp] theorem led_discardSlot (s : State) (u : StreamId) (keep replay : Bool) : led (discardSlot s u keep replay) = led s :=
  led_discardChain ..

@[simp] theorem led_retractSlots (s : State) (l : Nat) (es : List (Nat × Nat)) : led (retractSlots s l es) = led s :=
  led_discardChain ..

/-! ## Lost micro-batches (R250, R251, R300) -/

@[simp] theorem led_postPass (s : State) (n epoch pass : Nat) : led (postPass s n epoch pass) = led s := by
  simp only [postPass]
  split
  · exact led_foldl (fun _ _ => led_putCist ..) ..
  · rfl

@[simp] theorem led_restartBackward (s : State) (n : Nat) : led (restartBackward s n) = led s := by
  have hslot (s : State) (l : Nat) : led (if (slotOf s ⟨l, 1⟩).bound then discardSlot s ⟨l, 1⟩ false true else s) = led s := by
    split <;> simp
  simp only [restartBackward]
  split
  · refine (led_postPass ..).trans ((led_putCtx ..).trans ((led_cancelJobs ..).trans ?_))
    exact (led_foldl (fun _ _ => led_putCore ..) ..).trans (led_foldl hslot ..)
  · rfl

@[simp] theorem led_sendLoss (s : State) (n : Nat) (m : LostMb) : led (sendLoss s n m) = led s := by
  unfold sendLoss
  split <;> simp

@[simp] theorem led_loseMb (s : State) (n i status : Nat) (u : StreamId) : led (loseMb s n i status u) = led s := by
  simp only [loseMb]
  split
  · rfl
  · split
    · rfl
    · split
      · simp
      · split
        · split <;> simp
        · simp only [dropStitch, led_putCore, led_discardSlot, skipMb, led_foldl (fun _ _ => led_putCore ..), led_sendLoss, led_putCtx,
            led_useFree]

@[simp] theorem led_replayLimit (s : State) (l : Nat) : led (replayLimit s l) = led s := by
  refine led_foldl (fun s i => ?_) _ s
  simp only
  split
  · rfl
  · split
    · split <;> simp
    · simp

@[simp] theorem led_timeoutTags (s : State) (l : Nat) (tags : Tags) (smod : Nat) : led (timeoutTags s l tags smod) = led s := by
  simp [timeoutTags]

@[simp] theorem led_loseData (s : State) (m : Nat) : led (loseData s m) = led s :=
  led_foldl (fun _ _ => led_foldl (fun _ _ => led_timeoutTags ..) ..) ..

/-! ## A change of master (R297, R298) -/

@[simp] theorem led_casAsk (s : State) (u : StreamId) (i kind : Nat) (dst : BitVec 5) (target : W64) :
    led (casAsk s u i kind dst target) = led s := by
  simp only [casAsk]
  split
  · rfl
  · exact led_sendFrame ..

@[simp] theorem led_askWaiting (s : State) : led (askWaiting s) = led s := by
  refine (led_foldl (fun _ _ => led_casAsk ..) ..).trans ((led_foldl (fun s u => ?_) ..).trans rfl)
  split
  · exact led_casAsk ..
  · exact led_casAsk ..
  · rfl

@[simp] theorem led_sendRejoin (s : State) : led (sendRejoin s) = led s := by
  simp only [sendRejoin]
  split
  · rfl
  · exact led_toLeads ..

/-- R297: the module named is the master, and the term stays. -/
theorem led_newMaster (s : State) (m : Nat) : led (newMaster s m) = (s.casc.term, m) := by
  have hlose (t : State) (b : Bool) (old : Nat) : led (if b then loseData t old else t) = led t := by split <;> simp
  have hback (t : State) (b : Bool) : led (if b then sendRejoin t else t) = led t := by split <;> simp
  simp only [newMaster]
  split
  · next h => rw [led, beq_iff_eq.mp h]
  · rw [hback, led_askWaiting, hlose]
    rfl

end Sys2Proof.Machine
end

section
/-! PROOFS. Messages about provisional data: O34. -/

namespace Sys2Proof.Machine

/-! ## Messages inside the module (R76, R173) -/

section
variable {s : State} {l : Nat} {tags : Tags} {smod win : Nat}

theorem takeProv_retracted (hs : smod = s.casc.self) (hr : (coreOf s l).retracted.contains tags = true) (m : ProvMsg) :
    takeProv s l tags smod win m = s := if_pos (by simp only [hs, beq_self_eq_true, hr, Bool.and_self])

variable (hl : smod ≠ s.casc.self ∨ (coreOf s l).retracted.contains tags = false) {m : ProvMsg}
include hl

theorem takeProv_live : takeProv s l tags smod win m = if m.due (ordsOf (coreOf s l) tags smod) then applyProv s l tags smod win m
    else putCore s l { coreOf s l with heldMsgs := (coreOf s l).heldMsgs ++ [m.held tags smod win] } :=
  if_neg (by rcases hl with h | h <;> simp only [Bool.and_eq_true, beq_iff_eq, h, Bool.false_eq_true, and_false, false_and, not_false_eq_true])

theorem takeProv_held (hd : m.due (ordsOf (coreOf s l) tags smod) = false) : takeProv s l tags smod win m =
    putCore s l { coreOf s l with heldMsgs := (coreOf s l).heldMsgs ++ [m.held tags smod win] } := by
  rw [takeProv_live hl, hd]
  rfl

theorem takeProv_due (hd : m.due (ordsOf (coreOf s l) tags smod) = true) :
    takeProv s l tags smod win m = applyProv s l tags smod win m := by
  rw [takeProv_live hl, hd]
  rfl

end

/-- R173, R323: a message of the mesh under the core's stamp reaches it. -/
theorem taken_provArrives {s : State} {l : Nat} {tags : Tags} {st : Stamp} {msg : Msg} (hg : st.gen ≠ 0) (hst : (coreOf s l).st = st)
    (hm : meshHolds s msg = false) (m : ProvMsg) : taken msg (fun s => provArrives s l tags st m) s =
      takeProv (arrive s msg) l tags s.casc.self 0 m := by
  have hst' : (coreOf (arrive s msg) l).st = st := hst
  rw [taken, hm, if_neg Bool.false_ne_true]
  exact if_pos (by simp only [hst', beq_self_eq_true, Bool.and_true, bne_iff_ne, ne_eq, hg, not_false_eq_true])

/-- R323: a message of a core that is not bound is dropped. -/
theorem taken_provArrives_unbound {s : State} {l : Nat} {tags : Tags} {st : Stamp} {msg : Msg} (hg : st.gen = 0)
    (hm : meshHolds s msg = false) (m : ProvMsg) : taken msg (fun s => provArrives s l tags st m) s = dropItem (arrive s msg) := by
  rw [taken, hm, if_neg Bool.false_ne_true, provArrives, if_neg (by simp [hg]), dropFrom, if_neg (by simp [hg])]

/-- R77: a vouch leaves, or waits for its stitch's witness. -/
theorem vouchOut_eq {s : State} {tile i : Nat} {e : FwdEntry} (he : (tileOf s tile).fwd[i]? = some e) (hv : e.vouched = false)
    (hc : e.clean = true) (hr : e.remote = none)
    (hp : stitchPoisoned (slotOf s ⟨e.tags.lcid, e.tags.slot⟩) e.tags.seq = false) : vouchOut tile i s =
      if (slotOf s ⟨e.tags.lcid, e.tags.slot⟩).mPass < e.mAt then s
      else emit (putTile s tile { tileOf s tile with fwd := (tileOf s tile).fwd.set i { e with vouched := true } })
        (.vouch e.lcid e.tags e.ord e.st) := by
  simp only [vouchOut, he, hv, hc, hr, hp, Bool.not_true, Bool.or_false, Bool.false_or, decide_eq_true_eq]

/-! ## Control frames from other modules (R297) -/

section
variable {s : State} {fr : Frame}

/-- R297: the state as the frame's term has been seen. -/
def termSeen (s : State) (fr : Frame) : State := modCasc s fun c => { c with term := max c.term fr.term }

theorem termSeen_same (ht : fr.term = s.casc.term) : termSeen s fr = s := by
  simp only [termSeen, modCasc, ht, max_self]

theorem hearTerm_same (ht : fr.term = s.casc.term) (hc : fr.code ≠ 0x1C) : hearTerm s fr = s := by
  have hnot : ¬fr.term < s.casc.term := by omega
  have hcode : ¬(fr.ty != 1 && fr.code == 0x1C) = true := by simp [hc]
  exact (if_neg hnot).trans ((if_neg hcode).trans ((if_pos (by simp [ht])).trans (termSeen_same ht)))

theorem led_hearTerm_newer (ht : s.casc.term < fr.term) (hty : fr.ty = 2) :
    (led (hearTerm s fr)).1 = fr.term ∧ (fr.code = 0x1C → (led (hearTerm s fr)).2 = fr.smod) := by
  have hmax : (termSeen s fr).casc.term = fr.term := max_eq_right ht.le
  have hnot : ¬fr.term < s.casc.term := by omega
  have hnew : ¬(fr.term == s.casc.term) = true := by simp; omega
  have hdef : hearTerm s fr = if fr.code == 0x1C then newMaster (termSeen s fr) fr.smod
      else if masterCodes.contains fr.code then newMaster (termSeen s fr) fr.smod
      else if s.casc.self == s.casc.master then newMaster (termSeen s fr) s.casc.deputy else termSeen s fr := by
    unfold hearTerm
    simp only [if_neg hnot, if_neg hnew, hty]
    rfl
  rw [hdef]
  split
  · rw [led_newMaster, hmax]
    exact ⟨rfl, fun _ => rfl⟩
  · next hc =>
    refine ⟨?_, fun h => absurd (beq_iff_eq.mpr h) hc⟩
    split
    · rw [led_newMaster, hmax]
    · split
      · rw [led_newMaster, hmax]
      · exact hmax

/-- R297: a frame of another generation is counted at its port. -/
theorem onControl_otherGen (ha : s.casc.active = true) (hg : fr.cgen ≠ s.casc.cgen) (g : State → State) : onControl fr g s =
    rcountF (takeIn s fr) (rAK (fr.port.getD 0) 0x18) 0 16 1 := by
  have hn : control s fr = none := if_pos (by simp [takeIn, hg])
  rw [onControl, hn]
  exact if_pos (by simp [ha, hg])

/-- R297: a frame for an idle cascade, or of an older term, only leaves the inbox. -/
theorem onControl_dropped (h : s.casc.active = false ∨ (fr.cgen = s.casc.cgen ∧ fr.term < s.casc.term)) (g : State → State) :
    onControl fr g s = takeIn s fr := by
  have hn : control s fr = none := if_pos (by rcases h with h | ⟨_, h⟩ <;> simp [takeIn, h])
  rw [onControl, hn]
  exact if_neg (by rcases h with h | ⟨h, _⟩ <;> simp [h])

/-- R297: a frame of the cascade's generation and of no older term acts. -/
theorem onControl_acts (ha : s.casc.active = true) (hg : fr.cgen = s.casc.cgen) (ht : s.casc.term ≤ fr.term) (g : State → State) :
    onControl fr g s = g (hearTerm (takeIn s fr) fr) := by
  have hn : control s fr = some (hearTerm (takeIn s fr) fr) := if_neg (by simp [takeIn, ha, hg, Nat.not_lt.mpr ht])
  rw [onControl, hn]

end

/-! ## What the frames do (R302, R305, R306) -/

section
variable {c : State} {fr : Frame}

/-- R305: where the tile sends nothing through windows, an acknowledged confirmation frees its forward-list entries alone. -/
theorem confirmAck_eq (h : ∀ j ∈ (tileOf c (tileOfCore (tagsOf fr.spec).lcid)).jobs, j.desc.dkind ≠ 3) : confirmAck fr c =
    putTile c (tileOfCore (tagsOf fr.spec).lcid) { tileOf c (tileOfCore (tagsOf fr.spec).lcid) with
      fwd := (tileOf c (tileOfCore (tagsOf fr.spec).lcid)).fwd.filter fun e => !(e.tags == tagsOf fr.spec && e.remote == some fr.smod) } := by
  have hnone (q : PumpJob → Bool) : (tileOf c (tileOfCore (tagsOf fr.spec).lcid)).jobs.filter (fun j => j.desc.dkind == 3 && q j) = [] :=
    List.filter_eq_nil_iff.mpr fun j hj => by simp [h j hj]
  have hmap (q : PumpJob → Bool) (f : PumpJob → PumpJob) : (tileOf c (tileOfCore (tagsOf fr.spec).lcid)).jobs.map
      (fun j => if j.desc.dkind == 3 && q j then f j else j) = (tileOf c (tileOfCore (tagsOf fr.spec).lcid)).jobs :=
    (List.map_congr_left fun j hj => if_neg (by simp [h j hj])).trans (List.map_id _)
  simp only [confirmAck, Bool.and_assoc, hnone, hmap, List.foldl_nil]

/-- R302, R303: a drop notice ends the one descriptor that sent the frame. -/
theorem dropNotice_eq {u : Nat} {j : PumpJob} (hu : pumpUnits c = [u]) (hj : jobsOf c u = [j]) (hp : j.phase = .running)
    (hk : j.desc.dkind = 3) (hm : j.desc.dmod = fr.smod) (hw : j.desc.win = leAt fr.spec 4 1) (hf : j.desc.first ≤ leAt fr.spec 8 4)
    (hd : leAt fr.spec 12 4 ∈ j.dseqs) : dropNotice fr c = endJob c u j (leAt fr.spec 0 2) := by
  simp [dropNotice, hu, hj, hp, hk, hm, hw, hf, hd]

theorem dropNotice_none (h : ∀ u j, j ∈ jobsOf c u → leAt fr.spec 12 4 ∉ j.dseqs) : dropNotice fr c = c := by
  have hhit : (pumpUnits c).flatMap (fun u => ((jobsOf c u).filter fun j =>
      j.phase == .running && j.desc.dkind == 3 && j.desc.dmod == fr.smod && j.desc.win == leAt fr.spec 4 1 &&
      j.desc.first ≤ leAt fr.spec 8 4 && j.dseqs.contains (leAt fr.spec 12 4)).map fun j => (u, j)) = [] := by
    refine List.flatMap_eq_nil_iff.mpr fun u _ => ?_
    rw [List.map_eq_nil_iff, List.filter_eq_nil_iff]
    intro j hj
    simp [h u j hj]
  simp only [dropNotice, hhit]

/-- R306: the one descriptor that still holds the block sends it again. -/
theorem answerResend_eq {tags : Tags} (htags : tagsOf fr.spec = tags) {j : PumpJob} {w : Sent} {e : FwdEntry}
    (hfwd : (tileOf c (tileOfCore tags.lcid)).fwd = [e]) (het : e.tags = tags) (heo : e.ord = fr.n) (her : e.remote = some fr.smod)
    (hev : e.vouched = false) (hret : tagsRetired c tags = false) (hj : jobsOf c (tileOfCore tags.lcid) = [j]) (hk : j.desc.dkind = 3)
    (hm : j.desc.dmod = fr.smod) (hl : j.lcid = tags.lcid) (hw : j.wait = [w]) (hwp : w.prov = some fr.n)
    (hwq : w.prod = some ⟨tags.slot, tags.lcid, tags.seq, tags.replay⟩) : answerResend fr c =
      sendData c fr.smod 3 j.desc.win (j.desc.first + w.bidx) { (buildBlock c j w.piece w.prod w.bidx).1 with
        wgen := (match (ctxOf c j.st.ctx).run with | some r => r.epoch | none => j.epoch) % 2 ^ 16, prov := true, pord := fr.n } := by
  simp [answerResend, htags, hfwd, het, heo, her, hev, hret, hj, hk, hm, hl, hw, hwp, hwq] <;> rfl

end

end Sys2Proof.Machine

namespace Sys2Proof.Proofs

open Sys2Proof.Machine

/-- Settles O34: messages through `takeProv_live`, control frames through `onControl`'s three cases; what a newer term says of the
master by `led_hearTerm_newer`. -/
theorem provisionalData : Obligations.ProvisionalData := by
  unfold Obligations.ProvisionalData
  constructor
  · intro s l tags k smod win st self c es got vouched
    refine ⟨fun tile i e he hv hc hr hp => ⟨fun hm => ?_, fun hm => ?_⟩, fun m hs hr => takeProv_retracted hs hr m,
      fun m hl hd => takeProv_held hl hd, fun hl => ⟨fun hd => takeProv_due hl hd, fun hk => ⟨?_, ?_⟩⟩,
      fun hg hst hmv hmc hmr => ⟨?_, ?_, ?_⟩, fun hg hm => ?_, fun ⟨e, he, o, ho, hno⟩ => ?_, fun hall => ?_,
      fun port hs ⟨e, he, hv⟩ => ?_⟩
    · exact (shown_eq ((vouchOut_eq he hv hc hr hp).trans (if_neg (Nat.not_lt.mpr hm))) : execVouchSend tile i s = _)
    · exact (shown_eq ((vouchOut_eq he hv hc hr hp).trans (if_pos hm)) : execVouchSend tile i s = _)
    · refine (takeProv_due hl (m := .confirm k) (decide_eq_true hk)).trans ?_
      simp only [applyProv, beq_iff_eq]
      rfl
    · exact takeProv_due hl (m := .retract k) (decide_eq_true hk)
    · exact (shown_eq (taken_provArrives hg hst hmv (.vouch k)) : execVouchArrive l tags k st s = _)
    · exact (shown_eq (taken_provArrives hg hst hmc (.confirm k)) : execConfirmationArrive l tags k st s = _)
    · exact (shown_eq (taken_provArrives hg hst hmr (.retract k)) : execRetractionArrive l tags k st s = _)
    · exact (shown_eq (taken_provArrives_unbound hg hm (.vouch k)) : execVouchArrive l tags k st s = _)
    · have hany : ((slotsOf c tags self).any fun e => (c.rslot e).ords.any fun k => !((c.rslot e).vords.contains k)) = true :=
        List.any_eq_true.mpr ⟨e, he, List.any_eq_true.mpr ⟨o, ho, by simpa using hno⟩⟩
      exact (shown_eq (if_pos hany) : execVouchTimeout l tags s = _)
    · have hany : ((slotsOf c tags self).any fun e => (c.rslot e).ords.any fun k => !((c.rslot e).vords.contains k)) = false :=
        List.any_eq_false.mpr fun e he => by simpa using hall e he
      exact (shown_eq (if_neg (Bool.eq_false_iff.mp hany)) : execVouchTimeout l tags s = _)
    · have hall : (es.all fun e => (c.rslot e).vouched) = false := List.all_eq_false.mpr ⟨e, he, by simp [hv]⟩
      have hgo : ¬(smod == s.casc.self || es.all fun e => (c.rslot e).vouched) = true := by simp [hall]; exact hs
      exact (shown_eq (if_neg hgo) : execAkgonProvTimeout l tags smod port s = _)
  · intro s fr l got c tags tile
    refine ⟨fun ht hc => hearTerm_same ht hc, fun ht hty => led_hearTerm_newer (s := got) ht hty, fun ha hg => ?_, fun h => ?_,
      fun ha hg ht => ⟨?_, ?_, ?_, fun hj => ?_, fun u j _ hp hk hm hw hf hd hu hj => ?_, fun hno => ?_, ?_⟩⟩
    · exact (shown_eq (onControl_otherGen ha hg _) : execAkgonVouch l fr s = _)
    · have key (g : State → State) : shown (onControl fr g) s = .next (publish s got) := shown_eq (onControl_dropped h g)
      intro cmd hcmd
      simp only [List.mem_cons, List.not_mem_nil, or_false] at hcmd
      rcases hcmd with rfl | rfl | rfl | rfl | rfl | rfl | rfl | rfl | rfl | rfl | rfl | rfl | rfl
      all_goals exact key _
    · exact (shown_eq (onControl_acts ha hg ht _) : execAkgonVouch l fr s = _)
    · exact (shown_eq (onControl_acts ha hg ht _) : execAkgonConfirmation l fr s = _)
    · exact (shown_eq (onControl_acts ha hg ht _) : execAkgonRetraction l fr s = _)
    · exact (shown_eq ((onControl_acts ha hg ht _).trans (confirmAck_eq hj)) : execConfirmationAck fr s = _)
    · exact (shown_eq ((onControl_acts ha hg ht _).trans (dropNotice_eq hu hj hp hk hm hw hf hd)) : execDropNotice fr s = _)
    · exact (shown_eq ((onControl_acts ha hg ht _).trans (dropNotice_none hno)) : execDropNotice fr s = _)
    · intro j w e hfwd het heo her hev hret hj hk hm hl hw hwp hwq wgen
      exact (shown_eq ((onControl_acts ha hg ht _).trans
        (answerResend_eq rfl hfwd het heo her hev hret hj hk hm hl hw hwp hwq)) : execAkgonResend fr s = _)

end Sys2Proof.Proofs
end

section
/-! PROOFS. Scalar arithmetic: O2, O3 and O4. -/

namespace Sys2Proof.Machine

/-! ## Scalar instructions as actions on the register image (R89, R96, R97) -/

@[simp] theorem sput_sstat (a : Arch) (r : BitVec 5) (v : W64) : (a.sput r v).sstat = a.sstat := by
  unfold Arch.sput; split <;> rfl

section
variable {u : StreamId} {f : Fields} {s : State} (h : issues u .lane0 f [.s f.src1, .s f.src2, .s f.dst] s = true) (hm : f.mod = 0)
include h hm

/-- R96: two operands, with the result spelled `r`. -/
theorem alu_eq {g : W64 → W64 → W64} {r : W64} (hr : g ((archOf s u).sget f.src1) (opB (archOf s u) f) = r) :
    alu u f g s = ran s u ((archOf s u).sput f.dst r) := by
  subst hr
  exact issueArch_eq h (.inl rfl) (beq_iff_eq.mpr hm) _

/-- R97: a divisor of zero sets c.sstat.dz. -/
theorem aluDiv_zero {g : W64 → W64 → W64} {r : W64} (hy : opB (archOf s u) f = 0) (hr : g ((archOf s u).sget f.src1) 0 = r) :
    aluDiv u f g s = ran s u { (archOf s u).sput f.dst r with sstat := (archOf s u).sstat ||| 1 } := by
  subst hr
  refine (issueArch_eq h (.inl rfl) (beq_iff_eq.mpr hm) _).trans ?_
  simp [hy, Arch.setDz]

/-- R97: another divisor sets nothing. -/
theorem aluDiv_nonzero {g : W64 → W64 → W64} {r : W64} (hy : opB (archOf s u) f ≠ 0)
    (hr : g ((archOf s u).sget f.src1) (opB (archOf s u) f) = r) : aluDiv u f g s = ran s u ((archOf s u).sput f.dst r) := by
  subst hr
  have hz : (opB (archOf s u) f == 0) = false := beq_eq_false_iff_ne.mpr hy
  refine (issueArch_eq h (.inl rfl) (beq_iff_eq.mpr hm) _).trans ?_
  rw [hz]
  rfl

end

/-- R89: one operand; the fields that the instruction does not use are zero. -/
theorem alu1_eq {u : StreamId} {f : Fields} {s : State} (h : issues u .lane0 f [.s f.src1, .s f.dst] s = true) (hm : f.mod = 0)
    (h2 : f.src2 = 0) (hi : f.imm = 0) {g : W64 → W64} {r : W64} (hr : g ((archOf s u).sget f.src1) = r) :
    alu1 u f g s = ran s u ((archOf s u).sput f.dst r) := by
  subst hr
  exact issueArch_eq h (.inl rfl) (by simp [hm, h2, hi]) _

/-! ## The values of Table 4.5 -/

theorem ofBool_slt (x y : W64) : ofBool (x.slt y) = if x.toInt < y.toInt then 1 else 0 := by
  simp [ofBool, BitVec.slt]

theorem ofBool_ult (x y : W64) : ofBool (x.ult y) = if x.toNat < y.toNat then 1 else 0 := by
  simp [ofBool, BitVec.ult]

theorem smin_eq (x y : W64) : (if x.slt y then x else y) = BitVec.ofInt 64 (min x.toInt y.toInt) := by
  by_cases h : x.toInt < y.toInt
  · simp [BitVec.slt, h, min_eq_left h.le]
  · simp [BitVec.slt, h, min_eq_right (not_lt.mp h)]

theorem smax_eq (x y : W64) : (if x.slt y then y else x) = BitVec.ofInt 64 (max x.toInt y.toInt) := by
  by_cases h : x.toInt < y.toInt
  · simp [BitVec.slt, h, max_eq_right h.le]
  · simp [BitVec.slt, h, max_eq_left (not_lt.mp h)]

theorem umin_eq (x y : W64) : (if x.ult y then x else y) = BitVec.ofNat 64 (min x.toNat y.toNat) := by
  by_cases h : x.toNat < y.toNat
  · simp [BitVec.ult, h, min_eq_left h.le]
  · simp [BitVec.ult, h, min_eq_right (not_lt.mp h)]

theorem umax_eq (x y : W64) : (if x.ult y then y else x) = BitVec.ofNat 64 (max x.toNat y.toNat) := by
  by_cases h : x.toNat < y.toNat
  · simp [BitVec.ult, h, max_eq_right h.le]
  · simp [BitVec.ult, h, max_eq_left (not_lt.mp h)]

section
variable {x y : W64} (hy : y ≠ 0)
include hy

theorem divS_nonzero : divS x y = BitVec.ofInt 64 (x.toInt.tdiv y.toInt) := by
  rw [divS, if_neg hy, ← BitVec.ofInt_toInt (x := x.sdiv y), BitVec.toInt_sdiv]
  exact BitVec.eq_of_toInt_eq (by simp [BitVec.toInt_ofInt])

theorem remS_nonzero : remS x y = BitVec.ofInt 64 (x.toInt.tmod y.toInt) := by
  rw [remS, if_neg hy, ← BitVec.toInt_srem, BitVec.ofInt_toInt]

theorem divU_nonzero : divU x y = BitVec.ofNat 64 (x.toNat / y.toNat) := by
  rw [divU, if_neg hy, ← BitVec.toNat_udiv, BitVec.ofNat_toNat, BitVec.setWidth_eq]

theorem remU_nonzero : remU x y = BitVec.ofNat 64 (x.toNat % y.toNat) := by
  rw [remU, if_neg hy, ← BitVec.toNat_umod, BitVec.ofNat_toNat, BitVec.setWidth_eq]

end

/-- R97: the signed corner. -/
theorem divS_corner : divS (BitVec.ofInt 64 (-2 ^ 63)) (BitVec.allOnes 64) = BitVec.ofInt 64 (-2 ^ 63) := by decide

theorem remS_corner : remS (BitVec.ofInt 64 (-2 ^ 63)) (BitVec.allOnes 64) = 0 := by decide

theorem getLsbD_lowMask : ∀ k < 64, (0xFFFFFFFF#64).getLsbD k = decide (k < 32) := by decide

/-- Table 4.5: `movhi` puts the immediate above the lower half. -/
theorem movhiWord_eq (x : W64) (i : W32) :
    (x &&& 0xFFFFFFFF#64) ||| (i.zeroExtend 64 <<< 32) = i ++ x.extractLsb' 0 32 := by
  have hlow : x &&& 0xFFFFFFFF#64 = (x.extractLsb' 0 32).zeroExtend 64 := by
    ext k hk
    have hmask := getLsbD_lowMask k hk
    rw [← BitVec.getLsbD_eq_getElem, ← BitVec.getLsbD_eq_getElem, BitVec.getLsbD_and, hmask]
    by_cases h32 : k < 32 <;> simp [h32, hk]
  rw [hlow, argWord_eq]

/-- Table 4.5: the 1 bits of a number's low `n` bits. -/
theorem popCount_eq (n v : Nat) : popCount n v = ((List.range n).filter v.testBit).length := by
  induction n generalizing v with
  | zero => rfl
  | succ n ih =>
    have hrest : ((List.map Nat.succ (List.range n)).filter v.testBit).length = popCount n (v / 2) := by
      rw [ih, List.filter_map, List.length_map]
      congr 2
      funext i
      rw [Function.comp_apply, Nat.testBit_succ]
    rw [popCount, List.range_succ_eq_map, List.filter_cons]
    rcases Nat.mod_two_eq_zero_or_one v with h | h
    · simp [Nat.testBit_zero, h, hrest]
    · simp [Nat.testBit_zero, h, hrest, Nat.add_comm]

theorem popW_eq (x : W64) : popW x = BitVec.ofNat 64 ((List.range 64).filter fun i => x.getLsbD i).length := by
  rw [popW, popCount_eq]
  rfl

/-- A run of `n` indices that pass, then one that does not. -/
theorem takeWhile_range {p : Nat → Bool} {n m : Nat} (hn : n ≤ m) (h : ∀ i < n, p i = true) (hp : n < m → p n = false) :
    ((List.range m).takeWhile p).length = n := by
  obtain ⟨d, rfl⟩ := Nat.exists_eq_add_of_le hn
  have hall : ∀ i ∈ List.range n, p i = true := fun i hi => h i (List.mem_range.mp hi)
  rw [List.range_add, List.takeWhile_append_of_pos hall, List.length_append, List.length_range]
  cases d with
  | zero => rfl
  | succ d =>
    have hstop : p n = false := hp (by omega)
    simp [List.range_succ_eq_map, hstop]

theorem clzW_eq (x : W64) : clzW x = BitVec.ofNat 64 ((List.range 64).takeWhile fun i => !(x.getLsbD (63 - i))).length := by
  rw [clzW]
  congr 1
  symm
  by_cases hx : x = 0
  · subst hx
    exact (takeWhile_range (le_refl 64) (by simp) (by simp))
  · have hx0 : x.toNat ≠ 0 := fun h => hx (BitVec.eq_of_toNat_eq h)
    have hlt : x.toNat.log2 < 64 := (Nat.log2_lt hx0).mpr x.isLt
    rw [if_neg hx]
    refine takeWhile_range (by omega) (fun i hi => ?_) fun _ => ?_
    · have hhigh : x.toNat < 2 ^ (63 - i) := (Nat.log2_lt hx0).mp (by omega)
      simp [BitVec.getLsbD, Nat.testBit_lt_two_pow hhigh]
    · have hat : 63 - (63 - x.toNat.log2) = x.toNat.log2 := by omega
      simp [BitVec.getLsbD, hat, Nat.testBit_log2 hx0]

/-! ## Masked and unknown instructions (R89, R90) -/

section
variable {u : StreamId} {s : State} (hc : canIssue s u = true) (hi : inCode (archOf s u) (archOf s u).pc = true) (f : Fields)
  (refs : List RegRef) (body : State → Res)
include hc hi

/-- R89: with lane 0 of the mask off a scalar instruction only advances the pc. -/
theorem issue_masked (ho : streamOpcode (wordOp (codeWord s (archOf s u) (archOf s u).pc)) = true)
    (hl : ((archOf s u).pget f.mask).getLsbD 0 = false) : issue u .lane0 f refs body s = ran s u (archOf s u) := by
  unfold archOf at hi ho hl
  simp only [issue, hc, hi, ho, hl]
  rfl

/-- R89, R90: an opcode that no core stream may hold is unknown. -/
theorem issue_unknown (mu : MaskUse) (ho : streamOpcode (wordOp (codeWord s (archOf s u) (archOf s u).pc)) = false) :
    issue u mu f refs body s = faulted s u 0x2001 := by
  unfold archOf at hi ho
  simp [issue, hc, hi, ho, faulted]

end

/-- An action on the register image alone that writes no vector register is issued as any other. -/
theorem issueArch_eq_issue {refs : List RegRef} (hr : refs.all RegRef.read = true) (u : StreamId) (mu : MaskUse) (f : Fields) (ok : Bool)
    (g : Arch → Arch) (s : State) : issueArch u mu f refs ok g s =
      issue u mu f refs (fun s => if ok then .ok (setArch s u (g (slotOf s u).arch)) else .fault 0x2002) s := if_pos hr

/-- The scalar instructions of two operands. -/
def twoOperand (u : StreamId) (f : Fields) : List Instr :=
  [.add u f, .sub u f, .and u f, .or u f, .xor u f, .shl u f, .shr u f, .sra u f, .slt u f, .sltu u f, .min u f, .max u f, .minu u f,
    .maxu u f, .mul u f, .mulh u f, .mulhu u f, .div u f, .divu u f, .rem u f, .remu u f]

/-- R96: a scalar instruction of two operands acts on the register image alone; its one reserved field is mod. -/
theorem exec_twoOperand (u : StreamId) (f : Fields) (s : State) : ∀ c ∈ twoOperand u f, ∃ g,
    exec c s = .next (issueArch u .lane0 f [.s f.src1, .s f.src2, .s f.dst] (f.mod == 0) g s) := by
  simp only [twoOperand, List.forall_mem_cons, List.not_mem_nil, false_implies, implies_true, and_true]
  exact ⟨⟨_, rfl⟩, ⟨_, rfl⟩, ⟨_, rfl⟩, ⟨_, rfl⟩, ⟨_, rfl⟩, ⟨_, rfl⟩, ⟨_, rfl⟩, ⟨_, rfl⟩, ⟨_, rfl⟩, ⟨_, rfl⟩, ⟨_, rfl⟩, ⟨_, rfl⟩,
    ⟨_, rfl⟩, ⟨_, rfl⟩, ⟨_, rfl⟩, ⟨_, rfl⟩, ⟨_, rfl⟩, ⟨_, rfl⟩, ⟨_, rfl⟩, ⟨_, rfl⟩, ⟨_, rfl⟩⟩

end Sys2Proof.Machine

namespace Sys2Proof.Proofs

open Sys2Proof.Machine

/-- Settles O2: each instruction is `alu` of its operation (`alu_eq`), whose value is that of Table 4.5. -/
theorem scalarArithmeticResult : Obligations.ScalarArithmeticResult := by
  unfold Obligations.ScalarArithmeticResult
  intro u f s h hm a x y
  have out {g : W64 → W64 → W64} {r : W64} (hr : g x y = r) :
      (.next (alu u f g s) : Host.Outcome State Fault Refusal) = .next (ran s u (a.sput f.dst r)) :=
    congrArg _ (alu_eq h hm hr)
  exact ⟨out rfl, out rfl, out rfl, out rfl, out rfl, out rfl, out rfl, out rfl, out (ofBool_slt x y), out (ofBool_ult x y),
    out (smin_eq x y), out (smax_eq x y), out (umin_eq x y), out (umax_eq x y), out rfl, out rfl, out rfl⟩

/-- Settles O3: `aluDiv` with the values of R97, and `alu1` with those of Table 4.5. -/
theorem scalarDivisionAndUnary : Obligations.ScalarDivisionAndUnary := by
  unfold Obligations.ScalarDivisionAndUnary
  constructor
  · intro u f s h hm a x y
    refine ⟨fun hy => ?_, fun hy => ?_, fun hx hy => ?_⟩
    · have zero {g : W64 → W64 → W64} (r : W64) (hr : g x 0 = r) :
          (.next (aluDiv u f g s) : Host.Outcome State Fault Refusal) =
            .next (ran s u { a.sput f.dst r with sstat := a.sstat ||| 1 }) := congrArg _ (aluDiv_zero h hm hy hr)
      exact ⟨zero _ (if_pos rfl), zero _ (if_pos rfl), zero _ (if_pos rfl), zero _ (if_pos rfl)⟩
    · have out {g : W64 → W64 → W64} {r : W64} (hr : g x y = r) :
          (.next (aluDiv u f g s) : Host.Outcome State Fault Refusal) = .next (ran s u (a.sput f.dst r)) :=
        congrArg _ (aluDiv_nonzero h hm hy hr)
      exact ⟨out (divS_nonzero hy), out (divU_nonzero hy), out (remS_nonzero hy), out (remU_nonzero hy)⟩
    · have hy0 : y ≠ 0 := by rw [hy]; decide
      have hdiv : divS x y = x := by rw [hx, hy, divS_corner]
      have hrem : remS x y = 0 := by rw [hx, hy, remS_corner]
      exact ⟨congrArg _ (aluDiv_nonzero h hm hy0 hdiv), congrArg _ (aluDiv_nonzero h hm hy0 hrem)⟩
  · intro u f s
    refine ⟨fun h => congrArg _ (issueArch_eq h (.inl rfl) rfl id), ?_⟩
    intro h hm h2 a x
    refine ⟨?_, fun hi => ⟨congrArg _ (alu1_eq h hm h2 hi (popW_eq x)), congrArg _ (alu1_eq h hm h2 hi (clzW_eq x))⟩⟩
    rw [← movhiWord_eq]
    exact congrArg _ (issueArch_eq h (.inl rfl) (by simp [hm, h2]) _)

/-- Settles O4: the instructions of two operands share their form (`exec_twoOperand`). -/
theorem scalarReservedAndMasked : Obligations.ScalarReservedAndMasked := by
  unfold Obligations.ScalarReservedAndMasked
  intro u f s c hmem
  obtain ⟨g, hexec⟩ := exec_twoOperand u f s c hmem
  rw [hexec]
  refine ⟨fun h hm => congrArg _ (issueArch_fault h (.inl rfl) (beq_eq_false_iff_ne.mpr hm) g), fun hc hi => ⟨fun ho hl => ?_, fun ho => ?_⟩⟩
  · exact congrArg _ ((issueArch_eq_issue rfl ..).trans (issue_masked hc hi f _ _ ho hl))
  · exact congrArg _ ((issueArch_eq_issue rfl ..).trans (issue_unknown hc hi f _ _ _ ho))

end Sys2Proof.Proofs
end

section
/-! PROOFS. Registers, the frame of an instruction on registers, and stream words: O5, O6 and O7. -/

namespace Sys2Proof.Machine

/-! ## Mask registers (R142) -/

theorem pput_eq (a : Arch) {r : BitVec 3} (h : r ≠ 0) (v : W32) :
    a.pput r v = { a with p := a.p.set r.toNat v r.isLt } := if_neg h

theorem pget_eq (a : Arch) {r : BitVec 3} (h : r ≠ 0) : a.pget r = a.p[r.toNat]'(r.isLt) := if_neg h

theorem pget_pput_same (a : Arch) {r : BitVec 3} (h : r ≠ 0) (v : W32) : (a.pput r v).pget r = v := by
  rw [pput_eq a h, pget_eq _ h]
  exact Vector.getElem_set_self _

theorem pget_pput_ne (a : Arch) {r q : BitVec 3} (hr : r ≠ 0) (h : q ≠ r) (v : W32) : (a.pput r v).pget q = a.pget q := by
  have hn : r.toNat ≠ q.toNat := fun e => h (BitVec.eq_of_toNat_eq e.symm)
  by_cases hq : q = 0
  · subst hq; exact (pget_zero _).trans (pget_zero a).symm
  · rw [pput_eq a hr, pget_eq _ hq, pget_eq _ hq]
    exact Vector.getElem_set_ne r.isLt q.isLt hn

/-! ## The frame of a change of one slot (R58, R99) -/

/-- R99: past the end of loops the image changes in the pc, the loops and VL. -/
theorem loopBack_frame (a : Arch) (nxt : W64) (l : List LoopRec) :
    loopBack a nxt l = { a with pc := (loopBack a nxt l).pc, loops := (loopBack a nxt l).loops, vl := (loopBack a nxt l).vl } := by
  induction l with
  | nil => rfl
  | cons l r ih =>
    unfold loopBack
    split_ifs
    · cases l.elems <;> rfl
    · exact ih
    · rfl

/-- R99: outside loops the pc goes on. -/
theorem advance_of_no_loop {a : Arch} (h : a.loops = []) : a.advance = { a with pc := a.pc + 8 } := by
  simp [Arch.advance, loopBack, h]

/-- A change of a slot leaves its core's other parts as they are. -/
theorem coreOf_putSlot_slots (s : State) (u : StreamId) (x : SlotSt) (l : Nat) :
    coreOf (putSlot s u x) l = { coreOf s l with slots := (coreOf (putSlot s u x) l).slots } := by
  by_cases h : l = u.lcid
  · subst h; rw [putSlot, coreOf_putCore]; rfl
  · rw [putSlot, coreOf_putCore_ne h]

theorem sameButCores_putSlot (s : State) (u : StreamId) (x : SlotSt) : sameButCores s (putSlot s u x) := rfl

theorem slotOf_jumped {s : State} {u : StreamId} (hu : u.slot < 3) (a : Arch) :
    slotOf (jumped s u a) u = { slotOf s u with wait := none, arch := a } := slotOf_putSlot s u _ hu

/-! ## Stream words (R88 to R90, R161) -/

/-- Table 4.1: the word that an opcode and fields spell. -/
def spelledWord (op : Nat) (f : Fields) : Nat :=
  op * 2 ^ 56 + f.dst.toNat * 2 ^ 51 + f.src1.toNat * 2 ^ 46 + f.src2.toNat * 2 ^ 41 + f.mask.toNat * 2 ^ 38 + f.mod.toNat * 2 ^ 32 +
    f.imm.toNat

theorem wordOp_spelledWord {op : Nat} (hop : op < 256) (f : Fields) : wordOp (spelledWord op f) = op := by
  have := f.dst.isLt; have := f.src1.isLt; have := f.src2.isLt; have := f.mask.isLt; have := f.mod.isLt; have := f.imm.isLt
  unfold wordOp spelledWord bitsAt
  omega

theorem wordFields_spelledWord (op : Nat) (f : Fields) : wordFields (spelledWord op f) = f := by
  have := f.dst.isLt; have := f.src1.isLt; have := f.src2.isLt; have := f.mask.isLt; have := f.mod.isLt; have := f.imm.isLt
  have hdst : bitsAt (spelledWord op f) 51 5 = f.dst.toNat := by unfold spelledWord bitsAt; omega
  have hsrc1 : bitsAt (spelledWord op f) 46 5 = f.src1.toNat := by unfold spelledWord bitsAt; omega
  have hsrc2 : bitsAt (spelledWord op f) 41 5 = f.src2.toNat := by unfold spelledWord bitsAt; omega
  have hmask : bitsAt (spelledWord op f) 38 3 = f.mask.toNat := by unfold spelledWord bitsAt; omega
  have hmod : bitsAt (spelledWord op f) 32 6 = f.mod.toNat := by unfold spelledWord bitsAt; omega
  have himm : BitVec.ofNat 32 (spelledWord op f) = f.imm := BitVec.eq_of_toNat_eq (by
    rw [BitVec.toNat_ofNat]; unfold spelledWord; omega)
  simp [wordFields, hdst, hsrc1, hsrc2, hmask, hmod, himm]

/-- The modifiers choose between rows of an opcode, not whether it has one. -/
theorem memoryRow_isSome (op m : Nat) : (memoryRow op m).isSome = (memoryRow op 0).isSome := by
  unfold memoryRow; split <;> rfl

theorem slotRow_isSome (op m : Nat) : (slotRow op m).isSome = (slotRow op 0).isSome := by
  unfold slotRow; split <;> rfl

theorem vectorRow_isSome (op m : Nat) : (vectorRow op m).isSome = (vectorRow op 0).isSome := by
  unfold vectorRow; split <;> rfl

/-- Tables 4.2, 5.8 and 6.7: the opcodes that have a row. -/
theorem streamOpcode_eq : ∀ op < 256,
    ((memoryRow op 0).isSome || (slotRow op 0).isSome || (vectorRow op 0).isSome) = streamOpcode op := by decide +kernel

theorem streamWord_isSome (u : StreamId) (w : Nat) (errs : List SymErr) (h : wordOp w < 256) :
    (streamWord u w errs).isSome = streamOpcode (wordOp w) := by
  rw [← streamOpcode_eq _ h, ← memoryRow_isSome _ (wordFields w).mod.toNat, ← slotRow_isSome _ (wordFields w).mod.toNat,
    ← vectorRow_isSome _ (wordFields w).mod.toNat]
  simp only [streamWord]
  cases memoryRow (wordOp w) (wordFields w).mod.toNat with
  | some row => rfl
  | none => cases slotRow (wordOp w) (wordFields w).mod.toNat <;> simp

end Sys2Proof.Machine

namespace Sys2Proof.Proofs

open Sys2Proof.Machine

/-- Settles O5, by the reads of each kind of register after a write. -/
theorem hardWiredRegisters : Obligations.HardWiredRegisters := by
  unfold Obligations.HardWiredRegisters
  exact fun a => ⟨fun v => ⟨sget_zero a, sput_zero a v⟩, fun v => ⟨pget_zero a, pput_zero a v⟩,
    fun r q v hr => ⟨sget_sput_same a hr v, fun hq => sget_sput_ne a hq v⟩,
    fun r q v hr => ⟨pget_pput_same a hr v, fun hq => pget_pput_ne a hr hq v⟩,
    fun r q x => ⟨vget_vput_same a r x, fun hq => vget_vput_ne a hq x⟩⟩

/-- Settles O6: both states put one slot (`coreOf_putSlot_slots`, `byteAt_putSlot`), whose image `loopBack_frame` bounds. -/
theorem registerInstructionFrame : Obligations.RegisterInstructionFrame := by
  unfold Obligations.RegisterInstructionFrame
  intro u s a hu t ht
  obtain ⟨b, rfl, hb⟩ : ∃ b, t = jumped s u b ∧ b = { a with pc := b.pc, loops := b.loops, vl := b.vl } := by
    rcases List.mem_pair.mp ht with rfl | rfl
    · exact ⟨a.advance, rfl, loopBack_frame ..⟩
    · exact ⟨a, rfl, rfl⟩
  have hslot := slotOf_jumped (s := s) hu b
  refine ⟨sameButCores_putSlot .., fun l hl => coreOf_putCore_ne hl _ _, fun w hw => slotOf_putSlot_ne _ _ hw,
    coreOf_putSlot_slots s u _, byteAt_putSlot s u _, ?_, ?_, fun h => ?_⟩
  · rw [hslot]
  · rw [hslot]; exact hb
  · rw [slotOf_ran hu, advance_of_no_loop h]

/-- Settles O7: the fields of a spelled word by arithmetic, and the opcodes that have a row by cases (`streamOpcode_eq`). -/
theorem streamWords : Obligations.StreamWords := by
  unfold Obligations.StreamWords
  refine ⟨?_, fun u errs => rfl, fun u f s hc hi ho => ?_⟩
  · intro op f hop w
    have hw : wordOp w = op := wordOp_spelledWord hop f
    refine ⟨hw, wordFields_spelledWord op f, fun u errs => ?_⟩
    rw [streamWord_isSome u w errs (hw ▸ hop), hw]
  · exact congrArg _ ((issueArch_eq_issue rfl ..).trans (issue_unknown hc hi f _ _ _ ho))

end Sys2Proof.Proofs
end

section
/-! PROOFS. Branches, jumps and hardware loops: O8 and O9. -/

namespace Sys2Proof.Machine

/-! ## Branches and jumps (R98, Table 4.6) -/

/-- Table 4.6: what each condition of `br` asks. -/
theorem brTaken_iff {m : BitVec 6} {x y : W64} {taken : Prop} (h : (m = 0 ∧ (taken ↔ x = y)) ∨ (m = 1 ∧ (taken ↔ x ≠ y)) ∨
    (m = 2 ∧ (taken ↔ x.toInt < y.toInt)) ∨ (m = 3 ∧ (taken ↔ y.toInt ≤ x.toInt)) ∨ (m = 4 ∧ (taken ↔ x.toNat < y.toNat)) ∨
    (m = 5 ∧ (taken ↔ y.toNat ≤ x.toNat))) : ∃ b : Bool, brTaken m.toNat x y = some b ∧ (b = true ↔ taken) := by
  rcases h with ⟨rfl, h⟩ | ⟨rfl, h⟩ | ⟨rfl, h⟩ | ⟨rfl, h⟩ | ⟨rfl, h⟩ | ⟨rfl, h⟩
  · exact ⟨x == y, rfl, by simp [h]⟩
  · exact ⟨x != y, rfl, by simp [h]⟩
  · exact ⟨x.slt y, rfl, by simp [h, BitVec.slt]⟩
  · exact ⟨!(x.slt y), rfl, by simp [h, BitVec.slt]⟩
  · exact ⟨x.ult y, rfl, by simp [h, BitVec.ult]⟩
  · exact ⟨!(x.ult y), rfl, by simp [h, BitVec.ult]⟩

theorem brTaken_reserved {n : Nat} (h : 6 ≤ n) (x y : W64) : brTaken n x y = none := by
  obtain ⟨k, rfl⟩ := Nat.exists_eq_add_of_le' h
  rfl

section
variable {u : StreamId} {f : Fields} {s : State}

theorem brBody_reserved (h : 6 ≤ f.mod.toNat) : brBody u f s = .fault 0x2002 := by
  simp only [brBody, brTaken_reserved h]

section
variable (hd : f.dst = 0)
include hd

theorem brBody_passes (hb : brTaken f.mod.toNat ((archOf s u).sget f.src1) ((archOf s u).sget f.src2) = some false) :
    brBody u f s = .ok s := by
  unfold archOf at hb
  simp only [brBody, hb, hd]
  rfl

variable (hb : brTaken f.mod.toNat ((archOf s u).sget f.src1) ((archOf s u).sget f.src2) = some true)
include hb

/-- R98: a taken branch goes to its target in code, and faults outside. -/
theorem brBody_taken : brBody u f s = if inCode (archOf s u) (relTarget (archOf s u) f) then
    .jump (setArch s u ((archOf s u).branch (relTarget (archOf s u) f))) else .fault 0x2003 := by
  unfold archOf at hb
  simp only [brBody, hb, hd, archOf]
  rfl

end

/-- R98: a link is written before the loops that the target leaves end. -/
theorem branch_sput (a : Arch) (r : BitVec 5) (v t : W64) : (a.sput r v).branch t =
    { a.sput r v with pc := t, loops := a.loops.filter fun l => l.first ≤ t && t < l.stop } := by
  rw [Arch.branch, sput_loops]

/-- R98: a jump to a place in code, with a link. -/
def linked (s : State) (u : StreamId) (r : BitVec 5) (t : W64) : State :=
  jumped s u { (archOf s u).sput r ((archOf s u).pc + 8) with
    pc := t, loops := (archOf s u).loops.filter fun l => l.first ≤ t && t < l.stop }

theorem settleRes_branch (hu : u.slot < 3) (r : BitVec 5) (t : W64) :
    settleRes s u (.jump (setArch s u (((archOf s u).sput r ((archOf s u).pc + 8)).branch t))) = linked s u r t := by
  rw [branch_sput]
  exact finishJump_setArch hu _

/-- R98: the action of `jal`. -/
def jalBody (u : StreamId) (f : Fields) (s : State) : Res :=
  if f.src1 != 0 || f.src2 != 0 || f.mod != 0 then .fault 0x2002
  else if inCode (archOf s u) (relTarget (archOf s u) f) then
    .jump (setArch s u (((archOf s u).sput f.dst ((archOf s u).pc + 8)).branch (relTarget (archOf s u) f)))
  else .fault 0x2003

/-- R98: the action of `jalr`. -/
def jalrBody (u : StreamId) (f : Fields) (s : State) : Res :=
  if f.src2 != 0 || f.mod != 0 then .fault 0x2002
  else if !(inCode (archOf s u) (memOff (archOf s u) f)) then .fault 0x2003
  else if (memOff (archOf s u) f).toNat % 8 != 0 then .fault 0x2004
  else .jump (setArch s u (((archOf s u).sput f.dst ((archOf s u).pc + 8)).branch (memOff (archOf s u) f)))

theorem jal_eq (h : issues u .lane0 f [.s f.dst] s = true) : exec (.jal u f) s = .next (settleRes s u (jalBody u f s)) :=
  congrArg _ (issue_eq h (jalBody u f))

theorem jalr_eq (h : issues u .lane0 f [.s f.src1, .s f.dst] s = true) : exec (.jalr u f) s = .next (settleRes s u (jalrBody u f s)) :=
  congrArg _ (issue_eq h (jalrBody u f))

section
variable (h : issues u .lane0 f [.s f.dst] s = true) (h1 : f.src1 = 0) (h2 : f.src2 = 0) (hm : f.mod = 0)
include h h1 h2 hm

theorem jal_outside (hi : inCode (archOf s u) (relTarget (archOf s u) f) = false) : exec (.jal u f) s = .next (faulted s u 0x2003) := by
  have hb : jalBody u f s = .fault 0x2003 := by simp [jalBody, h1, h2, hm, hi]
  rw [jal_eq h, hb]
  rfl

theorem jal_jumps (hi : inCode (archOf s u) (relTarget (archOf s u) f) = true) :
    exec (.jal u f) s = .next (linked s u f.dst (relTarget (archOf s u) f)) := by
  rw [jal_eq h, ← settleRes_branch (slot_lt_of_issues h)]
  simp [jalBody, h1, h2, hm, hi]

end

section
variable (h : issues u .lane0 f [.s f.src1, .s f.dst] s = true) (h2 : f.src2 = 0) (hm : f.mod = 0)
include h h2 hm

theorem jalr_outside (hi : inCode (archOf s u) (memOff (archOf s u) f) = false) : exec (.jalr u f) s = .next (faulted s u 0x2003) := by
  have hb : jalrBody u f s = .fault 0x2003 := by simp [jalrBody, h2, hm, hi]
  rw [jalr_eq h, hb]
  rfl

variable (hi : inCode (archOf s u) (memOff (archOf s u) f) = true)
include hi

theorem jalr_misaligned (ho : (memOff (archOf s u) f).toNat % 8 ≠ 0) : exec (.jalr u f) s = .next (faulted s u 0x2004) := by
  have hb : jalrBody u f s = .fault 0x2004 := by simp [jalrBody, h2, hm, hi, ho]
  rw [jalr_eq h, hb]
  rfl

theorem jalr_jumps (ho : (memOff (archOf s u) f).toNat % 8 = 0) :
    exec (.jalr u f) s = .next (linked s u f.dst (memOff (archOf s u) f)) := by
  rw [jalr_eq h, ← settleRes_branch (slot_lt_of_issues h)]
  simp [jalrBody, h2, hm, hi, ho]

end

end

/-! ## Loops (R99) -/

section
variable {u : StreamId} {f : Fields} {s : State} {vl : Bool} (hm : f.mod = if vl then 1 else 0) (hd : f.dst = 0) (h2 : f.src2 = 0)
  (h1 : 1 ≤ f.imm.toNat) (h4096 : f.imm.toNat ≤ 4096) (hl : (archOf s u).loops.length < 2)
  (hp : (archOf s u).pc.toNat + 8 * (f.imm.toNat + 1) ≤ ((archOf s u).bget 0).len.toNat)
include hm hd h2 h1 h4096 hl hp

/-- R99: the iterations that an element count or an iteration count asks for. -/
def loopIters (vl : Bool) (cnt : W64) : W64 := if vl then BitVec.ofNat 64 ((cnt.toNat + 31) / 32) else cnt

/-- R99: the offset past a loop's body. -/
def loopStop (a : Arch) (f : Fields) : W64 := a.pc + BitVec.ofNat 64 (8 * (f.imm.toNat + 1))

/-- R99: a legal loop instruction passes its body or starts the loop. -/
theorem loopBody_eq : loopBody u f vl s =
    if loopIters vl ((archOf s u).sget f.src1) = 0 then
      .jump (setArch s u (loopBack (archOf s u) (loopStop (archOf s u) f) (archOf s u).loops))
    else .jump (setArch s u { archOf s u with
      pc := (archOf s u).pc + 8,
      loops := ⟨(archOf s u).pc + 8, loopStop (archOf s u) f, loopIters vl ((archOf s u).sget f.src1),
        if vl then some ((archOf s u).sget f.src1) else none⟩ :: (archOf s u).loops,
      vl := if vl then min 32 ((archOf s u).sget f.src1).toNat else (archOf s u).vl }) := by
  have hfields : (f.mod != (if vl then 1 else 0) || f.dst != 0 || f.src2 != 0) = false := by simp [hm, hd, h2]
  have hbody : (f.imm.toNat == 0 || f.imm.toNat > 4096 || decide ((archOf s u).loops.length ≥ 2)) = false := by
    simp only [Bool.or_eq_false_iff, beq_eq_false_iff_ne, decide_eq_false_iff_not]
    omega
  have hpc : ¬(archOf s u).pc.toNat + 8 * (f.imm.toNat + 1) > ((archOf s u).bget 0).len.toNat := not_lt.mpr hp
  unfold archOf at hbody hpc
  simp only [loopBody, hfields, hbody, hpc, beq_iff_eq]
  rfl

end

/-- R99: a count other than zero asks for an iteration. -/
theorem loopIters_eq_zero_iff (vl : Bool) (cnt : W64) : loopIters vl cnt = 0 ↔ cnt = 0 := by
  cases vl with
  | false => rfl
  | true =>
    have hlt := cnt.isLt
    have hzero : BitVec.toNat (0 : W64) = 0 := rfl
    rw [loopIters, if_pos rfl, ← BitVec.toNat_inj, ← BitVec.toNat_inj, BitVec.toNat_ofNat, hzero]
    omega

section
variable {a : Arch} {l : LoopRec} {r : List LoopRec} (ha : a.loops = l :: r)
include ha

theorem advance_inside (h : a.pc + 8 ≠ l.stop) : a.advance = { a with pc := a.pc + 8 } := by
  rw [Arch.advance, ha, loopBack, if_neg h.symm, ← ha]

theorem advance_again (he : l.elems = none) (h : a.pc + 8 = l.stop) (hn : 1 < l.left.toNat) :
    a.advance = { a with pc := l.first, loops := { l with left := l.left - 1 } :: r } := by
  rw [Arch.advance, ha, loopBack, if_pos h.symm, if_pos hn, he]

theorem advance_ends (h : a.pc + 8 = l.stop) (hn : l.left.toNat ≤ 1) (hr : r = []) :
    a.advance = { a with pc := a.pc + 8, loops := [] } := by
  rw [Arch.advance, ha, loopBack, if_pos h.symm, if_neg (not_lt.mpr hn), hr, loopBack]

end

end Sys2Proof.Machine

namespace Sys2Proof.Proofs

open Sys2Proof.Machine

/-- Settles O8: the condition's value (`brTaken_iff`), then whether the target lies in code. That `jalr` asks this before the
alignment of its target is log 45. -/
theorem branchAndJump : Obligations.BranchAndJump := by
  unfold Obligations.BranchAndJump
  intro u f s a x y t there
  refine ⟨fun h hd taken hcond => ?_, fun h h6 => ?_, fun h h1 h2 hm => ⟨jal_jumps h h1 h2 hm, jal_outside h h1 h2 hm⟩,
    fun h h2 hm => ⟨jalr_outside h h2 hm, jalr_misaligned h h2 hm, jalr_jumps h h2 hm⟩⟩
  · have out {r : Res} (hr : brBody u f s = r) : exec (.brCond u f) s = .next (settleRes s u r) :=
      congrArg _ ((issue_eq h _).trans (congrArg (settleRes s u) hr))
    obtain ⟨b, hb, htaken⟩ := brTaken_iff hcond
    rw [← htaken]
    cases b with
    | false => exact ⟨fun _ => out (brBody_passes hd hb), Bool.noConfusion, Bool.noConfusion⟩
    | true =>
      exact ⟨fun hf => absurd rfl hf,
        fun _ hi => (out ((brBody_taken hd hb).trans (if_pos hi))).trans (congrArg _ (finishJump_setArch (slot_lt_of_issues h) _)),
        fun _ hi => out ((brBody_taken hd hb).trans (if_neg (Bool.not_eq_true _ ▸ hi)))⟩
  · exact congrArg _ ((issue_eq h _).trans (congrArg (settleRes s u) (brBody_reserved h6)))

/-- Settles O9: `loopBody_eq` for the start, `loopBack` for the end of an iteration. -/
theorem loops : Obligations.Loops := by
  unfold Obligations.Loops
  constructor
  · intro u f s h hd h2 a n cnt stop h1 h4096 hl hp
    have hu := slot_lt_of_issues h
    have jump (b : Arch) : settleRes s u (.jump (setArch s u b)) = jumped s u b := finishJump_setArch hu b
    have pass (ha : a.loops = []) : settleRes s u (.jump (setArch s u (loopBack a stop a.loops))) = jumped s u { a with pc := stop } := by
      rw [jump, ha, loopBack, ← ha]
    have eq0 (vl : Bool) := loopIters_eq_zero_iff vl cnt
    constructor
    · intro hm
      have out : exec (.loop u f) s = .next (settleRes s u (loopBody u f false s)) := congrArg _ (issue_eq h _)
      rw [out, loopBody_eq (vl := false) hm hd h2 h1 h4096 hl hp]
      refine ⟨fun hc => ?_, fun hc ha => ?_⟩
      · rw [if_neg (mt (eq0 false).mp hc), jump]; rfl
      · rw [if_pos ((eq0 false).mpr hc)]; exact congrArg _ (pass ha)
    · intro hm
      have out : exec (.loopVl u f) s = .next (settleRes s u (loopBody u f true s)) := congrArg _ (issue_eq h _)
      rw [out, loopBody_eq (vl := true) hm hd h2 h1 h4096 hl hp]
      refine ⟨fun hc => ?_, fun hc ha => ?_⟩
      · rw [if_neg (mt (eq0 true).mp hc), jump]; rfl
      · rw [if_pos ((eq0 true).mpr hc)]; exact congrArg _ (pass ha)
  · exact fun a l r ha he => ⟨advance_inside ha, advance_again ha he, advance_ends ha⟩

end Sys2Proof.Proofs
end

section
/-! PROOFS. c-registers and base/bound pairs: O19 and O20. -/

namespace Sys2Proof.Machine

section
variable {u : StreamId} {f : Fields} {s : State}

/-! ## c-registers (R94, R95, R148) -/

/-- Table 4.3: no c-register has a number at or beyond 18. -/
theorem cregGet_none {n : Nat} (h : 18 ≤ n) : cregGet s u n = none := by
  obtain ⟨k, rfl⟩ := Nat.exists_eq_add_of_le' h
  rfl

/-- R99: outside loops no count is left. -/
theorem lc_of_no_loop {a : Arch} (h : a.loops = []) (inner : Bool) : a.lc inner = 0 := by
  cases inner <;> simp [Arch.lc, h]

/-- R99: one loop is an outer loop. -/
theorem lc_of_one_loop {a : Arch} {o : LoopRec} (h : a.loops = [o]) : a.lc false = o.left ∧ a.lc true = 0 := by
  simp [Arch.lc, h]

theorem lc_of_two_loops {a : Arch} {i o : LoopRec} (h : a.loops = [i, o]) : a.lc false = o.left ∧ a.lc true = i.left := by
  simp [Arch.lc, h]

section
variable (h2 : f.src2 = 0) (hm : f.mod = 0) (hi : f.imm = 0)
include h2 hm hi

theorem cgetBody_eq : cgetBody u f s = match cregGet s u f.src1.toNat with
    | none => .fault 0x2002
    | some v => .ok (setArch s u ((archOf s u).sput f.dst v)) := if_neg (by simp [h2, hm, hi])

theorem cget_reads (h : issues u .lane0 f [.s f.dst] s = true) {v : W64} (hv : cregGet s u f.src1.toNat = some v) :
    exec (.cget u f) s = .next (ran s u ((archOf s u).sput f.dst v)) := by
  have hb := cgetBody_eq (u := u) (s := s) h2 hm hi
  rw [hv] at hb
  exact congrArg _ ((issue_eq h _).trans ((congrArg _ hb).trans (finish_setArch (slot_lt_of_issues h) _)))

theorem cget_unknown (h : issues u .lane0 f [.s f.dst] s = true) (hn : 18 ≤ f.src1.toNat) :
    exec (.cget u f) s = .next (faulted s u 0x2002) := by
  have hb := cgetBody_eq (u := u) (s := s) h2 hm hi
  rw [cregGet_none hn] at hb
  exact congrArg _ ((issue_eq h _).trans (congrArg _ hb))

theorem csetBody_eq : csetBody u f s =
    if f.dst = 11 then .ok (setArch s u { archOf s u with sstat := (archOf s u).sget f.src1 &&& 3 })
    else if f.dst = 12 then .ok (setArch s u { archOf s u with vstat := (archOf s u).sget f.src1 &&& 0x3F })
    else .fault 0x2002 := by
  simp [csetBody, h2, hm, hi, archOf]

end

/-! ## Pairs (R93) -/

/-- R93: a field of two bits, in a register field, names a pair. -/
theorem pair_of_field {d : BitVec 5} {k : BitVec 2} (h : d = k.zeroExtend 5) : ¬ d.toNat > 3 ∧ d.extractLsb' 0 2 = k := by
  subst h
  exact ⟨by have := k.isLt; rw [BitVec.zeroExtend_eq_setWidth, BitVec.toNat_setWidth]; omega, by revert k; decide⟩

section
variable {k : BitVec 2} (hk : f.dst = k.zeroExtend 5) (hm : f.mod = 0) (hi : f.imm = 0)
include hk hm hi

theorem bnarBody_narrows
    (h : ((archOf s u).sget f.src1).toNat + ((archOf s u).sget f.src2).toNat ≤ ((archOf s u).bget k).len.toNat) :
    bnarBody u f s = .ok (setArch s u ((archOf s u).bput k { (archOf s u).bget k with
      base := ((archOf s u).bget k).base + (archOf s u).sget f.src1, len := (archOf s u).sget f.src2 })) := by
  obtain ⟨hle, hpair⟩ := pair_of_field hk
  unfold archOf at h
  simp [bnarBody, hle, hpair, hm, hi, BPair.narrow, archOf, h]

theorem bnarBody_outside
    (h : ((archOf s u).bget k).len.toNat < ((archOf s u).sget f.src1).toNat + ((archOf s u).sget f.src2).toNat) :
    bnarBody u f s = .fault 0x2003 := by
  obtain ⟨hle, hpair⟩ := pair_of_field hk
  unfold archOf at h
  simp [bnarBody, hle, hpair, hm, hi, BPair.narrow, not_le.mpr h]

end

theorem bnarBody_reserved (h : 4 ≤ f.dst.toNat ∨ f.mod ≠ 0) : bnarBody u f s = .fault 0x2002 := by
  have hfields : (decide (f.dst.toNat > 3) || f.mod != 0 || f.imm != 0) = true := by
    rcases h with h | h
    · simp [Nat.lt_of_succ_le h]
    · rw [bne_iff_ne.mpr h, Bool.or_true, Bool.true_or]
  exact if_pos hfields

theorem bgetBody_eq {k : BitVec 2} (hk : f.src1 = k.zeroExtend 5) (hm : f.mod.toNat ≤ 1) (h2 : f.src2 = 0) (hi : f.imm = 0) :
    bgetBody u f s = .ok (setArch s u ((archOf s u).sput f.dst
      (if f.mod = 0 then ((archOf s u).bget k).base else ((archOf s u).bget k).len))) := by
  obtain ⟨hle, hpair⟩ := pair_of_field hk
  have hfields : (decide (f.src1.toNat > 3) || decide (f.mod.toNat > 1) || f.src2 != 0 || f.imm != 0) = false := by
    simp [hle, hm, h2, hi]
  simp only [bgetBody, hfields, hpair, beq_iff_eq]
  rfl

theorem bgetBody_reserved (h : 4 ≤ f.src1.toNat ∨ 2 ≤ f.mod.toNat) : bgetBody u f s = .fault 0x2002 :=
  if_pos (by rcases h with h | h <;> simp [Nat.lt_of_succ_le h])

end

end Sys2Proof.Machine

namespace Sys2Proof.Proofs

open Sys2Proof.Machine

/-- Settles O19: Table 4.3 row by row (`cregGet`), and the two registers that `cset` writes. -/
theorem controlRegisterAccess : Obligations.ControlRegisterAccess := by
  unfold Obligations.ControlRegisterAccess
  intro u f s h2 hm hi c x
  constructor
  · intro h reads
    have row {n : Nat} (hn : n < 18) {v : W64} (hv : cregGet s u n = some v) (hf : f.src1.toNat = n) : reads v :=
      cget_reads h2 hm hi h (hf ▸ hv)
    have num {k : BitVec 5} (hk : f.src1 = k) : f.src1.toNat = k.toNat := congrArg _ hk
    have lc {n : Nat} {inner : Bool} {v : W64} (hv : x.arch.lc inner = v) (hr : cregGet s u n = some (x.arch.lc inner)) :
        cregGet s u n = some v := hv ▸ hr
    refine ⟨fun k => row (by decide) rfl (num k), fun k => row (by decide) rfl (num k), fun k => row (by decide) rfl (num k),
      fun k => row (by decide) rfl (num k), fun k => row (by decide) rfl (num k), fun k => row (by decide) rfl (num k),
      fun k => row (by decide) rfl (num k), fun k => row (by decide) rfl (num k), fun k => row (by decide) rfl (num k),
      fun k => row (by decide) rfl (num k), fun k => row (by decide) rfl (num k), fun k => row (by decide) rfl (num k),
      fun k => row (by decide) rfl (num k), fun k => row (by decide) rfl (num k), ?_, ?_, ?_, ?_,
      fun k => row (by decide) rfl (num k), fun k => row (by decide) rfl (num k), cget_unknown h2 hm hi h⟩
    · exact fun k hl => row (by decide) (lc (lc_of_no_loop hl false) rfl) (num k)
    · exact fun k hl => row (by decide) (lc (lc_of_no_loop hl true) rfl) (num k)
    · exact fun o hl => ⟨fun k => row (by decide) (lc (lc_of_one_loop hl).1 rfl) (num k),
        fun k => row (by decide) (lc (lc_of_one_loop hl).2 rfl) (num k)⟩
    · exact fun i o hl => ⟨fun k => row (by decide) (lc (lc_of_two_loops hl).1 rfl) (num k),
        fun k => row (by decide) (lc (lc_of_two_loops hl).2 rfl) (num k)⟩
  · intro h v
    have out : exec (.cset u f) s = .next (settleRes s u (csetBody u f s)) := congrArg _ (issue_eq h _)
    rw [out, csetBody_eq h2 hm hi]
    refine ⟨fun hd => ?_, fun hd => ?_, fun h11 h12 => ?_⟩
    · rw [if_pos hd]; exact congrArg _ (finish_setArch (slot_lt_of_issues h) _)
    · rw [if_neg (by rw [hd]; decide), if_pos hd]; exact congrArg _ (finish_setArch (slot_lt_of_issues h) _)
    · rw [if_neg h11, if_neg h12]; rfl

/-- Settles O20, by the equation of each body. -/
theorem pairNarrowAndRead : Obligations.PairNarrowAndRead := by
  unfold Obligations.PairNarrowAndRead
  intro u f s hi a
  refine ⟨?_, ?_, fun hr h => ?_, fun hr h => ?_⟩
  · intro k hk hm h b o n
    have out : exec (.bnar u f) s = .next (settleRes s u (bnarBody u f s)) := congrArg _ (issue_eq h _)
    rw [out]
    refine ⟨fun hin => ?_, fun hout => ?_⟩
    · rw [bnarBody_narrows hk hm hi hin]; exact congrArg _ (finish_setArch (slot_lt_of_issues h) _)
    · rw [bnarBody_outside hk hm hi hout]; rfl
  · intro k hk h2 h
    have out {v : W64} (hle : f.mod.toNat ≤ 1) (hv : (if f.mod = 0 then (a.bget k).base else (a.bget k).len) = v) :
        exec (.bget u f) s = .next (ran s u (a.sput f.dst v)) := by
      subst hv
      exact congrArg _ ((issue_eq h _).trans ((congrArg _ (bgetBody_eq hk hle h2 hi)).trans (finish_setArch (slot_lt_of_issues h) _)))
    exact ⟨fun hm => out (by simp [hm]) (if_pos hm), fun hm => out (by simp [hm]) (if_neg (by rw [hm]; decide))⟩
  · exact congrArg _ ((issue_eq h _).trans (congrArg _ (bnarBody_reserved hr)))
  · exact congrArg _ ((issue_eq h _).trans (congrArg _ (bgetBody_reserved hr)))

end Sys2Proof.Proofs
end

section
/-! PROOFS. Synchronisation objects in streams: O17. -/

namespace Sys2Proof.Machine

section
variable {u : StreamId} {f : Fields} {s : State} {b : Binding} (hb : (ctxOf s (coreOf s u.lcid).st.ctx).bind = some b)

/-! ## Objects of the context (R109, R327) -/

section
include hb

theorem soPhys_held {i n : Nat} (hi : i < b.quarters.length * 256) (hn : b.so? i = some n) : soPhys s u i = some n := by
  simp [soPhys, hb, Binding.soCount, hi, hn]

theorem soPhys_beyond {i : Nat} (hi : b.quarters.length * 256 ≤ i) : soPhys s u i = none := by
  simp [soPhys, hb, Binding.soCount, not_lt.mpr hi]

theorem casHeld_of_cso (hc : b.cso = true) {i : Nat} (hi : i < 4096) : casHeld s u i = true := by
  simp [casHeld, hb, hc, hi]

end

/-- R109: the waits of an object once slot `u` waits there. -/
def soWaiting (s : State) (u : StreamId) (n : Nat) (target : W64) : State :=
  { s with sos := fset n { soOf s n with
      waits := ((soOf s n).waits.filter fun w => match w with | .slot u' _ => u' != u | _ => true) ++ [.slot u target] } s.sos }

theorem soOf_soWaiting (n : Nat) (target : W64) :
    (soOf (soWaiting s u n target) n).v = (soOf s n).v ∧ .slot u target ∈ (soOf (soWaiting s u n target) n).waits := by
  simp [soOf, soWaiting]

section
variable (hm : f.mod = 0) {n : Nat} (hp : soPhys s u (soIndex (slotOf s u).arch f) = some n)
include hm hp

theorem sowBody_passes (hv : 0 ≤ ((soOf s n).v - (archOf s u).sget f.src2).toInt) :
    sowBody u f s = .ok (setArch s u ((archOf s u).sput f.dst (soOf s n).v)) := by
  have hmet : soMet (soOf s n).v ((slotOf s u).arch.sget f.src2) = true := decide_eq_true hv
  simp [sowBody, hm, hp, hmet, archOf]

theorem sowBody_waits (hv : ((soOf s n).v - (archOf s u).sget f.src2).toInt < 0) :
    sowBody u f s = .park (soWaiting s u n ((archOf s u).sget f.src2)) (.so n false f.dst ((archOf s u).sget f.src2)) := by
  have hmet : soMet (soOf s n).v ((slotOf s u).arch.sget f.src2) = false := decide_eq_false (not_le.mpr hv)
  simp only [sowBody, hm, hp, hmet]
  rfl

theorem sordBody_reads (h2 : f.src2 = 0) : sordBody u f s = .ok (setArch s u ((archOf s u).sput f.dst (soOf s n).v)) := by
  simp [sordBody, hm, h2, hp, archOf]

end

section
variable (hm : f.mod = 0) (hp : soPhys s u (soIndex (slotOf s u).arch f) = none)
include hm hp

theorem sowBody_beyond : sowBody u f s = .fault 0x2003 := by simp [sowBody, hm, hp]

theorem sordBody_beyond (h2 : f.src2 = 0) : sordBody u f s = .fault 0x2003 := by simp [sordBody, hm, h2, hp]

end

/-! ## Objects of the cascade (R298) -/

/-- Table 12.4: the state once slot `u` has asked the master for object `i` under a new request tag. -/
def casRequested (s : State) (u : StreamId) (i kind : Nat) (dst : BitVec 5) (target : W64) : State :=
  sendFrame { s with casc := { s.casc with reqCtr := (s.casc.reqCtr + 1) % 2 ^ 32,
                                           reqs := (s.casc.reqs.filter fun r => r.2.1 != u) ++ [(s.casc.reqCtr, u, dst)] } }
    s.casc.master { ty := 2, code := 4, spec := leBytes 2 i ++ leBytes 2 kind ++ leBytes 4 s.casc.reqCtr ++ leBytes 8 target.toNat }

theorem casAsk_active (ha : s.casc.active = true) (i kind : Nat) (dst : BitVec 5) (target : W64) :
    casAsk s u i kind dst target = casRequested s u i kind dst target := if_neg (by simp [ha])

theorem casAsk_inactive (ha : s.casc.active = false) (i kind : Nat) (dst : BitVec 5) (target : W64) :
    casAsk s u i kind dst target = s := if_pos (by simp [ha])

/-- R298: what an instruction that asks for `w` at the master answers, by whether it asked before. -/
def askOnce (s : State) (u : StreamId) (i kind : Nat) (dst : BitVec 5) (target : W64) (w : Wait) : Res :=
  if (slotOf s u).wait == some w && casAsked s u then .wait w else .park (casAsk s u i kind dst target) w

section
variable {i kind : Nat} {dst : BitVec 5} {target : W64} {w : Wait}

theorem askOnce_first (ha : s.casc.active = true) (hw : (slotOf s u).wait ≠ some w ∨ ∀ r ∈ s.casc.reqs, r.2.1 ≠ u) :
    askOnce s u i kind dst target w = .park (casRequested s u i kind dst target) w := by
  have hnew : ((slotOf s u).wait == some w && casAsked s u) = false := by
    rcases hw with hw | hw
    · rw [beq_eq_false_iff_ne.mpr hw, Bool.false_and]
    · have hnone : (s.casc.reqs.any fun r => r.2.1 == u) = false := by simpa using hw
      rw [casAsked, hnone, Bool.and_false, Bool.and_false]
  rw [askOnce, hnew, casAsk_active ha]
  rfl

/-- R298, log 54: without a running cascade nothing is asked. -/
theorem settleRes_askOnce_inactive (ha : s.casc.active = false) : settleRes s u (askOnce s u i kind dst target w) = park s u w := by
  rw [askOnce, casAsk_inactive ha]
  split_ifs <;> rfl

/-- R298: an instruction whose request waits for its answer asks nothing more. -/
theorem settleRes_askOnce_again (hw : (slotOf s u).wait = some w) (hr : ∃ r ∈ s.casc.reqs, r.2.1 = u) :
    settleRes s u (askOnce s u i kind dst target w) = park s u w := by
  cases ha : s.casc.active with
  | false => exact settleRes_askOnce_inactive ha
  | true =>
    have hasked : casAsked s u = true := by simpa [casAsked, ha] using hr
    rw [askOnce, if_pos (by rw [hw, hasked, beq_self_eq_true, Bool.and_true])]
    rfl

end

section
variable (hm : f.mod = 1) (hc : casHeld s u (soIndex (slotOf s u).arch f) = true)
include hm hc

theorem sowCBody_eq : sowCBody u f s = askOnce s u (soIndex (archOf s u) f) 0 f.dst ((archOf s u).sget f.src2)
    (.so (soIndex (archOf s u) f) true f.dst ((archOf s u).sget f.src2)) :=
  (if_neg (by simp [hm])).trans (if_neg (by simp [hc]))

theorem sordCBody_eq (h2 : f.src2 = 0) : sordCBody u f s = askOnce s u (soIndex (archOf s u) f) 1 f.dst 0
    (.soRead (soIndex (archOf s u) f) f.dst) :=
  (if_neg (by simp [hm, h2])).trans (if_neg (by simp [hc]))

end

end

end Sys2Proof.Machine

namespace Sys2Proof.Proofs

open Sys2Proof.Machine

/-- Settles O17: the object an index names (`soPhys`), and for the cascade's objects what is asked once (`askOnce`). That nothing is
asked without a running cascade is log 54. -/
theorem objectInstructions : Obligations.ObjectInstructions := by
  unfold Obligations.ObjectInstructions
  constructor
  · intro u f s b a i hb hm
    constructor
    · intro h
      have out {r : Res} (hr : sowBody u f s = r) : exec (.sow u f) s = .next (settleRes s u r) :=
        congrArg _ ((issue_eq h _).trans (congrArg (settleRes s u) hr))
      refine ⟨?_, fun hi => out (sowBody_beyond hm (soPhys_beyond hb hi))⟩
      intro n hi hn v
      refine ⟨fun hv => ?_, fun hv => ?_⟩
      · exact (out (sowBody_passes hm (soPhys_held hb hi hn) hv)).trans (congrArg _ (finish_setArch (slot_lt_of_issues h) _))
      · obtain ⟨hval, hwait⟩ := soOf_soWaiting (s := s) (u := u) n (a.sget f.src2)
        exact ⟨_, out (sowBody_waits hm (soPhys_held hb hi hn) hv), slotOf_putSlot _ _ _ (slot_lt_of_issues h), hval, hwait⟩
    · intro h h2
      have out {r : Res} (hr : sordBody u f s = r) : exec (.sord u f) s = .next (settleRes s u r) :=
        congrArg _ ((issue_eq h _).trans (congrArg (settleRes s u) hr))
      exact ⟨fun n hi hn => (out (sordBody_reads hm (soPhys_held hb hi hn) h2)).trans
        (congrArg _ (finish_setArch (slot_lt_of_issues h) _)), fun hi => out (sordBody_beyond hm (soPhys_beyond hb hi) h2)⟩
  · intro u f s b a i hb hc hi hm tag asked
    have hheld := casHeld_of_cso hb hc hi
    constructor
    · intro h w
      have out {t : State} (ht : settleRes s u (askOnce s u i 0 f.dst (a.sget f.src2) w) = t) : exec (.sowC u f) s = .next t :=
        congrArg _ ((issue_eq h _).trans ((congrArg (settleRes s u) (sowCBody_eq hm hheld)).trans ht))
      exact ⟨fun ha hw => out (congrArg (settleRes s u) (askOnce_first ha hw)), fun hw hr => out (settleRes_askOnce_again hw hr),
        fun ha => out (settleRes_askOnce_inactive ha)⟩
    · intro h h2 w
      have out {t : State} (ht : settleRes s u (askOnce s u i 1 f.dst 0 w) = t) : exec (.sordC u f) s = .next t :=
        congrArg _ ((issue_eq h _).trans ((congrArg (settleRes s u) (sordCBody_eq hm hheld h2)).trans ht))
      exact ⟨fun ha hw => out (congrArg (settleRes s u) (askOnce_first ha hw)), fun hw hr => out (settleRes_askOnce_again hw hr),
        fun ha => out (settleRes_askOnce_inactive ha)⟩

end Sys2Proof.Proofs
end

section
/-! PROOFS. Loads and `fence`: O11. -/

namespace Sys2Proof.Machine

/-- R9: a number of `n` bytes is below 256^n. -/
theorem leNat_lt (bs : List W8) : leNat bs < 256 ^ bs.length := by
  induction bs with
  | nil => exact Nat.one_pos
  | cons b r ih =>
    have hb := b.isLt
    rw [leNat, List.length_cons, Nat.pow_succ]
    omega

@[simp] theorem length_bytesAt (s : State) (a n : Nat) : (bytesAt s a n).length = n := by
  simp [bytesAt, span]

/-- R103: a loaded value of `w` bytes, sign-extended. -/
theorem extendLoad_signed {w v : Nat} (h : v < 256 ^ w) : extendLoad w false v =
    BitVec.ofInt 64 (if v < 2 ^ (8 * w - 1) then (v : Int) else (v : Int) - 2 ^ (8 * w)) := by
  have hlt : v < 2 ^ (8 * w) := by rwa [Nat.pow_mul]
  rw [extendLoad, if_neg Bool.false_ne_true, fromTwos, Nat.mod_eq_of_lt hlt]

@[simp] theorem vput_vget (a : Arch) (r : BitVec 5) : a.vput r (a.vget r) = a := by
  simp [Arch.vput, Arch.vget]

/-! ## Loads from the own well (R103, R104, R146) -/

/-- R144: the lanes that an instruction writes, as a list. -/
theorem lanesBecome_eq_setLanes (a : Arch) (f : Fields) (g : Nat → W32) :
    lanesBecome a f g = a.vput f.dst (setLanes (a.vget f.dst) ((activeLanes a f.mask).map fun i => (i, g i))) := by
  rw [setLanes_activeLanes]
  rfl

/-- R103, R144: words loaded into the active lanes, none of which a later instruction has written. -/
theorem putLoaded_lanes (a : Arch) (f : Fields) (addr : Nat) (get : Nat → W8) (at_ : Nat → Nat) :
    putLoaded a addr get (.vreg f.dst ((activeLanes a f.mask).map fun i => (i, at_ i))) =
      lanesBecome a f fun i => BitVec.ofNat 32 (leNat ((span (at_ i) 4).map get)) := by
  have hall (x : W32) : x &&& 4294967295#32 = x := BitVec.and_allOnes
  rw [lanesBecome_eq_setLanes]
  simp [putLoaded, setLanes, List.foldl_map, fget, hall]

section
variable {s : State} {u : StreamId}

/-- R104: unpoisoned bytes enter the register at once. -/
theorem loadOwn_good {addr : Nat} {dst : LoadDst} (h : ∀ a ∈ dstBytes addr dst, badAt s a = false) :
    loadOwn s u addr dst [] = setArch s u (putLoaded (archOf s u) addr (byteAt s) dst) := by
  have hbad : (dstBytes addr dst).any (badAt s) = false := List.any_eq_false.mpr fun a ha => Bool.not_eq_true _ ▸ h a ha
  simp [loadOwn, hbad, archOf]

theorem doLoad_own {addr : Nat} {dst : LoadDst} (ho : ∀ a ∈ dstBytes addr dst, ownWell u.lcid a = true)
    (h : ∀ a ∈ dstBytes addr dst, badAt s a = false) :
    doLoad s u addr dst [] = .ok (setArch s u (putLoaded (archOf s u) addr (byteAt s) dst)) := by
  rw [doLoad, if_pos (List.all_eq_true.mpr ho), loadOwn_good h]

/-! ## Loads from LPDDR (R106, R170) -/

/-- A run of entries that no wanted address names leaves the map as it is. -/
theorem foldl_fset_unwanted {want : Nat → Bool} {bs : FMap W8} (h : ∀ e ∈ bs, want e.1 = false) (m : FMap W8) :
    bs.foldl (fun m e => if want e.1 then fset e.1 e.2 m else m) m = m := by
  induction bs with
  | nil => rfl
  | cons e r ih =>
    obtain ⟨he, hr⟩ := List.forall_mem_cons.mp h
    rw [List.foldl_cons, he, if_neg Bool.false_ne_true, ih hr]

/-- Writing a core back changes nothing that a later change of its slot does not. -/
theorem putSlot_putCore_self (s : State) (u : StreamId) (x : SlotSt) : putSlot (putCore s u.lcid (coreOf s u.lcid)) u x = putSlot s u x := by
  rw [putSlot, putSlot, coreOf_putCore, putCore_putCore]

/-- A slot issues an instruction that has changed it and sent a message. -/
theorem finish_emit_putSlot (hu : u.slot < 3) (x : SlotSt) (m : Msg) :
    finish (emit (putSlot s u x) m) u = emit (putSlot s u { x with wait := none, arch := x.arch.advance }) m := by
  have hslot : slotOf (emit (putSlot s u x) m) u = x := slotOf_putSlot s u x hu
  rw [finish, hslot]
  exact congrArg (emit · m) (putSlot_putSlot s u _ x)

/-- R106: the load that a slot leaves outstanding. -/
def farLoad (x : SlotSt) (addr len : Nat) (dst : LoadDst) : Load :=
  { id := x.loadCtr, addr := addr, len := len, dst := dst, seq := x.opn.seq, pc := x.arch.pc }

/-- R106: a load of LPDDR, without a cache partition or gated bytes there, stays outstanding. -/
theorem loadFar_eq {addr ch : Nat} {dst : LoadDst} (hr : regionOf s addr = .lpddr ch) (hw : (coreOf s u.lcid).wcache = 0)
    (hne : dstBytes addr dst ≠ []) (hg : ∀ e ∈ gatedBytes (slotOf s u), e.1 ∉ dstBytes addr dst) : loadFar s u addr dst [] =
      if 16 ≤ (slotOf s u).loads.length then .wait .loadSlot
      else .ok (emit (putSlot s u { slotOf s u with
          loads := (slotOf s u).loads ++ [farLoad (slotOf s u) addr (dstBytes addr dst).length dst], loadCtr := (slotOf s u).loadCtr + 1 })
        (.mem (cistOfChan ch) (.load u (slotOf s u).loadCtr (coreOf s u.lcid).st))) := by
  have hcache : (dstBytes addr dst).filter (cacheable s u.lcid) = [] :=
    List.filter_eq_nil_iff.mpr fun a _ => by simp [cacheable, hw]
  have hknown := foldl_fset_unwanted (want := (dstBytes addr dst).contains) (bs := gatedBytes (slotOf s u))
    (fun e he => by simpa using hg e he) []
  have hsome : (dstBytes addr dst).all (fun a => (fget? a ([] : FMap W8)).isSome) = false := by
    obtain ⟨a, r, har⟩ := List.exists_cons_of_ne_nil hne
    simp [har]
  have hslot : slotOf (putCore s u.lcid (coreOf s u.lcid)) u = slotOf s u := by rw [slotOf, coreOf_putCore, slotOf]
  have herrs : cacheErrs s u.lcid [] [] = s := rfl
  rw [← putSlot_putCore_self]
  simp only [loadFar, hcache, List.map_nil, linesOf, List.foldl_nil, herrs, List.filter_nil, hknown, hsome, hslot, hr]
  rfl

/-! ## `ld`, `vld` and `fence` -/

/-- R101: a legal `ld`. -/
theorem ldBody_eq {f : Fields} (h2 : f.src2 = 0) (h5 : f.mod.getLsbD 5 = false)
    (ha : accessOk s u.lcid ((archOf s u).bget (memPair f)) (memOff (archOf s u) f).toNat (accWidth f) false = true)
    (he : pairAddr ((archOf s u).bget (memPair f)) (memOff (archOf s u) f).toNat % accWidth f = 0) (errs : List SymErr) :
    ldBody u f errs s = doLoad s u (pairAddr ((archOf s u).bget (memPair f)) (memOff (archOf s u) f).toNat)
      (.sreg f.dst (accWidth f) (f.mod.getLsbD 4)) errs := by
  unfold archOf at ha he
  exact (if_neg (ldBody_fields h2 h5)).trans ((if_neg (by simp [ha])).trans (if_neg (by simp [he])))

/-- R249: a `ld` that leaves its stitch as it is shows its effect. -/
theorem ld_shown {f : Fields} (h : issues u .lane0 f [.s f.src1, .s f.dst] s = true) {t : State}
    (ht : settleRes s u (ldBody u f [] s) = t) (hopn : (slotOf t u).opn = (slotOf s u).opn) :
    exec (.ld u f []) s = .next (publish s t) :=
  shown_eq (withLoss_eq ((issue_eq h _).trans ht) (congrArg (·.poison) hopn) (congrArg (·.seq) hopn))

/-- R103, R104: a legal `ld` from the own well reads its bytes at once. -/
theorem ld_own {f : Fields} (h : issues u .lane0 f [.s f.src1, .s f.dst] s = true) (h2 : f.src2 = 0) (h5 : f.mod.getLsbD 5 = false)
    {ea : Nat} (hea : pairAddr ((archOf s u).bget (memPair f)) (memOff (archOf s u) f).toNat = ea)
    (ha : accessOk s u.lcid ((archOf s u).bget (memPair f)) (memOff (archOf s u) f).toNat (accWidth f) false = true)
    (he : ea % accWidth f = 0) (ho : ∀ i < accWidth f, ownWell u.lcid (ea + i) = true) (hg : ∀ i < accWidth f, badAt s (ea + i) = false) :
    exec (.ld u f []) s = .next (publish s (ran s u ((archOf s u).sput f.dst
      (extendLoad (accWidth f) (f.mod.getLsbD 4) (leNat (bytesAt s ea (accWidth f))))))) := by
  subst hea
  have hload := doLoad_own (dst := .sreg f.dst (accWidth f) (f.mod.getLsbD 4))
    (List.forall_mem_map.mpr fun i hi => ho i (List.mem_range.mp hi)) (List.forall_mem_map.mpr fun i hi => hg i (List.mem_range.mp hi))
  have hbody := (ldBody_eq h2 h5 ha he []).trans hload
  exact ld_shown h ((congrArg (settleRes s u) hbody).trans (finish_setArch (slot_lt_of_issues h) _)) (by rw [slotOf_ran (slot_lt_of_issues h)])

theorem vld_shown {f : Fields} (h : issues u .lanes f [.s f.src1, .w f.dst] s = true) {t : State}
    (ht : settleRes s u (vldBody u f [] s) = t) (hopn : (slotOf t u).opn = (slotOf s u).opn) :
    exec (.vld u f []) s = .next (publish s t) :=
  shown_eq (withLoss_eq ((issueOver_eq h (by simp) _ _).trans ht) (congrArg (·.poison) hopn) (congrArg (·.seq) hopn))

/-- R146: active lanes with access to aligned words raise nothing. -/
theorem laneFault_none {a : Arch} {f : Fields} {write : Bool} (hok : ∀ i < 32, laneOn a f.mask i = true →
    accessOk s u.lcid (a.bget (memPair f)) ((memOff a f).toNat + 4 * i) 4 write = true ∧ laneAddr a f i % 4 = 0) :
    laneFault s u.lcid (a.bget (memPair f)) (laneOffs a f) write = none := by
  have hlane {q : Nat × Nat → Bool} (hq : ∀ i < 32, laneOn a f.mask i = true → q (i, (memOff a f).toNat + 4 * i) = false) :
      (laneOffs a f).any q = false := by
    refine List.any_eq_false.mpr fun e he => ?_
    obtain ⟨i, hi, rfl⟩ := List.mem_map.mp he
    obtain ⟨h32, hon⟩ := mem_activeLanes.mp hi
    exact Bool.not_eq_true _ ▸ hq i h32 hon
  have haccess : (laneOffs a f).any (fun l => !(accessOk s u.lcid (a.bget (memPair f)) l.2 4 write)) = false :=
    hlane fun i hi hon => by simp [(hok i hi hon).1]
  have halign : (laneOffs a f).any (fun l => pairAddr (a.bget (memPair f)) l.2 % 4 != 0) = false :=
    hlane fun i hi hon => bne_eq_false_iff_eq.mpr (hok i hi hon).2
  rw [laneFault, haccess, halign]
  rfl

/-- R144: an instruction without an active lane leaves the image as it is. -/
theorem lanesBecome_inactive {a : Arch} {f : Fields} (h : activeLanes a f.mask = []) (g : Nat → W32) : lanesBecome a f g = a := by
  rw [lanesBecome_eq_setLanes, h]
  exact vput_vget a f.dst

/-- R101, R146: the active lanes with the addresses of their words. -/
def laneWords (a : Arch) (f : Fields) : List (Nat × Nat) := (activeLanes a f.mask).map fun i => (i, laneAddr a f i)

theorem laneOffs_addresses (a : Arch) (f : Fields) :
    (laneOffs a f).map (fun l => (l.1, pairAddr (a.bget (memPair f)) l.2)) = laneWords a f := by
  simp [laneOffs, laneWords, laneAddr]

theorem mem_laneWords_bytes {a : Arch} {f : Fields} {addr x : Nat} (h : x ∈ dstBytes addr (.vreg f.dst (laneWords a f))) :
    ∃ i < 32, laneOn a f.mask i = true ∧ ∃ k < 4, x = laneAddr a f i + k := by
  simp only [dstBytes, laneWords, List.mem_flatMap, List.mem_map] at h
  obtain ⟨e, ⟨i, hi, rfl⟩, he⟩ := h
  obtain ⟨h32, hon⟩ := mem_activeLanes.mp hi
  obtain ⟨k, hk, rfl⟩ := List.mem_map.mp he
  exact ⟨i, h32, hon, k, List.mem_range.mp hk, rfl⟩

section
variable {f : Fields} (h2 : f.src2 = 0) (hm : f.mod.toNat / 4 = 2) (errs : List SymErr)
include h2 hm

/-- R144: a `vld` without an active lane loads nothing. -/
theorem vldBody_inactive (h : activeLanes (archOf s u) f.mask = []) : vldBody u f errs s = .ok s := by
  have hl : laneOffs (archOf s u) f = [] := List.map_eq_nil_iff.mpr h
  unfold archOf at hl
  simp only [vldBody, h2, hm, hl]
  rfl

/-- R146: a legal `vld` loads the words of its active lanes. -/
theorem vldBody_active (h : activeLanes (archOf s u) f.mask ≠ [])
    (hfault : laneFault s u.lcid ((archOf s u).bget (memPair f)) (laneOffs (archOf s u) f) false = none) :
    ∃ addr, vldBody u f errs s = doLoad s u addr (.vreg f.dst (laneWords (archOf s u) f)) errs := by
  obtain ⟨l, r, hl⟩ := List.exists_cons_of_ne_nil (mt List.map_eq_nil_iff.mp h : laneOffs (archOf s u) f ≠ [])
  rw [← laneOffs_addresses, hl]
  unfold archOf at hl hfault ⊢
  rw [hl] at hfault
  refine ⟨pairAddr ((slotOf s u).arch.bget (memPair f)) l.2, ?_⟩
  simp only [vldBody, h2, hm, hl, hfault]
  exact if_neg (by decide)

end

/-- R103, R146: a legal `vld` from the own well loads the words of its active lanes. -/
theorem vld_own {f : Fields} (hu : u.slot < 3) (h2 : f.src2 = 0) (hm : f.mod.toNat / 4 = 2)
    (hok : ∀ i < 32, laneOn (archOf s u) f.mask i = true →
      accessOk s u.lcid ((archOf s u).bget (memPair f)) ((memOff (archOf s u) f).toNat + 4 * i) 4 false = true ∧
      laneAddr (archOf s u) f i % 4 = 0 ∧ ∀ k < 4, ownWell u.lcid (laneAddr (archOf s u) f i + k) = true ∧
        badAt s (laneAddr (archOf s u) f i + k) = false) :
    settleRes s u (vldBody u f [] s) =
      ran s u (lanesBecome (archOf s u) f fun i => BitVec.ofNat 32 (leNat (bytesAt s (laneAddr (archOf s u) f i) 4))) := by
  have hfault : laneFault s u.lcid ((archOf s u).bget (memPair f)) (laneOffs (archOf s u) f) false = none :=
    laneFault_none fun i hi hon => ⟨(hok i hi hon).1, (hok i hi hon).2.1⟩
  by_cases hact : activeLanes (archOf s u) f.mask = []
  · rw [vldBody_inactive h2 hm [] hact, lanesBecome_inactive hact]
    exact finish_eq_ran s u
  · obtain ⟨addr, hbody⟩ := vldBody_active h2 hm [] hact hfault
    have hbytes {x : Nat} (hx : x ∈ dstBytes addr (.vreg f.dst (laneWords (archOf s u) f))) :
        ownWell u.lcid x = true ∧ badAt s x = false := by
      obtain ⟨i, hi, hon, k, hk, rfl⟩ := mem_laneWords_bytes hx
      exact (hok i hi hon).2.2 k hk
    rw [hbody, doLoad_own (fun x hx => (hbytes hx).1) fun x hx => (hbytes hx).2, laneWords, putLoaded_lanes]
    exact finish_setArch hu _

/-- R107: `fence` waits for outstanding loads where its mod asks for it. -/
theorem fenceBody_eq {f : Fields} (hm : f.mod.toNat ≤ 2) (hi : f.imm = 0) (hd : f.dst = 0) (h1 : f.src1 = 0) (h2 : f.src2 = 0) :
    fenceBody u f s = if f.mod ≠ 2 ∧ (slotOf s u).loads ≠ [] then .wait .fence else .ok s := by
  have hfields : (decide (f.mod.toNat > 2) || f.imm != 0 || f.dst != 0 || f.src1 != 0 || f.src2 != 0) = false := by
    simp [hm, hi, hd, h1, h2]
  simp only [fenceBody, hfields, Bool.and_eq_true, bne_iff_ne, Bool.not_eq_true', List.isEmpty_eq_false_iff]
  rfl

end

end Sys2Proof.Machine

namespace Sys2Proof.Proofs

open Sys2Proof.Machine

/-- Settles O11: loads of the own well by `doLoad_own` and `vld_own`, a load of LPDDR by `loadFar_eq`. -/
theorem loads : Obligations.Loads := by
  unfold Obligations.Loads
  refine ⟨?_, ?_, ?_⟩
  · intro u f s a b off
    constructor
    · intro h h2 h5 w ea ha he ho hg v
      have hload := ld_own h h2 h5 rfl ha he ho hg
      have hv : v < 256 ^ w := length_bytesAt s ea w ▸ leNat_lt (bytesAt s ea w)
      refine ⟨fun hz => ?_, fun hz => ?_⟩
      · rw [hz] at hload; exact hload
      · rw [hz] at hload; rw [← extendLoad_signed hv]; exact hload
    · intro h h2 hm hok
      have hu := slot_lt_of_issues h
      have hopn {v : Arch} : (slotOf (ran s u v) u).opn = (slotOf s u).opn := by rw [slotOf_ran hu]
      refine ⟨_, vld_shown h (vld_own hu h2 hm hok) hopn, fun i hi => ?_⟩
      exact Vector.getElem_ofFn ..
  · intro u f s ch h h2 h5 x b off w ea ha he hr hw hg
    have hu := slot_lt_of_issues h
    have hpos : 0 < w := accWidth_pos f
    have hmem {k : Nat} : k ∈ span ea w ↔ ea ≤ k ∧ k < ea + w := mem_span
    have hfar : ownWell u.lcid ea = false := Bool.eq_false_iff.mpr fun hown => by
      rw [regionOf_ownWell s (lcid_lt_of_issues h) hown] at hr
      exact nomatch hr
    have hbody : ldBody u f [] s = loadFar s u ea (.sreg f.dst w (f.mod.getLsbD 4)) [] :=
      (ldBody_eq h2 h5 ha he []).trans (if_neg fun hall =>
        absurd (List.all_eq_true.mp hall ea (hmem.mpr ⟨le_rfl, by omega⟩)) (Bool.eq_false_iff.mp hfar))
    have hload := loadFar_eq (dst := .sreg f.dst w (f.mod.getLsbD 4)) hr hw
      (List.ne_nil_of_mem (hmem.mpr ⟨le_rfl, by omega⟩)) fun e he' hin => by
        have := hmem.mp hin
        have := hg e he'
        omega
    have hlen : (dstBytes ea (.sreg f.dst w (f.mod.getLsbD 4))).length = w := by simp [dstBytes, span]
    rw [hlen] at hload
    refine ⟨fun hfew => ?_, fun hmany => ?_⟩
    · refine ⟨_, farLoad x ea w (.sreg f.dst w (f.mod.getLsbD 4)), ld_shown h (t := emit (putSlot s u _) _) ?_ ?_, rfl, rfl, rfl, rfl, rfl, rfl, rfl, rfl⟩
      · rw [hbody, hload, if_neg (not_le.mpr hfew)]
        exact finish_emit_putSlot hu _ _
      · exact congrArg (·.opn) (slotOf_putSlot s u _ hu)
    · refine ld_shown h (t := park s u .loadSlot) ?_ (congrArg (·.opn) (slotOf_putSlot s u _ hu))
      rw [hbody, hload, if_pos hmany]
      rfl
  · intro u f s h hm hi hd h1 h2
    have out : exec (.fence u f) s = .next (settleRes s u (fenceBody u f s)) := congrArg _ (issue_eq h _)
    rw [out, fenceBody_eq hm hi hd h1 h2]
    refine ⟨fun hdone => ?_, fun hl hm2 => ?_⟩
    · rw [if_neg (fun hw => hdone.elim hw.2 hw.1)]; rfl
    · rw [if_pos ⟨hm2, hl⟩]; rfl

end Sys2Proof.Proofs
end

section
/-! PROOFS. Requests at a cistern: O38. -/

namespace Sys2Proof.Machine

/-- Beside entry 64 of the contexts, as in `dropAtCtx64`, context 0 holds the LPDDR range from address 0. -/
def cisternAtCtx64 : State :=
  { dropAtCtx64 with ctxs := [(0, { bind := some { lpr := [⟨0, 16, 4⟩] }, held := 1 }), (64, { held := 1 })] }

/-- A store of eight bytes to that range under a stamp of context 64. -/
def storeCtx64 : MemReq := .store 0 [(0, leBytes 8 0)] ⟨64, 1⟩

/-- The state once the store has left the mesh and its drop has been counted. -/
def storeDropped : State := dropItem (arrive cisternAtCtx64 (.mem 0 storeCtx64))

theorem meshHolds_storeCtx64 : meshHolds cisternAtCtx64 (.mem 0 storeCtx64) = false := by decide +kernel

/-- HALTED before the drop: the count reads 3. -/
theorem ctxState_cisternAtCtx64 : ctxState cisternAtCtx64 64 = 3 := by decide +kernel

/-- EMPTY after it: the count reads 4. -/
theorem ctxState_storeDropped : ctxState storeDropped 64 = 0 := by decide +kernel

/-- R324: a store that waits for nothing and whose stamp is not its owner's is dropped. -/
theorem cistTake_store_stale {s : State} {cn src : Nat} {p : Nat × List W8} {ps : List (Nat × List W8)} {st : Stamp}
    (hmesh : meshHolds s (.mem cn (.store src (p :: ps) st)) = false) (hwaits : storeWaits s (p :: ps) = none)
    (howner : (ownerStamp (arrive s (.mem cn (.store src (p :: ps) st))) p.1 != some st) = true) :
    cistTake cn (.store src (p :: ps) st) [] s = dropFrom (arrive s (.mem cn (.store src (p :: ps) st))) st := by
  simp only [cistTake, hmesh, hwaits, Bool.false_eq_true, if_false]
  exact if_pos howner

theorem exec_storeCtx64 : exec (.cisternRequest 0 storeCtx64 []) cisternAtCtx64 =
    .next (publish cisternAtCtx64 (contextFault storeDropped 64 0x6101)) := by
  have htake : cistTake 0 storeCtx64 [] cisternAtCtx64 = dropFrom (arrive cisternAtCtx64 (.mem 0 storeCtx64)) ⟨64, 1⟩ :=
    cistTake_store_stale meshHolds_storeCtx64 (by decide +kernel) (by decide +kernel)
  exact shown_eq (htake.trans (dropFrom_fault (by decide) rfl (ne_of_eq_of_ne ctxState_storeDropped (by decide))))

/-- R321: the fault halts the context, which enters the journal. -/
theorem journal_storeCtx64 : (contextFault storeDropped 64 0x6101).journal ≠ storeDropped.journal := by
  have h : ((contextFault storeDropped 64 0x6101).journal.length == storeDropped.journal.length) = false := by decide +kernel
  exact fun e => by simp [e] at h

end Sys2Proof.Machine

namespace Sys2Proof.Proofs

open Sys2Proof.Machine

/-- Refutes O38: a store dropped under a stamp of context 64, beyond the 64 contexts. Its FN_CTX register would be FN_GEN_DROP, whose
count of 3 reads as HALTED before the drop and of 4 as EMPTY after it, so that the context faults where the statement has the drop
alone. For the 64 contexts that exist the two registers are apart. -/
theorem not_cisternRequests : ¬ Obligations.CisternRequests := by
  unfold Obligations.CisternRequests
  intro h
  obtain ⟨-, hstore, -⟩ := h cisternAtCtx64 0 0 0 0 ⟨64, 1⟩ 0 0 ⟨0, 16, 4⟩ (by decide +kernel) rfl rfl rfl rfl (by decide +kernel)
    (by decide +kernel) (by decide +kernel)
  obtain ⟨-, -, hdrop⟩ := hstore meshHolds_storeCtx64
  have heq := (hdrop (by decide +kernel) (.inr (.inr ctxState_cisternAtCtx64))).symm.trans exec_storeCtx64
  exact journal_storeCtx64 (congrArg State.journal (Host.Outcome.next.inj heq)).symm

end Sys2Proof.Proofs
end

section
/-! PROOFS. Copies, queries and `sync`: O41. -/

namespace Sys2Proof.Machine

/-! ## Copies (R390) -/

/-- A write to host memory, where no mark stands, while the link is up. -/
theorem hostStore_up {s : State} (hup : s.boot.cxlUp = true) (hp : s.hostPoison = []) (bs : List (Nat × W8)) :
    hostStore s bs = { s with mem := cellSets memDefault bs s.mem } := by
  simp [hostStore, hup, hp]

/-- R390: an unpoisoned line goes to host memory as it reads, and nothing is reported. -/
theorem copyLine_host {s : State} {src dst : Nat} {m : CopyMet} (hdst : regionOf s dst = .host) (hgood : anyBad s src 64 = false) :
    copyLine src dst (s, m) = (hostStore s (atAddr dst (bytesAt s src 64)), m) := by
  simp [copyLine, hdst, hgood]

/-- A run of bytes that lies in host memory without marks reads as memory holds it. -/
theorem bytesAt_host {s : State} {a n : Nat} (hp : s.hostPoison = []) (h1 : 0x400000000000 ≤ a) (h2 : a + n ≤ 0x800000000000) :
    bytesAt s a n = (span a n).map fun x => cellGet memDefault x s.mem := by
  refine List.map_congr_left fun x hx => byteAt_host (regionOf_host s ?_ ?_) (by simp [hp])
  all_goals
    obtain ⟨_, _⟩ := mem_span.mp hx
    omega

/-- A run written to host memory reads back. -/
theorem bytesAt_hostStore {s : State} (hup : s.boot.cxlUp = true) (hp : s.hostPoison = []) {a : Nat} {bs : List W8}
    (h1 : 0x400000000000 ≤ a) (h2 : a + bs.length ≤ 0x800000000000) : bytesAt (hostStore s (atAddr a bs)) a bs.length = bs := by
  rw [hostStore_up hup hp]
  exact (bytesAt_host (s := { s with mem := cellSets memDefault (atAddr a bs) s.mem }) hp h1 h2).trans (cellGet_cellSets_atAddr ..)

/-- A run written to host memory leaves every byte outside it. -/
theorem byteAt_hostStore_of_outside {s : State} (hup : s.boot.cxlUp = true) (hp : s.hostPoison = []) {a x : Nat} {bs : List W8}
    (hx : x < a ∨ a + bs.length ≤ x) : byteAt (hostStore s (atAddr a bs)) x = byteAt s x := by
  have hout : ∀ e ∈ atAddr a bs, e.1 ≠ x := fun e he => by
    obtain ⟨_, _⟩ := mem_atAddr he
    omega
  have hmem := cellGet_cellSets_ne memDefault x _ s.mem hout
  rw [hostStore_up hup hp]
  exact byteAt_congr (s := s) (t := { s with mem := cellSets memDefault (atAddr a bs) s.mem }) rfl rfl rfl rfl rfl hmem
    fun _ _ _ => rfl

/-- R390: an `xfer` that begins copies the whole run and retires with its length. -/
theorem exec_xfer {s : State} {ring seq : Nat} {e : Entry} (he : mayBegin s ring seq 0xE3 = some e) (hup : s.boot.cxlUp = true)
    (hset : ∀ i, settleHolds s (e.b.toNat + 64 * i) = false) :
    exec (.xfer ring seq []) s = .next (publish s (retire (copyAll s e.a.toNat e.b.toNat e.d.toNat).1 e
      { status := (copyAll s e.a.toNat e.b.toNat e.d.toNat).2, detail := e.d.toNat })) := by
  have hgo : ((List.range (e.d.toNat / 64)).any fun i => settleHolds s (e.b.toNat + 64 * i)) = false := by simp [hset]
  refine shown_eq ?_
  simp only [xferBody, he, hup, hgo, Bool.not_true, Bool.false_and, Bool.false_eq_true, if_false]
  rfl

/-! ## Entries that retire (R340, R387) leave the cascade alone -/

@[simp] theorem casc_hostStore (s : State) (bs : List (Nat × W8)) : (hostStore s bs).casc = s.casc := by
  unfold hostStore
  split <;> rfl

@[simp] theorem casc_drainRing (s : State) (r : Nat) : (drainRing s r).casc = s.casc := by
  simp only [drainRing]
  split <;> rfl

@[simp] theorem casc_ringIrq (s : State) (r : Nat) (on : Bool) : (ringIrq s r on).casc = s.casc := by
  unfold ringIrq
  split <;> rfl

@[simp] theorem casc_putHring (s : State) (r : Nat) (h : HRing) : (putHring s r h).casc = s.casc := rfl

@[simp] theorem casc_flushRing (n : Nat) (s : State) (r : Nat) : (flushRing n s r).casc = s.casc := by
  induction n generalizing s with
  | zero => exact casc_drainRing ..
  | succ n ih =>
    simp only [flushRing]
    split
    · exact casc_drainRing ..
    · split
      · rfl
      · simp [ih, putRecord]

@[simp] theorem casc_retire (s : State) (e : Entry) (i : RecInfo) : (retire s e i).casc = s.casc := by
  have hso : (if e.ctx < 64 then jso s e.ctx else s).casc = s.casc := by split <;> rfl
  simp only [retire, casc_flushRing, casc_putHring]
  exact hso

/-! ## `query` (R391) -/

theorem exec_query {s : State} {ring seq : Nat} {e : Entry} (he : mayBegin s ring seq 0xE6 = some e) (hup : s.boot.cxlUp = true) :
    exec (.query ring seq) s = .next (publish s (retire
      (hostStore s (atAddr e.b.toNat (queryBytes s (e.a.toNat % 256) (e.a.toNat / 256)))) e
      { detail := (queryBytes s (e.a.toNat % 256) (e.a.toNat / 256)).length })) :=
  shown_eq (by simp [queryBody, he, hup])

theorem exec_query_none {s : State} {ring seq : Nat} (he : mayBegin s ring seq 0xE6 = none) :
    exec (.query ring seq) s = .next (publish s s) :=
  shown_eq (by simp [queryBody, he])

/-! ## `sync` (R109, R115, R298) -/

section Sync

variable {s : State} {ring seq n : Nat} {e : Entry}

theorem exec_syncWait_none (he : syncEntry s ring seq false = some e) (ho : syncObject s e = none) :
    exec (.syncWait ring seq) s = .next (publish s (retire s e { status := 0x2003 })) :=
  shown_eq (by simp [syncWaitBody, he, ho])

theorem exec_syncWait_cascade (he : syncEntry s ring seq false = some e) (ho : syncObject s e = some (n, true))
    (hq : e.phase = .queued) : exec (.syncWait ring seq) s =
      .next (publish s (casAsk (putEntry s { e with phase := .waiting }) (entryStream e) n 0 0 e.b)) :=
  shown_eq (by simp [syncWaitBody, he, ho, hq])

theorem exec_syncWait_met (he : syncEntry s ring seq false = some e) (ho : syncObject s e = some (n, false))
    (hmet : soMet (soOf s n).v e.b = true) : exec (.syncWait ring seq) s = .next (publish s (retire s e {})) :=
  shown_eq (by simp [syncWaitBody, he, ho, hmet])

/-- A `sync` whose condition does not hold joins the object's waits. -/
theorem exec_syncWait_waits (he : syncEntry s ring seq false = some e) (ho : syncObject s e = some (n, false))
    (hmet : soMet (soOf s n).v e.b = false) (hw : SoWait.entry ring seq e.b ∉ (soOf s n).waits) :
    exec (.syncWait ring seq) s = .next (publish s (putEntry
      { s with sos := fset n { soOf s n with waits := (soOf s n).waits ++ [.entry ring seq e.b] } s.sos }
      { e with phase := .waiting })) :=
  shown_eq (by simp [syncWaitBody, he, ho, hmet, hw])

theorem exec_syncSignal_none (he : syncEntry s ring seq true = some e) (ho : syncObject s e = none) :
    exec (.syncSignal ring seq) s = .next (publish s (retire s e { status := 0x2003 })) :=
  shown_eq (by simp [syncSignalBody, he, ho])

theorem exec_syncSignal_cascade (he : syncEntry s ring seq true = some e) (ho : syncObject s e = some (n, true))
    (hact : s.casc.active = true) : exec (.syncSignal ring seq) s = .next (publish s (sendAll (retire s e {})
      (leads (retire s e {})) { ty := 2, code := 3, spec := leBytes 8 n ++ leBytes 8 e.b.toNat })) :=
  shown_eq (by simp [syncSignalBody, he, ho, hact])

/-- A signal that nothing waits for adds its amount alone. -/
theorem signalSo_of_waits_nil (hw : (soOf s n).waits = []) (amount : W64) :
    signalSo s n amount = { s with sos := fset n { soOf s n with v := (soOf s n).v + amount } s.sos } := by
  simp [signalSo, hw]

theorem exec_syncSignal_object (he : syncEntry s ring seq true = some e) (ho : syncObject s e = some (n, false))
    (hw : (soOf s n).waits = []) : exec (.syncSignal ring seq) s = .next (publish s (retire
      { s with sos := fset n { soOf s n with v := (soOf s n).v + e.b } s.sos } e {})) :=
  shown_eq (by simp [syncSignalBody, he, ho, signalSo_of_waits_nil hw])

end Sync

end Sys2Proof.Machine

namespace Sys2Proof.Proofs

open Sys2Proof.Machine

/-- Settles O41, clause by clause. -/
theorem copyQueryAndSync : Obligations.CopyQueryAndSync := by
  unfold Obligations.CopyQueryAndSync
  intro s ring seq e
  refine ⟨fun he hup hset => ⟨_, _, exec_xfer he hup hset, rfl⟩, ?copy, exec_query, exec_query_none,
    fun n he ho => ⟨exec_syncWait_met he ho, fun hmet hw => ⟨_, exec_syncWait_waits he ho hmet hw, ?_⟩⟩, exec_syncWait_none,
    fun n => exec_syncWait_cascade, fun n => exec_syncSignal_cascade, fun n => exec_syncSignal_object, exec_syncSignal_none⟩
  case copy =>
    intro i _ hp hup h1 h2 _ hgood
    have hlen : (bytesAt s (e.a.toNat + 64 * i) 64).length = 64 := length_bytesAt ..
    rw [copyLine_host (regionOf_host s h1 (by omega)) hgood]
    refine ⟨rfl, ?_, fun x hx => byteAt_hostStore_of_outside hup hp (by rwa [hlen])⟩
    have hback := bytesAt_hostStore (bs := bytesAt s (e.a.toNat + 64 * i) 64) hup hp h1 (by rwa [hlen])
    rwa [hlen] at hback
  · have hso : soOf (putEntry { s with sos := fset n { soOf s n with waits := (soOf s n).waits ++ [.entry ring seq e.b] } s.sos }
        { e with phase := .waiting }) n = { soOf s n with waits := (soOf s n).waits ++ [.entry ring seq e.b] } := fget_fset_same ..
    exact ⟨by rw [hso], by rw [hso], rfl, rfl, rfl⟩

end Sys2Proof.Proofs
end

section
/-! PROOFS. The accumulator port: O30. -/

namespace Sys2Proof.Machine

/-! ## Runs of bytes and words -/

theorem length_flatMap_const {α β : Type} {l : List α} {g : α → List β} {k : Nat} (h : ∀ a ∈ l, (g a).length = k) :
    (l.flatMap g).length = l.length * k := by
  rw [List.length_flatMap, List.sum_eq_card_nsmul _ k (by simpa using h), List.length_map, smul_eq_mul]

theorem getElem?_bytesAt (s : State) (a : Nat) {n i : Nat} (h : i < n) : (bytesAt s a n)[i]? = some (byteAt s (a + i)) := by
  simp [bytesAt, span, h]

theorem drop_bytesAt (s : State) (a n k : Nat) : (bytesAt s a n).drop k = bytesAt s (a + k) (n - k) := by
  refine List.ext_getElem? fun i => ?_
  rw [List.getElem?_drop]
  by_cases h : k + i < n
  · rw [getElem?_bytesAt s a h, getElem?_bytesAt s (a + k) (by omega), Nat.add_assoc]
  · rw [List.getElem?_eq_none (by simpa using h), List.getElem?_eq_none (by rw [length_bytesAt]; omega)]

/-- R9: each FP32 word of a run of bytes. -/
theorem getElem?_words32_bytesAt (s : State) (a : Nat) {n e : Nat} (h : 4 * e + 4 ≤ n) :
    (words32 (bytesAt s a n))[e]? = some (BitVec.ofNat 32 (leNat (bytesAt s (a + 4 * e) 4))) := by
  have he : e < n / 4 := by omega
  rw [words32, length_bytesAt, List.getElem?_map, List.getElem?_range he, Option.map_some, leAt, drop_bytesAt,
    take_bytesAt _ _ (by omega)]

theorem length_wordBytes (ws : List W32) : (wordBytes ws).length = ws.length * 4 :=
  length_flatMap_const fun _ _ => length_leBytes ..

/-- R203: a block has 4,160 bytes. -/
theorem length_blockBytes (b : Block) : (Block.bytes b).length = 4160 := by
  have hbody : (Block.body b).length = 4096 := by
    rw [Block.body, List.length_take, List.length_append, List.length_replicate]
    omega
  simp only [Block.bytes, Block.covered, List.length_append, length_leBytes, hbody]

/-- A run of bytes that has been written, and nothing else, reads back. -/
theorem bytesAt_of_written {s t : State} {a : Nat} {bs : List W8} (h : ∀ x, byteAt t x = (fget? x (atAddr a bs)).getD (byteAt s x)) :
    bytesAt t a bs.length = bs := by
  refine List.ext_getElem? fun i => ?_
  by_cases hi : i < bs.length
  · rw [getElem?_bytesAt t a hi, h, fget?_atAddr, List.getElem?_eq_getElem hi, Option.getD_some]
  · rw [List.getElem?_eq_none (by simpa using hi), List.getElem?_eq_none (not_lt.mp hi)]

/-! ## The port's operands -/

/-- Table 5.8: the first tile of `mld` and `mdrain`. -/
def portFirst (f : Fields) : Nat := f.imm.toNat % 16

/-- Table 5.8: the images that `mld` and `mdrain` move. -/
def portCount (f : Fields) : Nat := f.imm.toNat / 16 % 32

theorem portTiles_eq (f : Fields) : portTiles f = (portFirst f, portCount f) := by
  simp [portTiles, bitsAt, portFirst, portCount]

/-- R133: the well offset that the port's register names. -/
def portAt (s : State) (u : StreamId) (f : Fields) : Nat := ((slotOf s u).arch.sget f.src1).toNat

/-- R132: tiles that are all in the slot's mask raise nothing. -/
theorem outside_amask_false {ks : List Nat} {m : BitVec 16} (h : ∀ k ∈ ks, m.getLsbD k = true) :
    (ks.any fun k => !(m.getLsbD k)) = false := by
  simpa using h

/-! ## What an instruction of the port leaves unchanged -/

/-- R133: `t` is `s` but for tiles, memory and the OPEN stitch of slot `u`. -/
structure portFrame (s t : State) (u : StreamId) : Prop where
  arch : archOf t u = archOf s u
  others : ∀ v, v ≠ u → slotOf t v = slotOf s v
  regs : t.regs = s.regs

theorem portFrame.trans {s t r : State} {u : StreamId} (h1 : portFrame s t u) (h2 : portFrame t r u) : portFrame s r u :=
  ⟨h2.arch.trans h1.arch, fun v hv => (h2.others v hv).trans (h1.others v hv), h2.regs.trans h1.regs⟩

theorem wellWritten.portFrame {s t : State} (h : wellWritten s t) (u : StreamId) : portFrame s t u :=
  ⟨congrArg (·.arch) (h.slot u), fun v _ => h.slot v, h.regs⟩

/-- The slot then issues: its pc moves on. -/
theorem portFrame.finish {s t : State} {u : StreamId} (h : portFrame s t u) (hu : u.slot < 3) :
    archOf (finish t u) u = (slotOf s u).arch.advance ∧ (∀ v, v ≠ u → slotOf (finish t u) v = slotOf s v) ∧
      (finish t u).regs = s.regs := by
  have harch : (slotOf t u).arch = (slotOf s u).arch := h.arch
  exact ⟨by rw [archOf, slotOf_finish hu, harch], fun v hv => (slotOf_finish_ne hv).trans (h.others v hv), h.regs⟩

/-! ## Tiles that become +0 (R133) -/

/-- A tile that a run of erasures names reads as an absent one. -/
theorem fget_foldl_ferase {ks : List Nat} {k : Nat} (h : k ∈ ks) (d : AccTile) (m : FMap AccTile) :
    fget d k (ks.foldl (fun m k => ferase k m) m) = d := by
  induction ks generalizing m with
  | nil => exact nomatch h
  | cons j r ih =>
    by_cases hr : k ∈ r
    · exact ih hr _
    · obtain rfl : k = j := (List.mem_cons.mp h).resolve_right hr
      rw [List.foldl_cons, fget_foldl_ferase_ne hr, fget, fget?_ferase_same, Option.getD_none]

/-- R133: the state in which tiles are +0 and the OPEN stitch has written them. -/
def tilesCleared (s : State) (u : StreamId) (ks : List Nat) : State :=
  noteTiles (putCore s u.lcid (clearTiles (coreOf s u.lcid) ks)) u ks

theorem tilesCleared_eq (s : State) (u : StreamId) (ks : List Nat) : tilesCleared s u ks =
    putCore s u.lcid ((clearTiles (coreOf s u.lcid) ks).putSlot u.slot { slotOf s u with opn := (slotOf s u).opn.wrote ks }) := by
  simp only [tilesCleared, noteTiles, putSlot, slotOf, coreOf_putCore, putCore_putCore]
  rfl

theorem tiles_tilesCleared (s : State) (u : StreamId) (ks : List Nat) :
    (coreOf (tilesCleared s u ks) u.lcid).tiles = ks.foldl (fun m k => ferase k m) (coreOf s u.lcid).tiles := by
  rw [tilesCleared_eq, coreOf_putCore]
  rfl

theorem portFrame_tilesCleared (s : State) {u : StreamId} (hu : u.slot < 3) (ks : List Nat) : portFrame s (tilesCleared s u ks) u := by
  rw [tilesCleared_eq]
  have hslots : (clearTiles (coreOf s u.lcid) ks).slots = (coreOf s u.lcid).slots := rfl
  refine ⟨?_, fun v hv => slotOf_putCore_putSlot_ne hslots _ hv, putCore_regs ..⟩
  rw [archOf, slotOf, coreOf_putCore, core_slot_putSlot _ _ _ hu, archOf]

/-- Clearing tiles writes no byte. -/
theorem byteAt_tilesCleared (s : State) (u : StreamId) (ks : List Nat) (a : Nat) : byteAt (tilesCleared s u ks) a = byteAt s a := by
  refine byteAt_congr (s := s) (t := tilesCleared s u ks) rfl rfl rfl rfl rfl rfl fun l off _ => ?_
  rw [tilesCleared_eq]
  by_cases hl : l = u.lcid
  · subst hl; rw [coreOf_putCore]; rfl
  · rw [coreOf_putCore_ne hl]

/-! ## `mclr` -/

/-- Table 5.8: the tiles that `mclr` names. -/
def mclrTiles (f : Fields) : List Nat := (List.range 16).filter f.imm.getLsbD

theorem mem_mclrTiles {f : Fields} {k : Nat} : k ∈ mclrTiles f ↔ k < 16 ∧ f.imm.getLsbD k = true := by
  rw [mclrTiles, List.mem_filter, List.mem_range]

/-- R133: a legal `mclr` clears its tiles. -/
theorem mclrBody_ok {u : StreamId} {f : Fields} {s : State} (hm : f.mod = 0) (hd : f.dst = 0) (h1 : f.src1 = 0) (h2 : f.src2 = 0)
    (hi : f.imm.toNat < 2 ^ 16) (ha : ∀ k < 16, f.imm.getLsbD k = true → (slotOf s u).amask.getLsbD k = true) :
    mclrBody u f s = .ok (tilesCleared s u (mclrTiles f)) := by
  have hfields : ¬(f.mod != 0 || f.dst != 0 || f.src1 != 0 || f.src2 != 0 || f.imm.toNat / 2 ^ 16 != 0) = true := by
    rw [hm, hd, h1, h2, Nat.div_eq_of_lt hi]
    decide
  have hmask := outside_amask_false (ks := mclrTiles f) (m := (slotOf s u).amask) fun k hk =>
    ha k (mem_mclrTiles.mp hk).1 (mem_mclrTiles.mp hk).2
  exact (if_neg hfields).trans (if_neg (Bool.eq_false_iff.mp hmask))

/-! ## `mld` -/

/-- R132, R133: the tile whose image stands at an address. -/
def tileAt (s : State) (a : Nat) : AccTile :=
  let ws := words32 (bytesAt s a 4096)
  { w := ws, sums := [], loaded := ws.map fun w => !(f32.decode w.toNat).isZero }

/-- R133: the tiles that `mld` writes. -/
def mldTiles (s : State) (u : StreamId) (f : Fields) : List (Nat × AccTile) :=
  (span (portFirst f) (portCount f)).map fun k => (k, tileAt s (wellBase u.lcid + portAt s u f + 4096 * (k - portFirst f)))

/-- R65, R72: the OPEN stitch after an `mld`. -/
def mldStitch (s : State) (u : StreamId) (f : Fields) : Stitch :=
  (readInputs (coreOf s u.lcid) u.slot [(portAt s u f, 4096 * portCount f)] (slotOf s u).opn).wrote (span (portFirst f) (portCount f))

theorem mldStitch_fields (s : State) (u : StreamId) (f : Fields) :
    (mldStitch s u f).poison = (slotOf s u).opn.poison ∧ (mldStitch s u f).seq = (slotOf s u).opn.seq := by
  obtain ⟨l, hl⟩ := readInputs_eq (coreOf s u.lcid) u.slot [(portAt s u f, 4096 * portCount f)] (slotOf s u).opn
  simp [mldStitch, Stitch.wrote, hl]

/-- R133: the state after an `mld`. -/
def tilesLoaded (s : State) (u : StreamId) (f : Fields) : State :=
  putCore s u.lcid ({ coreOf s u.lcid with tiles := putTiles (mldTiles s u f) (coreOf s u.lcid).tiles }.putSlot u.slot
    { slotOf s u with opn := mldStitch s u f })

theorem slotOf_tilesLoaded (s : State) {u : StreamId} (hu : u.slot < 3) (f : Fields) :
    slotOf (tilesLoaded s u f) u = { slotOf s u with opn := mldStitch s u f } := by
  rw [tilesLoaded, slotOf, coreOf_putCore, core_slot_putSlot _ _ _ hu]

theorem portFrame_tilesLoaded (s : State) {u : StreamId} (hu : u.slot < 3) (f : Fields) : portFrame s (tilesLoaded s u f) u := by
  refine ⟨by rw [archOf, slotOf_tilesLoaded s hu, archOf], fun v hv => ?_, putCore_regs ..⟩
  rw [tilesLoaded]
  refine slotOf_putCore_putSlot_ne ?_ _ hv
  rfl

theorem tiles_tilesLoaded (s : State) (u : StreamId) (f : Fields) :
    (coreOf (tilesLoaded s u f) u.lcid).tiles = putTiles (mldTiles s u f) (coreOf s u.lcid).tiles := by
  rw [tilesLoaded, coreOf_putCore]
  rfl

/-- R133: each tile holds the image at its place. -/
theorem fget_mldTiles (s : State) (u : StreamId) (f : Fields) {i : Nat} (hi : i < portCount f) (d : AccTile) (m : FMap AccTile) :
    fget d (portFirst f + i) (putTiles (mldTiles s u f) m) = tileAt s (wellBase u.lcid + portAt s u f + 4096 * i) := by
  have hsub : portFirst f + i - portFirst f = i := Nat.add_sub_cancel_left ..
  refine fget_putTiles (List.mem_map.mpr ⟨portFirst f + i, mem_span.mpr (by omega), by rw [hsub]⟩) (fun e he hk => ?_) d m
  obtain ⟨k, -, rfl⟩ := List.mem_map.mp he
  obtain rfl : k = portFirst f + i := hk
  rw [hsub]

theorem fget_mldTiles_ne (s : State) (u : StreamId) (f : Fields) {k : Nat} (h : k < portFirst f ∨ portFirst f + portCount f ≤ k)
    (d : AccTile) (m : FMap AccTile) : fget d k (putTiles (mldTiles s u f) m) = fget d k m := by
  refine fget_putTiles_ne (fun e he hk => ?_) d m
  obtain ⟨j, hj, rfl⟩ := List.mem_map.mp he
  obtain rfl : j = k := hk
  have := mem_span.mp hj
  omega

/-- R133, Table 5.8: the operands with which `mld` raises nothing, waits for nothing and reads no poison. -/
structure mldLegal (s : State) (u : StreamId) (f : Fields) : Prop where
  fields : f.mod = 0 ∧ f.dst = 0 ∧ f.src2 = 0 ∧ f.imm.toNat < 2 ^ 9
  count : 1 ≤ portCount f
  tiles : portFirst f + portCount f ≤ 16
  room : portAt s u f + 4096 * portCount f ≤ scratch (coreOf s u.lcid)
  aligned : portAt s u f % 64 = 0
  mask : ∀ k, portFirst f ≤ k → k < portFirst f + portCount f → (slotOf s u).amask.getLsbD k = true
  present : notReady (coreOf s u.lcid) u.slot [(portAt s u f, 4096 * portCount f)] = none
  good : ∀ i < 4096 * portCount f, badAt s (wellBase u.lcid + portAt s u f + i) = false

/-- R133: a legal `mld` loads its tiles. -/
theorem mldBody_ok {u : StreamId} {f : Fields} {s : State} (h : mldLegal s u f) : mldBody u f [] s = .ok (tilesLoaded s u f) := by
  obtain ⟨⟨hm, hd, h2, hi⟩, hcount, htiles, hroom, haligned, hmask, hready, hgood⟩ := h
  have hfields : (f.mod != 0 || f.dst != 0 || f.src2 != 0 || f.imm.toNat / 2 ^ 9 != 0 || portCount f == 0 ||
      decide (portFirst f + portCount f > 16)) = false := by
    rw [hm, hd, h2, Nat.div_eq_of_lt hi]
    simp [Nat.ne_of_gt hcount, htiles]
  have hamask := outside_amask_false (ks := span (portFirst f) (portCount f)) (m := (slotOf s u).amask) fun k hk =>
    hmask k (mem_span.mp hk).1 (mem_span.mp hk).2
  have hbad : anyBad s (wellBase u.lcid + portAt s u f) (4096 * portCount f) = false :=
    any_map_eq_false fun i hi => hgood i (List.mem_range.mp hi)
  simp only [portAt, slotOf] at hroom haligned hamask hready hbad
  simp only [mldBody, portTiles_eq, hfields, Nat.not_lt.mpr hroom, haligned, hamask, hready, readErrs_nil, hbad, Bool.or_false]
  rfl

/-! ## `mdrain` and `mdrain.g` -/

/-- R52: the tiles of one image: two under `.kc`. -/
def drainPer (f : Fields) : Nat := if f.mod.getLsbD 0 then 2 else 1

/-- R134, R135: the bytes of one image, or of one gradient block. -/
def drainLen (f : Fields) (g : Bool) : Nat := if g then 4160 else if f.mod.getLsbD 1 then 2048 else 4096

/-- R134: the tiles that are drained. -/
def drainTiles (f : Fields) : List Nat := span (portFirst f) (portCount f * drainPer f)

/-- R134, R135: the bytes that image `i` becomes. -/
def drainImage (s : State) (u : StreamId) (f : Fields) (g : Bool) (i : Nat) : List W8 :=
  let ws := tileWords (coreOf s u.lcid).tiles (portFirst f + i * drainPer f) (f.mod.getLsbD 0)
  if g then Block.bytes (gradBlock (coreOf s u.lcid) u (slotOf s u).opn.seq (fget 0 (slotOf s u).opn.seq (slotOf s u).replays) i ws)
  else imageBytes (f.mod.getLsbD 1) ws

/-- R134: all bytes that are drained. -/
def drainOut (s : State) (u : StreamId) (f : Fields) (g : Bool) : List W8 := (List.range (portCount f)).flatMap (drainImage s u f g)

theorem length_imageBytes (bf : Bool) (ws : List W32) : (imageBytes bf ws).length = ws.length * (if bf then 2 else 4) := by
  cases bf with
  | false => exact length_wordBytes ws
  | true => exact length_flatMap_const fun _ _ => length_leBytes ..

theorem length_drainOut (s : State) (u : StreamId) (f : Fields) (g : Bool) : (drainOut s u f g).length = portCount f * drainLen f g := by
  have himage (i : Nat) : (drainImage s u f g i).length = drainLen f g := by
    cases g with
    | true => exact length_blockBytes _
    | false =>
      refine (length_imageBytes ..).trans ?_
      rw [tileWords, List.length_map, List.length_range, drainLen]
      cases f.mod.getLsbD 1 <;> rfl
  exact (length_flatMap_const fun i _ => himage i).trans (by rw [List.length_range])

/-- R134: the state with the drained bytes in the well. -/
def drainStored (s : State) (u : StreamId) (f : Fields) (g : Bool) : State :=
  wellStore s u.lcid (atAddr (wellBase u.lcid + portAt s u f) (drainOut s u f g)) []

/-- R134: the state after a drain; with `.clr` its tiles are +0. -/
def drained (s : State) (u : StreamId) (f : Fields) (g : Bool) : State :=
  if f.mod.getLsbD 3 then tilesCleared (drainStored s u f g) u (drainTiles f) else drainStored s u f g

/-- R134, R135, Table 5.8: the operands with which a drain raises nothing. -/
structure drainLegal (s : State) (u : StreamId) (f : Fields) (g : Bool) : Prop where
  slot : (g && u.slot != 1) = false
  form : f.mod.getLsbD 2 = g ∧ f.mod.toNat < 16 ∧ (g && f.mod.getLsbD 1) = false
  fields : f.dst = 0 ∧ f.src2 = 0 ∧ f.imm.toNat < 2 ^ 9
  count : 1 ≤ portCount f
  tiles : portFirst f + portCount f * drainPer f ≤ 16
  pair : f.mod.getLsbD 0 = true → portFirst f % 2 = 0
  room : portAt s u f + portCount f * drainLen f g ≤ scratch (coreOf s u.lcid)
  fill : inOneFill (coreOf s u.lcid) u.slot (portAt s u f) (portCount f * drainLen f g) = true
  aligned : portAt s u f % 64 = 0
  mask : ∀ k, portFirst f ≤ k → k < portFirst f + portCount f * drainPer f → (slotOf s u).amask.getLsbD k = true

section
variable {s : State} {u : StreamId} {f : Fields} {g : Bool} (h : drainLegal s u f g)
include h

/-- R134: a legal drain stores its images. -/
theorem mdrainBody_ok : mdrainBody u f g [] s = .ok (drained s u f g) := by
  obtain ⟨hslot, ⟨hg, hm, hgb⟩, ⟨hd, h2, hi⟩, hcount, htiles, hpair, hroom, hfill, haligned, hmask⟩ := h
  have hodd : (f.mod.getLsbD 0 && portFirst f % 2 == 1) = false := by
    cases hk : f.mod.getLsbD 0 with
    | false => rfl
    | true => simp [hpair hk]
  have hfields : (f.mod.getLsbD 2 != g || f.mod.toNat / 16 != 0 || (g && f.mod.getLsbD 1) || f.dst != 0 || f.src2 != 0 ||
      f.imm.toNat / 2 ^ 9 != 0 || portCount f == 0 || decide (portFirst f + portCount f * drainPer f > 16) ||
      (f.mod.getLsbD 0 && portFirst f % 2 == 1)) = false := by
    rw [hg, hgb, hd, h2, hodd, Nat.div_eq_of_lt hi, Nat.div_eq_of_lt hm]
    simp [Nat.ne_of_gt hcount, htiles]
  have hplace : (decide (portAt s u f + portCount f * drainLen f g > scratch (coreOf s u.lcid)) ||
      !(inOneFill (coreOf s u.lcid) u.slot (portAt s u f) (portCount f * drainLen f g))) = false := by
    simp [hfill, hroom]
  have halign : (portAt s u f % 64 != 0) = false := by simp [haligned]
  have hamask := outside_amask_false (ks := drainTiles f) (m := (slotOf s u).amask) fun k hk =>
    hmask k (mem_span.mp hk).1 (mem_span.mp hk).2
  unfold mdrainBody
  rw [portTiles_eq]
  refine (if_neg (Bool.eq_false_iff.mp hslot)).trans ((if_neg (Bool.eq_false_iff.mp hfields)).trans ?_)
  refine (if_neg (Bool.eq_false_iff.mp hplace)).trans ((if_neg (Bool.eq_false_iff.mp halign)).trans ?_)
  exact if_neg (Bool.eq_false_iff.mp hamask)

/-- R134: the drained bytes lie in the own well. -/
theorem ownWell_drainOut : ∀ e ∈ atAddr (wellBase u.lcid + portAt s u f) (drainOut s u f g), ownWell u.lcid e.1 = true := fun e he => by
  obtain ⟨h1, h2⟩ := mem_atAddr he
  have hroom := h.room
  rw [length_drainOut] at h2
  unfold scratch at hroom
  exact ownWell_iff.mpr (by omega)

variable (hp : s.wellPoison = []) (hl : u.lcid < 16384)
include hp hl

/-- R134: after the slot has issued, the drained bytes stand in the well and every other byte reads as before. -/
theorem byteAt_drained (a : Nat) : byteAt (finish (drained s u f g) u) a =
    (fget? a (atAddr (wellBase u.lcid + portAt s u f) (drainOut s u f g))).getD (byteAt s a) := by
  have hclear : byteAt (drained s u f g) a = byteAt (drainStored s u f g) a := by
    rw [drained]
    split
    · exact byteAt_tilesCleared ..
    · rfl
  have hown := ownWell_drainOut h
  rw [finish, byteAt_putSlot, hclear]
  exact byteAt_of_wellStored (wellStored_wellStore hp (nodup_atAddr ..) hown) hp hl hown a

theorem bytesAt_drained :
    bytesAt (finish (drained s u f g) u) (wellBase u.lcid + portAt s u f) (portCount f * drainLen f g) = drainOut s u f g := by
  rw [← length_drainOut s u f g]
  exact bytesAt_of_written (byteAt_drained h hp hl)

theorem byteAt_drained_outside {a : Nat} (ha : a < wellBase u.lcid + portAt s u f ∨
    wellBase u.lcid + portAt s u f + portCount f * drainLen f g ≤ a) : byteAt (finish (drained s u f g) u) a = byteAt s a := by
  rw [byteAt_drained h hp hl, fget?_eq_none, Option.getD_none]
  intro e he hea
  have hin := mem_atAddr he
  rw [length_drainOut] at hin
  omega

end

section
variable (s : State) (u : StreamId) (f : Fields) (g : Bool)

theorem wellWritten_drainStored : wellWritten s (drainStored s u f g) := wellWritten_wellStore ..

theorem portFrame_drained {u : StreamId} (hu : u.slot < 3) : portFrame s (drained s u f g) u := by
  have hstore := (wellWritten_drainStored s u f g).portFrame u
  rw [drained]
  split
  · exact hstore.trans (portFrame_tilesCleared _ hu _)
  · exact hstore

/-- R134: with `.clr` the drained tiles become +0. -/
theorem fget_drained_clr (hc : f.mod.getLsbD 3 = true) {k : Nat} (hk : k ∈ drainTiles f) (d : AccTile) :
    fget d k (coreOf (finish (drained s u f g) u) u.lcid).tiles = d := by
  rw [tiles_finish, drained, if_pos hc, tiles_tilesCleared]
  exact fget_foldl_ferase hk ..

/-- R134: without `.clr` every tile stays. -/
theorem tiles_drained (hc : f.mod.getLsbD 3 = false) :
    (coreOf (finish (drained s u f g) u) u.lcid).tiles = (coreOf s u.lcid).tiles := by
  rw [tiles_finish, drained, if_neg (Bool.eq_false_iff.mp hc)]
  exact (wellWritten_drainStored s u f g).tiles u.lcid

end

/-! ## Issuing the instructions -/

section
variable {s : State} {u : StreamId} {f : Fields}

theorem mld_next (h : issues u .lane0 f [.s f.src1] s = true) (hlegal : mldLegal s u f) :
    exec (.mld u f []) s = .next (publish s (finish (tilesLoaded s u f) u)) := by
  have hu := slot_lt_of_issues h
  obtain ⟨hpoison, hseq⟩ := mldStitch_fields s u f
  have hopn : (slotOf (finish (tilesLoaded s u f) u) u).opn = mldStitch s u f := by
    rw [slotOf_finish hu, slotOf_tilesLoaded s hu]
  exact shown_eq (withLoss_eq ((issue_eq h _).trans (congrArg (settleRes s u) (mldBody_ok hlegal)))
    (by rw [hopn, hpoison]) (by rw [hopn, hseq]))

variable (h : issues u .lane0 f [.s f.src1] s = true)
include h

theorem mdrain_next (hlegal : drainLegal s u f false) : exec (.mdrain u ⟨f, []⟩) s = .next (finish (drained s u f false) u) :=
  congrArg Host.Outcome.next ((issue_eq h _).trans (congrArg (settleRes s u) (mdrainBody_ok hlegal)))

theorem mdrainG_next (hlegal : drainLegal s u f true) : exec (.mdrainG u ⟨f, []⟩) s = .next (finish (drained s u f true) u) :=
  congrArg Host.Outcome.next ((issue_eq h _).trans (congrArg (settleRes s u) (mdrainBody_ok hlegal)))

end

end Sys2Proof.Machine

namespace Sys2Proof.Proofs

open Sys2Proof.Machine

/-- Settles O30: `mclr` leaves `tilesCleared`, `mld` leaves `tilesLoaded`, and both drains leave `drained`, whose bytes are read back
through the well. -/
theorem accumulatorPort : Obligations.AccumulatorPort := by
  unfold Obligations.AccumulatorPort
  intro u f s c x base at_ k0 n tile frame
  refine ⟨fun h hm hd h1 h2 hi ha => ?mclr, fun h hm hd h2 hi hcount htiles hroom haligned hmask hready hgood => ?mld,
    fun h hd h2 hi hm hcount haligned hp => ?drain⟩
  case mclr =>
    refine ⟨finish (tilesCleared s u (mclrTiles f)) u,
      congrArg _ ((issue_eq h _).trans (congrArg (settleRes s u) (mclrBody_ok hm hd h1 h2 hi ha))),
      (portFrame_tilesCleared s (slot_lt_of_issues h) _).finish (slot_lt_of_issues h), rfl, fun k hk hbit => ?_, fun k hk => ?_⟩
    · simp only [tile, tiles_finish, tiles_tilesCleared]
      exact fget_foldl_ferase (mem_mclrTiles.mpr ⟨hk, hbit⟩) ..
    · simp only [tile, tiles_finish, tiles_tilesCleared]
      refine fget_foldl_ferase_ne (fun hmem => ?_) ..
      obtain ⟨hlt, hbit⟩ := mem_mclrTiles.mp hmem
      rcases hk with hge | hoff
      · omega
      · rw [hoff] at hbit; exact nomatch hbit
  case mld =>
    have hu := slot_lt_of_issues h
    refine ⟨finish (tilesLoaded s u f) u,
      mld_next h ⟨⟨hm, hd, h2, hi⟩, hcount, htiles, hroom, haligned, hmask, hready, hgood⟩,
      (portFrame_tilesLoaded s hu f).finish hu, rfl, fun i hin e he => ?_, fun k hk => ?_⟩
    · simp only [tile, tiles_finish, tiles_tilesLoaded]
      have htile := fget_mldTiles s u f hin {} (coreOf s u.lcid).tiles
      exact (congrArg (·.w[e]?) htile).trans (getElem?_words32_bytesAt s _ (by omega))
    · simp only [tile, tiles_finish, tiles_tilesLoaded]
      exact fget_mldTiles_ne s u f hk ..
  case drain =>
    intro kc bf per htiles hpair hmask left
    have hu := slot_lt_of_issues h
    have hl := lcid_lt_of_issues h
    have hleft (g : Bool) : left (finish (drained s u f g) u) :=
      ⟨fun hc k h1 h2 => fget_drained_clr s u f g hc (mem_span.mpr ⟨h1, h2⟩) _, tiles_drained s u f g⟩
    refine ⟨fun hg hroom hfill => ?_, fun hg hbf hslot hroom hfill => ?_⟩
    · have hlegal : drainLegal s u f false :=
        ⟨rfl, ⟨hg, hm, rfl⟩, ⟨hd, h2, hi⟩, hcount, htiles, hpair, hroom, hfill, haligned, hmask⟩
      exact ⟨finish (drained s u f false) u, mdrain_next h hlegal, (portFrame_drained s f false hu).finish hu, hleft false,
        bytesAt_drained hlegal hp hl, fun _ ha => byteAt_drained_outside hlegal hp hl ha⟩
    · have hlegal : drainLegal s u f true :=
        ⟨by rw [hslot]; rfl, ⟨hg, hm, hbf⟩, ⟨hd, h2, hi⟩, hcount, htiles, hpair, hroom, hfill, haligned, hmask⟩
      exact ⟨finish (drained s u f true) u, mdrainG_next h hlegal, (portFrame_drained s f true hu).finish hu, hleft true,
        bytesAt_drained hlegal hp hl, fun _ ha => byteAt_drained_outside hlegal hp hl ha⟩

end Sys2Proof.Proofs
end

section
/-! SUPPORT. Writes of any number of lines through a gather buffer, which writes its oldest line when it is full (R178). -/

namespace Sys2Proof.Machine

/-! ## Writes to a well, one after another -/

/-- Two writes to a well are one write of the bytes that a later look at both finds. -/
theorem wellStored.trans {s t r : State} {l : Nat} {bs cs ds : List (Nat × W8)} (h1 : wellStored s t l bs) (h2 : wellStored t r l cs)
    (hd : ∀ a, ownWell l a = true → fget? a ds = (fget? a cs).or (fget? a bs)) : wellStored s r l ds where
  written := h1.written.trans h2.written
  poison := h2.poison.trans h1.poison
  others := fun k hk => (h2.others k hk).trans (h1.others k hk)
  outside := fun a ha => (h2.outside a ha).trans (h1.outside a ha)
  inside := fun a ha => by
    rw [h2.inside a ha, h1.inside a ha, hd a ha]
    cases fget? a cs <;> rfl

theorem wellStored_nil (s : State) (l : Nat) : wellStored s s l [] :=
  ⟨.refl s, rfl, fun _ _ => rfl, fun _ _ => rfl, fun _ _ => rfl⟩

/-! ## The lines of a buffer -/

/-- R178: a line that a gather buffer can hold. -/
structure GLine.sound (g : GLine) : Prop where
  aligned : g.off % 64 = 0
  rise : keysRise g.bytes = true
  short : ∀ e ∈ g.bytes, e.1 < 64
  inside : g.off < 0x400000

/-- R178: a gather buffer of distinct lines. -/
structure linesSound (gs : List GLine) : Prop where
  apart : (gs.map (·.off)).Nodup
  sound : ∀ g ∈ gs, g.sound

/-- R178: the bytes of a buffer's line at their addresses. -/
def lineAt (l : Nat) (g : GLine) : List (Nat × W8) := g.bytes.map fun e => (wellBase l + g.off + e.1, e.2)

theorem nodup_of_keysRise {m : List Host.Cell} (h : keysRise m = true) : (m.map (·.1)).Nodup := by
  induction m with
  | nil => exact List.nodup_nil
  | cons e r ih =>
    obtain ⟨habove, hr⟩ := (keysRise_cons e r).mp h
    refine List.nodup_cons.mpr ⟨fun hmem => ?_, ih hr⟩
    obtain ⟨x, hx, hq⟩ := List.mem_map.mp hmem
    exact absurd (habove x hx) (by rw [hq]; exact Nat.lt_irrefl _)

section
variable {g : GLine} (h : g.sound) (l : Nat)
include h

theorem nodup_lineAt : ((lineAt l g).map (·.1)).Nodup := by
  have hkeys := (nodup_of_keysRise h.rise).map fun x y (q : wellBase l + g.off + x = wellBase l + g.off + y) => Nat.add_left_cancel q
  rw [List.map_map] at hkeys
  rw [lineAt, List.map_map]
  exact hkeys

theorem ownWell_lineAt : ∀ e ∈ lineAt l g, ownWell l e.1 = true := fun e he => by
  obtain ⟨x, hx, rfl⟩ := List.mem_map.mp he
  have := h.short x hx
  have := h.inside
  have := h.aligned
  exact ownWell_iff.mpr (by dsimp only; omega)

/-- R178: a line's byte by its address. -/
theorem fget?_lineAt {a : Nat} (ha : ownWell l a = true) : fget? a (lineAt l g) =
    if g.off = (a - wellBase l) / 64 * 64 then fget? ((a - wellBase l) % 64) g.bytes else none := by
  have hown := ownWell_iff.mp ha
  have hal := h.aligned
  split_ifs with hoff
  · exact fget?_map (g := (wellBase l + g.off + ·)) fun e he => by have := h.short e he; omega
  · refine fget?_eq_none fun e he q => hoff ?_
    obtain ⟨x, hx, rfl⟩ := List.mem_map.mp he
    have := h.short x hx
    dsimp only at q
    omega

end

theorem linesSound.of_cons {g : GLine} {gs : List GLine} (h : linesSound (g :: gs)) : linesSound gs :=
  ⟨(List.nodup_cons.mp h.apart).2, fun x hx => h.sound x (List.mem_cons_of_mem g hx)⟩

/-- The lines that a store past the buffer leaves are lines of the buffer, each with some of its bytes. -/
theorem sublist_linesWithout (l : Nat) (bs : List (Nat × W8)) (gs : List GLine) :
    ((linesWithout l bs gs).map (·.off)).Sublist (gs.map (·.off)) := by
  have hoff : gs.map (·.off) = (gs.map (GLine.without l bs)).map (·.off) := by rw [List.map_map]; rfl
  rw [hoff]
  exact List.filter_sublist.map _

theorem linesSound.without {gs : List GLine} (h : linesSound gs) (l : Nat) (bs : List (Nat × W8)) : linesSound (linesWithout l bs gs) where
  apart := h.apart.sublist (sublist_linesWithout l bs gs)
  sound := fun g hg => by
    obtain ⟨x, hx, rfl⟩ := List.mem_map.mp (List.mem_of_mem_filter hg)
    obtain ⟨haligned, hrise, hshort, hinside⟩ := h.sound x hx
    exact ⟨haligned, keysRise_filter _ _ hrise, fun e he => hshort e (List.mem_of_mem_filter he), hinside⟩

theorem linesSound.concat {gs : List GLine} (h : linesSound gs) {g : GLine} (hg : g.sound) (hfree : ∀ x ∈ gs, x.off ≠ g.off) :
    linesSound (gs ++ [g]) where
  apart := by
    rw [List.map_append, List.nodup_append]
    refine ⟨h.apart, List.nodup_singleton _, fun o ho o' ho' => ?_⟩
    obtain ⟨x, hx, rfl⟩ := List.mem_map.mp ho
    rw [List.mem_singleton.mp ho']
    exact hfree x hx
  sound := fun x hx => by
    rcases List.mem_append.mp hx with hx | hx
    · exact h.sound x hx
    · exact List.mem_singleton.mp hx ▸ hg

/-- R178: the line that a part of a line of the well makes. -/
theorem sound_partLine {l : Nat} {bs : List (Nat × W8)} {ln : Nat} (hown : ownWell l ln = true) (hal : ln % 64 = 0) :
    (partLine l bs ln).sound := by
  have hbase := ownWell_iff.mp hown
  have hmod := wellBase_mod l
  have key (es m : List (Nat × W8)) (hm : keysRise m = true ∧ ∀ e ∈ m, e.1 < 64) (hes : ∀ e ∈ es, e.1 < 64) :
      keysRise (es.foldl (fun m e => fset e.1 e.2 m) m) = true ∧ ∀ e ∈ es.foldl (fun m e => fset e.1 e.2 m) m, e.1 < 64 := by
    induction es generalizing m with
    | nil => exact hm
    | cons e r ih =>
      obtain ⟨he, hr⟩ := List.forall_mem_cons.mp hes
      exact ih _ ⟨keysRise_fset _ _ _ hm.1, all_fset (P := fun e => e.1 < 64) he hm.2⟩ hr
  obtain ⟨hrise, hshort⟩ := key ((inLine ln bs).map fun e => (e.1 - ln, e.2)) [] ⟨rfl, fun _ he => nomatch he⟩
    (List.forall_mem_map.mpr fun e he => by
      have hl : e.1 / 64 * 64 = ln := by simpa using (List.mem_filter.mp he).2
      dsimp only
      omega)
  exact ⟨by rw [partLine_off]; omega, hrise, hshort, by rw [partLine_off]; omega⟩

/-- R178: the bytes of that line at their addresses are the write's bytes in it. -/
theorem fget?_lineAt_partLine {l : Nat} {bs : List (Nat × W8)} (hn : (bs.map (·.1)).Nodup) {ln : Nat} (hown : ownWell l ln = true)
    (hal : ln % 64 = 0) {a : Nat} (ha : ownWell l a = true) :
    fget? a (lineAt l (partLine l bs ln)) = if a / 64 * 64 = ln then fget? a bs else none := by
  have hbase := ownWell_iff.mp hown
  have hown' := ownWell_iff.mp ha
  have hmod := wellBase_mod l
  have hiff : (partLine l bs ln).off = (a - wellBase l) / 64 * 64 ↔ a / 64 * 64 = ln := by rw [partLine_off]; omega
  rw [fget?_lineAt (sound_partLine hown hal) l ha]
  by_cases hl : a / 64 * 64 = ln
  · have hplace : (a - wellBase l) % 64 = a - ln := by omega
    rw [if_pos (hiff.mpr hl), if_pos hl, hplace, fget?_partLine hn l hl]
  · rw [if_neg (hiff.not.mpr hl), if_neg hl]

/-! ## A line joins the buffer -/

/-- R178: a line that joins the buffer holds the bytes that a read sees there from then on. -/
theorem wellStored_gatherMore {s : State} {l : Nat} {g : GLine} (hg : g.sound) (hfree : ∀ x ∈ (coreOf s l).gather, x.off ≠ g.off) :
    wellStored s (gatherMore s l g) l (lineAt l g) where
  written := (gathered_gatherMore s l g).written
  poison := rfl
  others := (gathered_gatherMore s l g).others
  outside := fun _ _ => rfl
  inside := fun a ha => by
    have hlook : gatherLook ((coreOf s l).gather ++ [g]) (a - wellBase l) =
        (gatherLook (coreOf s l).gather (a - wellBase l)).or (fget? a (lineAt l g)) := by
      have hsingle : gatherLook [g] (a - wellBase l) = fget? a (lineAt l g) := by
        rw [gatherLook_cons, gatherLook_nil, Option.or_none, fget?_lineAt hg l ha]
      rw [← hsingle]
      exact List.findSome?_append
    have hmem : (gatherMore s l g).mem = s.mem := rfl
    rw [wellByte, wellByte, gatherByte_eq, gatherByte_eq, (gathered_gatherMore s l g).lines, hlook, hmem]
    cases hf : fget? a (lineAt l g) with
    | none => rw [Option.or_none]; rfl
    | some v =>
      rw [fget?_lineAt hg l ha] at hf
      have hoff : g.off = (a - wellBase l) / 64 * 64 := by
        by_contra hne
        rw [if_neg hne] at hf
        exact nomatch hf
      rw [gatherLook_eq_none fun x hx => hoff ▸ hfree x hx]
      rfl

/-- R178: the oldest line is written to the well: every byte reads as before. -/
theorem wellStored_gatherWrite {s : State} (hp : s.wellPoison = []) {l : Nat} {g : GLine} {r : List GLine}
    (hg : (coreOf s l).gather = g :: r) (hs : linesSound (g :: r)) :
    wellStored s (gatherWrite s l g []) l [] ∧ (coreOf (gatherWrite s l g []) l).gather = linesWithout l (lineAt l g) r := by
  have hsound := hs.sound g List.mem_cons_self
  have hrest : (coreOf s l).gather.filter (fun x => x.off != g.off) = r := by
    have hne : ∀ x ∈ r, (x.off != g.off) = true := fun x hx =>
      bne_iff_ne.mpr fun q => (List.nodup_cons.mp hs.apart).1 (List.mem_map.mpr ⟨x, hx, q⟩)
    rw [hg, List.filter_cons_of_neg (by simp), List.filter_eq_self.mpr hne]
  have hwrite : gatherWrite s l g [] = wellStore (putCore s l { coreOf s l with gather := r }) l (lineAt l g) [] := by
    rw [← hrest]
    rfl
  have hp' : (putCore s l { coreOf s l with gather := r }).wellPoison = [] := hp
  have hst := wellStored_wellStore hp' (nodup_lineAt hsound l) (ownWell_lineAt hsound l)
  rw [hwrite]
  refine ⟨⟨(wellWritten_putCore_gather s l r).trans hst.written, hst.poison,
    fun k hk => (hst.others k hk).trans (coreOf_putCore_ne hk ..), hst.outside, fun a ha => ?_⟩, ?_⟩
  · rw [hst.inside a ha, wellByte, wellByte, gatherByte_eq, gatherByte_eq, coreOf_putCore, hg, gatherLook_cons, ← fget?_lineAt hsound l ha]
    cases fget? a (lineAt l g) <;> rfl
  · rw [coreOf_wellStore hp', coreOf_putCore]

/-! ## Parts of any number of lines -/

/-- R178: a full buffer takes a part of a line in the place of its oldest line. -/
theorem gatherPut_full {s : State} {l ln : Nat} {bs : List (Nat × W8)} {g : GLine} {r : List GLine} (hg : (coreOf s l).gather = g :: r)
    (hfree : ∀ x ∈ (coreOf s l).gather, x.off ≠ ln - wellBase l) (hfull : ¬(coreOf s l).gather.length < 16)
    (hshort : (partLine l bs ln).bytes.length ≠ 64) :
    gatherPut s l (ln - wellBase l) ((inLine ln bs).map fun e => (e.1 - ln, e.2)) [] =
      gatherMore (gatherWrite s l g []) l (partLine l bs ln) := by
  have hold : ((coreOf s l).gather.find? fun x => x.off == ln - wellBase l) = none :=
    List.find?_eq_none.mpr fun x hx => by simpa using hfree x hx
  rw [hg] at hold hfull
  unfold gatherPut
  simp only [hg, hold, if_neg hfull, Option.isSome_none, Bool.false_eq_true, if_false]
  exact if_neg (by simpa [partLine] using hshort)

/-- R178: a part of a line that the buffer does not hold yet enters the well through it. -/
theorem gatherPut_part {s : State} (hp : s.wellPoison = []) {l : Nat} (hs : linesSound (coreOf s l).gather) {bs : List (Nat × W8)} {ln : Nat}
    (hown : ownWell l ln = true) (hal : ln % 64 = 0) (hshort : (partLine l bs ln).bytes.length ≠ 64)
    (hfree : ∀ x ∈ (coreOf s l).gather, x.off ≠ ln - wellBase l) :
    let t := gatherPut s l (ln - wellBase l) ((inLine ln bs).map fun e => (e.1 - ln, e.2)) []
    wellStored s t l (lineAt l (partLine l bs ln)) ∧ linesSound (coreOf t l).gather ∧
      ∀ x ∈ (coreOf t l).gather, x.off = ln - wellBase l ∨ x.off ∈ (coreOf s l).gather.map (·.off) := by
  intro t
  have hpart := sound_partLine (bs := bs) hown hal
  have key {r : State} (hr : wellStored s r l []) (hrs : linesSound (coreOf r l).gather)
      (hsub : ∀ x ∈ (coreOf r l).gather, x.off ∈ (coreOf s l).gather.map (·.off)) (ht : t = gatherMore r l (partLine l bs ln)) :
      wellStored s t l (lineAt l (partLine l bs ln)) ∧ linesSound (coreOf t l).gather ∧
        ∀ x ∈ (coreOf t l).gather, x.off = ln - wellBase l ∨ x.off ∈ (coreOf s l).gather.map (·.off) := by
    have hfree' : ∀ x ∈ (coreOf r l).gather, x.off ≠ (partLine l bs ln).off := fun x hx q => by
      obtain ⟨y, hy, hyx⟩ := List.mem_map.mp (hsub x hx)
      exact hfree y hy (hyx.trans q)
    rw [ht, (gathered_gatherMore r l _).lines]
    refine ⟨hr.trans (wellStored_gatherMore hpart hfree') fun _ _ => (Option.or_none).symm, hrs.concat hpart hfree', fun x hx => ?_⟩
    rcases List.mem_append.mp hx with hx | hx
    · exact .inr (hsub x hx)
    · exact .inl (by rw [List.mem_singleton.mp hx, partLine_off])
  by_cases hroom : (coreOf s l).gather.length < 16
  · exact key (wellStored_nil s l) hs (fun x hx => List.mem_map_of_mem hx) (gatherPut_new hfree hroom hshort)
  · obtain ⟨g, r, hg⟩ : ∃ g r, (coreOf s l).gather = g :: r := List.exists_cons_of_length_pos (by omega)
    rw [hg] at hs
    obtain ⟨hst, hlines⟩ := wellStored_gatherWrite hp hg hs
    refine key hst (hlines ▸ hs.of_cons.without l _) (fun x hx => ?_) (gatherPut_full hg hfree hroom hshort)
    rw [hlines] at hx
    rw [hg]
    exact List.mem_cons_of_mem _ ((sublist_linesWithout l _ r).subset (List.mem_map_of_mem hx))

/-- R178: parts of several lines enter the well through the buffer one after another. -/
theorem wellStored_foldl_gatherPut {l : Nat} {bs : List (Nat × W8)} (hn : (bs.map (·.1)).Nodup) (lns : List Nat) {s : State}
    (hp : s.wellPoison = []) (hs : linesSound (coreOf s l).gather) (hnd : lns.Nodup)
    (hln : ∀ ln ∈ lns, ownWell l ln = true ∧ ln % 64 = 0 ∧ (inLine ln bs).length ≠ 64)
    (hfree : ∀ ln ∈ lns, ∀ x ∈ (coreOf s l).gather, x.off ≠ ln - wellBase l) :
    wellStored s (lns.foldl (fun s ln => gatherPut s l (ln - wellBase l) ((inLine ln bs).map fun e => (e.1 - ln, e.2)) []) s) l
      (bs.filter fun e => lns.contains (e.1 / 64 * 64)) := by
  induction lns generalizing s with
  | nil =>
    have hnil : bs.filter (fun e => ([] : List Nat).contains (e.1 / 64 * 64)) = [] := by simp
    rw [hnil]
    exact wellStored_nil s l
  | cons ln r ih =>
    obtain ⟨hnot, hndr⟩ := List.nodup_cons.mp hnd
    obtain ⟨⟨hown, hal, hlen⟩, hlnr⟩ := List.forall_mem_cons.mp hln
    obtain ⟨hfree1, hfreer⟩ := List.forall_mem_cons.mp hfree
    obtain ⟨hst, hsound, hoffs⟩ := gatherPut_part hp hs hown hal (partLine_short hn l hlen) hfree1
    refine hst.trans (ih (hst.poison.trans hp) hsound hndr hlnr fun k hk x hx q => ?_) fun a ha => ?_
    · rcases hoffs x hx with ho | ho
      · have h1 := ownWell_iff.mp hown
        have h2 := ownWell_iff.mp (hlnr k hk).1
        have hkl : k = ln := by omega
        exact hnot (hkl ▸ hk)
      · obtain ⟨y, hy, hyx⟩ := List.mem_map.mp ho
        exact hfreer k hk y hy (hyx.trans q)
    · have hall := fget?_filter a (fun k => (ln :: r).contains (k / 64 * 64)) bs
      have hrest := fget?_filter a (fun k => r.contains (k / 64 * 64)) bs
      rw [hall, hrest, fget?_lineAt_partLine hn hown hal ha, List.contains_cons]
      by_cases h1 : a / 64 * 64 = ln
      · simp [h1, hnot]
      · cases h2 : r.contains (a / 64 * 64) <;> simp [h1]

/-- R178: a write through an empty gather buffer, of any number of lines. -/
theorem wellStored_wellPut_lines {s : State} (hp : s.wellPoison = []) {l : Nat} (hg : (coreOf s l).gather = []) {bs : List (Nat × W8)}
    (hn : (bs.map (·.1)).Nodup) (ho : ∀ e ∈ bs, ownWell l e.1 = true) : wellStored s (wellPut s l bs []) l bs := by
  have hwhole : wellStored s (wellStore s l (wholeBytes bs) []) l (wholeBytes bs) :=
    wellStored_wellStore hp (hn.sublist (List.filter_sublist.map _)) fun e he => ho e (List.mem_of_mem_filter he)
  have hempty : (coreOf (wellStore s l (wholeBytes bs) []) l).gather = [] := by
    rw [coreOf_wellStore hp, hg]
    rfl
  have hlines : ∀ ln ∈ partLines bs, ownWell l ln = true ∧ ln % 64 = 0 ∧ (inLine ln bs).length ≠ 64 := fun ln hln => by
    obtain ⟨hmem, hlen⟩ := mem_partLines.mp hln
    obtain ⟨e, he, rfl⟩ := mem_linesOf.mp hmem
    have := ownWell_iff.mp (ho e he)
    have := wellBase_mod l
    exact ⟨ownWell_iff.mpr (by omega), by omega, hlen⟩
  have hparts := wellStored_foldl_gatherPut hn (partLines bs) (hwhole.poison.trans hp)
    (by rw [hempty]; exact ⟨List.nodup_nil, fun _ hx => nomatch hx⟩) ((nodup_linesOf bs).filter _) hlines
    (by rw [hempty]; exact fun _ _ _ hx => nomatch hx)
  rw [wellPut_eq]
  refine hwhole.trans hparts fun a _ => ?_
  have hfilter := fget?_filter a (fun k => (partLines bs).contains (k / 64 * 64)) bs
  rw [hfilter]
  by_cases hin : a / 64 * 64 ∈ partLines bs
  · have hnot : a / 64 * 64 ∉ wholeLines bs := by simpa using (List.mem_filter.mp hin).2
    rw [if_pos (List.contains_iff_mem.mpr hin), fget?_wholeBytes, if_neg hnot, Option.or_none]
  · rw [if_neg (List.contains_iff_mem.not.mpr hin), Option.none_or, fget?_wholeBytes_of_notMem hin]

end Sys2Proof.Machine
end

section
/-! PROOFS. Gather and scatter in the own well: O15. -/

namespace Sys2Proof.Machine

/-! ## The words that the lanes name (R162) -/

/-- R162: the offset of a lane's word. That the 32-bit lane is zero-extended is the choice of log 56. -/
def gatherOff (a : Arch) (f : Fields) (i : Nat) : Nat := (memOff a f + ((a.vget f.src2)[i]?.getD 0).zeroExtend 64).toNat

/-- R162: the address of a lane's word. -/
def gatherAddr (a : Arch) (f : Fields) (i : Nat) : Nat := pairAddr (a.bget (memPair f)) (gatherOff a f i)

theorem gatherOffs_eq (a : Arch) (f : Fields) : gatherOffs a f = (activeLanes a f.mask).map fun i => (i, gatherOff a f i) := rfl

/-- R101: offsets of a pair are told apart by their addresses. -/
theorem pairAddr_inj {b : BPair} {x y : Nat} (hx : x < 2 ^ 64) (hy : y < 2 ^ 64) (h : pairAddr b x = pairAddr b y) : x = y :=
  (Nat.ModEq.add_left_cancel' b.base.toNat h).eq_of_lt_of_lt hx hy

theorem gatherOff_lt (a : Arch) (f : Fields) (i : Nat) : gatherOff a f i < 2 ^ 64 := by
  unfold gatherOff
  exact BitVec.isLt _

theorem gatherOff_eq_of_gatherAddr_eq {a : Arch} {f : Fields} {i j : Nat} (h : gatherAddr a f i = gatherAddr a f j) :
    gatherOff a f i = gatherOff a f j := pairAddr_inj (gatherOff_lt a f i) (gatherOff_lt a f j) h

/-- R162: active lanes with access to aligned words of the own well. -/
def gatherLegal (s : State) (u : StreamId) (f : Fields) (write : Bool) : Prop :=
  ∀ i < 32, laneOn (archOf s u) f.mask i = true →
    accessOk s u.lcid ((archOf s u).bget (memPair f)) (gatherOff (archOf s u) f i) 4 write = true ∧
    ownWell u.lcid (gatherAddr (archOf s u) f i) = true ∧ gatherAddr (archOf s u) f i % 4 = 0

/-- R162: such lanes raise nothing. -/
theorem gatherFault_none {s : State} {u : StreamId} {f : Fields} {write : Bool} (hok : gatherLegal s u f write) :
    gatherFault s u ((archOf s u).bget (memPair f)) (gatherOffs (archOf s u) f) write = none := by
  have hlane {q : Nat × Nat → Bool} (hq : ∀ i < 32, laneOn (archOf s u) f.mask i = true → q (i, gatherOff (archOf s u) f i) = false) :
      (gatherOffs (archOf s u) f).any q = false := by
    rw [gatherOffs_eq, List.any_map]
    refine List.any_eq_false.mpr fun i hi => ?_
    obtain ⟨h32, hon⟩ := mem_activeLanes.mp hi
    exact Bool.not_eq_true _ ▸ hq i h32 hon
  unfold gatherFault
  rw [hlane fun i hi hon => ?access, hlane fun i hi hon => ?aligned]
  case access =>
    obtain ⟨haccess, hown, -⟩ := hok i hi hon
    rw [gatherAddr] at hown
    simp only [haccess, hown, Bool.not_true, Bool.or_false]
  case aligned =>
    obtain ⟨-, -, hal⟩ := hok i hi hon
    rw [gatherAddr] at hal
    simp only [hal, bne_self_eq_false]
  rfl

/-- A word at an aligned address lies in the own well and in one line. -/
theorem word_inside {l at_ x : Nat} (ho : ownWell l at_ = true) (ha : at_ % 4 = 0) (h1 : at_ ≤ x) (h2 : x < at_ + 4) :
    ownWell l x = true ∧ x / 64 * 64 = at_ / 64 * 64 := by
  have := ownWell_iff.mp ho
  have := wellBase_mod l
  exact ⟨ownWell_iff.mpr (by omega), by omega⟩

/-! ## `vgather` -/

theorem vgather_shown {s : State} {u : StreamId} {f : Fields} (h : issues u .lanes f [.s f.src1, .v f.src2, .w f.dst] s = true) {t : State}
    (ht : settleRes s u (vgatherBody u f [] s) = t) (hopn : (slotOf t u).opn = (slotOf s u).opn) :
    exec (.vgather u f []) s = .next (publish s t) :=
  shown_eq (withLoss_eq ((issueOver_eq h (by simp) _ _).trans ht) (congrArg (·.poison) hopn) (congrArg (·.seq) hopn))

/-- R162: a legal `vgather` of unpoisoned words loads the words of its active lanes. -/
theorem vgatherBody_own {s : State} {u : StreamId} {f : Fields} (hu : u.slot < 3) (hm : f.mod.toNat / 4 = 0)
    (hok : gatherLegal s u f false)
    (hgood : ∀ i < 32, laneOn (archOf s u) f.mask i = true → ∀ k < 4, badAt s (gatherAddr (archOf s u) f i + k) = false) :
    settleRes s u (vgatherBody u f [] s) =
      ran s u (lanesBecome (archOf s u) f fun i => BitVec.ofNat 32 (leNat (bytesAt s (gatherAddr (archOf s u) f i) 4))) := by
  have hfault := gatherFault_none hok
  have hbody : vgatherBody u f [] s = if (gatherOffs (archOf s u) f).isEmpty then .ok s else
      .ok (loadOwn s u 0 (.vreg f.dst ((activeLanes (archOf s u) f.mask).map fun i => (i, gatherAddr (archOf s u) f i))) []) := by
    unfold archOf at hfault
    simp only [vgatherBody, hm, hfault]
    rw [gatherOffs_eq, List.map_map]
    rfl
  rw [hbody]
  by_cases hact : activeLanes (archOf s u) f.mask = []
  · have hempty : (gatherOffs (archOf s u) f).isEmpty = true := by rw [gatherOffs_eq, hact]; rfl
    rw [if_pos hempty, lanesBecome_inactive hact]
    exact finish_eq_ran s u
  · have hne : ¬(gatherOffs (archOf s u) f).isEmpty = true := by rw [gatherOffs_eq]; simpa using hact
    have hbytes : ∀ x ∈ dstBytes 0 (.vreg f.dst ((activeLanes (archOf s u) f.mask).map fun i => (i, gatherAddr (archOf s u) f i))),
        badAt s x = false := fun x hx => by
      simp only [dstBytes, List.mem_flatMap, List.mem_map] at hx
      obtain ⟨e, ⟨i, hi, rfl⟩, hx⟩ := hx
      obtain ⟨h32, hon⟩ := mem_activeLanes.mp hi
      obtain ⟨k, hk, rfl⟩ := List.mem_map.mp hx
      exact hgood i h32 hon k (List.mem_range.mp hk)
    rw [if_neg hne, loadOwn_good hbytes, putLoaded_lanes]
    exact finish_setArch hu _

/-! ## `vscatter` -/

/-- R162: the active lanes whose word no higher active lane names. -/
def topLanes (a : Arch) (f : Fields) : List Nat := (activeLanes a f.mask).filter fun i =>
  !((activeLanes a f.mask).any fun j => decide (j > i) && gatherOff a f j == gatherOff a f i)

/-- R162: the bytes that `vscatter` writes. -/
def scatterBytes (a : Arch) (f : Fields) : List (Nat × W8) :=
  (topLanes a f).flatMap fun i => atAddr (gatherAddr a f i) (leBytes 4 ((a.vget f.dst)[i]?.getD 0).toNat)

theorem mem_topLanes {a : Arch} {f : Fields} {i : Nat} : i ∈ topLanes a f ↔
    i ∈ activeLanes a f.mask ∧ ∀ j ∈ activeLanes a f.mask, i < j → gatherOff a f j ≠ gatherOff a f i := by
  simp [topLanes]

theorem mem_scatterBytes {a : Arch} {f : Fields} {e : Nat × W8} (h : e ∈ scatterBytes a f) :
    ∃ i ∈ activeLanes a f.mask, gatherAddr a f i ≤ e.1 ∧ e.1 < gatherAddr a f i + 4 := by
  obtain ⟨i, hi, he⟩ := List.mem_flatMap.mp h
  obtain ⟨h1, h2⟩ := mem_atAddr he
  rw [length_leBytes] at h2
  exact ⟨i, (mem_topLanes.mp hi).1, h1, h2⟩

/-- R162: a legal `vscatter` stores the words of its highest lanes. -/
theorem vscatterBody_eq {s : State} {u : StreamId} {f : Fields} (hm : f.mod.toNat / 4 = 0) (hok : gatherLegal s u f true) :
    vscatterBody u f [] s = if activeLanes (archOf s u) f.mask = [] then .ok s
      else doStore s u (scatterBytes (archOf s u) f) false [] := by
  have hfault := gatherFault_none hok
  have hempty : (gatherOffs (archOf s u) f).isEmpty = true ↔ activeLanes (archOf s u) f.mask = [] := by
    rw [List.isEmpty_iff, gatherOffs_eq, List.map_eq_nil_iff]
  have hbytes : ((gatherOffs (archOf s u) f).filter fun l => !((gatherOffs (archOf s u) f).any fun k => k.1 > l.1 && k.2 == l.2)).flatMap
      (fun l => atAddr (pairAddr ((archOf s u).bget (memPair f)) l.2) (leBytes 4 (((archOf s u).vget f.dst)[l.1]?.getD 0).toNat)) =
      scatterBytes (archOf s u) f := by
    simp only [gatherOffs_eq, List.filter_map, List.any_map, List.flatMap_map]
    rfl
  unfold archOf at hfault hempty hbytes ⊢
  simp only [vscatterBody, hfault, hbytes, hempty, hm]
  rfl

section
variable {s : State} {u : StreamId} {f : Fields} {write : Bool} (hok : gatherLegal s u f write)
include hok

theorem ownWell_scatterBytes : ∀ e ∈ scatterBytes (archOf s u) f, ownWell u.lcid e.1 = true := fun e he => by
  obtain ⟨i, hi, h1, h2⟩ := mem_scatterBytes he
  obtain ⟨h32, hon⟩ := mem_activeLanes.mp hi
  obtain ⟨-, hown, hal⟩ := hok i h32 hon
  exact (word_inside hown hal h1 h2).1

/-- R70: 32 words touch at most 32 lines. -/
theorem length_linesOf_scatterBytes : (linesOf (scatterBytes (archOf s u) f)).length ≤ 32 := by
  have hlen : (activeLanes (archOf s u) f.mask).length ≤ 32 := (List.length_filter_le ..).trans_eq List.length_range
  refine (length_linesOf_le (l := (activeLanes (archOf s u) f.mask).map fun i => gatherAddr (archOf s u) f i / 64 * 64)
    fun e he => ?_).trans ((List.length_map _).trans_le hlen)
  obtain ⟨i, hi, h1, h2⟩ := mem_scatterBytes he
  obtain ⟨h32, hon⟩ := mem_activeLanes.mp hi
  obtain ⟨-, hown, hal⟩ := hok i h32 hon
  exact List.mem_map.mpr ⟨i, hi, (word_inside hown hal h1 h2).2.symm⟩

/-- R162: of lanes that name one word only the highest is left, so each byte is written once. -/
theorem nodup_scatterBytes : ((scatterBytes (archOf s u) f).map (·.1)).Nodup := by
  rw [scatterBytes, List.map_flatMap, List.nodup_flatMap]
  have hpw : (topLanes (archOf s u) f).Pairwise (· < ·) := (pairwise_activeLanes _ _).filter _
  refine ⟨fun i _ => nodup_atAddr .., hpw.imp_of_mem fun {i j} hi hj hij x hx hy => ?_⟩
  obtain ⟨hia, htop⟩ := mem_topLanes.mp hi
  obtain ⟨hja, -⟩ := mem_topLanes.mp hj
  have hne : gatherAddr (archOf s u) f j ≠ gatherAddr (archOf s u) f i := fun q => htop j hja hij (gatherOff_eq_of_gatherAddr_eq q)
  obtain ⟨hi32, hion⟩ := mem_activeLanes.mp hia
  obtain ⟨hj32, hjon⟩ := mem_activeLanes.mp hja
  have hali := (hok i hi32 hion).2.2
  have halj := (hok j hj32 hjon).2.2
  obtain ⟨e, he, rfl⟩ := List.mem_map.mp hx
  obtain ⟨e', he', heq⟩ := List.mem_map.mp hy
  have := mem_atAddr he
  have := mem_atAddr he'
  simp only [length_leBytes] at *
  omega

/-- R162: the word of a lane that no higher active lane names is among the bytes written. -/
theorem fget?_scatterBytes {i k : Nat} (h32 : i < 32) (hon : laneOn (archOf s u) f.mask i = true)
    (htop : ∀ j, i < j → j < 32 → laneOn (archOf s u) f.mask j = true → gatherAddr (archOf s u) f j ≠ gatherAddr (archOf s u) f i)
    (hk : k < 4) : fget? (gatherAddr (archOf s u) f i + k) (scatterBytes (archOf s u) f) =
      some (BitVec.ofNat 8 ((((archOf s u).vget f.dst)[i]).toNat / 256 ^ k)) := by
  have hb : (leBytes 4 (((archOf s u).vget f.dst)[i]?.getD 0).toNat)[k]? =
      some (BitVec.ofNat 8 ((((archOf s u).vget f.dst)[i]).toNat / 256 ^ k)) := by
    rw [getElem?_leBytes hk, Vector.getElem?_eq_getElem h32, Option.getD_some]
  have hmem : i ∈ topLanes (archOf s u) f := mem_topLanes.mpr ⟨mem_activeLanes.mpr ⟨h32, hon⟩, fun j hj hij q => by
    obtain ⟨hj32, hjon⟩ := mem_activeLanes.mp hj
    exact htop j hij hj32 hjon (congrArg (pairAddr _) q)⟩
  exact fget?_of_mem (e := (_, _)) (nodup_scatterBytes hok) (List.mem_flatMap.mpr ⟨i, hmem, mem_atAddr_of_getElem? hb⟩)

end

/-- R70, R178: a vector store to the own well, of any number of lines, is in the undo log, then in the well. -/
theorem storeIssued_vector {s : State} {u : StreamId} (hu : u.slot < 3) (hp : s.wellPoison = []) (hl : u.lcid < 16384)
    {bs : List (Nat × W8)} (hn : (bs.map (·.1)).Nodup) (ho : ∀ e ∈ bs, ownWell u.lcid e.1 = true)
    (hroom : (slotOf s u).opn.undo.length + (linesOf bs).length ≤ 128) (hg : (coreOf s u.lcid).gather = []) :
    storeIssued s (settleRes s u (doStore s u bs false [])) u bs := by
  obtain ⟨log, hlog⟩ := undoLog_eq hroom
  have hall : (bs.all fun e => ownWell u.lcid e.1) = true := List.all_eq_true.mpr ho
  have hg' : (coreOf (logged s u log) u.lcid).gather = [] := by
    rw [logged, putSlot, coreOf_putCore]
    exact hg
  have hp' : (logged s u log).wellPoison = [] := hp
  have hst : wellStored (logged s u log) (wellPut (logged s u log) u.lcid bs []) u.lcid bs := wellStored_wellPut_lines hp' hg' hn ho
  have hrun : settleRes s u (doStore s u bs false []) = finish (wellPut (logged s u log) u.lcid bs []) u := by
    rw [doStore, if_pos hall, ownStore, hlog]
    rfl
  rw [hrun]
  refine ⟨fun a => ?_, ?_, fun v hv => ?_, hst.written.regs, hst.written.out, hst.poison.trans hp'⟩
  · rw [finish, byteAt_putSlot, byteAt_of_wellStored hst hp' hl ho, logged, byteAt_putSlot]
  · rw [slotOf_finish hu, hst.written.slot, logged, slotOf_putSlot _ _ _ hu]
  · rw [slotOf_finish_ne hv, hst.written.slot, logged, slotOf_putSlot_ne _ _ hv]

/-- R162: what a legal `vscatter` leaves. -/
theorem storeIssued_vscatter {s : State} {u : StreamId} {f : Fields} (hu : u.slot < 3) (hl : u.lcid < 16384) (hm : f.mod.toNat / 4 = 0)
    (hok : gatherLegal s u f true) (hp : s.wellPoison = []) (hroom : (slotOf s u).opn.undo.length + 32 ≤ 128)
    (hg : (coreOf s u.lcid).gather = []) :
    storeIssued s (settleRes s u (vscatterBody u f [] s)) u (scatterBytes (archOf s u) f) := by
  rw [vscatterBody_eq hm hok]
  split_ifs with hact
  · have hnil : scatterBytes (archOf s u) f = [] := by rw [scatterBytes, topLanes, hact]; rfl
    rw [hnil]
    exact storeIssued_nil hu hp
  · have := length_linesOf_scatterBytes hok
    exact storeIssued_vector hu hp hl (nodup_scatterBytes hok) (ownWell_scatterBytes hok) (by omega) hg

end Sys2Proof.Machine

namespace Sys2Proof.Proofs

open Sys2Proof.Machine

/-- Settles O15: `vgather` loads the words of its lanes (`vgatherBody_own`), `vscatter` stores those of the highest lanes
(`storeIssued_vscatter`). That a lane's 32 bits are zero-extended to an offset is the choice of log 56. -/
theorem gatherAndScatter : Obligations.GatherAndScatter := by
  unfold Obligations.GatherAndScatter
  intro u f s hm x a b at_ offOk
  refine ⟨fun h hok hgood => ?gather, fun h hok hroom hp hg => ?scatter⟩
  case gather =>
    have hu := slot_lt_of_issues h
    refine ⟨_, vgather_shown h (vgatherBody_own hu hm hok hgood) (by rw [slotOf_ran hu]), fun i hi => ?_⟩
    rw [Vector.getElem_ofFn]
    rfl
  case scatter =>
    have hst : storeIssued s (settleRes s u (vscatterBody u f [] s)) u (scatterBytes a f) :=
      storeIssued_vscatter (slot_lt_of_issues h) (lcid_lt_of_issues h) hm hok hp hroom hg
    refine ⟨_, congrArg Host.Outcome.next (issue_eq h _), fun i hi hon htop k hk => ?_, fun addr haddr => ?_, hst.slot, hst.regs,
      hst.out⟩
    · have hget : fget? (gatherAddr a f i + k) (scatterBytes a f) = some (BitVec.ofNat 8 (((a.vget f.dst)[i]).toNat / 256 ^ k)) :=
        fget?_scatterBytes hok hi hon htop hk
      exact (hst.bytes (gatherAddr a f i + k)).trans (by rw [hget, Option.getD_some])
    · rw [hst.bytes, fget?_eq_none]
      · rfl
      · intro e hmem q
        obtain ⟨i, hi, h1, h2⟩ := mem_scatterBytes hmem
        obtain ⟨h32, hon⟩ := mem_activeLanes.mp hi
        have hout : addr < gatherAddr a f i ∨ gatherAddr a f i + 4 ≤ addr := haddr i h32 hon
        omega

end Sys2Proof.Proofs
end

section
/-! PROOFS. Mask registers and lane comparisons: O24, O22. -/

namespace Sys2Proof.Machine

/-! ## Mask registers -/

/-- R142: a mask register is named by the low three bits of a field. -/
theorem mask_of_field {r : BitVec 5} {p : BitVec 3} (h : r = p.zeroExtend 5) : r.extractLsb' 0 3 = p ∧ r.toNat < 8 :=
  src1_of_mask (f := { src1 := r }) h

/-- R161: what a mask register operation leaves. -/
theorem pbin_eq {u : StreamId} {f : Fields} {s : State} (h : issues u .needP0 f [] s = true) (hi : f.imm = 0)
    {d p q : BitVec 3} (hd : f.dst = d.zeroExtend 5) (hp : f.src1 = p.zeroExtend 5) (hq : f.src2 = q.zeroExtend 5)
    {m : Nat} (hm : f.mod.toNat = m) (g : W32 → W32 → W32) :
    pbin u f m g s = ran s u ((archOf s u).pput d (g ((archOf s u).pget p) ((archOf s u).pget q))) := by
  obtain ⟨hd3, hd8⟩ := mask_of_field hd
  obtain ⟨hp3, hp8⟩ := mask_of_field hp
  obtain ⟨hq3, hq8⟩ := mask_of_field hq
  refine (issueArch_eq h (.inl rfl) (by simp [hm, hi, hd8, hp8, hq8]) _).trans ?_
  rw [hd3, hp3, hq3]

/-- Table 6.7: `pmov` to p[d]. -/
theorem pmov_mask {u : StreamId} {f : Fields} {s : State} (h : issues u .needP0 f [.s f.src1] s = true) (hi : f.imm = 0)
    (hm : f.mod = 0) (h2 : f.src2 = 0) {d : BitVec 3} (hd : f.dst = d.zeroExtend 5) :
    exec (.pmov u f) s = .next (ran s u ((archOf s u).pput d (((archOf s u).sget f.src1).setWidth 32))) := by
  obtain ⟨hd3, hd8⟩ := mask_of_field hd
  have hrefs : (if f.mod == 0 then [RegRef.s f.src1] else [RegRef.s f.dst]) = [RegRef.s f.src1] := by simp [hm]
  refine congrArg Host.Outcome.next ((issueArch_eq (hrefs.symm ▸ h) (.inl (by rw [hrefs]; rfl)) (by simp [hm, hi, h2, hd8]) _).trans ?_)
  simp [hm, hd3]

/-- Table 6.7: `pmov` to s[d]. -/
theorem pmov_scalar {u : StreamId} {f : Fields} {s : State} (h : issues u .needP0 f [.s f.dst] s = true) (hi : f.imm = 0)
    (hm : f.mod = 1) (h2 : f.src2 = 0) {p : BitVec 3} (hp : f.src1 = p.zeroExtend 5) :
    exec (.pmov u f) s = .next (ran s u ((archOf s u).sput f.dst (((archOf s u).pget p).zeroExtend 64))) := by
  obtain ⟨hp3, hp8⟩ := mask_of_field hp
  have hrefs : (if f.mod == 0 then [RegRef.s f.src1] else [RegRef.s f.dst]) = [RegRef.s f.dst] := by simp [hm]
  refine congrArg Host.Outcome.next ((issueArch_eq (hrefs.symm ▸ h) (.inl (by rw [hrefs]; rfl)) (by simp [hm, hi, h2, hp8]) _).trans ?_)
  simp [hm, hp3]

/-! ## Lane comparisons -/

/-- Bits written one by one into a mask. -/
theorem getLsbD_foldl_bits (g : Nat → Bool) (l : List Nat) (w : W32) {i : Nat} (h : i < 32) :
    (l.foldl (fun (w : W32) i => if g i then w ||| (1#32 <<< i) else w &&& ~~~(1#32 <<< i)) w).getLsbD i =
      if i ∈ l then g i else w.getLsbD i := by
  induction l generalizing w with
  | nil => rfl
  | cons j r ih =>
    have hbit : (1#32 <<< j).getLsbD i = decide (j = i) := by
      rw [← BitVec.twoPow_eq, BitVec.getLsbD_twoPow]
      by_cases hj : j = i
      · simp [hj, h]
      · simp [hj]
    have hset : (w ||| 1#32 <<< j).getLsbD i = (w.getLsbD i || decide (j = i)) := by rw [BitVec.getLsbD_or, hbit]
    have hclear : (w &&& ~~~(1#32 <<< j)).getLsbD i = (w.getLsbD i && !decide (j = i)) := by
      rw [BitVec.getLsbD_and, BitVec.getLsbD_not, hbit, decide_eq_true h, Bool.true_and]
    have hstep : (if g j then w ||| (1#32 <<< j) else w &&& ~~~(1#32 <<< j)).getLsbD i = if j = i then g i else w.getLsbD i := by
      rw [apply_ite (BitVec.getLsbD · i), hset, hclear]
      by_cases hij : j = i
      · subst hij; cases g j <;> simp
      · simp [hij]
    rw [List.foldl_cons, ih, hstep]
    by_cases hr : i ∈ r
    · simp [hr]
    · simp [hr, eq_comm]

/-- R144: a lane comparison writes the active bits of p[d] and keeps the others. -/
theorem vmask_bits (a : Arch) (f : Fields) (g : Nat → Bool) {k : BitVec 3} (hk : f.dst.extractLsb' 0 3 = k) :
    ∃ w, vmask a f g = a.pput k w ∧
      ∀ i < 32, w.getLsbD i = if laneOn a f.mask i then g i else (a.pget k).getLsbD i := by
  subst hk
  refine ⟨_, rfl, fun i hi => (getLsbD_foldl_bits g _ _ hi).trans ?_⟩
  simp [mem_activeLanes, hi]

section
variable {u : StreamId} {f : Fields} {s : State} (h : issues u .lanes f [.v f.src1, .v f.src2] s = true)
  {cond : Nat → W32 → W32 → Option Bool} {m : BitVec 6} (hm : f.mod = m)
include h hm

/-- R149: what a lane comparison leaves under a condition of Table 6.7. -/
theorem vcmp_gives (hi : f.imm = 0) {k : BitVec 3} (hk : f.dst = k.zeroExtend 5) {c : W32 → W32 → Bool}
    (hc : ∀ v w, cond m.toNat v w = some (c v w)) {g : Nat → Prop}
    (hg : ∀ i, c (lane ((archOf s u).vget f.src1) i) (lane ((archOf s u).vget f.src2) i) = true ↔ g i) :
    ∃ w, (.next (vcmp u f cond s) : Host.Outcome State Fault Refusal) = .next (ran s u ((archOf s u).pput k w)) ∧
      ∀ i < 32, if laneOn (archOf s u) f.mask i then (w.getLsbD i = true ↔ g i)
        else w.getLsbD i = ((archOf s u).pget k).getLsbD i := by
  subst hm
  obtain ⟨hk3, hk8⟩ := mask_of_field hk
  obtain ⟨w, hw, hbits⟩ := vmask_bits (archOf s u) f (fun i =>
    (cond f.mod.toNat (lane ((archOf s u).vget f.src1) i) (lane ((archOf s u).vget f.src2) i)).getD false) hk3
  refine ⟨w, congrArg _ ((issueArch_eq h (.inl rfl) (by simp [hi, hk8, hc]) _).trans (congrArg _ hw)), fun i hlt => ?_⟩
  rw [hbits i hlt]
  split
  · rw [hc, Option.getD_some]; exact hg i
  · rfl

/-- Table 6.7: a reserved condition stops the slot with 0x2002. -/
theorem vcmp_reserved (hc : (cond m.toNat 0 0).isSome = false) :
    (.next (vcmp u f cond s) : Host.Outcome State Fault Refusal) = .next (faulted s u 0x2002) :=
  congrArg _ (issueArch_fault h (.inl rfl) (by rw [hm, hc, Bool.and_false]) _)

end

end Sys2Proof.Machine

namespace Sys2Proof.Proofs

open Sys2Proof.Machine

/-- Settles O24, by what a mask register operation (`pbin_eq`) and `pmov` leave. -/
theorem maskRegisterResult : Obligations.MaskRegisterResult := by
  unfold Obligations.MaskRegisterResult
  intro u f s hi
  refine ⟨fun d p q hd hp hq h => ⟨fun hm => ?_, fun hm => ?_, fun hm => ?_, fun hm => ?_⟩,
    fun d hm h2 hd h => pmov_mask h hi hm h2 hd, fun p hm h2 hp h => pmov_scalar h hi hm h2 hp⟩
  all_goals exact congrArg Host.Outcome.next (pbin_eq h hi hd hp hq (by rw [hm]; rfl) _)

/-- Settles O22: `vbinI_eq` for the lane operations, `vcmp_gives` for the conditions of the comparisons. -/
theorem vectorIntegerAndCompare : Obligations.VectorIntegerAndCompare := by
  unfold Obligations.VectorIntegerAndCompare
  refine ⟨fun u f s h hi => ?_, fun u f s h hi k hk => ?_⟩
  · have key {m : Nat} (hm : f.mod.toNat = m) (g : W32 → W32 → W32) :
        (.next (vbinI u f m g s) : Host.Outcome State Fault Refusal) = .next (ran s u (lanesBecome (archOf s u) f fun i =>
          g (lane ((archOf s u).vget f.src1) i) (lane ((archOf s u).vget f.src2) i))) := congrArg _ (vbinI_eq h hi hm g)
    refine ⟨fun hm => ?_, fun hm => ?_, fun hm => ?_, fun hm => ?_⟩
    · have h0 : f.mod.toNat = 0 := by rw [hm]; rfl
      exact ⟨key h0 _, key h0 _, key h0 _, key h0 _, key h0 _, (key h0 _).trans (by simp only [BitVec.slt_iff_toInt_lt])⟩
    · have h1 : f.mod.toNat = 1 := by rw [hm]; rfl
      exact ⟨key h1 _, key h1 _, (key h1 _).trans (by simp only [BitVec.slt_iff_toInt_lt])⟩
    · have h2 : f.mod.toNat = 2 := by rw [hm]; rfl
      exact ⟨key h2 _, key h2 _, (key h2 _).trans (by simp only [BitVec.ult_iff_toNat_lt])⟩
    · have h3 : f.mod.toNat = 3 := by rw [hm]; rfl
      exact ⟨key h3 _, (key h3 _).trans (by simp only [BitVec.ult_iff_toNat_lt])⟩
  · refine ⟨fun hm => ⟨?_, ?_⟩, fun hm => ⟨?_, ?_⟩, fun hm => ⟨?_, ?_⟩, fun hm => ⟨?_, ?_⟩, fun hm => ⟨?_, ?_⟩, fun hm => ⟨?_, ?_⟩,
      fun hm => ⟨?_, vcmp_reserved h hm rfl⟩, fun hm => ⟨vcmp_reserved h hm rfl, vcmp_reserved h hm rfl⟩⟩
    · exact vcmp_gives h hm hi hk (fun _ _ => rfl) fun _ => Iff.rfl
    · exact vcmp_gives h hm hi hk (fun _ _ => rfl) fun _ => beq_iff_eq
    · exact vcmp_gives h hm hi hk (fun _ _ => rfl) fun _ => by rw [Bool.not_eq_true']; rfl
    · exact vcmp_gives h hm hi hk (fun _ _ => rfl) fun _ => bne_iff_ne
    · exact vcmp_gives h hm hi hk (fun _ _ => rfl) fun _ => Iff.rfl
    · exact vcmp_gives h hm hi hk (fun _ _ => rfl) fun _ => BitVec.slt_iff_toInt_lt
    · exact vcmp_gives h hm hi hk (fun _ _ => rfl) fun _ => Bool.or_eq_true_iff
    · exact vcmp_gives h hm hi hk (fun _ _ => rfl) fun _ => by rw [← BitVec.sle_eq_not_slt, BitVec.sle_iff_toInt_le]
    · exact vcmp_gives h hm hi hk (fun _ _ => rfl) fun _ => Iff.rfl
    · exact vcmp_gives h hm hi hk (fun _ _ => rfl) fun _ => BitVec.ult_iff_toNat_lt
    · exact vcmp_gives h hm hi hk (fun _ _ => rfl) fun _ => Bool.or_eq_true_iff
    · exact vcmp_gives h hm hi hk (fun _ _ => rfl) fun _ => by rw [← BitVec.ule_eq_not_ult, BitVec.ule_iff_toNat_le]
    · exact vcmp_gives h hm hi hk (fun _ _ => rfl) fun _ => by simp

end Sys2Proof.Proofs
end

section
/-! PROOFS. Moves and permutations of lanes: O23. -/

namespace Sys2Proof.Machine

/-! ## Lanes written by a list -/

/-- Lanes each of which is written once. -/
theorem getElem_setLanes {l : List (Nat × W32)} (hn : (l.map (·.1)).Nodup) (v : Vector W32 32) {i : Nat} (h : i < 32) :
    (setLanes v l)[i] = (fget? i l).getD v[i] := by
  induction l generalizing v with
  | nil => rfl
  | cons e r ih =>
    obtain ⟨he, hr⟩ := List.nodup_cons.mp hn
    have hstep : setLanes v (e :: r) = setLanes (v.setIfInBounds e.1 e.2) r := rfl
    rw [hstep, ih hr, Vector.getElem_setIfInBounds h]
    by_cases hi : i = e.1
    · subst hi
      have hnone : fget? e.1 r = none := fget?_eq_none fun x hx q => he (List.mem_map.mpr ⟨x, hx, q⟩)
      simp [fget?, hnone]
    · simp [fget?, hi, Ne.symm hi]

/-- Lanes named by one list take the words of another at the same place. -/
theorem getElem_setLanes_zip {ls : List Nat} {ws : List W32} (hn : ls.Nodup) (hlen : ls.length ≤ ws.length) (v : Vector W32 32)
    {i : Nat} (h : i < 32) : (∀ k : Nat, ls[k]? = some i → ∀ w : W32, ws[k]? = some w → (setLanes v (ls.zip ws))[i] = w) ∧
      (i ∉ ls → (setLanes v (ls.zip ws))[i] = v[i]) := by
  have hkeys : ((ls.zip ws).map (·.1)).Nodup := (List.map_fst_zip hlen).symm ▸ hn
  rw [getElem_setLanes hkeys v h]
  refine ⟨fun k hk w hw => ?_, fun hi => ?_⟩
  · have hmem : (i, w) ∈ ls.zip ws := List.mem_of_getElem? (List.getElem?_zip_eq_some.mpr ⟨hk, hw⟩)
    rw [fget?_of_mem hkeys hmem, Option.getD_some]
  · rw [fget?_eq_none fun e he (q : e.1 = i) => hi (q ▸ (List.of_mem_zip he).1), Option.getD_none]

/-! ## Source lanes of a permutation -/

/-- R151: only source lanes inside VL exist. -/
theorem permLane_inside (v : Vector W32 32) {vl : Nat} {j : Int} (h : 0 ≤ j ∧ j < vl) : permLane v vl j = (lane v j.toNat, {}) :=
  if_pos (by simpa using h)

/-- R151: a source lane outside VL gives zero and c.vstat.pix. -/
theorem permLane_outside (v : Vector W32 32) {vl : Nat} {j : Int} (h : ¬(0 ≤ j ∧ j < vl)) : permLane v vl j = (0, { pix := true }) :=
  if_neg (by simpa using h)

/-- R148: no flag but pix is raised where no lane raises another. -/
theorem orFlags_pix (l : List Nat) (p : Nat → Bool) : orFlags (l.map fun i => { pix := p i }) = { pix := l.any p } := by
  have key (b : Bool) : (l.map fun i => ({ pix := p i } : FFlags)).foldl FFlags.or { pix := b } = { pix := b || l.any p } := by
    induction l generalizing b with
    | nil => simp
    | cons i r ih =>
      have hstep : FFlags.or { pix := b } { pix := p i } = { pix := b || p i } := rfl
      rw [List.map_cons, List.foldl_cons, hstep, ih, List.any_cons, Bool.or_assoc]
  exact key false

/-- R150, R151: what a permutation of the lanes of `src` by the source lanes `j` leaves. -/
theorem vlanes_permLane (a : Arch) (f : Fields) (src : Vector W32 32) (j : Nat → Int) :
    ∃ g fl, vlanes a f (fun i => permLane src a.vl (j i)) = (lanesBecome a f g).raiseV fl ∧
      (∀ i ∈ activeLanes a f.mask, (0 ≤ j i ∧ j i < a.vl → g i = lane src (j i).toNat) ∧
        (¬(0 ≤ j i ∧ j i < a.vl) → g i = 0)) ∧
      fl = { pix := fl.pix } ∧ (fl.pix = true ↔ ∃ i ∈ activeLanes a f.mask, ¬(0 ≤ j i ∧ j i < a.vl)) := by
  have hflags : (fun i => (permLane src a.vl (j i)).2) = fun i => { pix := !decide (0 ≤ j i ∧ j i < a.vl) } := by
    funext i
    by_cases h : 0 ≤ j i ∧ j i < a.vl
    · rw [permLane_inside src h, decide_eq_true h]; rfl
    · rw [permLane_outside src h, decide_eq_false h]; rfl
  refine ⟨_, _, vlanes_eq .., fun i _ => ⟨fun h => by rw [permLane_inside src h], fun h => by rw [permLane_outside src h]⟩, ?_⟩
  rw [laneFlags, hflags, orFlags_pix]
  exact ⟨rfl, by simp only [List.any_eq_true, Bool.not_eq_true', decide_eq_false_iff_not]⟩

/-- Table 6.3: whether a pattern is reserved does not depend on the lanes. -/
theorem isSome_shufLane (m n vl i : Nat) : (shufLane m n vl i).isSome = (shufLane m 0 1 0).isSome := by
  unfold shufLane
  split <;> rfl

/-- R150: what `vshuf` leaves under a pattern of Table 6.3. -/
theorem vshuf_eq {u : StreamId} {f : Fields} {s : State} (h : issues u .lanes f [.v f.src1, .w f.dst] s = true) (h2 : f.src2 = 0)
    (hn : f.imm.toNat < 32) {j : Nat → Int} (hj : ∀ i, shufLane f.mod.toNat f.imm.toNat (archOf s u).vl i = some (j i)) :
    exec (.vshuf u f) s = .next (ran s u (vlanes (archOf s u) f fun i =>
      permLane ((archOf s u).vget f.src1) (archOf s u).vl (j i))) := by
  have hsome : (shufLane f.mod.toNat 0 1 0).isSome = true := by
    rw [← isSome_shufLane _ f.imm.toNat (archOf s u).vl 0, hj]
    rfl
  refine congrArg Host.Outcome.next ((issueArch_eq h (.inr (by simp)) (by simp [hn, h2, hsome]) _).trans ?_)
  simp only [hj, Option.getD_some]

/-! ## The moves -/

@[simp] theorem sput_vstat (a : Arch) (r : BitVec 5) (v : W64) : (a.sput r v).vstat = a.vstat := by
  unfold Arch.sput; split <;> rfl

/-- R151: `vext` reads one lane as a permutation does. -/
theorem vext_eq {u : StreamId} {f : Fields} {s : State} (h : issues u .needP0 f [.v f.src1, .s f.dst] s = true) (hm : f.mod = 0)
    (h2 : f.src2 = 0) (hn : f.imm.toNat < 32) :
    let r := permLane ((archOf s u).vget f.src1) (archOf s u).vl f.imm.toNat
    exec (.vext u f) s = .next (ran s u (((archOf s u).sput f.dst (r.1.zeroExtend 64)).raiseV r.2)) :=
  congrArg Host.Outcome.next (issueArch_eq h (.inl rfl) (by simp [hm, h2, hn]) _)

/-- R144: `vsel` chooses between its sources in every lane below VL. -/
theorem select_lanes (v : Vector W32 32) (vl : Nat) (g : Nat → W32) :
    setLanes v ((List.range (min 32 vl)).map fun i => (i, g i)) = Vector.ofFn fun i => if i.val < vl then g i else v[i] := by
  ext i h
  rw [getElem_setLanes_map _ _ _ h, Vector.getElem_ofFn]
  simp [h]

theorem setLanes_singleton (v : Vector W32 32) (n : Nat) (w : W32) :
    setLanes v [(n, w)] = Vector.ofFn fun i => if i.val = n then w else v[i] := by
  ext i h
  rw [getElem_setLanes (by simp) v h, Vector.getElem_ofFn]
  by_cases hi : i = n <;> simp [fget?, hi]

/-! ## `vcompress` and `vexpand` -/

theorem nodup_activeLanes (a : Arch) (m : BitVec 3) : (activeLanes a m).Nodup := List.nodup_range.filter _

/-- R144: no more lanes are active than VL. -/
theorem length_activeLanes_le (a : Arch) (m : BitVec 3) : (activeLanes a m).length ≤ a.vl := by
  have hsub : activeLanes a m ⊆ List.range a.vl := fun i hi => by
    have hon := (mem_activeLanes.mp hi).2
    simp only [laneOn, Bool.and_eq_true, decide_eq_true_eq] at hon
    exact List.mem_range.mpr hon.1
  simpa using (List.subperm_of_subset (nodup_activeLanes a m) hsub).length_le

/-- R152: `vcompress` moves the selected lanes to the front and clears the others below VL. -/
theorem compress_lanes (a : Arch) (f : Fields) : ∃ v, compress a f = a.vput f.dst v ∧ ∀ i (_ : i < 32),
    let act := activeLanes a f.mask
    (i < act.length → v[i] = lane (a.vget f.src1) (act[i]?.getD 0)) ∧ (act.length ≤ i → i < a.vl → v[i] = 0) ∧
      (act.length ≤ i → a.vl ≤ i → v[i] = (a.vget f.dst)[i]) := by
  refine ⟨_, rfl, fun i h => ?_⟩
  intro act
  have hle : act.length ≤ a.vl := length_activeLanes_le a f.mask
  have hrange {k : Nat} (hk : k < a.vl) : (List.range a.vl)[k]? = some k := by simp [hk]
  obtain ⟨hin, hout⟩ := getElem_setLanes_zip (ls := List.range a.vl)
    (ws := act.map (lane (a.vget f.src1)) ++ List.replicate (a.vl - (act.map (lane (a.vget f.src1))).length) 0)
    List.nodup_range (by simp; omega) (a.vget f.dst) h
  refine ⟨fun hi => hin i (hrange (hi.trans_le hle)) _ ?_, fun h1 h2 => hin i (hrange h2) _ ?_,
    fun _ h2 => hout (by simpa using h2)⟩
  · rw [List.getElem?_append_left (by simpa using hi)]
    simp [hi]
  · rw [List.getElem?_append_right (by simpa using h1)]
    have hlt : i - act.length < a.vl - act.length := by omega
    simp [hlt]

/-- R152: `vexpand` spreads the lowest lanes of its source over the active lanes. -/
theorem expand_lanes (a : Arch) (f : Fields) : ∃ v, expand a f = a.vput f.dst v ∧ ∀ i (_ : i < 32),
    let act := activeLanes a f.mask
    (∀ k, act[k]? = some i → v[i] = lane (a.vget f.src1) k) ∧ (i ∉ act → v[i] = (a.vget f.dst)[i]) := by
  refine ⟨_, rfl, fun i h => ?_⟩
  intro act
  obtain ⟨hin, hout⟩ := getElem_setLanes_zip (ls := act) (ws := (List.range act.length).map (lane (a.vget f.src1)))
    (nodup_activeLanes a f.mask) (by simp) (a.vget f.dst) h
  refine ⟨fun k hk => hin k hk _ ?_, hout⟩
  have hlt : k < act.length := (List.getElem?_eq_some_iff.mp hk).1
  simp [hlt]

end Sys2Proof.Machine

namespace Sys2Proof.Proofs

open Sys2Proof.Machine

/-- Settles O23: the moves by the lanes they write, the permutations by `vlanes_permLane`, and R152 by `compress_lanes` and
`expand_lanes`. -/
theorem vectorMoveAndPermute : Obligations.VectorMoveAndPermute := by
  unfold Obligations.VectorMoveAndPermute
  constructor
  · intro u f s hm a n
    refine ⟨fun h hi => ?vsel, fun h2 => ⟨fun h => ?vbcast, fun h hn => ?vext, fun h hn => ?vins, fun h hi => ?setvl⟩⟩
    case vsel =>
      exact congrArg Host.Outcome.next ((issueArch_eq h (.inr (by simp)) (by simp [hm, hi]) _).trans (by rw [select_lanes]))
    case vbcast =>
      refine congrArg Host.Outcome.next ((issueArch_eq h (.inr (by simp)) (by simp [hm, h2]) _).trans ?_)
      rw [vlanes_eq, laneFlags_none, raiseV_none]
      rfl
    case vext =>
      have hrun := vext_eq h hm h2 hn
      refine ⟨fun hlt => hrun.trans ?_, fun hge => hrun.trans ?_⟩
      · rw [permLane_inside _ ⟨Int.natCast_nonneg _, Int.ofNat_lt.mpr hlt⟩, raiseV_none]
        rfl
      · rw [permLane_outside _ fun hin => Nat.not_lt.mpr hge (Int.ofNat_lt.mp hin.2), Arch.raiseV, sput_vstat]
        rfl
    case vins =>
      refine ⟨fun hlt => congrArg Host.Outcome.next ((issueArch_eq h (.inr (by simp)) (by simp [hm, h2]; exact hn) _).trans ?_),
        fun hge => congrArg Host.Outcome.next ((issueArch_eq h (.inr (by simp)) (by simp [hm, h2]; exact hn) _).trans ?_)⟩
      · rw [if_pos hlt, setLanes_singleton]
      · rw [if_neg (Nat.not_lt.mpr hge)]
    case setvl => exact congrArg Host.Outcome.next (issueArch_eq h (.inl rfl) (by simp [hm, h2, hi]) _)
  · intro u f s a src n act inside gives
    refine ⟨fun h hm hi => ?vperm, fun h h2 => ⟨fun hn => ?vshuf, fun hm hi => ?pack⟩⟩
    case vperm =>
      obtain ⟨g, fl, hrun, hspec⟩ := vlanes_permLane a f src fun i => (lane (a.vget f.src2) i).toNat
      exact ⟨g, fl, congrArg Host.Outcome.next ((issueArch_eq h (.inr (by simp)) (by simp [hm, hi]) _).trans (congrArg _ hrun)), hspec⟩
    case vshuf =>
      have key {j : Nat → Int} (hj : ∀ i, shufLane f.mod.toNat n a.vl i = some (j i)) : gives (.vshuf u f) j := by
        obtain ⟨g, fl, hrun, hspec⟩ := vlanes_permLane a f src j
        exact ⟨g, fl, (vshuf_eq h h2 hn hj).trans (by rw [← hrun]), hspec⟩
      exact ⟨fun hm => key fun i => by rw [hm]; rfl, fun hm => key fun i => by rw [hm]; rfl, fun hm => key fun i => by rw [hm]; rfl,
        fun hm => key fun i => by rw [hm]; rfl, fun hm => key fun i => by rw [hm]; rfl⟩
    case pack =>
      obtain ⟨v, hv, hlanes⟩ := compress_lanes a f
      obtain ⟨w, hw, hwlanes⟩ := expand_lanes a f
      exact ⟨⟨v, congrArg Host.Outcome.next ((issueArch_eq h (.inr (by simp)) (by simp [hm, h2, hi]) _).trans (congrArg _ hv)), hlanes⟩,
        ⟨w, congrArg Host.Outcome.next ((issueArch_eq h (.inr (by simp)) (by simp [hm, h2, hi]) _).trans (congrArg _ hw)), hwlanes⟩⟩

end Sys2Proof.Proofs
end

section
/-! PROOFS. The functions of `vfn`: O26. -/

namespace Sys2Proof.Machine

/-! ## FP32 words by their values -/

theorem getLsbD_zero32 (n : Bool) {i : Nat} (h : i < 32) : (zero32 n).getLsbD i = (n && decide (i = 31)) := by
  cases n
  · simp [zero32]
  · exact (getLsbD_signMask h).trans (Bool.true_and _).symm

/-- A word is its magnitude and its sign bit. -/
theorem word_eq_magnitude_or_sign (x : W32) : x = x &&& 0x7FFFFFFF#32 ||| zero32 (x.getLsbD 31) := by
  refine BitVec.eq_of_getLsbD_eq fun i h => ?_
  rw [BitVec.getLsbD_or, BitVec.getLsbD_and, getLsbD_magnitudeMask h, getLsbD_zero32 _ h]
  by_cases hi : i = 31 <;> simp [hi]

/-- R29: the sign of a value that is not NaN is the word's highest bit. -/
theorem decode_cases (x : W32) : f32.decode x.toNat = .nan ∨ f32.decode x.toNat = .inf (x.getLsbD 31) ∨
    ∃ m e, f32.decode x.toNat = .fin (x.getLsbD 31) m e := by
  have hsign : bitAt x.toNat (f32.eb + f32.mb) = x.getLsbD 31 := bitAt_eq_testBit ..
  unfold Fmt.decode
  rw [hsign]
  dsimp only
  split_ifs
  · exact .inr (.inl rfl)
  · exact .inl rfl
  · exact .inl rfl
  · exact .inr (.inr ⟨_, _, rfl⟩)
  · exact .inr (.inr ⟨_, _, rfl⟩)

/-- R29: a zero is one of two words. -/
theorem eq_zero32_of_isZero {x : W32} (h : (f32.decode x.toNat).isZero = true) : ∃ n, x = zero32 n := by
  have henc := encoding_eq (f := f32) x.isLt
  rw [(decode_of_isFin (isFin_of_isZero h)).2] at h
  split_ifs at h with he
  · have hm : bitsAt x.toNat 0 f32.mb = 0 := by simpa [FV.isZero] using h
    rw [he, hm, Nat.zero_mul, Nat.add_zero] at henc
    refine ⟨bitAt x.toNat (f32.eb + f32.mb), BitVec.eq_of_toNat_eq (henc.symm.trans ?_)⟩
    cases bitAt x.toNat (f32.eb + f32.mb) <;> rfl
  · have hpos : 2 ^ f32.mb + bitsAt x.toNat 0 f32.mb ≠ 0 := by have := Nat.two_pow_pos f32.mb; omega
    exact absurd (beq_iff_eq.mp h) hpos

/-- R29: an infinity is one of two words. -/
theorem eq_inf32_of_magnitude {x : W32} (h : x &&& 0x7FFFFFFF#32 = 0x7F800000#32) : ∃ n, x = inf32 n := by
  refine ⟨x.getLsbD 31, (word_eq_magnitude_or_sign x).trans ?_⟩
  rw [h]
  cases x.getLsbD 31 <;> rfl

/-- R155: a word that stands for a negative number, not zero. -/
def negative (x : W32) : Prop := x.getLsbD 31 = true ∧ f32.decode x.toNat ≠ .nan ∧ (f32.decode x.toNat).isZero = false

theorem decode_negative {x : W32} (h : negative x) :
    f32.decode x.toNat = .inf true ∨ ∃ m e, m ≠ 0 ∧ f32.decode x.toNat = .fin true m e := by
  obtain ⟨hs, hnan, hz⟩ := h
  rcases decode_cases x with hd | hd | ⟨m, e, hd⟩
  · exact absurd hd hnan
  · exact .inl (hs ▸ hd)
  · refine .inr ⟨m, e, ?_, hs ▸ hd⟩
    rw [hd] at hz
    simpa [FV.isZero] using hz

/-- R29: the words from 128 up to the largest finite one. -/
theorem decode_from_128 {x : W32} (h1 : 0x43000000 ≤ x.toNat) (h2 : x.toNat < 0x7F800000) :
    ∃ m e, 2 ^ 23 ≤ m ∧ -16 ≤ e ∧ f32.decode x.toNat = .fin false m e := by
  have he : 134 ≤ bitsAt x.toNat 23 8 ∧ bitsAt x.toNat 23 8 < 255 := by unfold bitsAt; omega
  have hsign : bitAt x.toNat 31 = false := by
    have : x.toNat / 2 ^ 31 = 0 := by omega
    rw [bitAt, this]
    rfl
  refine ⟨2 ^ 23 + bitsAt x.toNat 0 23, (bitsAt x.toNat 23 8 : Int) - 127 - 23, Nat.le_add_right .., by omega, ?_⟩
  have h0 : bitsAt x.toNat 23 8 ≠ 0 := by omega
  have h255 : bitsAt x.toNat 23 8 ≠ 255 := by omega
  simp [Fmt.decode, f32, hsign, h0, h255]

/-- No such value is below 128. -/
theorem not_lt_128 {m : Nat} {e : Int} (hm : 2 ^ 23 ≤ m) (he : -16 ≤ e) : (FV.fin false m e).lt (.fin false 128 0) = false := by
  simp only [FV.lt, signed, Bool.false_eq_true, if_false, decide_eq_false_iff_not, not_lt]
  norm_cast
  rcases le_total 0 e with h | h
  · rw [min_eq_right h, sub_self, sub_zero]
    calc 128 * 2 ^ (0 : Int).toNat ≤ m := by norm_num; omega
      _ ≤ m * 2 ^ e.toNat := Nat.le_mul_of_pos_right m (Nat.two_pow_pos _)
  · rw [min_eq_left h, sub_self, zero_sub]
    calc 128 * 2 ^ (-e).toNat ≤ 128 * 2 ^ 16 := Nat.mul_le_mul_left _ (Nat.pow_le_pow_right (by decide) (by omega))
      _ ≤ m * 2 ^ (0 : Int).toNat := by norm_num; omega

/-! ## The functions of Table 6.4 -/

/-- R155: a NaN gives the canonical NaN. -/
theorem vfnLane_nan (fn : Nat) {x : W32} (h : f32.decode x.toNat = .nan) : vfnLane fn x = (nan32, {}) := by
  unfold vfnLane
  split
  · simp only [fnRcp, h]
  · simp only [fnRsqrt, h]
  · simp only [fnSqrt, Fmt.sqrtB, h]; rfl
  · simp only [fnExp2, h]
  · simp only [fnLog2, h]
  · simp only [fnExp, h]
  · simp only [fnTanh, h]
  · simp only [fnSig, h]

section
variable (x : W32)

/-- Table 6.4, `rcp`. -/
theorem fnRcp_special : ((f32.decode x.toNat).isZero = true → fnRcp x = (0x7F800000#32 ||| x &&& 0x80000000#32, { dz := true })) ∧
    (x &&& 0x7FFFFFFF#32 = 0x7F800000#32 → fnRcp x = (x &&& 0x80000000#32, {})) := by
  refine ⟨fun hz => ?_, fun hb => ?_⟩
  · obtain ⟨n, rfl⟩ := eq_zero32_of_isZero hz
    cases n <;> rfl
  · obtain ⟨n, rfl⟩ := eq_inf32_of_magnitude hb
    cases n <;> rfl

/-- Table 6.4, `rsqrt`. -/
theorem fnRsqrt_special : ((f32.decode x.toNat).isZero = true → fnRsqrt x = (0x7F800000#32 ||| x &&& 0x80000000#32, { dz := true })) ∧
    (negative x → fnRsqrt x = (nan32, { nv := true })) ∧ (x = 0x7F800000#32 → fnRsqrt x = (0, {})) := by
  refine ⟨fun hz => ?_, fun hn => ?_, fun hx => hx ▸ rfl⟩
  · obtain ⟨n, rfl⟩ := eq_zero32_of_isZero hz
    cases n <;> rfl
  · rcases decode_negative hn with hd | ⟨m, e, hm, hd⟩
    · simp only [fnRsqrt, hd, if_true]
    · simp [fnRsqrt, hd, hm]

/-- Table 6.4, `sqrt`. -/
theorem fnSqrt_special : ((f32.decode x.toNat).isZero = true → fnSqrt x = (x, {})) ∧
    (negative x → fnSqrt x = (nan32, { nv := true })) := by
  refine ⟨fun hz => ?_, fun hn => ?_⟩
  · obtain ⟨n, rfl⟩ := eq_zero32_of_isZero hz
    cases n <;> rfl
  · have hsqrt : (f32.decode x.toNat).sqrt = (.nan, true) := by
      rcases decode_negative hn with hd | ⟨m, e, hm, hd⟩
      · rw [hd]; rfl
      · simp [FV.sqrt, hd, hm]
    rw [fnSqrt, Fmt.sqrtB, hsqrt]
    rfl

/-- Table 6.4, `exp2`. -/
theorem fnExp2_special : (x = 0xFF800000#32 → fnExp2 x = (0, {})) ∧
    (0x43000000 ≤ x.toNat → x.toNat < (0x7F800000#32).toNat → fnExp2 x = (0x7F800000#32, { ov := true, nx := true })) ∧
    ((f32.decode x.toNat).isZero = true → fnExp2 x = (0x3F800000#32, {})) := by
  refine ⟨fun hx => hx ▸ rfl, fun h1 h2 => ?_, fun hz => ?_⟩
  · obtain ⟨m, e, hm, he, hd⟩ := decode_from_128 h1 h2
    simp only [fnExp2, hd, not_lt_128 hm he]
    rfl
  · obtain ⟨n, rfl⟩ := eq_zero32_of_isZero hz
    cases n <;> rfl

/-- Table 6.4, `log2`. -/
theorem fnLog2_special : ((f32.decode x.toNat).isZero = true → fnLog2 x = (0xFF800000#32, { dz := true })) ∧
    (negative x → fnLog2 x = (nan32, { nv := true })) ∧ (x = 0x7F800000#32 → fnLog2 x = (0x7F800000#32, {})) ∧
    (x = 0x3F800000#32 → fnLog2 x = (0, {})) := by
  refine ⟨fun hz => ?_, fun hn => ?_, fun hx => by subst hx; rfl, fun hx => by subst hx; rfl⟩
  · obtain ⟨n, rfl⟩ := eq_zero32_of_isZero hz
    cases n <;> rfl
  · rcases decode_negative hn with hd | ⟨m, e, hm, hd⟩
    · simp only [fnLog2, hd, if_true]
    · simp [fnLog2, hd, hm]

/-- Table 6.4, `exp`. -/
theorem fnExp_special : (x = 0xFF800000#32 → fnExp x = (0, {})) ∧
    ((f32.decode x.toNat).isZero = true → fnExp x = (0x3F800000#32, {})) := by
  refine ⟨fun hx => hx ▸ rfl, fun hz => ?_⟩
  obtain ⟨n, rfl⟩ := eq_zero32_of_isZero hz
  cases n <;> rfl

/-- Table 6.4, `tanh`. -/
theorem fnTanh_special : ((f32.decode x.toNat).isZero = true → fnTanh x = (x, {})) ∧
    (x &&& 0x7FFFFFFF#32 = 0x7F800000#32 → fnTanh x = (0x3F800000#32 ||| x &&& 0x80000000#32, {})) := by
  refine ⟨fun hz => ?_, fun hb => ?_⟩
  · obtain ⟨n, rfl⟩ := eq_zero32_of_isZero hz
    cases n <;> rfl
  · obtain ⟨n, rfl⟩ := eq_inf32_of_magnitude hb
    cases n <;> rfl

/-- Table 6.4, `sig`. -/
theorem fnSig_special : ((f32.decode x.toNat).isZero = true → fnSig x = (0x3F000000#32, {})) ∧
    (x = 0x7F800000#32 → fnSig x = (0x3F800000#32, {})) ∧ (x = 0xFF800000#32 → fnSig x = (0, {})) := by
  refine ⟨fun hz => ?_, fun hx => hx ▸ rfl, fun hx => hx ▸ rfl⟩
  obtain ⟨n, rfl⟩ := eq_zero32_of_isZero hz
  cases n <;> rfl

end

end Sys2Proof.Machine

namespace Sys2Proof.Proofs

open Sys2Proof.Machine

/-- Settles O26: the lanes take `vfnLane` (`vun_eq`), whose special cases are those of its eight functions. -/
theorem vectorFunction : Obligations.VectorFunction := by
  unfold Obligations.VectorFunction
  intro u f s h hm h2 hi a fn nan inf one sign big
  have hrun : exec (.vfn u f) s = .next (ran s u (vlanes a f fun i => vfnLane fn (lane (a.vget f.src1) i))) :=
    congrArg Host.Outcome.next (vun_eq h h2 (by simp [hm, hi]) _)
  refine ⟨fun i => vfnLane fn (lane (a.vget f.src1) i), hrun.trans (by rw [vlanes_eq]), fun i => ?_⟩
  intro x v neg
  generalize fn = k
  refine ⟨vfnLane_nan k, ?_, ?_, ?_, ?_, ?_, ?_, ?_, ?_, ?_⟩
  · rintro rfl; exact fnRcp_special x
  · rintro rfl; exact fnRsqrt_special x
  · rintro rfl
    obtain ⟨hzero, hneg⟩ := fnSqrt_special x
    exact ⟨hzero, hneg, fun _ => rfl⟩
  · rintro (rfl | rfl)
    · exact (fnExp2_special x).1
    · exact (fnExp_special x).1
  · rintro rfl; exact (fnExp2_special x).2
  · rintro rfl; exact fnLog2_special x
  · rintro rfl; exact (fnExp_special x).2
  · rintro rfl; exact fnTanh_special x
  · rintro rfl; exact fnSig_special x

end Sys2Proof.Proofs
end

section
/-! PROOFS. Every reduction completes: O28. -/

namespace Sys2Proof.Machine

/-- R156, R158: `rsum.f32` writes s[dst] and may raise flags, whether or not a lane is active. -/
theorem rsumArch_sput (f : Fields) (a : Arch) : ∃ r fl, rsumArch f a = (a.sput f.dst r).raiseV fl := by
  by_cases h : activeLanes a f.mask = []
  · exact ⟨_, {}, (rsumArch_inactive h).trans (raiseV_none _).symm⟩
  · obtain ⟨fl, hfl⟩ := rsumArch_active h
    exact ⟨_, fl, hfl⟩

/-- R157: the lanes set in both masks are among 32. -/
theorem mem_maskLanes_lt {a : Arch} {f : Fields} {i : Nat} (h : i ∈ maskLanes a f) : i < 32 :=
  (mem_activeLanes.mp (List.mem_of_mem_filter h)).1

theorem length_maskLanes_le (a : Arch) (f : Fields) : (maskLanes a f).length ≤ 32 := by
  have h1 : (maskLanes a f).length ≤ (activeLanes a f.mask).length := List.length_filter_le ..
  have h2 : (activeLanes a f.mask).length ≤ (List.range 32).length := List.length_filter_le ..
  exact h1.trans (h2.trans_eq List.length_range)

/-- R157: `rmfirst` gives a lane, or 32. -/
theorem head_maskLanes_le (a : Arch) (f : Fields) : (maskLanes a f).head?.getD 32 ≤ 32 := by
  cases h : (maskLanes a f).head? with
  | none => exact le_rfl
  | some i => exact (mem_maskLanes_lt (List.mem_of_mem_head? h)).le

/-- R36: a scale byte is a byte. -/
theorem scaleByte_le (el : Elem) (vs : List FV) : (scaleByte el vs).1 ≤ 255 := by
  unfold scaleByte
  split_ifs
  · exact le_rfl
  · exact le_rfl
  · split
    · split
      · exact Nat.zero_le _
      · dsimp only
        omega
    · exact Nat.zero_le _

/-- R154: the element format of an MX block has a code in Table 6.1. -/
theorem vfmt_of_mxCode {c : Nat} (h : mxCode c = true) : ∃ el w, vfmt c = some (el, w) := by
  have hc : c = 0 ∨ c = 1 ∨ c = 2 ∨ c = 3 ∨ c = 4 ∨ c = 11 := by
    simp only [mxCode, Bool.or_eq_true, decide_eq_true_eq, beq_iff_eq] at h
    omega
  rcases hc with rfl | rfl | rfl | rfl | rfl | rfl
  all_goals exact ⟨_, _, rfl⟩

end Sys2Proof.Machine

namespace Sys2Proof.Proofs

open Sys2Proof.Machine

/-- Settles O28: each reduction writes s[dst] on the register image (`reduce_eq`), with flags for `rsum.f32` (`rsumArch_sput`) and
`rscale` (`rscale_eq`). -/
theorem reductionsComplete : Obligations.ReductionsComplete := by
  unfold Obligations.ReductionsComplete
  intro u f s hi a
  refine ⟨fun h h2 => ⟨fun hm => ⟨?sumF, ?sumI⟩, fun hm => ⟨?max, ?min⟩⟩, fun h hm => ?argmax, fun h h1 h2 hm => ?masks,
    fun g h hm h2 hmx himm => ?scale⟩
  case sumF =>
    obtain ⟨r, fl, hr⟩ := rsumArch_sput f a
    exact ⟨r, fl, congrArg Host.Outcome.next ((reduce_eq h h2 hi (decide_eq_true hm) _).trans (congrArg _ hr))⟩
  case sumI => exact ⟨_, congrArg Host.Outcome.next (reduce_eq h h2 hi (decide_eq_true hm) _)⟩
  case max => exact ⟨_, congrArg Host.Outcome.next (reduce_eq h h2 hi (decide_eq_true hm) _)⟩
  case min => exact ⟨_, congrArg Host.Outcome.next (reduce_eq h h2 hi (decide_eq_true hm) _)⟩
  case argmax =>
    exact ⟨_, congrArg Host.Outcome.next ((issueArch_eq h (.inl rfl) (by simp [hm, hi]) _).trans (congrArg _ (rargArch_eq f _)))⟩
  case masks =>
    have hok : (f.mod == 0 && f.src2 == 0 && f.imm == 0 && decide (f.src1.toNat < 8)) = true := by simp [hm, h2, hi, h1]
    exact ⟨⟨_, congrArg Host.Outcome.next (issueArch_eq h (.inl rfl) hok _), (Nat.mod_le ..).trans (length_maskLanes_le ..)⟩,
      ⟨_, congrArg Host.Outcome.next (issueArch_eq h (.inl rfl) hok _), (Nat.mod_le ..).trans (head_maskLanes_le ..)⟩⟩
  case scale =>
    obtain ⟨el, w, hf⟩ := vfmt_of_mxCode hmx
    exact ⟨_, _, rscale_eq h hm h2 hmx himm hf rfl, (Nat.mod_le ..).trans (scaleByte_le ..)⟩

end Sys2Proof.Proofs
end

section
/-! PROOFS. Patrol periods, the gather buffer, flit retries and the repair unit: O36. -/

namespace Sys2Proof.Machine

/-! ## Writing a line of the gather buffer (R178) -/

/-- R178: a single byte of a line of the well makes a sound buffer. -/
theorem linesSound_byte {line e : Nat} (he : e < 64) (hline : 64 * line < 0x400000) (b : W8) : linesSound [⟨64 * line, [(e, b)]⟩] where
  apart := List.nodup_singleton _
  sound := fun _ hg => List.mem_singleton.mp hg ▸
    ⟨Nat.mul_mod_right 64 line, rfl, fun _ hx => List.mem_singleton.mp hx ▸ he, hline⟩

section
variable {s : State} (hp : s.wellPoison = []) {l : Nat} (hl : l < 16384)
include hp hl

/-- R178: writing the oldest line to the well changes no byte that a read sees. -/
theorem byteAt_gatherWrite {g : GLine} {r : List GLine} (hg : (coreOf s l).gather = g :: r) (hs : linesSound (g :: r)) (a : Nat) :
    byteAt (gatherWrite s l g []) a = byteAt s a :=
  byteAt_of_wellStored (wellStored_gatherWrite hp hg hs).1 hp hl (fun _ he => nomatch he) a

/-- R178: a read of a well sees the byte that a line of the buffer holds. -/
theorem byteAt_gathered {line e : Nat} {b : W8} (hg : (coreOf s l).gather = [⟨64 * line, [(e, b)]⟩]) (he : e < 64)
    (hline : 64 * line < 0x400000) : byteAt s (wellBase l + 64 * line + e) = b := by
  have hown : ownWell l (wellBase l + 64 * line + e) = true := ownWell_iff.mpr (by omega)
  have hoff : wellBase l + 64 * line + e - wellBase l = 64 * line + e := by omega
  have hstart : 64 * line = (64 * line + e) / 64 * 64 := by omega
  have hplace : (64 * line + e) % 64 = e := by omega
  rw [byteAt_ownWell hp hl hown, wellByte, hoff, gatherByte_eq, hg, gatherLook_cons, if_pos hstart, hplace]
  simp [fget?]

end

theorem execGatherLineFlush_eq {s : State} {l line : Nat} {g : GLine} {r : List GLine} (hg : (coreOf s l).gather = g :: r)
    (hoff : g.off = 64 * line) : execGatherLineFlush l line [] s = .next (publish s (gatherWrite s l g [])) := by
  have hfind : ((coreOf s l).gather.find? fun g => g.off == 64 * line) = some g := by
    rw [hg, List.find?_cons_of_pos (by simpa using hoff)]
  exact shown_eq (by rw [hfind])

/-! ## Patrol periods (R167, R214) -/

/-- R167: a period of a tile's wells that meets no error. -/
theorem execWellPatrol_nil {s : State} {t : Nat} (ht : t < 64) (missed : Bool) :
    let w := putTile s t { tileOf s t with patrol := rfld s (rTL t 0x300C) 0 8 }
    execWellPatrol t [] missed s =
      .next (publish s (if (tileOf s t).patrol = 0 then w else if missed then rsetf w (rTL t 0x300C) 16 1 1 else w)) := by
  intro w
  refine shown_eq ((if_neg (by omega)).trans ?_)
  simp only [beq_iff_eq]
  rfl

/-- R214, R223: the corrected errors of a cistern's pages are a period older. -/
def pagesAged (j : Nat) (s : State) : State :=
  let age (l : List Nat) : List Nat := (l.filter fun k => k % 2 == 0).map (· + 1)
  (span (16 * j) 16).foldl (fun s k =>
    let x := chanSt s k
    if x.ceSeen.isEmpty then s else putChan s k { x with ceSeen := age x.ceSeen }) s

/-- R214: a period leaves the channels as they are where none of them has seen a corrected error. -/
theorem pagesAged_eq {s : State} (h : ∀ c, (chanSt s c).ceSeen = []) (j : Nat) : pagesAged j s = s := by
  unfold pagesAged
  induction span (16 * j) 16 with
  | nil => rfl
  | cons c r ih => exact (congrArg (r.foldl _) (if_pos (List.isEmpty_iff.mpr (h c)))).trans ih

section
variable {s : State} {j : Nat} (hj : j < 24) (missed : Bool)
include hj

theorem patrol_stopped (hs : (cistOf s j).period = 0) :
    patrol j [] missed s = putCist s j { cistOf s j with period := rfld s (rCS j 0x220) 0 8 } :=
  (if_neg (by omega)).trans (if_pos (by simp [hs]))

/-- R214: a period of a cistern that meets no error. -/
theorem patrol_nil (hs : (cistOf s j).period ≠ 0) :
    let u := putCist (pagesAged j s) j { cistOf (pagesAged j s) j with period := rfld s (rCS j 0x220) 0 8 }
    patrol j [] missed s = if missed then rsetf u (rCS j 0x220) 8 1 1 else u :=
  (if_neg (by omega)).trans (if_neg (by simp [hs]))

/-- R214: such a period of a cistern without corrected errors changes its period and its missed bit. -/
theorem patrol_quiet (hs : (cistOf s j).period ≠ 0) (hc : ∀ c, (chanSt s c).ceSeen = []) :
    let u := putCist s j { cistOf s j with period := rfld s (rCS j 0x220) 0 8 }
    patrol j [] missed s = if missed then rsetf u (rCS j 0x220) 8 1 1 else u := by
  have h := patrol_nil hj missed hs
  rwa [pagesAged_eq hc] at h

/-! ## Commands of the repair unit (R228, R233) -/

/-- R228: a busy unit, and a ready module for a repair, refuse the command. -/
theorem pprTake_refused {repair : Bool} (h : (cistOf s j).pprBusy ≠ none ∨ repair = true ∧ ready s = true) :
    pprTake j repair s = rsetf s (rCS j 0x308) 2 1 1 :=
  (if_neg (by omega)).trans (if_pos (by simpa [Option.isSome_iff_ne_none] using h))

/-- R228, R233: a free unit takes a command with the selection as it stands. -/
theorem pprTake_taken {repair : Bool} (h : (cistOf s j).pprBusy = none) (hr : repair = true → ready s = false) :
    rfld (pprTake j repair s) (rCS j 0x308) 0 1 = 1 ∧
      (cistOf (pprTake j repair s) j).pprBusy = some (repair, rget s (rCS j 0x300)) := by
  have heq : pprTake j repair s = rsetf (putCist s j { cistOf s j with pprBusy := some (repair, rget s (rCS j 0x300)) })
      (rCS j 0x308) 0 1 1 := (if_neg (by omega)).trans (if_neg (by simpa [h] using hr))
  rw [heq]
  exact ⟨rfld_rsetf_same _ _ (by decide) 1, congrArg CistSt.pprBusy (cistOf_putCist ..)⟩

end

/-! ## The end of a command of the repair unit (R223, R228) -/

/-- R228: the unit is free and its command done, whatever the command found. -/
def pprFreed (s : State) (j : Nat) : State :=
  rsetf (rsetf (putCist s j { cistOf s j with pprBusy := none }) (rCS j 0x308) 0 1 0) (rCS j 0x308) 1 1 1

theorem pprFreed_spec (s : State) (j : Nat) : (cistOf (pprFreed s j) j).pprBusy = none ∧
    rfld (pprFreed s j) (rCS j 0x308) 0 1 = 0 ∧ rfld (pprFreed s j) (rCS j 0x308) 1 1 = 1 :=
  ⟨congrArg CistSt.pprBusy (cistOf_putCist ..),
    (rfld_rsetf_apart _ _ (by decide) (by decide) 1).trans (rfld_rsetf_same _ _ (by decide) 0),
    rfld_rsetf_same _ _ (by decide) 1⟩

@[simp] theorem chanSt_putChan (s : State) (c : Nat) (x : ChanSt) : chanSt (putChan s c x) c = x := fget_fset_same ..

theorem pprEnd_query {s : State} {j sel : Nat} (h : (cistOf s j).pprBusy = some (false, sel)) (ok avail : Bool) :
    let x := chanSt s (selChan j sel)
    pprEnd j ok avail s = rsetf (putChan (pprFreed s j) (selChan j sel)
      { x with noRes := if avail then ndel (bitsAt sel 4 4) x.noRes else nins (bitsAt sel 4 4) x.noRes })
      (rCS j 0x308) 4 1 avail.toNat := by
  unfold pprEnd
  rw [h]
  rfl

theorem pprEnd_repaired {s : State} {j sel : Nat} (h : (cistOf s j).pprBusy = some (true, sel)) (avail : Bool) :
    pprEnd j true avail s = rowRepaired (pprFreed s j) (selChan j sel)
      (rowNumber (selChan j sel) (Config.bankRow (selChan j sel) (bitsAt sel 4 4) (bitsAt sel 8 18))) := by
  unfold pprEnd
  rw [h]
  rfl

theorem selChan_bounds (j sel : Nat) : 16 * j ≤ selChan j sel ∧ selChan j sel < 16 * j + 16 := by
  have hstack := bitsAt_lt sel 0 2
  have hchan := bitsAt_lt sel 2 2
  unfold selChan
  omega

theorem mem_repaired_rowRepaired (s : State) (c row : Nat) : row ∈ (chanSt (rowRepaired s c row) c).repaired := by
  have hrep : (chanSt (rowRepaired s c row) c).repaired = nins row (chanSt s c).repaired :=
    congrArg ChanSt.repaired (chanSt_putChan ..)
  rw [hrep]
  exact mem_nins.mpr (.inl rfl)

theorem cistOf_rowRepaired (s : State) (c row j : Nat) : cistOf (rowRepaired s c row) j = cistOf s j := rfl

/-- R226: a repaired row's counts stand in its channel's register alone. -/
theorem rfld_rowRepaired {s : State} {c o : Nat} (h : o ≠ rChan c) (row lo w : Nat) :
    rfld (rowRepaired s c row) o lo w = rfld s o lo w :=
  (rfld_rsetf_ne h ..).trans ((rfld_rsetf_ne h ..).trans (rfld_congr rfl ..))

/-- Table 9.5: CS_PPR_STAT is no channel's register. -/
theorem pprStat_ne_rChan {j c : Nat} (h1 : 16 * j ≤ c) (h2 : c < 16 * j + 16) : rCS j 0x308 ≠ rChan c := by
  unfold rChan rCS
  omega

end Sys2Proof.Machine

namespace Sys2Proof.Proofs

open Sys2Proof.Machine

/-- Settles O36: each command by the lemma that says what it leaves; a line of the gather buffer enters the well without a change
that a read sees (`byteAt_gatherWrite`). -/
theorem patrolAndRepair : Obligations.PatrolAndRepair := by
  unfold Obligations.PatrolAndRepair
  intro s t j l line missed avail ok
  refine ⟨fun ht => ?flit, ?wells, fun e b hp hg he hl hline => ?flush, fun hj hs hc => ?cistern, fun hj hs => ?stopped,
    fun hj hfree => ⟨fun hr => ?repair, fun hr => ?ready, ?query⟩, fun hj hbusy => ⟨?busyRepair, ?busyQuery⟩,
    fun sel hj hq => ?queryEnds, fun sel hj hr => ?repairEnds⟩
  case flit => exact (shown_eq (if_pos ht) : execFlitRetry t s = _)
  case wells =>
    intro w ht
    exact ⟨fun hrun => (execWellPatrol_nil ht missed).trans (by rw [if_neg hrun]),
      fun hstop => (execWellPatrol_nil ht missed).trans (by rw [if_pos hstop])⟩
  case flush =>
    have hsound := linesSound_byte he hline b
    obtain ⟨hstored, hlines⟩ := wellStored_gatherWrite hp hg hsound
    have hread := byteAt_gatherWrite hp hl hg hsound
    exact ⟨_, execGatherLineFlush_eq hg rfl, hlines, (hread _).trans (byteAt_gathered hp hl hg he hline), fun a _ => hread a,
      hstored.written.regs⟩
  case cistern =>
    refine ⟨_, (shown_eq (patrol_quiet hj missed hs hc) : execCisternPatrol j [] missed s = _), ?_⟩
    cases missed with
    | false => exact ⟨congrArg CistSt.period (cistOf_putCist ..), rfl, rfl, nofun⟩
    | true => exact ⟨congrArg CistSt.period (cistOf_putCist ..), rfl, rfl, fun _ => rfld_rsetf_same _ _ (by decide) 1⟩
  case stopped => exact (shown_eq (patrol_stopped hj missed hs) : execCisternPatrol j [] missed s = _)
  case repair => exact ⟨_, rfl, pprTake_taken hj hfree fun _ => hr⟩
  case ready => exact (shown_eq (pprTake_refused hj (.inr ⟨rfl, hr⟩)) : execPprRepair j s = _)
  case query => exact ⟨_, rfl, pprTake_taken hj hfree nofun⟩
  case busyRepair => exact (shown_eq (pprTake_refused hj (.inl hbusy)) : execPprRepair j s = _)
  case busyQuery => exact (shown_eq (pprTake_refused hj (.inl hbusy)) : execPprQuery j s = _)
  case queryEnds =>
    obtain ⟨hfreed, hrunning, hdone⟩ := pprFreed_spec s j
    refine ⟨_, (shown_eq (pprEnd_query hq ok avail) : execPprComplete j ok avail s = _), hfreed,
      (rfld_rsetf_apart _ _ (by decide) (by decide) _).trans hrunning,
      (rfld_rsetf_apart _ _ (by decide) (by decide) _).trans hdone, (rfld_rsetf_same _ _ (by decide) _).trans ?_⟩
    cases avail <;> rfl
  case repairEnds =>
    obtain ⟨hfreed, -, hdone⟩ := pprFreed_spec s j
    obtain ⟨hlo, hhi⟩ := selChan_bounds j sel
    exact ⟨_, (shown_eq (pprEnd_repaired hr avail) : execPprComplete j true avail s = _),
      (congrArg CistSt.pprBusy (cistOf_rowRepaired ..)).trans hfreed,
      (rfld_rowRepaired (pprStat_ne_rChan hlo hhi) ..).trans hdone, mem_repaired_rowRepaired ..⟩

end Sys2Proof.Proofs
end

section
/-! PROOFS. Tensor blocks as bytes: O56. -/

namespace Sys2Proof.Machine

/-! ## Fields of a byte string -/

/-- R9: the field at the start of a byte string spells its number, as far as its width holds it. -/
theorem leAt_leBytes_append (n v : Nat) (r : List W8) : leAt (leBytes n v ++ r) 0 n = v % 256 ^ n := by
  rw [leAt, List.drop_zero, List.take_left' (length_leBytes n v), leNat_leBytes]

/-- A read at or beyond the end of the first field is a read of what follows it. -/
theorem leAt_leBytes_append_of_le {m off : Nat} (h : m ≤ off) (v n : Nat) (r : List W8) :
    leAt (leBytes m v ++ r) off n = leAt r (off - m) n := by
  rw [leAt, leAt, List.drop_append, length_leBytes, List.drop_eq_nil_of_le (by rwa [length_leBytes]), List.nil_append]

/-! ## The block that bytes hold -/

/-- R203: the flag byte of a block (Table 8.7). -/
def Block.flags (b : Block) : Nat := b.poison.toNat + 2 * b.prov.toNat + 4 * b.widened.toNat

/-- Each flag is a bit of its own. -/
theorem bitAt_blockFlags (b : Block) :
    bitAt (Block.flags b) 0 = b.poison ∧ bitAt (Block.flags b) 1 = b.prov ∧ bitAt (Block.flags b) 2 = b.widened := by
  unfold Block.flags
  cases b.poison <;> cases b.prov <;> cases b.widened <;> decide

theorem blockFlags_lt (b : Block) : Block.flags b < 256 := by
  have hp := b.poison.toNat_le
  have hv := b.prov.toNat_le
  have hw := b.widened.toNat_le
  unfold Block.flags
  omega

theorem length_blockBody (b : Block) : (Block.body b).length = 4096 := by
  rw [Block.body, List.length_take, List.length_append, List.length_replicate]
  omega

/-- A payload of 4,096 bytes is neither padded nor cut. -/
theorem blockBody_eq {b : Block} (h : b.payload.length = 4096) : Block.body b = b.payload := by
  rw [Block.body, List.take_left' h]

/-- R203: the header of a block is its first 64 bytes. -/
def Block.header (b : Block) : List W8 :=
  leBytes 4 b.crc.toNat ++ leBytes 1 1 ++ leBytes 1 (Block.flags b) ++ leBytes 2 0 ++ Block.covered b ++ leBytes 2 b.wgen ++
  leBytes 2 0 ++ leBytes 4 b.pord ++ leBytes 8 0

theorem blockBytes_eq (b : Block) : Block.bytes b = Block.header b ++ Block.body b := rfl

theorem length_blockHeader (b : Block) : (Block.header b).length = 64 := by
  simp only [Block.header, Block.covered, List.length_append, length_leBytes]

/-- R203: the bytes behind the header are the payload. -/
theorem payload_blockBytes (b : Block) : ((Block.bytes b).drop 64).take 4096 = Block.body b := by
  rw [blockBytes_eq, List.drop_left' (length_blockHeader b), List.take_of_length_le (length_blockBody b).le]

/-- R203, Table 8.7: whatever the fields of a block, its bytes hold each of them modulo its place and the payload padded or cut:
each field is read behind the fields before it. -/
theorem blockOf_blockBytes (b : Block) : blockOf (Block.bytes b) =
    { b with fmt := b.fmt % 2 ^ 8, nblk := b.nblk % 2 ^ 8, vbytes := b.vbytes % 2 ^ 16, gen := b.gen % 2 ^ 16, ctx := b.ctx % 2 ^ 8,
             pslot := b.pslot % 2 ^ 8, plcid := b.plcid % 2 ^ 32, preplay := b.preplay % 2 ^ 32, pseq := b.pseq % 2 ^ 64,
             bidx := b.bidx % 2 ^ 64, wgen := b.wgen % 2 ^ 16, pord := b.pord % 2 ^ 32, payload := Block.body b } := by
  obtain ⟨hpoison, hprov, hwidened⟩ := bitAt_blockFlags b
  have hflags := Nat.mod_eq_of_lt (blockFlags_lt b)
  unfold blockOf
  rw [payload_blockBytes]
  simp [blockBytes_eq, Block.header, Block.covered, leAt_leBytes_append, leAt_leBytes_append_of_le, hflags, hpoison, hprov,
    hwidened, Nat.mod_eq_of_lt b.crc.isLt, Nat.mod_eq_of_lt b.res.isLt]

end Sys2Proof.Machine

namespace Sys2Proof.Proofs

open Sys2Proof.Machine

/-- Settles O56: the bytes hold each field modulo its place (`blockOf_blockBytes`), which is the field where its place holds it. -/
theorem blockCodeRoundTrip : Obligations.BlockCodeRoundTrip := by
  unfold Obligations.BlockCodeRoundTrip
  intro b hfmt hnblk hvbytes hgen hctx hpslot hplcid hpreplay hpseq hbidx hwgen hpord hpayload
  refine ⟨length_blockBytes b, ?_⟩
  rw [blockOf_blockBytes, blockBody_eq hpayload, Nat.mod_eq_of_lt hfmt, Nat.mod_eq_of_lt hnblk, Nat.mod_eq_of_lt hvbytes,
    Nat.mod_eq_of_lt hgen, Nat.mod_eq_of_lt hctx, Nat.mod_eq_of_lt hpslot, Nat.mod_eq_of_lt hplcid, Nat.mod_eq_of_lt hpreplay,
    Nat.mod_eq_of_lt hpseq, Nat.mod_eq_of_lt hbidx, Nat.mod_eq_of_lt hwgen, Nat.mod_eq_of_lt hpord]

end Sys2Proof.Proofs
end

section
/-! PROOFS. Causes of resets, and what a warm and a cold reset keep: O51. -/

namespace Sys2Proof.Machine

/-! ## Causes (R416, R417) -/

/-- R416, R417: what state `u` is where causes `bits` of a reset of kind `k` have been recorded in `s`: they ask for a reset, and they
join one that has been asked for. -/
def resetAsked (s u : State) (k : ResetKind) (bits : Nat) : Prop :=
  (s.boot.resetPending = none → u.boot.resetPending = some k ∧ rfld u 0x114 0 8 = bits ∧ u = { s with regs := u.regs, boot := u.boot }) ∧
  (s.boot.resetPending = some .cold → u.boot.resetPending = some .cold ∧ u = { s with regs := u.regs }) ∧
  (s.boot.resetPending = some .warm → u.boot.resetPending = some k ∧
    ∀ i < 8, bitAt (rget u 0x114) i = (bitAt (rget s 0x114) i || bitAt bits i))

/-- Setting one bit of a register. -/
theorem bitAt_rget_rsetf_one (s : State) (o b : Nat) {i : Nat} (hi : i < 32) :
    bitAt (rget (rsetf s o b 1 1) o) i = (bitAt (rget s o) i || bitAt (2 ^ b) i) := by
  rw [rsetf, rget_rput_same, bitAt_eq_testBit, bitAt_eq_testBit, bitAt_eq_testBit, Nat.testBit_mod_two_pow, testBit_putBits,
    Nat.testBit_two_pow]
  by_cases h : b = i
  · simp [h, hi]
  · rw [if_neg (show ¬(b ≤ i ∧ i < b + 1) by omega)]
    simp [h, hi]

/-- R417: what a cause adds to a reset of kind `old` that is on its way. -/
def mergedCause (s : State) (old k : ResetKind) (b : Nat) : State :=
  rsetf { s with boot := { s.boot with resetPending := some (if k == .cold then .cold else old) } } 0x114 b 1 1

theorem requestReset_pending {s : State} {old : ResetKind} (h : s.boot.resetPending = some old) (k : ResetKind) (b : Nat) :
    requestReset s k b = mergedCause s old k b := by
  rw [requestReset, h]
  rfl

/-- R416: the causes that stood and the new one stand. -/
theorem bitAt_mergedCause (s : State) (old k : ResetKind) (b : Nat) {i : Nat} (hi : i < 8) :
    bitAt (rget (mergedCause s old k b) 0x114) i = (bitAt (rget s 0x114) i || bitAt (2 ^ b) i) :=
  bitAt_rget_rsetf_one _ _ _ (by omega)

theorem rfld_mergedCause (s : State) (old k : ResetKind) {b : Nat} (hb : b < 8) :
    rfld (mergedCause s old k b) 0x114 0 8 = rfld s 0x114 0 8 ||| 2 ^ b := by
  refine Nat.eq_of_testBit_eq fun i => ?_
  rw [rfld, rfld, testBit_bitsAt, Nat.testBit_or, testBit_bitsAt, Nat.testBit_two_pow, Nat.zero_add]
  by_cases hi : i < 8
  · have hbit := bitAt_mergedCause s old k b hi
    rw [bitAt_eq_testBit, bitAt_eq_testBit, bitAt_eq_testBit, Nat.testBit_two_pow] at hbit
    simp [hi, hbit]
  · have hne : b ≠ i := by omega
    simp [hi, hne]

/-- A reset that is cold stays cold, and only its causes change. -/
theorem mergedCause_cold {s : State} (h : s.boot.resetPending = some .cold) (k : ResetKind) (b : Nat) :
    mergedCause s .cold k b = { s with regs := (mergedCause s .cold k b).regs } := by
  have hboot : { s.boot with resetPending := some (if k == .cold then .cold else .cold) } = s.boot := by
    rw [ite_self, ← h]
  exact congrArg (fun b' : Boot => { s with regs := (mergedCause s .cold k b).regs, boot := b' }) hboot

theorem resetAsked_requestReset (s : State) (k : ResetKind) {b : Nat} (hb : b < 8) : resetAsked s (requestReset s k b) k (2 ^ b) := by
  refine ⟨fun h => ?_, fun h => ?_, fun h => ?_⟩
  · have hfirst : 2 ^ b < 2 ^ 8 := Nat.pow_lt_pow_right (by decide) hb
    rw [requestReset, h]
    exact ⟨rfl, (rfld_rsetf_same _ _ (by decide) _).trans (Nat.mod_eq_of_lt hfirst), rfl⟩
  · have hcold := mergedCause_cold h k b
    rw [requestReset_pending h]
    exact ⟨by rw [hcold]; exact h, hcold⟩
  · rw [requestReset_pending h]
    exact ⟨by cases k <;> rfl, fun i hi => bitAt_mergedCause _ _ _ _ hi⟩

/-- R417: a cold cause that joins a warm one makes the reset cold, and both causes stand. -/
theorem resetAsked_coldAfterWarm {s t : State} {m b : Nat} (h : resetAsked s t .warm m) (hb : b < 8) :
    resetAsked s (requestReset t .cold b) .cold (m ||| 2 ^ b) := by
  obtain ⟨hnone, hcold, hwarm⟩ := h
  refine ⟨fun hs => ?_, fun hs => ?_, fun hs => ?_⟩
  · obtain ⟨hp, hm, ht⟩ := hnone hs
    rw [requestReset_pending hp]
    exact ⟨rfl, (rfld_mergedCause t .warm .cold hb).trans (congrArg (· ||| 2 ^ b) hm),
      congrArg (fun x => { x with regs := (mergedCause t .warm .cold b).regs, boot := (mergedCause t .warm .cold b).boot }) ht⟩
  · obtain ⟨hp, ht⟩ := hcold hs
    have hmerged := mergedCause_cold hp .cold b
    rw [requestReset_pending hp]
    exact ⟨rfl, hmerged.trans (congrArg (fun x => { x with regs := (mergedCause t .cold .cold b).regs }) ht)⟩
  · obtain ⟨hp, hbits⟩ := hwarm hs
    rw [requestReset_pending hp]
    refine ⟨rfl, fun i hi => ?_⟩
    rw [bitAt_mergedCause _ _ _ _ hi, hbits i hi, Bool.or_assoc, bitAt_eq_testBit m, bitAt_eq_testBit (2 ^ b),
      bitAt_eq_testBit (m ||| 2 ^ b), Nat.testBit_or]

/-! ## Memory and flash -/

/-- Memory of which only the bytes at some addresses stay. -/
theorem cellGet_filter (q : Nat → Bool) (d : W8) (a : Nat) (m : List Host.Cell) :
    cellGet d a (m.filter fun e => q e.1) = if q a then cellGet d a m else d := by
  rw [cellGet, fget, fget?_filter]
  split <;> rfl

/-- R452: the bank that was on trial fails in flash, and nothing else changes. -/
theorem failTrial_eq (s : State) : failTrial s = { s with flash := (failTrial s).flash } := by
  unfold failTrial
  split <;> rfl

/-! ## Registers -/

/-- R439: WH_DJ alone shows OTP's counts. -/
theorem rget_showOtp_ne {o : Nat} (h : o ≠ 0x8010) (s : State) : rget (showOtp s) o = rget s o := rget_rput_ne h ..

/-- PW_STAT alone shows the supplies. -/
theorem rget_showPower_ne {o : Nat} (h : o ≠ rPW 0) (s : State) : rget (showPower s) o = rget s o := rget_rsetf_ne h ..

theorem fget?_fmapAll {α : Type} (g : Nat → α → α) (k : Nat) (m : FMap α) : fget? k (fmapAll g m) = (fget? k m).map (g k) := by
  induction m with
  | nil => rfl
  | cons e r ih =>
    by_cases h : k = e.1
    · subst h
      simp [fmapAll, fget?]
    · simpa [fmapAll, fget?, h] using ih

theorem rFnCtx_eq (n : Nat) : rFnCtx n = 0x100900 + 4 * n := by
  unfold rFnCtx rFN
  omega

theorem keepReg_rFnCtx {n : Nat} (hn : n < 64) : keepReg (rFnCtx n) = true := by
  have hlo : rFN 0x900 ≤ rFnCtx n := by unfold rFnCtx rFN; omega
  have hhi : rFnCtx n ≤ rFN 0xA00 := by unfold rFnCtx rFN; omega
  simp [keepReg, hlo, hhi]

/-- R418: a register that a warm reset keeps; the running bit of FN_CTX is cleared. -/
def warmReg (o : Nat) (v : W32) : W32 := if rFN 0x900 ≤ o && o < rFN 0xA00 then v &&& ~~~4#32 else v

/-- R418, Table 17.2: the registers that a warm reset keeps. -/
def warmRegs (m : FMap W32) : FMap W32 := fmapAll warmReg (m.filter fun e => keepReg e.1)

/-- R418: above bit 2 a register that is kept reads as before. -/
theorem bitsAt_warmReg (o : Nat) (v : W32) {lo : Nat} (h : 3 ≤ lo) (w : Nat) :
    bitsAt (warmReg o v).toNat lo w = bitsAt v.toNat lo w := by
  unfold warmReg
  split
  · refine Nat.eq_of_testBit_eq fun i => ?_
    have h2 : (4#32).getLsbD (lo + i) = false := by
      have hne : 2 ≠ lo + i := by omega
      simp [show 4#32 = BitVec.twoPow 32 2 from rfl, hne]
    rw [testBit_bitsAt, testBit_bitsAt, BitVec.testBit_toNat, BitVec.testBit_toNat, BitVec.getLsbD_and, BitVec.getLsbD_not, h2]
    by_cases h32 : lo + i < 32
    · simp [h32]
    · simp [BitVec.getLsbD_of_ge v (lo + i) (by omega)]
  · rfl

section
variable {s t : State} (ht : t.regs = warmRegs s.regs) {o : Nat} (hk : keepReg o = true)
include ht hk

theorem fget?_regs_of_warm : fget? o t.regs = (fget? o s.regs).map (warmReg o) := by
  rw [ht, warmRegs, fget?_fmapAll, fget?_filter, if_pos hk]

/-- R418: a register that a warm reset keeps whole. -/
theorem rget_of_warm (ho : warmReg o = id) : rget t o = rget s o := by
  rw [rget, rget, fget?_regs_of_warm ht hk, ho, Option.map_id_fun, id]

/-- R418: above bit 2 every register that a warm reset keeps. -/
theorem rfld_of_warm {lo : Nat} (h : 3 ≤ lo) (w : Nat) : rfld t o lo w = rfld s o lo w := by
  rw [rfld, rfld, rget, rget, fget?_regs_of_warm ht hk]
  cases fget? o s.regs with
  | none => rfl
  | some v => exact bitsAt_warmReg o v h w

end

/-! ## The warm reset (R229, R418) -/

/-- R418: a warm reset filters the registers, counts itself, and shows step 2 and OTP's counts. -/
theorem warmCore_regs (s : State) : ∃ t : State, t.regs = warmRegs s.regs ∧
    warmCore s = showOtp (rput (rcountF t 0x114 16 16 1) 0x108 2) := by
  refine ⟨_, ?_, rfl⟩
  rw [failTrial_eq s]
  refine List.map_congr_left fun e _ => ?_
  unfold warmReg
  split <;> rfl

/-- R418: WH_BRING_STAT and the reset cause with its count after a warm reset. -/
theorem warmCore_status (s : State) : rget (warmCore s) 0x108 = 2 ∧ rfld (warmCore s) 0x114 0 8 = rfld s 0x114 0 8 ∧
    rfld (warmCore s) 0x114 16 16 = min 65535 (rfld s 0x114 16 16 + 1) := by
  obtain ⟨t, ht, h⟩ := warmCore_regs s
  have hread (lo w : Nat) : rfld (warmCore s) 0x114 lo w = rfld (rcountF t 0x114 16 16 1) 0x114 lo w := by
    rw [h, rfld, rget_showOtp_ne (by decide), rget_rput_ne (by decide), rfld]
  have hkept (lo w : Nat) : rfld t 0x114 lo w = rfld s 0x114 lo w := by
    rw [rfld, rfld, rget_of_warm ht rfl rfl]
  refine ⟨?_, ?_, ?_⟩
  · rw [h, rget_showOtp_ne (by decide), rget_rput_same]
    rfl
  · rw [hread, rcountF, rfld_rsetf_apart _ _ (by decide) (by decide), hkept]
  · rw [hread, rcountF, rfld_rsetf_same _ _ (by decide), hkept]
    omega

/-- R418, Table 13.11: a warm reset keeps the binding generations. -/
theorem ctxGen_warmCore (s : State) {n : Nat} (hn : n < 64) : ctxGen (warmCore s) n = ctxGen s n := by
  obtain ⟨t, ht, h⟩ := warmCore_regs s
  have hat := rFnCtx_eq n
  rw [h, ctxGen, rfld, rget_showOtp_ne (by omega), rget_rput_ne (by omega), rcountF, rget_rsetf_ne (by omega)]
  exact rfld_of_warm ht (keepReg_rFnCtx hn) (by decide) 16

/-- R229: a warm reset keeps the bytes of LPDDR and of host memory and no other. -/
theorem cellGet_warmCore (s : State) (a : Nat) : cellGet memDefault a (warmCore s).mem =
    if a < 0x100000000000 ∨ 0x400000000000 ≤ a then cellGet memDefault a s.mem else memDefault := by
  have hmem : (warmCore s).mem = (failTrial s).mem.filter fun e => lpByte e || hostByte e := rfl
  rw [hmem, failTrial_eq s]
  refine (cellGet_filter (fun a => decide (a < 0x100000000000) || decide (0x400000000000 ≤ a)) ..).trans ?_
  simp

/-- R418, Table 17.2: what else a warm reset keeps of marks, OTP, messages to the host and journal. -/
theorem warmCore_keeps (s : State) : (warmCore s).lpPoison = s.lpPoison ∧ (warmCore s).hostPoison = s.hostPoison ∧
    (warmCore s).otp = s.otp ∧ (warmCore s).out = s.out.filter Msg.toHost ∧ (warmCore s).journal.length = s.journal.length := by
  unfold warmCore
  rw [failTrial_eq s]
  exact ⟨rfl, rfl, rfl, rfl, List.length_map ..⟩

/-! ## The cold reset (R230, R418) -/

/-- R230, R418: after a cold reset with the always-on domain up the registers hold their reset values, but for step 2, the reset
cause, the supplies and OTP's counts. -/
theorem coldCore_regs (s : State) : ∃ t : State, t.regs = [(0x108, 2#32), (0x114, BitVec.ofNat 32 (rfld s 0x114 0 8))] ∧
    coldCore s true = showOtp (showPower t) := by
  refine ⟨_, ?_, rfl⟩
  rw [failTrial_eq s]
  rfl

theorem coldCore_status (s : State) : rget (coldCore s true) 0x108 = 2 ∧
    rfld (coldCore s true) 0x114 0 8 = rfld s 0x114 0 8 ∧ rfld (coldCore s true) 0x114 16 16 = 0 := by
  obtain ⟨t, ht, h⟩ := coldCore_regs s
  have hlt : rfld s 0x114 0 8 < 256 := bitsAt_lt ..
  have hcause : rget (coldCore s true) 0x114 = rfld s 0x114 0 8 := by
    rw [h, rget_showOtp_ne (by decide), rget_showPower_ne (by decide), rget, ht]
    exact Nat.mod_eq_of_lt (by omega)
  refine ⟨?_, ?_, ?_⟩
  · rw [h, rget_showOtp_ne (by decide), rget_showPower_ne (by decide), rget, ht]
    rfl
  · rw [rfld, hcause, bitsAt]
    omega
  · rw [rfld, hcause, bitsAt]
    omega

/-- R418, Table 13.11: after a cold reset every context is EMPTY with binding generation 1. -/
theorem ctx_coldCore (s : State) {n : Nat} (hn : n < 64) : ctxState (coldCore s true) n = 0 ∧ ctxGen (coldCore s true) n = 1 := by
  obtain ⟨t, ht, h⟩ := coldCore_regs s
  have hat := rFnCtx_eq n
  have hpw : rPW 0 = 0x400000 := rfl
  have hreset : rget (coldCore s true) (rFnCtx n) = rget State.reset (rFnCtx n) := by
    have h1 : rFnCtx n ≠ 0x108 := by omega
    have h2 : rFnCtx n ≠ 0x114 := by omega
    rw [h, rget_showOtp_ne (by omega), rget_showPower_ne (by omega), rget_reset h2, rget, ht]
    simp [fget?, h1, h2]
  rw [ctxState, ctxGen, rfld, rfld, hreset]
  exact ctx_reset hn

/-- R230: a cold reset keeps the bytes of host memory and no other. -/
theorem cellGet_coldCore (s : State) (a : Nat) : cellGet memDefault a (coldCore s true).mem =
    if 0x400000000000 ≤ a then cellGet memDefault a s.mem else memDefault := by
  have hmem : (coldCore s true).mem = (failTrial s).mem.filter hostByte := rfl
  rw [hmem, failTrial_eq s]
  refine (cellGet_filter (fun a => decide (0x400000000000 ≤ a)) ..).trans ?_
  simp

theorem coldCore_keeps (s : State) : (coldCore s true).otp = s.otp ∧ (coldCore s true).hostPoison = s.hostPoison := by
  unfold coldCore
  rw [failTrial_eq s]
  exact ⟨rfl, rfl⟩

/-! ## The commands -/

theorem warmReset_waits {s : State} (h : s.boot.resetPending ≠ some .warm ∨ rfld s 0x108 4 1 = 1 ∨
    (dumpDue s = true ∧ s.boot.dumped = false)) : exec .warmReset s = .next (publish s s) := by
  refine (shown_eq (if_neg fun hc => ?_) : execWarmReset s = _)
  simp only [Bool.and_eq_true, Bool.or_eq_true, beq_iff_eq, Bool.not_eq_true'] at hc
  obtain ⟨⟨hp, hb⟩, hd⟩ := hc
  rcases h with h | h | ⟨hdue, hno⟩
  · exact h hp
  · omega
  · simp [hdue, hno] at hd

theorem warmReset_acts {s : State} (hp : s.boot.resetPending = some .warm) (hb : rfld s 0x108 4 1 = 0)
    (hd : s.boot.dumped = true ∨ dumpDue s = false) : exec .warmReset s = .next (publish s (warmCore s)) := by
  refine (shown_eq (if_pos ?_) : execWarmReset s = _)
  simpa [hp, hb] using hd

theorem coldReset_waits {s : State} (h : s.boot.resetPending ≠ some .cold) : exec .coldReset s = .next (publish s s) :=
  (shown_eq (if_neg (by simpa using h)) : execColdReset s = _)

theorem coldReset_acts {s : State} (h : s.boot.resetPending = some .cold) : exec .coldReset s = .next (publish s (coldCore s true)) :=
  (shown_eq (if_pos (by simpa using h)) : execColdReset s = _)

end Sys2Proof.Machine

namespace Sys2Proof.Proofs

open Sys2Proof.Machine

/-- Settles O51: each cause by `resetAsked_requestReset`, a cold one behind a warm one by `resetAsked_coldAfterWarm`; the two resets
by what they leave of memory and registers (`cellGet_warmCore`, `warmCore_status`, `cellGet_coldCore`, `coldCore_status`). -/
theorem resetCausesAndResets : Obligations.ResetCausesAndResets := by
  unfold Obligations.ResetCausesAndResets
  refine ⟨fun s => ⟨?warmAsked, ?coldAsked, ?bothAsked, ?cxl, fun h => ?firmware, fun h => ?noFirmware⟩,
    fun s => ⟨fun h => ?notWarm, fun hd hn => ?dump, fun h => ?busy, fun hp hb hd => ?warm, fun h => ?notCold, fun h => ?cold⟩⟩
  case warmAsked => exact ⟨_, rfl, resetAsked_requestReset s .warm (by decide)⟩
  case coldAsked => exact ⟨_, rfl, resetAsked_requestReset s .cold (by decide)⟩
  case bothAsked =>
    exact ⟨_, rfl, resetAsked_coldAfterWarm (b := 1) (resetAsked_requestReset s .warm (b := 0) (by decide)) (by decide)⟩
  case cxl => exact ⟨_, rfl, resetAsked_requestReset s .warm (by decide)⟩
  case firmware =>
    exact ⟨_, (shown_eq (if_pos h) : execFirmwareResetRequest s = _), resetAsked_requestReset s .warm (by decide)⟩
  case noFirmware => exact (shown_eq (if_neg (Nat.not_le.mpr h)) : execFirmwareResetRequest s = _)
  case notWarm => exact warmReset_waits (.inl h)
  case dump => exact warmReset_waits (.inr (.inr ⟨hd, hn⟩))
  case busy => exact warmReset_waits (.inr (.inl h))
  case warm =>
    obtain ⟨hstep, hcause, hcount⟩ := warmCore_status s
    obtain ⟨hlp, hhost, hotp, hout, hjournal⟩ := warmCore_keeps s
    exact ⟨_, warmReset_acts hp hb hd, rfl, rfl, hstep, hcause, hcount, rfl, fun a ha => (cellGet_warmCore s a).trans (if_pos ha),
      fun a h1 h2 => (cellGet_warmCore s a).trans (if_neg (by omega)), hlp, hhost, hotp, rfl, rfl, rfl, rfl, hout,
      hjournal, fun n hn => ctxGen_warmCore s hn⟩
  case notCold => exact coldReset_waits h
  case cold =>
    obtain ⟨hstep, hcause, hcount⟩ := coldCore_status s
    obtain ⟨hotp, hhost⟩ := coldCore_keeps s
    exact ⟨_, coldReset_acts h, rfl, rfl, hstep, hcause, hcount, fun a ha => (cellGet_coldCore s a).trans (if_pos ha),
      fun a ha => (cellGet_coldCore s a).trans (if_neg (by omega)), hotp, hhost, rfl, rfl, rfl, rfl,
      rfl, fun n hn => ctx_coldCore s hn⟩

end Sys2Proof.Proofs
end

section
/-! PROOFS. Serving batches and mirror images: O43. -/

namespace Sys2Proof.Machine

/-! ## What retirements and stores leave of contexts and functions -/

/-- `t` has the contexts and the arrived frames of `s`, and its registers below those of the host link, among them the registers of
functions and contexts (Table 13.11). -/
structure CtxsKept (s t : State) : Prop where
  ctxs : t.ctxs = s.ctxs
  inbox : t.inbox = s.inbox
  low : ∀ o < 0x200000, rget t o = rget s o

namespace CtxsKept

theorem refl (s : State) : CtxsKept s s := ⟨rfl, rfl, fun _ _ => rfl⟩

theorem trans {s t r : State} (h1 : CtxsKept s t) (h2 : CtxsKept t r) : CtxsKept s r :=
  ⟨h2.ctxs.trans h1.ctxs, h2.inbox.trans h1.inbox, fun o ho => (h2.low o ho).trans (h1.low o ho)⟩

theorem of_regs {s t : State} (hc : t.ctxs = s.ctxs) (hi : t.inbox = s.inbox) (hr : t.regs = s.regs) : CtxsKept s t :=
  ⟨hc, hi, fun o _ => rget_congr hr o⟩

theorem foldl {α : Type} {f : State → α → State} (hf : ∀ s a, CtxsKept s (f s a)) (l : List α) (s : State) :
    CtxsKept s (l.foldl f s) :=
  List.foldlRecOn l f (refl s) fun t ht a _ => ht.trans (hf t a)

theorem ctxOf {s t : State} (h : CtxsKept s t) (n : Nat) : ctxOf t n = Machine.ctxOf s n := by
  rw [Machine.ctxOf, h.ctxs, Machine.ctxOf]

theorem rfld {s t : State} (h : CtxsKept s t) {o : Nat} (ho : o < 0x200000) (lo w : Nat) : rfld t o lo w = Machine.rfld s o lo w := by
  rw [Machine.rfld, h.low o ho, Machine.rfld]

end CtxsKept

theorem rFnCtx_low {n : Nat} (h : n < 64) : rFnCtx n < 0x200000 := by
  rw [rFnCtx_eq]
  omega

theorem rFnStat_low {f : Nat} (h : f < 192) : rFnStat f < 0x200000 := by
  unfold rFnStat rFN
  omega

theorem ctxsKept_rput {o : Nat} (h : 0x200000 ≤ o) (s : State) (v : Nat) : CtxsKept s (rput s o v) :=
  ⟨rfl, rfl, fun k hk => rget_rput_ne (by omega) s v⟩

theorem ctxsKept_rsetf {o : Nat} (h : 0x200000 ≤ o) (s : State) (lo w v : Nat) : CtxsKept s (rsetf s o lo w v) :=
  ctxsKept_rput h ..

theorem ctxsKept_putHring (s : State) (r : Nat) (h : HRing) : CtxsKept s (putHring s r h) := .of_regs rfl rfl rfl

theorem ctxsKept_hostStore (s : State) (bs : List (Nat × W8)) : CtxsKept s (hostStore s bs) := by
  unfold hostStore
  split <;> exact .of_regs rfl rfl rfl

/-- R213, R227: what a channel drops is counted in a cistern's register. -/
theorem ctxsKept_lpStore (s : State) (bs : List (Nat × W8)) : CtxsKept s (lpStore s bs) := by
  unfold lpStore
  split
  · exact .refl s
  · simp only
    split
    · exact ctxsKept_rput (by unfold rCS; omega) ..
    · exact .of_regs rfl rfl rfl

theorem ctxsKept_anyStore (s : State) (bs : List (Nat × W8)) : CtxsKept s (anyStore s bs) := by
  refine .foldl (fun s ln => ?_) _ s
  simp only
  split
  · exact ctxsKept_lpStore ..
  · exact .of_regs rfl rfl rfl
  · exact ctxsKept_hostStore ..
  · exact .refl s

theorem ctxsKept_drainRing (s : State) (r : Nat) : CtxsKept s (drainRing s r) := by
  simp only [drainRing]
  split
  · exact (ctxsKept_putHring ..).trans (ctxsKept_rsetf (o := rHC r 0x24) (by unfold rHC; omega) ..)
  · exact .refl s

theorem ctxsKept_ringIrq (s : State) (r : Nat) (on : Bool) : CtxsKept s (ringIrq s r on) := by
  unfold ringIrq
  split <;> exact .of_regs rfl rfl rfl

theorem ctxsKept_flushRing (k : Nat) (s : State) (r : Nat) : CtxsKept s (flushRing k s r) := by
  induction k generalizing s with
  | zero => exact ctxsKept_drainRing s r
  | succ k ih =>
    simp only [flushRing]
    split
    · exact ctxsKept_drainRing s r
    · split
      · exact .refl s
      · exact (((ctxsKept_hostStore ..).trans (ctxsKept_putHring ..)).trans (ctxsKept_ringIrq ..)).trans (ih _)

/-- R340, R345: a retirement concerns the entry's ring, host memory and the journal. -/
theorem ctxsKept_retire (s : State) (e : Entry) (i : RecInfo) : CtxsKept s (retire s e i) := by
  have hso : CtxsKept s (if e.ctx < 64 then jso s e.ctx else s) := by split <;> exact .of_regs rfl rfl rfl
  simp only [retire]
  refine (hso.trans ?_).trans (ctxsKept_flushRing ..)
  exact .of_regs rfl rfl rfl

theorem ctxsKept_retireFns (s : State) (l : List (Nat × Nat)) (status : Nat) : CtxsKept s (retireFns s l status) := by
  refine .foldl (fun s e => ?_) l s
  split
  · exact ctxsKept_retire ..
  · exact .refl s

/-! ## Batches that start (R255) -/

@[simp] theorem ctxOf_putCtx (s : State) (n : Nat) (x : CtxSt) : ctxOf (putCtx s n x) n = x := fget_fset_same ..

/-- R255: contexts, memory and registers, which the start of cores leaves alone. -/
def ctxMemRegs (s : State) : FMap CtxSt × List Host.Cell × FMap W32 := (s.ctxs, s.mem, s.regs)

theorem ctxMemRegs_startCores (s : State) (n : Nat) (epoch mb : W64) (fresh : Bool) :
    ctxMemRegs (startCores s n epoch mb fresh) = ctxMemRegs s := by
  have hwake : ctxMemRegs (wakeTiles s (ctxTiles s n)) = ctxMemRegs s := by
    refine List.foldlRecOn (motive := fun t => ctxMemRegs t = ctxMemRegs s) _ _ rfl fun t ht k _ => ?_
    split <;> exact ht
  exact List.foldlRecOn (motive := fun t => ctxMemRegs t = ctxMemRegs s) _ _ hwake fun t ht l _ => ht

/-- The state in which batch `b` of a context runs and `rest` waits, before its entries and its cores follow. -/
def batchRuns (s : State) (n : Nat) (b : List BatchReq) (rest : List (List BatchReq)) : State :=
  rsetf (putCtx s n { ctxOf s n with running := b, released := rest }) (rFnCtx n) 2 1 1

theorem runReleased_none {s : State} {n : Nat} (h : (ctxOf s n).released = []) : runReleased s n = s := by
  simp [runReleased, h]

/-- R333: without the memory map no batch starts. -/
theorem runReleased_mapOff {s : State} {n : Nat} (h : fnState s 1 ≠ 2) : runReleased s n = s := by
  simp only [runReleased]
  split <;> simp [h]

/-- R255: the oldest released batch runs. -/
theorem ctxMemRegs_runReleased {s : State} {n : Nat} {b : List BatchReq} {rest : List (List BatchReq)}
    (hrel : (ctxOf s n).released = b :: rest) (hrun : (ctxOf s n).running = []) (hhalt : haltsPending s n = false)
    (hmap : fnState s 1 = 2) : ctxMemRegs (runReleased s n) = ctxMemRegs (batchRuns s n b rest) := by
  have hgo : ¬((!(ctxOf s n).running.isEmpty || haltsPending s n || fnState s 1 != 2) = true) := by simp [hrun, hhalt, hmap]
  simp only [runReleased, hrel]
  rw [if_neg hgo, ctxMemRegs_startCores]
  refine List.foldlRecOn (motive := fun t => ctxMemRegs t = ctxMemRegs (batchRuns s n b rest)) _ _ rfl fun t ht r _ => ?_
  split <;> exact ht

/-- R255: the forming batch `got` is released, and the requests `left` over go on forming. -/
def batchReleased (s : State) (n : Nat) (got left : List BatchReq) : State :=
  putCtx s n { ctxOf s n with forming := left, released := (ctxOf s n).released ++ [got] }

section Release

variable {s : State} {n : Nat} {p : Pattern} (hp : (ctxOf s n).pat = some p)
include hp

theorem releaseBatch_noForming (hf : (ctxOf s n).forming = []) (c : ReleaseCause) : releaseBatch n c s = runReleased s n := by
  simp [releaseBatch, hp, hf]

/-- R255: at the end of a window what has formed is released. -/
theorem releaseBatch_window (ht : p.training = false) {q : List BatchReq × List BatchReq}
    (hq : takeBatch p.bmax [] [] (ctxOf s n).forming = q) (hne : q.1 ≠ []) :
    releaseBatch n .window s = runReleased (batchReleased s n q.1 q.2) n := by
  have hf : (ctxOf s n).forming ≠ [] := fun hnil => hne (by rw [← hq, hnil]; rfl)
  simp [releaseBatch, hp, ht, hf, hq, hne, releaseDue, batchReleased]

end Release

theorem ctxOf_batchReleased (s : State) (n : Nat) (got left : List BatchReq) : ctxOf (batchReleased s n got left) n =
    { ctxOf s n with forming := left, released := (ctxOf s n).released ++ [got] } := ctxOf_putCtx ..

/-- R333: a batch released without the memory map waits. -/
theorem runReleased_batchReleased_mapOff {s : State} (h : fnState s 1 ≠ 2) (n : Nat) (got left : List BatchReq) :
    runReleased (batchReleased s n got left) n = batchReleased s n got left :=
  runReleased_mapOff (s := batchReleased s n got left) h

theorem haltsPending_batchReleased (s : State) (n : Nat) (got left : List BatchReq) :
    haltsPending (batchReleased s n got left) n = haltsPending s n := by
  have hstamp : heldStamp (batchReleased s n got left) n = heldStamp s n := by rw [heldStamp, ctxOf_batchReleased, heldStamp]
  rw [haltsPending, hstamp, haltsPending]
  rfl

/-- R255: a batch released while no other one runs or waits runs at once. -/
theorem runReleased_batchReleased {s : State} {n : Nat} (hrel : (ctxOf s n).released = []) (hrun : (ctxOf s n).running = [])
    (hhalt : haltsPending s n = false) (hmap : fnState s 1 = 2) (got left : List BatchReq) :
    ctxOf (runReleased (batchReleased s n got left) n) n = { ctxOf s n with forming := left, running := got, released := [] } ∧
    rfld (runReleased (batchReleased s n got left) n) (rFnCtx n) 2 1 = 1 ∧
    (runReleased (batchReleased s n got left) n).mem = s.mem := by
  have hctx := ctxOf_batchReleased s n got left
  have hruns := ctxMemRegs_runReleased (s := batchReleased s n got left) (b := got) (rest := []) (by simp [hctx, hrel])
    (by simp [hctx, hrun]) ((haltsPending_batchReleased ..).trans hhalt) hmap
  simp only [ctxMemRegs, Prod.mk.injEq] at hruns
  obtain ⟨hctxs, hmem, hregs⟩ := hruns
  refine ⟨?_, ?_, hmem⟩
  · rw [ctxOf, hctxs]
    refine (ctxOf_putCtx ..).trans ?_
    rw [hctx]
  · rw [rfld_congr hregs, batchRuns]
    exact rfld_rsetf_same _ _ (by decide) 1

/-! ## The end of a batch (R100, R256) -/

/-- R256: where a part is open or an item is on its way the batch goes on. -/
theorem batchDone_waits {s : State} {n : Nat}
    (h : (ctxOf s n).running = [] ∨ partsDone s n = false ∨ itemsLeft s n (fun _ => true) = true) : batchDone n s = s := by
  rcases h with h | h | h <;> simp [batchDone, h]

theorem batchDone_ends {s : State} {n : Nat} (hrun : (ctxOf s n).running ≠ []) (hparts : partsDone s n = true)
    (hitems : itemsLeft s n (fun _ => true) = false) : batchDone n s = runReleased (finishBatch s n 0) n := by
  simp [batchDone, hrun, hparts, hitems]

/-- The state in which the running batch of a context has ended, before its requests retire. -/
def batchEnded (s : State) (n : Nat) : State :=
  rsetf (putCtx s n { ctxOf s n with running := [], energy := 0 }) (rFnCtx n) 2 1 0

theorem ctxsKept_finishBatch (s : State) (n status : Nat) : CtxsKept (batchEnded s n) (finishBatch s n status) := by
  refine .foldl (fun s b => ?_) _ _
  split
  · exact ctxsKept_retire ..
  · exact .refl s

theorem ctxOf_finishBatch (s : State) (n status : Nat) :
    ctxOf (finishBatch s n status) n = { ctxOf s n with running := [], energy := 0 } :=
  ((ctxsKept_finishBatch s n status).ctxOf n).trans (ctxOf_putCtx ..)

/-! ## Restoring an image (R284) -/

theorem showSettle_ctxs (s : State) (n : Nat) : (showSettle s n).ctxs = s.ctxs := by
  unfold showSettle
  split
  · exact List.foldlRecOn (motive := fun t : State => t.ctxs = s.ctxs) _ _ rfl fun _ ht _ _ => ht
  · rfl

@[simp] theorem ctxOf_showSettle (s : State) (n k : Nat) : ctxOf (showSettle s n) k = ctxOf s k := by
  rw [ctxOf, showSettle_ctxs, ctxOf]

@[simp] theorem ctxOf_jput (s : State) (same : JRec → Bool) (r : JRec) (k : Nat) : ctxOf (jput s same r) k = ctxOf s k := rfl

/-- R284: the restored context stands at the image's step. -/
theorem ctxOf_writeImage (s : State) (n : Nat) (p : Pattern) (m : MirrorImage) :
    (ctxOf (writeImage s n p m) n).epoch = m.epoch ∧ (ctxOf (writeImage s n p m) n).comEpoch = m.epoch ∧
    (ctxOf (writeImage s n p m) n).u = m.u ∧ (ctxOf (writeImage s n p m) n).restored = true := by
  simp only [writeImage, jsettle, jcommit, jso, ctxOf_jput, ctxOf_showSettle, ctxOf_putCtx, and_self]

theorem onWork_of_ge {f : Nat} (h : 4 ≤ f) (s : State) : onWork s f = s := by
  match f, h with
  | _ + 4, _ => rfl

/-- R334, R337: a function above the first four reaches ON with its entries alone to retire. -/
theorem reachOn_of_ge {f : Nat} (h : 4 ≤ f) (s : State) : CtxsKept
    (rsetf (setFnState (putFn s f {}) f 2) (rFnStat f) 16 16 0) (reachOn s f) := by
  unfold reachOn
  simp only [onWork_of_ge h]
  exact ctxsKept_retireFns ..

theorem ctxOf_reachOn {f : Nat} (h : 4 ≤ f) (s : State) (n : Nat) : ctxOf (reachOn s f) n = ctxOf s n := by
  rw [(reachOn_of_ge h s).ctxOf]
  simp only [ctxOf, setFnState, putFn, rsetf_ctxs]

theorem fnState_reachOn {f : Nat} (h4 : 4 ≤ f) (h : f < 192) (s : State) : fnState (reachOn s f) f = 2 := by
  rw [fnState, (reachOn_of_ge h4 s).rfld (rFnStat_low h), rfld_rsetf_apart _ _ (by decide) (by decide), setFnState]
  exact rfld_rsetf_same _ _ (by decide) 2

theorem restoreImage_waits {s : State} {n : Nat} (hf : fnState s (128 + n) ≠ 1) (image : Option MirrorImage) :
    restoreImage n image s = s := by
  simp [restoreImage, hf]

section Restore

variable {s : State} {n : Nat} (hn : n < 64) (hf : fnState s (128 + n) = 1) (hset : leAt (fnSet s (128 + n)) 0 1 = 1)
include hn hf hset

theorem restoreImage_none : restoreImage n none s = failStart s (128 + n) 0x5301 := by
  have h63 : ¬63 < n := by omega
  simp [restoreImage, hf, hset, h63]

theorem restoreImage_some {p : Pattern} (hp : (ctxOf s n).pat = some p) (m : MirrorImage) : restoreImage n (some m) s =
    if m.meas != p.measure then failStart s (128 + n) 0x5302 else reachOn (writeImage s n p m) (128 + n) := by
  have h63 : ¬63 < n := by omega
  simp [restoreImage, hf, hset, h63, hp]

end Restore

/-! ## The last part of an image arrives at the partner (R283) -/

theorem exec_mirrorImageComplete {s : State} {n k a : Nat} {m : MirrorImage} (hi : (ctxOf s n).image = some m)
    (hp : mirrorPartner s n = some (k, a)) : exec (.mirrorImageComplete n) s = .next (publish s
      (if m.areas.isEmpty || imageFlying s k then s else putCtx s n { ctxOf s n with image := none })) :=
  (shown_eq (by simp only [hi, hp]) : execMirrorImageComplete n s = _)

theorem exec_mirrorImageComplete_none {s : State} {n : Nat} (h : (ctxOf s n).image = none ∨ mirrorPartner s n = none) :
    exec (.mirrorImageComplete n) s = .next (publish s s) := by
  refine (shown_eq ?_ : execMirrorImageComplete n s = _)
  rcases h with h | h
  · simp only [h]
  · cases (ctxOf s n).image <;> simp only [h]

/-! ## Parts of an image at a sink (R283) -/

/-- A part's frame, if it has arrived, leaves the inbox. -/
def mirrorFrameTaken (s : State) (smod area : Nat) (part : MirrorPart) : State :=
  match s.inbox.find? fun f => f.ty == 5 && f.smod == smod && f.mirror == some (area, part) with
  | some f => takeIn s f
  | none => s

/-- Taking a frame changes the inbox alone. -/
theorem mirrorFrameTaken_eq (s : State) (smod area : Nat) (part : MirrorPart) :
    mirrorFrameTaken s smod area part = { s with inbox := (mirrorFrameTaken s smod area part).inbox } := by
  unfold mirrorFrameTaken
  split <;> rfl

/-- R283: parts of the modules of a running cascade are taken, from other modules than this one. -/
theorem exec_mirrorDataFrame (s : State) (smod area : Nat) (part : MirrorPart) : exec (.mirrorDataFrame smod area part) s =
    .next (publish s (if s.casc.active && smod < s.casc.total && smod != s.casc.self
      then mirrorPart area part (mirrorFrameTaken s smod area part) else mirrorFrameTaken s smod area part)) := by
  have hcasc : (mirrorFrameTaken s smod area part).casc = s.casc := by rw [mirrorFrameTaken_eq]
  refine (shown_eq ?_ : execMirrorDataFrame smod area part s = _)
  change (if (mirrorFrameTaken s smod area part).casc.active && smod < (mirrorFrameTaken s smod area part).casc.total &&
    smod != (mirrorFrameTaken s smod area part).casc.self then _ else _) = _
  rw [hcasc]
  rfl

/-- R283: a part that fails its check is not taken. -/
theorem mirrorPart_bad {area : Nat} {p : MirrorPart} (h : p.crcOk = false) (s : State) : mirrorPart area p s = s := by
  unfold mirrorPart
  split
  · rfl
  · simp [h]

/-- One part that begins at 0 covers what it ends. -/
theorem coversTo_single (n : Nat) : coversTo n 0 (fset 0 n []) = true := by
  simp [fset, coversTo]

/-- R283: the half of a sink's range that does not hold its last complete image. -/
def freeHalf (s : State) (area : Nat) : Nat := if (fget {} area s.casc.sinks).good = some 0 then 1 else 0

/-- R283: an image of one part is complete with it, in the free half of the range (log 33). -/
theorem mirrorPart_whole {s : State} {area k : Nat} {r : RangeE} {p : MirrorPart} (hr : rangeOwner s area = some (k, r))
    (hmark : r.mark = 4) (hbase : r.base = area) (hlen : p.bytes.length ≤ r.pages * 4096 / 2) (hoff : p.offset = 0)
    (hlast : p.last = true) (hcrc : p.crcOk = true) : mirrorPart area p s =
      modCasc (anyStore s (atAddr (area + freeHalf s area * (r.pages * 4096 / 2)) p.bytes)) fun c =>
        { c with sinks := fset area { good := some (freeHalf s area) } c.sinks } := by
  have hfits : ¬r.pages * 4096 / 2 < p.bytes.length := by omega
  unfold mirrorPart
  rw [hr]
  rcases hgood : (fget {} area s.casc.sinks).good with _ | _ | _ <;>
    simp [hmark, hbase, hcrc, hoff, hlast, hfits, coversTo_single, freeHalf, hgood]

end Sys2Proof.Machine

namespace Sys2Proof.Proofs

open Sys2Proof.Machine

/-- Settles O43: a released batch runs or waits (`runReleased_batchReleased`), its end retires its requests beside the context's state
(`ctxsKept_finishBatch`), a restored context stands at the image's step (`ctxOf_writeImage`). Which half of a sink takes an image, and
that its part at offset 0 begins and its last part ends it, is the model's choice (log 33). -/
theorem servingAndMirror : Obligations.ServingAndMirror := by
  unfold Obligations.ServingAndMirror
  intro s n p hn
  refine ⟨fun hp hrel => ⟨fun hf => ?idle, fun ht hq hmap => ?mapOff, fun ht hq hrun hhalt hmap => ?starts⟩, fun h => ?goesOn,
    fun hrun hparts hitems hrel => ?ends, fun m k a hi hk => ⟨fun ha hfly => ?sent, fun h => ?sending⟩,
    exec_mirrorImageComplete_none, fun image hf => ?notStarting, fun hf hset => ⟨?noImage, fun m hp hm => ?wrongPattern,
    fun m hp hm => ?restored⟩, fun smod area part => ⟨fun hact => ?alone, fun k r hact htot hself hr hmark hbase hlen hoff hlast =>
      ⟨fun hcrc => ?badPart, fun hcrc => ?whole⟩⟩⟩
  case idle =>
    exact (shown_eq ((releaseBatch_noForming hp hf .window).trans (runReleased_none hrel)) : execBatchRelease n .window s = _)
  case mapOff =>
    refine (shown_eq ((releaseBatch_window hp ht rfl hq).trans ((runReleased_batchReleased_mapOff hmap ..).trans ?_)) :
      execBatchRelease n .window s = _)
    rw [batchReleased, hrel, List.nil_append]
  case starts =>
    obtain ⟨hctx, hbit, hmem⟩ := runReleased_batchReleased hrel hrun hhalt hmap
      (takeBatch p.bmax [] [] (ctxOf s n).forming).1 (takeBatch p.bmax [] [] (ctxOf s n).forming).2
    exact ⟨_, (shown_eq (releaseBatch_window hp ht rfl hq) : execBatchRelease n .window s = _), by rw [hctx], by rw [hctx],
      by rw [hctx], hbit, hmem⟩
  case goesOn => exact (shown_eq (batchDone_waits h) : execBatchComplete n s = _)
  case ends =>
    have hctx := ctxOf_finishBatch s n 0
    have hnone : runReleased (finishBatch s n 0) n = finishBatch s n 0 := runReleased_none (by rw [hctx]; exact hrel)
    refine ⟨_, (shown_eq ((batchDone_ends hrun hparts hitems).trans hnone) : execBatchComplete n s = _), by rw [hctx], by rw [hctx], ?_⟩
    rw [(ctxsKept_finishBatch s n 0).rfld (rFnCtx_low hn), batchEnded]
    exact rfld_rsetf_same _ _ (by decide) 0
  case sent => rw [exec_mirrorImageComplete hi hk, if_neg (by simp [ha, hfly])]
  case sending => rw [exec_mirrorImageComplete hi hk, if_pos (by simpa using h)]
  case notStarting => exact (shown_eq (restoreImage_waits hf image) : execMirrorRestore n image s = _)
  case noImage => exact (shown_eq (restoreImage_none hn hf hset) : execMirrorRestore n none s = _)
  case wrongPattern =>
    exact (shown_eq ((restoreImage_some hn hf hset hp m).trans (if_pos (by simpa using hm))) : execMirrorRestore n (some m) s = _)
  case restored =>
    have hon : restoreImage n (some m) s = reachOn (writeImage s n p m) (128 + n) :=
      (restoreImage_some hn hf hset hp m).trans (if_neg (by simp [hm]))
    have h4 : 4 ≤ 128 + n := by omega
    obtain ⟨hepoch, hcom, hu, hrest⟩ := ctxOf_writeImage s n p m
    rw [← ctxOf_reachOn h4] at hepoch hcom hu hrest
    exact ⟨_, (shown_eq hon : execMirrorRestore n (some m) s = _), hepoch, hcom, hu, hrest, fnState_reachOn h4 (by omega) _⟩
  case alone => exact (exec_mirrorDataFrame s smod area part).trans (by rw [if_neg (by simp [hact])]; rfl)
  case badPart =>
    exact (exec_mirrorDataFrame s smod area part).trans (by rw [mirrorPart_bad hcrc, ite_self]; rfl)
  case whole =>
    have hgo : (s.casc.active && smod < s.casc.total && smod != s.casc.self) = true := by simp [hact, htot, hself]
    have hcasc : (mirrorFrameTaken s smod area part).casc = s.casc := by rw [mirrorFrameTaken_eq]
    have hr' : rangeOwner (mirrorFrameTaken s smod area part) area = some (k, r) := by rw [mirrorFrameTaken_eq]; exact hr
    have hctxs : (mirrorFrameTaken s smod area part).ctxs = s.ctxs := by rw [mirrorFrameTaken_eq]
    rw [exec_mirrorDataFrame, if_pos hgo, mirrorPart_whole hr' hmark hbase hlen hoff hlast hcrc]
    refine ⟨_, rfl, (ctxsKept_anyStore ..).inbox, ?_, (ctxsKept_anyStore ..).ctxs.trans hctxs⟩
    rw [modCasc, fget_fset_same, freeHalf, hcasc]

end Sys2Proof.Proofs
end

section
/-! SUPPORT. What an end of a step changes of a context and of the cascade (R270, R302, R312). -/

namespace Sys2Proof.Machine

/-! ## Writes to LPDDR (R213, R227) -/

/-- R213: `t` is `s` after writes to LPDDR: memory, its poison marks, registers, messages and outstanding snoops apart, nothing has
changed. -/
def lpWritten (s t : State) : Prop :=
  ∃ r m p o n, t = { s with regs := r, mem := m, lpPoison := p, out := o, stagingSnoops := n }

namespace lpWritten

theorem refl (s : State) : lpWritten s s := ⟨_, _, _, _, _, rfl⟩

theorem trans {s t r : State} (h1 : lpWritten s t) (h2 : lpWritten t r) : lpWritten s r := by
  obtain ⟨_, _, _, _, _, rfl⟩ := h1
  obtain ⟨_, _, _, _, _, rfl⟩ := h2
  exact ⟨_, _, _, _, _, rfl⟩

variable {s t : State} (h : lpWritten s t)
include h

theorem ctxs : t.ctxs = s.ctxs := by obtain ⟨_, _, _, _, _, rfl⟩ := h; rfl
theorem casc : t.casc = s.casc := by obtain ⟨_, _, _, _, _, rfl⟩ := h; rfl
theorem cores : t.cores = s.cores := by obtain ⟨_, _, _, _, _, rfl⟩ := h; rfl
theorem inbox : t.inbox = s.inbox := by obtain ⟨_, _, _, _, _, rfl⟩ := h; rfl

end lpWritten

theorem lpWritten_rcount (s : State) (o n : Nat) : lpWritten s (rcount s o n) := by
  unfold rcount
  split
  · exact .refl s
  · exact ⟨_, _, _, _, _, rfl⟩

theorem lpWritten_lpStore (s : State) (bs : List (Nat × W8)) : lpWritten s (lpStore s bs) := by
  unfold lpStore
  split
  · exact .refl s
  · simp only
    split
    · exact lpWritten_rcount ..
    · exact ⟨_, _, _, _, _, rfl⟩

/-! ## Frames without a block -/

theorem inbox_flushPort (k : Nat) (s : State) (n : Nat) : (flushPort k s n).inbox = s.inbox := by
  induction k generalizing s with
  | zero => rfl
  | succ k ih =>
    simp only [flushPort]
    split
    · rfl
    · split
      · rfl
      · exact ih _

/-- R288: a frame that is sent enters the inbox here or leaves it alone. -/
theorem inbox_sendFrame (s : State) (m : Nat) (fr : Frame) :
    (sendFrame s m fr).inbox = s.inbox ∨ ∃ f : Frame, f.block = fr.block ∧ (sendFrame s m fr).inbox = s.inbox ++ [f] := by
  simp only [sendFrame]
  split
  · refine .inr ⟨_, ?_, rfl⟩
    rfl
  · refine .inl ?_
    split
    · exact inbox_flushPort ..
    · rfl

/-- R288, R302: the cascade without the numbers of the frames sent, and the blocks that have arrived. -/
def cascView (s : State) : Casc × List Frame := ({ s.casc with dtx := [] }, s.inbox.filter fun f => f.block.isSome)

/-- R270, R302: what the end of a step turns on: the context's running step, last commit and update count, and the cascade's view. -/
def stepView (s : State) (n : Nat) : Option StepRun × Nat × Nat × Casc × List Frame :=
  ((ctxOf s n).run, (ctxOf s n).comEpoch, (ctxOf s n).u, cascView s)

theorem stepView_congr {s t : State} {n : Nat} (hx : ctxOf t n = ctxOf s n) (hc : t.casc = s.casc) (hi : t.inbox = s.inbox) :
    stepView t n = stepView s n := by
  simp only [stepView, cascView, hx, hc, hi]

theorem casRole_of_stepView {s t : State} {n : Nat} (h : stepView t n = stepView s n) : casRole t.casc = casRole s.casc := by
  have key (s : State) : casRole s.casc = casRole (stepView s n).2.2.2.1 := rfl
  rw [key, key, h]

theorem stepView_of_ctxsKept {s t : State} (h : CtxsKept s t) (hc : t.casc = s.casc) (n : Nat) : stepView t n = stepView s n :=
  stepView_congr (h.ctxOf n) hc h.inbox

@[simp] theorem stepView_putCore (s : State) (l : Nat) (c : CoreSt) (n : Nat) : stepView (putCore s l c) n = stepView s n := rfl

@[simp] theorem stepView_rsetf (s : State) (o lo w v n : Nat) : stepView (rsetf s o lo w v) n = stepView s n := rfl

theorem stepView_foldl {α : Type} {f : State → α → State} {n : Nat} (hf : ∀ s a, stepView (f s a) n = stepView s n) (l : List α)
    (s : State) : stepView (l.foldl f s) n = stepView s n :=
  List.foldlRecOn (motive := fun t => stepView t n = stepView s n) l f rfl fun t h a _ => (hf t a).trans h

theorem stepView_putCtx {s : State} {n : Nat} {x : CtxSt} (hr : x.run = (ctxOf s n).run) (hc : x.comEpoch = (ctxOf s n).comEpoch)
    (hu : x.u = (ctxOf s n).u) : stepView (putCtx s n x) n = stepView s n := by
  simp only [stepView, ctxOf_putCtx, hr, hc, hu]
  rfl

/-- A context written over states whose cascades look alike. -/
theorem stepView_putCtx_congr {s t : State} {n : Nat} {x y : CtxSt} (h : cascView t = cascView s) (hr : x.run = y.run)
    (hc : x.comEpoch = y.comEpoch) (hu : x.u = y.u) : stepView (putCtx t n x) n = stepView (putCtx s n y) n := by
  have hcasc (s : State) (x : CtxSt) : cascView (putCtx s n x) = cascView s := rfl
  simp only [stepView, ctxOf_putCtx, hr, hc, hu, hcasc, h]

theorem stepView_sendFrame {fr : Frame} (h : fr.block = none) (s : State) (m n : Nat) :
    stepView (sendFrame s m fr) n = stepView s n := by
  have hin : (sendFrame s m fr).inbox.filter (fun f => f.block.isSome) = s.inbox.filter fun f => f.block.isSome := by
    rcases inbox_sendFrame s m fr with hi | ⟨f, hf, hi⟩
    · rw [hi]
    · simp [hi, hf, h]
  obtain ⟨_, _, _, _, ht⟩ := framed_sendFrame s m fr
  simp only [stepView, cascView, hin]
  rw [ht]
  rfl

theorem stepView_sendAll {fr : Frame} (h : fr.block = none) (s : State) (ms : List Nat) (n : Nat) :
    stepView (sendAll s ms fr) n = stepView s n :=
  stepView_foldl (fun s m => stepView_sendFrame h s m n) ms s

/-- R302: the blocks that a step still waits for are part of the view. -/
theorem windowBlocks_congr {s t : State} (h : cascView t = cascView s) (n : Nat) (r : StepRun) :
    windowBlocks t n r = windowBlocks s n r := by
  have key (s : State) : windowBlocks s n r = ((cascView s).1.active && (cascView s).1.ctx == n &&
      (cascView s).2.any fun f => (f.ty == 3 || f.ty == 4) && match f.block with
        | some b => b.wgen == r.epoch % 2 ^ 16
        | none => false) := by
    rw [cascView, List.any_filter, windowBlocks, onCascade]
    congr 2
    funext f
    cases f.block <;> simp
  rw [key, key, h]

/-! ## Tables, images and records of a step (R252, R270, R283) -/

@[simp] theorem casc_anyStore (s : State) (bs : List (Nat × W8)) : (anyStore s bs).casc = s.casc := by
  refine List.foldlRecOn (motive := fun t : State => t.casc = s.casc) _ _ rfl fun t ht ln _ => ?_
  simp only
  split
  · exact (lpWritten_lpStore ..).casc.trans ht
  · exact ht
  · exact (casc_hostStore ..).trans ht
  · exact ht

theorem stepView_anyStore (s : State) (bs : List (Nat × W8)) (n : Nat) : stepView (anyStore s bs) n = stepView s n :=
  stepView_of_ctxsKept (ctxsKept_anyStore s bs) (casc_anyStore s bs) n

theorem stepView_writeScales (s : State) (n : Nat) (p : Pattern) (r : StepRun) : stepView (writeScales s n p r) n = stepView s n := by
  unfold writeScales
  split
  · rfl
  · refine stepView_foldl (fun s e => ?_) _ s
    simp only
    split
    · exact (stepView_anyStore ..).trans (stepView_putCtx rfl rfl rfl)
    · exact stepView_putCtx rfl rfl rfl

theorem stepView_writeTables (s : State) (n : Nat) (p : Pattern) (r : StepRun) (status : Nat) :
    stepView (writeTables s n p r status) n = stepView s n :=
  (stepView_anyStore ..).trans (stepView_writeScales ..)

theorem stepView_leaveTables (s : State) (n : Nat) (r : StepRun) (status : Nat) :
    stepView (leaveTables s n r status) n = stepView s n := by
  unfold leaveTables
  split
  · split
    · rfl
    · exact stepView_writeTables ..
  · rfl

theorem stepView_sendImage (s : State) (n : Nat) (m : MirrorImage) : stepView (sendImage s n m) n = stepView s n := by
  unfold sendImage
  split
  · exact stepView_foldl (fun s e => stepView_sendFrame rfl s _ n) _ _
  · rfl

theorem stepView_imageGo (s : State) (n : Nat) : stepView (imageGo s n) n = stepView s n := by
  simp only [imageGo]
  split
  · split
    · rfl
    · exact (stepView_sendImage ..).trans (stepView_putCtx rfl rfl rfl)
  · rfl

/-- Table 11.8: the trailer concerns the image under way alone. -/
theorem mirrorTrailer_run (s : State) (x : CtxSt) (e : Entry) (r : StepRun) : (mirrorTrailer s x e r).run = x.run ∧
    (mirrorTrailer s x e r).comEpoch = x.comEpoch ∧ (mirrorTrailer s x e r).u = x.u := by
  unfold mirrorTrailer
  split
  · simp only
    split <;> exact ⟨rfl, rfl, rfl⟩
  · exact ⟨rfl, rfl, rfl⟩

theorem stepView_mirrorCapture (s : State) (n : Nat) : stepView (mirrorCapture s n) n = stepView s n := by
  unfold mirrorCapture
  simp only
  split
  · split
    · rfl
    · exact stepView_putCtx rfl rfl rfl
  · rfl

theorem stepView_dropCaches (s : State) (n : Nat) : stepView (dropCaches s n) n = stepView s n :=
  stepView_foldl (fun _ _ => stepView_putCore ..) ..

theorem stepView_freeKept (s : State) (n : Nat) : stepView (freeKept s n) n = stepView s n := by
  simp only [freeKept]
  split
  · rfl
  · split
    · rfl
    · exact stepView_foldl (fun _ _ => stepView_putCore ..) ..

theorem stepView_retire (s : State) (e : Entry) (i : RecInfo) (n : Nat) : stepView (retire s e i) n = stepView s n :=
  stepView_of_ctxsKept (ctxsKept_retire s e i) (casc_retire s e i) n

theorem stepView_showSettle (s : State) (n k : Nat) : stepView (showSettle s n) k = stepView s k := by
  unfold showSettle
  split
  · exact stepView_foldl (fun _ _ => stepView_rsetf ..) ..
  · rfl

/-! ## The end of a step (R252, R270) -/

/-- The state in which the image of the step before has been taken. -/
def trailerTaken (s : State) (n : Nat) (r : StepRun) : State :=
  match entryOf s r.ring r.seq with
  | some e => imageGo (putCtx s n (mirrorTrailer s (ctxOf s n) e r)) n
  | none => s

theorem stepView_trailerTaken (s : State) (n : Nat) (r : StepRun) : stepView (trailerTaken s n r) n = stepView s n := by
  unfold trailerTaken
  split
  · next e _ =>
    obtain ⟨hr, hc, hu⟩ := mirrorTrailer_run s (ctxOf s n) e r
    exact (stepView_imageGo ..).trans (stepView_putCtx hr hc hu)
  · rfl

/-- R270: a context as its running step has committed. -/
def committedCtx (p : Pattern) (r : StepRun) (x : CtxSt) : CtxSt :=
  { x with active := p.layers.foldl (fun m l => fset l (1 - fget 0 l x.active) m) x.active, u := x.u + 1, count := x.count + r.contrib,
           comEpoch := r.epoch, run := some { r with committed := true } }

/-- The state of a commit before its step ends: tables, capture and the COMMIT record are written. -/
def commitWritten (s : State) (n : Nat) (p : Pattern) (r : StepRun) (status : Nat) : State :=
  jcommit (mirrorCapture (writeTables (putCtx (dropCaches (trailerTaken s n r) n) n
    (committedCtx p r (ctxOf (trailerTaken s n r) n))) n p r status) n) n

theorem stepView_commitWritten (s : State) (n : Nat) (p : Pattern) (r : StepRun) (status : Nat) :
    stepView (commitWritten s n p r status) n = stepView (putCtx s n (committedCtx p r (ctxOf s n))) n := by
  have hview := stepView_trailerTaken s n r
  have hdrop := (stepView_dropCaches (trailerTaken s n r) n).trans hview
  simp only [stepView, Prod.mk.injEq] at hview hdrop
  obtain ⟨-, -, hu, -⟩ := hview
  obtain ⟨-, -, -, hcasc⟩ := hdrop
  refine (stepView_mirrorCapture ..).trans ((stepView_writeTables ..).trans ?_)
  exact stepView_putCtx_congr hcasc rfl rfl (congrArg (· + 1) hu)

/-- R271: every layer of a committed step is left to settle. -/
def settleDue (s : State) (n : Nat) (p : Pattern) (r : StepRun) : State :=
  putCtx s n { ctxOf s n with settle := p.layers.reverse, settleEpoch := r.epoch }

theorem stepView_settleDue (s : State) (n : Nat) (p : Pattern) (r : StepRun) : stepView (settleDue s n p r) n = stepView s n :=
  stepView_putCtx rfl rfl rfl

section
variable {s : State} {n : Nat} {r : StepRun} (hrun : (ctxOf s n).run = some r)
include hrun

/-- R252: a step for which no block is left to write ends. -/
theorem stepView_finishStep (hw : windowBlocks s n r = false) (status : Nat) :
    stepView (finishStep s n status) n = stepView (putCtx s n { ctxOf s n with run := none }) n := by
  simp only [finishStep, hrun, hw, Bool.false_eq_true, if_false]
  split
  · rfl
  · next e _ =>
    have htab : stepView (writeRetries (leaveTables s n r status) e r) n = stepView s n :=
      (stepView_anyStore ..).trans (stepView_leaveTables ..)
    obtain ⟨-, htc, htu⟩ := mirrorTrailer_run (writeRetries (leaveTables s n r status) e r)
      (ctxOf (writeRetries (leaveTables s n r status) e r) n) e r
    simp only [stepView, Prod.mk.injEq] at htab
    obtain ⟨-, hc, hu, hcasc⟩ := htab
    refine (stepView_retire ..).trans ((stepView_rsetf ..).trans ((stepView_freeKept ..).trans ((stepView_imageGo ..).trans ?_)))
    exact stepView_putCtx_congr hcasc rfl (htc.trans hc) (htu.trans hu)

variable {p : Pattern} (hpat : (ctxOf s n).pat = some p)
include hpat

/-- R270, R271: a commit writes its tables, ends the step, and leaves every layer to settle. -/
theorem commitStep_eq (status : Nat) : commitStep s n status =
    if onCascade (settleDue (finishStep (commitWritten s n p r status) n status) n p r) n then
      settleDue (finishStep (commitWritten s n p r status) n status) n p r
    else showSettle (settleDue (finishStep (commitWritten s n p r status) n status) n p r) n := by
  simp only [commitStep, hrun, hpat]
  rfl

/-- R270: a step that commits ends as its context's last commit, with one update more. -/
theorem stepView_commitStep (hw : windowBlocks s n r = false) (status : Nat) : stepView (commitStep s n status) n =
    stepView (putCtx s n { ctxOf s n with run := none, comEpoch := r.epoch, u := (ctxOf s n).u + 1 }) n := by
  have hwritten := stepView_commitWritten s n p r status
  simp only [stepView, Prod.mk.injEq, ctxOf_putCtx] at hwritten
  obtain ⟨hrun', hcom, hup, hcasc⟩ := hwritten
  have hend := stepView_finishStep hrun' ((windowBlocks_congr hcasc n _).trans hw) status
  have hsettle : stepView (commitStep s n status) n = stepView (finishStep (commitWritten s n p r status) n status) n := by
    rw [commitStep_eq hrun hpat]
    split
    · exact stepView_settleDue ..
    · exact (stepView_showSettle ..).trans (stepView_settleDue ..)
  refine hsettle.trans (hend.trans ?_)
  exact stepView_putCtx_congr hcasc rfl hcom hup

/-- R285: without a restore before it, a step that the cascade commits is not verified. -/
theorem commitVerified_eq (hf : r.firstAfterRestore = false) (outcome : Nat) :
    commitVerified s n outcome = commitStep s n outcome := by
  have hnone (e : Entry) : verifyRestore s (ctxOf s n) p e r = none := by simp [verifyRestore, restoreCompares, hf]
  simp only [commitVerified, hrun, hpat]
  cases entryOf s r.ring r.seq <;> simp [hnone]

end

end Sys2Proof.Machine
end

section
/-! SUPPORT. Messages of a cascade step (R297, R300, R310 to R316). -/

namespace Sys2Proof.Machine

/-! ## Which messages act (R297, R311) -/

/-- R297: the state in which a control frame has left the inbox and told of its term. -/
def heard (s : State) (fr : Frame) : State := hearTerm (takeIn s fr) fr

section
variable {s : State} {fr : Frame} (ha : s.casc.active = true) (hg : fr.cgen = s.casc.cgen) (ht : s.casc.term ≤ fr.term)
include ha hg ht

/-- R311: a message that begins no step. -/
theorem onStep_eq (h : ¬(heard s fr).casc.epoch < fr.epoch) (g : State → State) : onStep fr g s =
    if fr.epoch != (heard s fr).casc.epoch || fr.k < (heard s fr).casc.k then heard s fr else g (heard s fr) := by
  refine (onControl_acts ha hg ht _).trans ?_
  simp only [heard] at h
  simp only [heard, if_neg h]
  rfl

/-- R311: a message of an older epoch, or of its epoch before the latest restart, has no effect. -/
theorem onStep_outdated (h : fr.epoch < (heard s fr).casc.epoch ∨ fr.epoch = (heard s fr).casc.epoch ∧ fr.k < (heard s fr).casc.k)
    (g : State → State) : onStep fr g s = heard s fr := by
  refine (onStep_eq ha hg ht (by omega) g).trans (if_pos ?_)
  rcases h with h | ⟨-, h⟩
  · simp [Nat.ne_of_lt h]
  · simp [h]

/-- R311: a message of the running step acts. -/
theorem onStep_current (he : fr.epoch = (heard s fr).casc.epoch) (hk : (heard s fr).casc.k ≤ fr.k) (g : State → State) :
    onStep fr g s = g (heard s fr) :=
  (onStep_eq ha hg ht (by omega) g).trans (if_neg (by simp [he, hk]))

theorem onLate_eq (g : State → State) : onLate fr g s =
    if fr.epoch == (heard s fr).casc.epoch && fr.k < (heard s fr).casc.k then heard s fr else g (heard s fr) :=
  onControl_acts ha hg ht _

/-- R311: what concerns the running step from before its latest restart has no effect. -/
theorem onLate_outdated (he : fr.epoch = (heard s fr).casc.epoch) (hk : fr.k < (heard s fr).casc.k) (g : State → State) :
    onLate fr g s = heard s fr :=
  (onLate_eq ha hg ht g).trans (if_pos (by simp [he, hk]))

theorem onLate_current (h : fr.epoch ≠ (heard s fr).casc.epoch ∨ (heard s fr).casc.k ≤ fr.k) (g : State → State) :
    onLate fr g s = g (heard s fr) :=
  (onLate_eq ha hg ht g).trans (if_neg (by rcases h with h | h <;> simp [h]))

end

/-! ## Members, and the groups taking part (R296, R310, R315) -/

theorem isMaster_member {s : State} (h : casRole s.casc ≠ 2) : isMaster s = false := by simp [isMaster, h]

theorem isMaster_master {s : State} (ha : s.casc.active = true) (h : casRole s.casc = 2) : isMaster s = true := by simp [isMaster, ha, h]

/-- R310: nothing is due at a module that is not the master. -/
theorem masterGo_member {s : State} (h : casRole s.casc ≠ 2) : masterGo s = s := if_pos (by simp [isMaster_member h])

@[simp] theorem mem_ninsAll {ks l : List Nat} {a : Nat} : a ∈ ninsAll ks l ↔ a ∈ ks ∨ a ∈ l := by
  induction ks generalizing l with
  | nil => simp [ninsAll]
  | cons k r ih =>
    refine (ih (l := nins k l)).trans ?_
    rw [mem_nins, List.mem_cons, or_left_comm, or_assoc]

/-- R314, R315: the modules of the groups that take no part have left. -/
theorem mem_leftMods_takePart {s : State} {part : List Nat} {m : Nat} : m ∈ (takePart s part).casc.leftMods ↔
    (m < s.casc.total ∧ s.casc.group m ∉ part) ∨ m ∈ s.casc.leftMods := by
  simp [takePart, modCasc]

/-- R314: without a running step nothing has to end. -/
theorem leftStep_idle {s : State} {n : Nat} (h : (ctxOf s n).run = none) : leftStep s n = s := by simp [leftStep, h]

theorem restartBackward_idle {s : State} {n : Nat} (h : (ctxOf s n).run = none) : restartBackward s n = s := by simp [restartBackward, h]

theorem portOf_clearHem (s : State) (q : Nat) : (portOf (clearHem s) q).hem = [] := by
  simp only [portOf, clearHem, fget, fget?_fmapAll]
  cases fget? q s.ports <;> rfl

/-! ## TURN, LOSS, RESTART (R300, R310, R315) -/

section
variable {s : State} {fr : Frame}

/-- R310: the turn of a step at a module that takes part without straggling, or without a running step of its own. -/
def turnTaken (s : State) (fr : Frame) : State :=
  takePart (modCasc s fun c => { c with turned := true, straggle := (bytesList (bytesList fr.spec).2).1 }) (bytesList fr.spec).1

theorem turnIn_eq (hp : s.casc.group s.casc.self ∈ (bytesList fr.spec).1 ∨ (ctxOf s s.casc.ctx).run = none)
    (hs : s.casc.group s.casc.self ∉ (bytesList (bytesList fr.spec).2).1) : turnIn fr s = turnTaken s fr := by
  have hstrag : ¬(bytesList (bytesList fr.spec).2).1.contains (s.casc.group s.casc.self) = true := by simpa using hs
  have hdef : turnIn fr s = if !((bytesList fr.spec).1.contains (s.casc.group s.casc.self)) then leftStep (turnTaken s fr) s.casc.ctx
      else if (bytesList (bytesList fr.spec).2).1.contains (s.casc.group s.casc.self) then straggleHere (turnTaken s fr) s.casc.ctx
      else turnTaken s fr := rfl
  rw [hdef, if_neg hstrag]
  split
  · next h => exact leftStep_idle (hp.resolve_left (by simpa using h))
  · rfl

/-- R242: a lost micro-batch moves the cores' register images alone. -/
theorem skipMb_eq (s : State) (n i : Nat) (next : W64) : ∃ cs, skipMb s n i next = { s with cores := cs } :=
  List.foldlRecOn (motive := fun t : State => ∃ cs, t = { s with cores := cs }) _ _ ⟨_, rfl⟩ fun t ⟨_, ht⟩ l _ => by
    rw [ht]
    exact ⟨_, rfl⟩

/-- R300: a loss in another group does not concern a member. -/
theorem lossIn_otherGroup (hr : casRole s.casc ≠ 2) (hgrp : leAt fr.spec 0 2 ≠ s.casc.group s.casc.self) : lossIn fr s = s := by
  simp [lossIn, hgrp, isMaster_member hr]

/-- R300: the run with the micro-batch of a LOSS. -/
def StepRun.loses (r : StepRun) (fr : Frame) : StepRun :=
  { r with lost := r.lost ++ [⟨leAt fr.spec 2 2, leAt fr.spec 8 2, leAt fr.spec 4 2, leAt fr.spec 6 1⟩] }

/-- R300: at a member of the group the micro-batch is lost. -/
theorem lossIn_ownGroup {r : StepRun} (hr : casRole s.casc ≠ 2) (hgrp : leAt fr.spec 0 2 = s.casc.group s.casc.self)
    (hm : fr.smod ≠ s.casc.self) (hrun : (ctxOf s s.casc.ctx).run = some r) (hmb : leAt fr.spec 2 2 < r.nmb)
    (hc : r.committed = false) (hl : ∀ m ∈ r.lost, m.mbi ≠ leAt fr.spec 2 2) : ∃ cs,
      lossIn fr s = { putCtx s s.casc.ctx { ctxOf s s.casc.ctx with run := some (r.loses fr) } with cores := cs } := by
  have hmine : (leAt fr.spec 0 2 != s.casc.group s.casc.self || fr.smod == s.casc.self) = false := by simp [hgrp, hm]
  have hfresh : (r.nmb ≤ leAt fr.spec 2 2 || r.committed || r.lost.any fun m => m.mbi == leAt fr.spec 2 2) = false := by
    simpa [hmb, hc] using hl
  have hmoved : ∃ cs, (if leAt fr.spec 6 1 == 0 then
        skipMb (putCtx s s.casc.ctx { ctxOf s s.casc.ctx with run := some (r.loses fr) }) s.casc.ctx (leAt fr.spec 2 2)
          (nextMb r.nmb (r.loses fr).lost (leAt fr.spec 2 2))
      else putCtx s s.casc.ctx { ctxOf s s.casc.ctx with run := some (r.loses fr) }) =
      { putCtx s s.casc.ctx { ctxOf s s.casc.ctx with run := some (r.loses fr) } with cores := cs } := by
    split
    · exact skipMb_eq ..
    · exact ⟨_, rfl⟩
  obtain ⟨cs, hcs⟩ := hmoved
  refine ⟨cs, ?_⟩
  rw [← hcs]
  simp only [lossIn, hmine, hrun, hfresh, Bool.false_eq_true, if_false]
  refine if_pos ?_
  rw [Bool.not_eq_true']
  exact (congrArg isMaster hcs).trans (isMaster_member hr)

/-- R315: a restart where no step runs: what the step has gathered is forgotten. -/
def restarted (s : State) (fr : Frame) : State :=
  clearHem (modCasc (takePart s (bytesList fr.spec).1) fun c =>
    { c with k := fr.k, xdone := [], prepared := none, ready := [], outcome := 0, committing := false })

theorem restartIn_idle (hp : s.casc.group s.casc.self ∈ (bytesList fr.spec).1) (hrun : (ctxOf s s.casc.ctx).run = none)
    (hs : s.casc.straggle = []) : restartIn fr s = restarted s fr := by
  have hdef : restartIn fr s = if !((bytesList fr.spec).1.contains (s.casc.group s.casc.self)) then leftStep (restarted s fr) s.casc.ctx
      else if s.casc.straggle.contains (s.casc.group s.casc.self) then
        match (ctxOf (restarted s fr) s.casc.ctx).run with
        | some r => putCtx (restarted s fr) s.casc.ctx { ctxOf (restarted s fr) s.casc.ctx with run := some r.again }
        | none => restarted s fr
      else restartBackward (restarted s fr) s.casc.ctx := rfl
  rw [hdef, if_neg (by simpa using hp), if_neg (by simp [hs])]
  exact restartBackward_idle hrun

end

/-! ## PREPARE (R312) -/

theorem framed.ctxs {s t : State} (h : framed s t) : t.ctxs = s.ctxs := by
  obtain ⟨_, _, _, _, rfl⟩ := h; rfl

theorem framed.ctxOf {s t : State} (h : framed s t) (n : Nat) : ctxOf t n = Machine.ctxOf s n := by
  rw [Machine.ctxOf, h.ctxs, Machine.ctxOf]

/-- R288: frames that are sent count in the cascade. -/
theorem framed.casc {s t : State} (h : framed s t) : ∃ d, t.casc = { s.casc with dtx := d } := by
  obtain ⟨_, _, _, d, rfl⟩ := h; exact ⟨d, rfl⟩

/-- R312: a READY that is due is sent once. -/
theorem maybeReady_run {s : State} {n : Nat} {r : StepRun} (hrun : (ctxOf s n).run = some r) :
    (∃ b, (ctxOf (maybeReady s n) n).run = some { r with readySent := b }) ∧ ∃ d, (maybeReady s n).casc = { s.casc with dtx := d } := by
  simp only [maybeReady, hrun]
  split_ifs
  · refine ⟨⟨true, ?_⟩, (framed_toLeads ..).casc⟩
    rw [(framed_toLeads ..).ctxOf, ctxOf_putCtx]
  · exact ⟨⟨_, hrun⟩, _, rfl⟩

/-- R312: what a PREPARE tells. -/
def prepareMeas (fr : Frame) : CasMeas :=
  { count := leAt fr.spec 20 4, status := leAt fr.spec 0 2, clip := BitVec.ofNat 32 (leAt fr.spec 4 4),
    norm := BitVec.ofNat 64 (leAt fr.spec 8 8), total := leAt fr.spec 16 4, meas := fr.meas }

/-- R312, R344: the module has recorded a PREPARE. -/
def prepareTold (s : State) (fr : Frame) : State :=
  jcascade (modCasc s fun c => { c with prepared := some (prepareMeas fr), outcome := leAt fr.spec 0 2 }) 1

/-- R312: the running step with the cascade's decision and the measurements of its stage. -/
def StepRun.prepared (r : StepRun) (fr : Frame) (base : Nat) : StepRun :=
  { r with decision := some (if leAt fr.spec 0 2 ≤ 1 then 0 else leAt fr.spec 0 2), clip := (prepareMeas fr).clip,
           norm := (prepareMeas fr).norm, total := some (prepareMeas fr).count,
           meas := (fr.meas.filter fun e => base < e.layer && e.layer < base + 4097).foldl
             (fun m e => fset (measKey (e.layer - base) e.tap 0) e.m m) [] }

theorem prepareIn_eq (s : State) (fr : Frame) : prepareIn fr s = match (ctxOf s s.casc.ctx).run with
    | none => prepareTold s fr
    | some r => maybeReady (putCtx (prepareTold s fr) s.casc.ctx { ctxOf s s.casc.ctx with
        run := some (r.prepared fr (4097 * s.casc.stage s.casc.self)) }) s.casc.ctx := rfl

theorem prepareIn_idle {s : State} (h : (ctxOf s s.casc.ctx).run = none) (fr : Frame) : prepareIn fr s = prepareTold s fr := by
  rw [prepareIn_eq, h]

/-- R312: the running step takes what a PREPARE tells, and its READY may be due. -/
theorem prepareIn_running {s : State} {r : StepRun} (h : (ctxOf s s.casc.ctx).run = some r) (fr : Frame) :
    (∃ b, (ctxOf (prepareIn fr s) s.casc.ctx).run =
      some { r.prepared fr (4097 * s.casc.stage s.casc.self) with readySent := b }) ∧
    ∃ d, (prepareIn fr s).casc = { (prepareTold s fr).casc with dtx := d } := by
  rw [prepareIn_eq, h]
  exact maybeReady_run (by rw [ctxOf_putCtx])

/-! ## COMMIT and RELEASE (R100, R302, R312, R313) -/

/-- R100, R302, R312: a COMMIT waits for the slots' parts and for the blocks of open windows. -/
theorem commitIn_waits {s : State} {fr : Frame} {r : StepRun} (hrun : (ctxOf s s.casc.ctx).run = some r) (he : r.epoch = fr.epoch)
    (h : partsDone s s.casc.ctx = false ∨ windowBlocks s s.casc.ctx r = true) (s0 : State) : commitIn fr s0 s = s0 := by
  simp only [commitIn, hrun]
  exact if_pos (by rcases h with h | h <;> simp [he, h])

/-- R270, R312: a COMMIT of the running step ends it, and ACK follows. -/
theorem cascCommit_running {s : State} {r : StepRun} (hrun : (ctxOf s s.casc.ctx).run = some r) (k : Nat) {outcome : Nat} (ho : outcome ≤ 1) :
    cascCommit s r.epoch k outcome = sendAck (commitVerified (modCasc s fun c => { c with
      committed := true, comEpoch := r.epoch, comOutcome := outcome, released := false, relSent := false }) s.casc.ctx outcome) k r.epoch := by
  simp [cascCommit, hrun, ho]

/-- R312: a module has recorded a COMMIT's outcome. -/
def commitTold (s : State) (fr : Frame) : State := modCasc (jcascade s 2) fun c => { c with outcome := leAt fr.spec 0 2 }

/-- R312: a module that is neither master nor deputy as it begins to commit. -/
def commitMarked (s : State) (fr : Frame) : State :=
  modCasc (commitTold s fr) fun c => { c with committed := true, comEpoch := fr.epoch, comOutcome := leAt fr.spec 0 2,
                                              released := false, relSent := false }

theorem casRole_commitTold (s : State) (fr : Frame) : casRole (commitTold s fr).casc = casRole s.casc := rfl

theorem casRole_commitMarked (s : State) (fr : Frame) : casRole (commitMarked s fr).casc = casRole s.casc :=
  casRole_commitTold s fr

section
variable {s : State} {fr : Frame} {r : StepRun} {p : Pattern} (hrun : (ctxOf s s.casc.ctx).run = some r)
  (hpat : (ctxOf s s.casc.ctx).pat = some p) (he : r.epoch = fr.epoch) (hw : windowBlocks s s.casc.ctx r = false)
  (hf : r.firstAfterRestore = false) (ho : leAt fr.spec 0 2 ≤ 1)
include hrun hpat he hw hf ho

theorem stepView_cascCommit : stepView (cascCommit (commitTold s fr) fr.epoch fr.k (leAt fr.spec 0 2)) s.casc.ctx =
    stepView (putCtx (commitMarked s fr) s.casc.ctx { ctxOf s s.casc.ctx with
      run := none, comEpoch := r.epoch, u := (ctxOf s s.casc.ctx).u + 1 }) s.casc.ctx := by
  have hrun' : (ctxOf (commitMarked s fr) s.casc.ctx).run = some r := hrun
  have hdef : cascCommit (commitTold s fr) fr.epoch fr.k (leAt fr.spec 0 2) =
      sendAck (commitStep (commitMarked s fr) s.casc.ctx (leAt fr.spec 0 2)) fr.k fr.epoch := by
    rw [← commitVerified_eq hrun' hpat hf, commitMarked, ← he]
    exact cascCommit_running (s := commitTold s fr) hrun fr.k ho
  rw [hdef]
  exact (stepView_sendAll rfl ..).trans (stepView_commitStep hrun' hpat hw _)

/-- R270, R312: a member commits: its step ends, and the context has one update more. -/
theorem stepView_commitIn_member (hr : casRole s.casc = 0) (hp : partsDone s s.casc.ctx = true) (s0 : State) :
    stepView (commitIn fr s0 s) s.casc.ctx = stepView (putCtx (commitMarked s fr) s.casc.ctx { ctxOf s s.casc.ctx with
      run := none, comEpoch := r.epoch, u := (ctxOf s s.casc.ctx).u + 1 }) s.casc.ctx := by
  have hview := stepView_cascCommit hrun hpat he hw hf ho
  have hrole : casRole (cascCommit (commitTold s fr) fr.epoch fr.k (leAt fr.spec 0 2)).casc = 0 := by
    rw [casRole_of_stepView hview, putCtx_casc, casRole_commitMarked, hr]
  have hgo : ¬(r.epoch == fr.epoch && (!(partsDone s s.casc.ctx) || windowBlocks s s.casc.ctx r)) = true := by simp [hp, hw]
  have hnot : ¬(casRole (commitTold s fr).casc == 1) = true := by simp [casRole_commitTold, hr]
  have hdef : commitIn fr s0 s = masterGo (cascCommit (commitTold s fr) fr.epoch fr.k (leAt fr.spec 0 2)) := by
    simp only [commitIn, hrun]
    rw [if_neg hgo]
    exact congrArg (fun t => masterGo (cascCommit t fr.epoch fr.k (leAt fr.spec 0 2))) (if_neg hnot)
  rw [hdef, masterGo_member (by omega), hview]

end

/-- R286, R313: what is left to settle shows in registers alone. -/
theorem showSettle_eq (s : State) (n : Nat) : ∃ g, showSettle s n = { s with regs := g } := by
  unfold showSettle
  split
  · exact List.foldlRecOn (motive := fun t : State => ∃ g, t = { s with regs := g }) _ _ ⟨_, rfl⟩ fun t ⟨_, ht⟩ j _ => by
      rw [ht]
      exact ⟨_, rfl⟩
  · exact ⟨_, rfl⟩

/-! ## ACK and REJOIN (R311, R313, R315) -/

section
variable {s : State} {fr : Frame}

/-- R311: an ACK is recorded. -/
def acked (s : State) (fr : Frame) : State := modCasc s fun c => { c with acks := fset fr.smod fr.epoch c.acks }

theorem ackIn_member (hr : casRole s.casc ≠ 2) : ackIn fr s = acked s fr := by
  have hr' : casRole (acked s fr).casc ≠ 2 := hr
  refine (if_neg ?_).trans (masterGo_member hr')
  change ¬(isMaster (acked s fr) && _ && _) = true
  simp [isMaster_member hr']

/-- R311: a module that is back gets RELEASE of a step already released. -/
theorem ackIn_released (ha : s.casc.active = true) (hr : casRole s.casc = 2) (hrel : s.casc.relSent = true)
    (he : fr.epoch = s.casc.comEpoch) : ackIn fr s = sendFrame (acked s fr) fr.smod (releaseFrame s.casc) := by
  have hm : isMaster (acked s fr) = true := isMaster_master ha hr
  refine if_pos ?_
  change (isMaster (acked s fr) && s.casc.relSent && fr.epoch == s.casc.comEpoch) = true
  simp [hm, hrel, he]

/-- R315: what a module has missed is the master's to send. -/
theorem rejoinIn_left_member (hl : fr.smod ∈ s.casc.leftMods) (hr : casRole s.casc ≠ 2) : rejoinIn fr s = s := by
  simp [rejoinIn, hl, isMaster_member hr]

/-- R315: the master sends a module whose group has left the groups taking part. -/
theorem rejoinIn_left_master (hl : fr.smod ∈ s.casc.leftMods) (ha : s.casc.active = true) (hr : casRole s.casc = 2) :
    rejoinIn fr s = tell s [fr.smod]
      { ty := if 7 < s.casc.part.length then 6 else 2, code := 0x13, spec := listBytes s.casc.part } := by
  simp [rejoinIn, hl, isMaster_master ha hr]

/-- R315: a module that is back is lost no more. -/
theorem rejoinIn_member (hl : fr.smod ∉ s.casc.leftMods) (hr : casRole s.casc ≠ 2) : rejoinIn fr s =
    modCasc s fun c => { c with lost := ndel fr.smod c.lost, waitRejoin := ndel fr.smod c.waitRejoin } := by
  have hm : isMaster (modCasc s fun c => { c with lost := ndel fr.smod c.lost, waitRejoin := ndel fr.smod c.waitRejoin }) = false :=
    isMaster_member hr
  simp [rejoinIn, hl, hm]

end

/-! ## The windows of the master (R315, R316) -/

theorem exec_stragglerWindowExpiry (s : State) : exec .stragglerWindowExpiry s = .next (publish s
    (if !(isMaster s) || s.casc.swin == 0 || s.casc.turned || s.casc.fdone.isEmpty then s
     else masterGo (modCasc s fun c => { c with straggle := c.part.filter fun g => !(c.groupDone g) }))) := rfl

theorem exec_rwinExpiry (m : Nat) (s : State) : exec (.rwinExpiry m) s = .next (publish s
    (if !(isMaster s) || !(s.casc.lost.contains m) then s
     else if s.casc.crec || s.casc.committed || s.casc.prepared.isNone then masterGo (leaveGroup s (s.casc.group m))
     else sendRestart (leaveGroup s (s.casc.group m)))) := rfl

/-- R315, R316: the master alone watches these windows. -/
theorem exec_windowExpiry_member {s : State} (hr : casRole s.casc ≠ 2) (m : Nat) :
    exec .stragglerWindowExpiry s = .next (publish s s) ∧ exec (.rwinExpiry m) s = .next (publish s s) := by
  simp [exec_stragglerWindowExpiry, exec_rwinExpiry, isMaster_member hr]

section
variable {s : State} (ha : s.casc.active = true) (hr : casRole s.casc = 2)
include ha hr

/-- R316: at the end of the straggler window the groups that are not done straggle. -/
theorem exec_stragglerWindowExpiry_master (hw : s.casc.swin ≠ 0) (ht : s.casc.turned = false) (hf : s.casc.fdone ≠ []) :
    exec .stragglerWindowExpiry s = .next (publish s
      (masterGo { s with casc := { s.casc with straggle := s.casc.part.filter fun g => !(s.casc.groupDone g) } })) := by
  have hgo : ¬(!(isMaster s) || s.casc.swin == 0 || s.casc.turned || s.casc.fdone.isEmpty) = true := by
    simp [isMaster_master ha hr, hw, ht, hf]
  rw [exec_stragglerWindowExpiry, if_neg hgo, modCasc]

/-- R315: a group whose module is not back in time leaves; before the commit is recorded, the backward pass starts again. -/
theorem exec_rwinExpiry_master {m : Nat} (hl : m ∈ s.casc.lost) : exec (.rwinExpiry m) s = .next (publish s
    (if s.casc.crec = true ∨ s.casc.committed = true ∨ s.casc.prepared = none then masterGo (leaveGroup s (s.casc.group m))
     else sendRestart (leaveGroup s (s.casc.group m)))) := by
  have hgo : ¬(!(isMaster s) || !(s.casc.lost.contains m)) = true := by simp [isMaster_master ha hr, hl]
  rw [exec_rwinExpiry, if_neg hgo]
  simp only [Bool.or_eq_true, Option.isNone_iff_eq_none, or_assoc]

end

end Sys2Proof.Machine
end

section
/-! SUPPORT. Data frames of windows and of the exchange: at the port, and written (R289, R301, R302, R308, R309). -/

namespace Sys2Proof.Machine

/-! ## A frame in order at an idle port (R289) -/

@[simp] theorem portOf_putPort (s : State) (n : Nat) (p : PortSt) : portOf (putPort s n p) n = p := fget_fset_same ..

/-- R289: where no frame waits, an acknowledgement empties the replay buffer alone. -/
theorem ackFrames_idle {s : State} {n : Nat} (h : (portOf s n).queue = []) (lack : Nat) : ackFrames s n lack =
    putPort s n { portOf s n with replay := (portOf s n).replay.filter fun f => !(seqUpTo f.lseq lack) } := by
  simp only [ackFrames, h]
  rfl

/-- R288: the next sequence number has not been received yet. -/
theorem seqUpTo_next (q : Nat) : seqUpTo ((q + 1) % 2 ^ 32) q = false := by
  simp only [seqUpTo, decide_eq_false_iff_not]
  omega

/-- R289: a frame has left the link, and its acknowledgement has been taken. -/
def frameAcked (s : State) (port : Nat) (fr : Frame) : State :=
  putPort { s with out := eraseOne (.frame port fr) s.out } port
    { portOf s port with replay := (portOf s port).replay.filter fun f => !(seqUpTo f.lseq fr.lack) }

theorem portOf_frameAcked (s : State) (port : Nat) (fr : Frame) :
    (portOf (frameAcked s port fr) port).rxSeq = (portOf s port).rxSeq ∧
    (portOf (frameAcked s port fr) port).tries = (portOf s port).tries := by
  rw [frameAcked, portOf_putPort]
  exact ⟨rfl, rfl⟩

/-- R289: the next frame in order has been received. -/
def frameTaken (s : State) (port : Nat) (fr : Frame) : State := putPort s port { portOf s port with rxSeq := fr.lseq }

section
variable {s : State} {port : Nat} {fr : Frame} {b : Block}

/-- R289, R302: a data frame for this module that is the next in order and passes its check. -/
theorem frameIn_data (hb : fr.block = some b) (hty : fr.ty = 3 ∨ fr.ty = 4) (hd : fr.dmod = s.casc.self) (hup : portUp s port = true)
    (hq : (portOf s port).queue = []) (hfc : fr.fcrc = frameCheck fr) (hl : fr.lseq = ((portOf s port).rxSeq + 1) % 2 ^ 32)
    (hh : fr.hops ≠ 4) : frameIn port fr .clean s = dataIn (frameAcked s port fr) port fr b := by
  have hack : ackFrames (arrive s (.frame port fr)) port fr.lack = frameAcked s port fr :=
    ackFrames_idle (s := arrive s (.frame port fr)) hq fr.lack
  obtain ⟨hrx, -⟩ := portOf_frameAcked s port fr
  have hseq : seqUpTo fr.lseq (portOf s port).rxSeq = false := hl ▸ seqUpTo_next _
  have hd' : fr.dmod = (frameAcked s port fr).casc.self := hd
  have hres : frameReserved fr = false := by rcases hty with h | h <;> simp [frameReserved, h]
  have hnext : frameNext (frameAcked s port fr) port fr = dataIn (frameAcked s port fr) port fr b := by
    rcases hty with h | h <;> simp [frameNext, hres, hb, h, hd']
  have hl' : fr.lseq = ((portOf s port).rxSeq + 1) % 4294967296 := hl
  rcases hty with h | h <;> simp [frameIn, countFec, hup, hfc, hh, hack, hrx, hseq, ← hl', h, hnext]

variable (hs : frameSeen s fr = false)
include hs

/-- R302: a data frame of another generation is dropped. -/
theorem dataIn_otherGen (hg : fr.cgen ≠ s.casc.cgen) : dataIn s port fr b = dropData (frameTaken s port fr) port fr b.wgen 0x6401 := by
  simp [dataIn, hs, hg, frameTaken]

/-- R301, R302: so is one for a window that is not open or not declared. -/
theorem dataIn_closed (hg : fr.cgen = s.casc.cgen) (hw : windowOpen s b.wgen = false ∨ windowKnown s fr = false) :
    dataIn s port fr b = dropData (frameTaken s port fr) port fr b.wgen 0x6402 := by
  rcases hw with h | h <;> simp [dataIn, hs, hg, h, frameTaken]

/-- R290: a frame not yet accepted enters the inbox. -/
theorem deliver_eq (port : Nat) : ∃ c, deliver s port fr = { s with casc := c, inbox := s.inbox ++ [{ fr with port := some port }] } := by
  simp only [deliver, hs, Bool.false_eq_true, if_false]
  exact ⟨_, rfl⟩

variable (hg : fr.cgen = s.casc.cgen) (ho : windowOpen s b.wgen = true) (hk : windowKnown s fr = true)
include hg ho hk

/-- R302: a data frame through an open window whose block is asked for again. -/
theorem dataIn_asks {t : State} (h : portChecked s port fr b = (t, none)) : dataIn s port fr b = askResend t port := by
  simp [dataIn, hs, hg, ho, hk, h]

/-- R302: a data frame through an open window whose block is accepted enters the inbox. -/
theorem dataIn_accepts {t : State} {b1 : Block} (h : portChecked s port fr b = (t, some b1)) (hc : t.casc = s.casc) :
    ∃ c, dataIn s port fr b = { frameTaken t port fr with
      casc := c, inbox := t.inbox ++ [{ fr with port := some port, block := some b1 }] } := by
  have hdef : dataIn s port fr b = deliver (frameTaken t port fr) port { fr with block := some b1 } := by
    simp [dataIn, hs, hg, ho, hk, h, frameTaken]
  have hseen : frameSeen (frameTaken t port fr) { fr with block := some b1 } = false := by
    have hcasc : (frameTaken t port fr).casc = s.casc := hc
    rw [frameSeen, hcasc]
    exact hs
  rw [hdef]
  exact deliver_eq hseen port

end

/-! ## The check of a block (R206, R309) -/

/-- R206: how often a port has asked for a block. -/
def triesSet (s : State) (port : Nat) (fr : Frame) (n : Nat) : State :=
  putPort s port { portOf s port with tries := setTries (portOf s port).tries fr.smod fr.win fr.wblk n }

theorem rxSeq_triesSet (s : State) (port : Nat) (fr : Frame) (n : Nat) :
    (portOf (triesSet s port fr n) port).rxSeq = (portOf s port).rxSeq := by
  rw [triesSet, portOf_putPort]

theorem portChecked_good {b : Block} (h : Block.good b = true) (s : State) (port : Nat) (fr : Frame) :
    portChecked s port fr b = (triesSet s port fr 0, some b) := if_pos h

section
variable {s : State} {port : Nat} {fr : Frame} {b : Block} (h : Block.good b = false)
include h

theorem portChecked_asks (hn : triesOf (portOf s port).tries fr.smod fr.win fr.wblk < 3) : portChecked s port fr b =
    (triesSet (rcount s (rAK port 0x10) 1) port fr (triesOf (portOf s port).tries fr.smod fr.win fr.wblk + 1), none) :=
  (if_neg (by simp [h])).trans (if_pos hn)

theorem portChecked_poisons (hn : 3 ≤ triesOf (portOf s port).tries fr.smod fr.win fr.wblk) : portChecked s port fr b =
    (triesSet (rcount s (rAK port 0x10) 1) port fr 0, some { b with poison := true }) :=
  (if_neg (by simp [h])).trans (if_neg (by omega))

end

/-- R289: the link frame that asks for what follows the last frame in order. -/
theorem askResend_out (s : State) (n : Nat) : ∃ f, .frame n f ∈ (askResend s n).out ∧ f.ty = 0 ∧
    f.n = ((portOf s n).rxSeq + 1) % 2 ^ 32 :=
  ⟨_, List.mem_append_right _ (List.mem_singleton_self _), rfl, rfl⟩

/-! ## Frames of the inbox (R227, R302) -/

theorem lpWritten_writeBlock (s : State) (a : Nat) (b : Block) : lpWritten s (writeBlock s a b) := by
  have hlines (l : List Nat) (bs : Nat → List (Nat × W8)) : lpWritten s (l.foldl (fun s ln => lpStore s (bs ln)) s) :=
    List.foldlRecOn l _ (.refl s) fun t ht ln _ => ht.trans (lpWritten_lpStore ..)
  unfold writeBlock
  split
  · exact lpWritten_rcount ..
  · simp only [lpWrite]
    split
    · exact (hlines ..).trans ⟨_, _, _, _, _, rfl⟩
    · exact hlines ..

theorem eraseOne_of_not_mem {α : Type} [DecidableEq α] {a : α} {l : List α} (h : a ∉ l) : eraseOne a l = l := by
  induction l with
  | nil => rfl
  | cons b r ih =>
    rw [List.mem_cons, not_or] at h
    rw [eraseOne, if_neg h.1, ih h.2]

theorem takeIn_absent {s : State} {fr : Frame} (h : fr ∉ s.inbox) : takeIn s fr = s := by rw [takeIn, eraseOne_of_not_mem h]

/-- R302: a step that does not wait for blocks goes on. -/
theorem endWaiting_idle {s : State} (h : ∀ r, (ctxOf s s.casc.ctx).run = some r → r.ending = none) : endWaiting s = s := by
  have hnone : (ctxOf s s.casc.ctx).run.bind (·.ending) = none := by
    cases hr : (ctxOf s s.casc.ctx).run with
    | none => rfl
    | some r => exact h r hr
  simp only [endWaiting, hnone]

/-- R245: without a running step no gradient block counts. -/
theorem gradAccepted_idle {s : State} {n : Nat} (h : (ctxOf s n).run = none) (a cn : Nat) (b : Block) (plain : Bool) :
    gradAccepted s n a cn b plain = s := by
  simp only [gradAccepted, h]

section
variable {s : State} {fr : Frame}

theorem windowIn_absent (h : fr ∉ s.inbox) (l : Nat) : windowIn fr l s = s := by
  simp only [windowIn, takeIn_absent h]
  split
  · simp [h]
  · rfl

theorem exchangeIn_absent (h : fr ∉ s.inbox) (port : Nat) (gather : Bool) : exchangeIn port fr gather s = s := by
  simp only [exchangeIn, takeIn_absent h]
  split
  · rfl
  · simp [h]

variable {b : Block} (hin : fr ∈ s.inbox) (hb : fr.block = some b)
include hin hb

/-- R301, R302: a block for a window onto a range without gradients is written there. -/
theorem windowIn_range {p : Pattern} {w : List W8} {bd : Binding} {rg : RangeE} (hp : (ctxOf s s.casc.ctx).pat = some p)
    (hw : p.window fr.win = some w) (hkind : leAt w 1 1 = 1) (hbd : (ctxOf s s.casc.ctx).bind = some bd)
    (hrg : bd.lpr[leAt w 2 1]? = some rg) (hcov : rg.covers (rg.base + 4160 * fr.wblk) 4160 = true) (hmark : rg.mark = 4)
    (hrun : (ctxOf s s.casc.ctx).run = none) (l : Nat) :
    windowIn fr l s = writeBlock (takeIn s fr) (rg.base + 4160 * fr.wblk) b := by
  have hkept := lpWritten_writeBlock (takeIn s fr) (rg.base + 4160 * fr.wblk) b
  have hidle : (ctxOf (writeBlock (takeIn s fr) (rg.base + 4160 * fr.wblk) b) s.casc.ctx).run = none := by
    rw [ctxOf, hkept.ctxs]
    exact hrun
  have hrange : windowRange (takeIn s fr) s.casc.ctx (leAt w 2 1) fr b =
      writeBlock (takeIn s fr) (rg.base + 4160 * fr.wblk) b := by
    have hbd' : (ctxOf (takeIn s fr) s.casc.ctx).bind = some bd := hbd
    simp [windowRange, hbd', hrg, hcov, hmark, gradAccepted_idle hidle]
  have hend : endWaiting (writeBlock (takeIn s fr) (rg.base + 4160 * fr.wblk) b) =
      writeBlock (takeIn s fr) (rg.base + 4160 * fr.wblk) b :=
    endWaiting_idle fun r hr => by
      rw [hkept.casc] at hr
      exact absurd (hidle.symm.trans hr) nofun
  have hpat : ((ctxOf (takeIn s fr) s.casc.ctx).pat.bind fun p => p.window fr.win) = some w := by
    have hp' : (ctxOf (takeIn s fr) s.casc.ctx).pat = some p := hp
    rw [hp', Option.bind_some, hw]
  have hctx : (takeIn s fr).casc.ctx = s.casc.ctx := rfl
  simp only [windowIn, hb, hctx, hpat]
  simp [hin, hkind, hrange, hend]

end

/-! ## The hem units (R309) -/

/-- R309: where no own block waits, an arriving one finds no partner. -/
theorem hemFind_none {s : State} (h : ∀ e ∈ s.ports, ∀ x ∈ e.2.hem, x.1 = false) (fr : Frame) : hemFind s true fr = none := by
  refine List.findSome?_eq_none_iff.mpr fun e he => ?_
  rw [Option.map_eq_none_iff, List.find?_eq_none]
  intro x hx
  simp [h e he x hx]

section
variable {s : State} {fr : Frame} {b : Block} {port : Nat} (hin : fr ∈ s.inbox) (hb : fr.block = some b)
  (hset : (ctxOf s s.casc.ctx).settle = []) (hm : fr.smod ≠ s.casc.self) (hv : fr.via = none)
  (hst : s.casc.group s.casc.self ∉ s.casc.straggle) (hhem : ∀ e ∈ s.ports, ∀ x ∈ e.2.hem, x.1 = false)
include hin hb hset hm hv hst hhem

/-- R309: a partial sum without its own block asks for a place in the buffer. -/
theorem exchangeIn_waiting : exchangeIn port fr false s =
    if 256 ≤ (portOf s port).hem.length then s else endWaiting (hemKeep (takeIn s fr) port false fr b) := by
  have hset' : (ctxOf (takeIn s fr) s.casc.ctx).settle = [] := hset
  have hown : (fr.smod == s.casc.self) = false := by simpa using hm
  have hnone : hemFind (takeIn s fr) true fr = none := hemFind_none (s := takeIn s fr) hhem fr
  have htake : hemTake (takeIn s fr) port fr b =
      if 256 ≤ (portOf s port).hem.length then none else some (hemKeep (takeIn s fr) port false fr b) := by
    have hself : (takeIn s fr).casc = s.casc := rfl
    have hport : portOf (takeIn s fr) port = portOf s port := rfl
    simp [hemTake, hself, hport, hown, hnone, hst]
  have hctx : (takeIn s fr).casc.ctx = s.casc.ctx := rfl
  simp only [exchangeIn, hb, hctx, hset', hv, htake]
  by_cases hfull : 256 ≤ (portOf s port).hem.length <;> simp [hin, hfull, ownTaken, hv]

end

end Sys2Proof.Machine
end

section
/-! PROOFS. Messages and data frames of a cascade step: O47. -/

namespace Sys2Proof.Proofs

open Sys2Proof.Machine

/-- Settles O47: the messages through `onStep_outdated`, `onStep_current` and their `onLate` forms, with one lemma for what each does at a
member; a commit through `stepView`; data frames through `frameIn_data` and the lemmas of `dataIn`, `windowIn` and `exchangeIn`. -/
theorem cascadeMessages : Obligations.CascadeMessages := by
  unfold Obligations.CascadeMessages
  constructor
  · intro s fr ha hg ht c k n
    have hold : fr.epoch < c.casc.epoch ∨ fr.epoch = c.casc.epoch ∧ fr.k < c.casc.k → ∀ g, onStep fr g s = c :=
      onStep_outdated ha hg ht
    have holdLate : fr.epoch = c.casc.epoch → fr.k < c.casc.k → ∀ g, onLate fr g s = c := onLate_outdated ha hg ht
    have hnow : fr.epoch = c.casc.epoch → c.casc.k ≤ fr.k → ∀ g, onStep fr g s = g c := onStep_current ha hg ht
    clear_value c
    refine ⟨fun h => ?_, fun he hk => ?_, fun he hk hr => ?_⟩
    · intro cmd hcmd
      simp only [List.mem_cons, List.not_mem_nil, or_false] at hcmd
      rcases hcmd with rfl | rfl | rfl | rfl | rfl | rfl | rfl | rfl | rfl
      all_goals exact shown_eq (hold h _)
    · intro cmd hcmd
      simp only [List.mem_cons, List.not_mem_nil, or_false] at hcmd
      rcases hcmd with rfl | rfl | rfl
      all_goals exact shown_eq (holdLate he hk _)
    have hin := hnow he hk
    refine ⟨fun hs hd => ?fdone, fun hp hs => ?turn, fun hgrp => ?lossElsewhere, fun r hgrp hm hrun hmb hc hl => ?loss,
      fun hp hrun hs => ?restart, ?xdone, ?prepare, ?ready, ?crec, fun r p hrun hpat hre hparts hw hf ho hrole => ?commit,
      fun r hrun hre hwait => ?commitWaits⟩
    case fdone =>
      have hnew : ¬(c.casc.straggle.contains (c.casc.group fr.smod) || c.casc.fdone.any fun e => e.1 == fr.smod) = true := by
        have hs' : c.casc.straggle = [] := hs
        have hd' : (c.casc.fdone.any fun e => e.1 == fr.smod) = false :=
          List.any_eq_false.mpr fun e he => by simpa using hd e he
        simp [hs', hd']
      exact (shown_eq ((hin _).trans ((if_neg hnew).trans (masterGo_member hr))) : execFdone fr s = _)
    case turn =>
      have hleft {m : Nat} (h : (m < k.total ∧ k.group m ∉ (bytesList fr.spec).1) ∨ m ∈ k.leftMods) :
          m ∈ (turnTaken c fr).casc.leftMods := mem_leftMods_takePart.mpr h
      exact ⟨_, (shown_eq ((hin _).trans (turnIn_eq hp hs)) : execTurn fr s = _), rfl, rfl, rfl, rfl,
        fun m hm hout => hleft (.inl ⟨hm, hout⟩), fun m hm => hleft (.inr hm), rfl, rfl⟩
    case lossElsewhere => exact (shown_eq ((hin _).trans (lossIn_otherGroup hr hgrp)) : execLoss fr s = _)
    case loss =>
      obtain ⟨cs, hloss⟩ := lossIn_ownGroup (s := c) hr hgrp hm hrun hmb hc hl
      exact ⟨_, _, (shown_eq ((hin _).trans hloss) : execLoss fr s = _), congrArg CtxSt.run (ctxOf_putCtx c n _), rfl, rfl, rfl⟩
    case restart =>
      exact ⟨_, (shown_eq ((hin _).trans (restartIn_idle hp hrun hs)) : execRestart fr s = _), rfl, rfl, rfl,
        fun q => portOf_clearHem _ q, rfl, rfl⟩
    case xdone => exact (shown_eq ((hin _).trans (masterGo_member hr)) : execXdone fr s = _)
    case prepare =>
      refine ⟨prepareIn fr c, prepareMeas fr, (shown_eq (hin _) : execPrepare fr s = _), ?_⟩
      cases hrun : (ctxOf c n).run with
      | none =>
        rw [prepareIn_idle hrun]
        exact ⟨rfl, rfl, rfl, rfl, nofun⟩
      | some r =>
        obtain ⟨⟨b, hrun'⟩, d, hcasc⟩ := prepareIn_running hrun fr
        rw [hcasc]
        exact ⟨rfl, rfl, rfl, rfl, fun r' hr' => ⟨_, hrun', by cases hr'; exact ⟨rfl, rfl, rfl, rfl⟩⟩⟩
    case ready => exact (shown_eq ((hin _).trans (masterGo_member hr)) : execReady fr s = _)
    case crec => exact (shown_eq ((hin _).trans (if_pos (by simp [isMaster_member (s := c) hr]))) : execCrec fr s = _)
    case commit =>
      have hview := stepView_commitIn_member hrun hpat hre hw hf ho hrole hparts s
      simp only [stepView, Prod.mk.injEq, ctxOf_putCtx] at hview
      obtain ⟨hnone, hcom, hu, hcasc⟩ := hview
      exact ⟨_, (shown_eq (hin _) : execCommit fr s = _), hnone, hcom.trans hre, hu,
        congrArg (fun v => v.1.committed) hcasc⟩
    case commitWaits =>
      exact (shown_eq ((hin _).trans (commitIn_waits hrun hre hwait s)) : execCommit fr s = _)
  · intro s fr m port l ha k n got c z
    have hnow : fr.cgen = s.casc.cgen → s.casc.term ≤ fr.term → fr.epoch = c.casc.epoch → c.casc.k ≤ fr.k →
        ∀ g, onStep fr g s = g c := onStep_current ha
    have hlate : fr.cgen = s.casc.cgen → s.casc.term ≤ fr.term → ∀ g, onLate fr g s =
        if fr.epoch == c.casc.epoch && fr.k < c.casc.k then c else g c := onLate_eq ha
    have hlater : fr.cgen = s.casc.cgen → s.casc.term ≤ fr.term → fr.epoch ≠ c.casc.epoch ∨ c.casc.k ≤ fr.k →
        ∀ g, onLate fr g s = g c := onLate_current ha
    clear_value c
    refine ⟨fun hg ht hz => ⟨fun he hk hr hc hgo => ?crec, fun he => ?releaseOld, fun hk => ⟨fun hr => ?ack, fun hr hrel he => ?ackReleased,
      fun he => ?release, fun hl hr => ?rejoinLeft, fun hl hr => ?rejoinLeftMaster, fun hl hr => ?rejoin⟩⟩,
      fun hr => exec_windowExpiry_member hr m, fun hr => exec_stragglerWindowExpiry_master ha hr,
      fun hr hl => exec_rwinExpiry_master ha hr hl,
      fun b hb hty hd _ hup hq hfc hl hh hs => ?data,
      fun h => ⟨?windowAbsent, ?exchangeAbsent, ?gatherAbsent⟩, fun b p w bd rg hin hb hp hw hkind hbd hrg hcov hmark hrun => ?window,
      fun b hin hb hset hm hv hst hhem hrun => ?exchange⟩
    case crec =>
      have hmaster : isMaster c = true := isMaster_master hz hr
      have hgo' : ¬(!(isMaster c) || c.casc.crec || !c.casc.committing) = true := by
        have hc' : c.casc.crec = false := hc
        have hgo' : c.casc.committing = true := hgo
        simp [hmaster, hc', hgo']
      have hsent := framed_sendAll (modCasc c fun c => { c with crec := true }) (ndel c.casc.deputy c.casc.live)
        { commitFrame c.casc with k := c.casc.k, epoch := c.casc.epoch }
      obtain ⟨d, hcasc⟩ := hsent.casc
      exact ⟨_, (shown_eq ((hnow hg ht he hk _).trans (if_neg hgo')) : execCrec fr s = _),
        congrArg Casc.crec hcasc, hsent.cores, hsent.ctxs⟩
    case releaseOld =>
      refine (shown_eq ((hlate hg ht _).trans ?_) : execRelease fr s = _)
      split
      · rfl
      · exact if_neg (by simpa using he)
    case ack => exact (shown_eq ((hlater hg ht hk _).trans (ackIn_member hr)) : execAck fr s = _)
    case ackReleased => exact (shown_eq ((hlater hg ht hk _).trans (ackIn_released hz hr hrel he)) : execAck fr s = _)
    case release =>
      obtain ⟨g, hshow⟩ := showSettle_eq (modCasc c fun c => { c with released := true }) c.casc.ctx
      have heq : (fr.epoch == c.casc.comEpoch) = true := beq_iff_eq.mpr he
      exact ⟨_, (shown_eq ((hlater hg ht hk _).trans ((if_pos heq).trans hshow)) : execRelease fr s = _), rfl, rfl, rfl⟩
    case rejoinLeft => exact (shown_eq ((hlater hg ht hk _).trans (rejoinIn_left_member hl hr)) : execRejoin fr s = _)
    case rejoinLeftMaster => exact (shown_eq ((hlater hg ht hk _).trans (rejoinIn_left_master hl hz hr)) : execRejoin fr s = _)
    case rejoin => exact (shown_eq ((hlater hg ht hk _).trans (rejoinIn_member hl hr)) : execRejoin fr s = _)
    case data =>
      intro p kept next
      have hdata : frameIn port fr .clean s = dataIn kept port fr b := frameIn_data hb hty hd hup hq hfc hl hh
      have hexec {t : State} (h : dataIn kept port fr b = t) : exec (.akgonFrameReceive port fr .clean) s = .next (publish s t) :=
        (shown_eq (hdata.trans h) : execAkgonFrameReceive port fr .clean s = _)
      obtain ⟨hrx, htries⟩ : (portOf kept port).rxSeq = p.rxSeq ∧ (portOf kept port).tries = p.tries := portOf_frameAcked s port fr
      refine ⟨fun hg => hexec (dataIn_otherGen hs hg), fun hg hw => hexec (dataIn_closed hs hg hw), fun hg ho hk =>
        ⟨fun hgood => ?_, fun hbad hn => ?_, fun hbad hn => ?_⟩⟩
      · obtain ⟨c, h⟩ := dataIn_accepts (s := kept) hs hg ho hk (portChecked_good hgood ..) rfl
        refine ⟨_, hexec h, ?_, congrArg PortSt.rxSeq (portOf_putPort ..), rfl, rfl⟩
        rw [← hb]
        rfl
      · have h := dataIn_asks (s := kept) hs hg ho hk (portChecked_asks hbad (htries ▸ hn))
        obtain ⟨f, hf, hfty, hfn⟩ := askResend_out (triesSet (rcount kept (rAK port 0x10) 1) port fr
          (triesOf (portOf kept port).tries fr.smod fr.win fr.wblk + 1)) port
        have hseq := (rxSeq_triesSet (rcount kept (rAK port 0x10) 1) port fr
          (triesOf (portOf kept port).tries fr.smod fr.win fr.wblk + 1)).trans hrx
        exact ⟨_, f, hexec h, rfl, hseq, hf, hfty, hseq ▸ hfn⟩
      · obtain ⟨c, h⟩ := dataIn_accepts (s := kept) hs hg ho hk (portChecked_poisons hbad (htries ▸ hn)) rfl
        exact ⟨_, hexec h, rfl⟩
    case windowAbsent => exact (shown_eq (windowIn_absent h l) : execWindowData fr.port fr l s = _)
    case exchangeAbsent => exact (shown_eq (exchangeIn_absent h port false) : execExchangeData port fr false s = _)
    case gatherAbsent => exact (shown_eq (exchangeIn_absent h port true) : execExchangeData port fr true s = _)
    case window =>
      have h := windowIn_range (s := s) hin hb hp hw hkind hbd hrg hcov hmark hrun l
      have hkept := lpWritten_writeBlock got (rg.base + 4160 * fr.wblk) b
      exact ⟨_, (shown_eq h : execWindowData fr.port fr l s = _), rfl, hkept.cores, hkept.inbox⟩
    case exchange =>
      have h := exchangeIn_waiting (port := port) hin hb hset hm hv hst hhem
      refine ⟨fun hlen => ?_, fun hlen => ?_⟩
      · have hidle : endWaiting (hemKeep (takeIn s fr) port false fr b) = hemKeep (takeIn s fr) port false fr b := endWaiting_idle hrun
        have hkept := h.trans ((if_neg (Nat.not_le.mpr hlen)).trans hidle)
        exact ⟨_, (shown_eq hkept : execExchangeData port fr false s = _), rfl, congrArg PortSt.hem (portOf_putPort ..), rfl, rfl⟩
      · exact (shown_eq (h.trans (if_pos hlen)) : execExchangeData port fr false s = _)

end Sys2Proof.Proofs
end

section
/-! SUPPORT. What the mirror window reads of the state, and what core instructions leave of it (R378, R380). -/

namespace Sys2Proof.Machine

/-! ## What the lines read -/

/-- Where the registers lie that describe and count the errors of a tile's wells (Table 7.4). No line of the mirror window shows them. -/
def wellErrPlace (o : Nat) : Prop := 0x1000000 ≤ o ∧ 0x3000 ≤ o % 0x10000 ∧ o % 0x10000 < 0x3010

/-- `t` shows in its mirror window what `s` shows, for it gives the same of everything that the lines read (Tables 15.2 to 15.5). Of
WH_BRING they read the bring-up step alone. -/
structure SameLines (s t : State) : Prop where
  regs : ∀ o ≠ 0x108, ¬ wellErrPlace o → rget t o = rget s o
  step : Machine.rfld t 0x108 0 4 = Machine.rfld s 0x108 0 4
  ctxs : t.ctxs = s.ctxs
  cists : t.cists = s.cists
  hrings : t.hrings = s.hrings
  csos : t.csos = s.csos
  roles : (t.casc.active, t.casc.self, t.casc.master, t.casc.deputy) = (s.casc.active, s.casc.self, s.casc.master, s.casc.deputy)
  stalls : (t.boot.stalls, t.boot.stalledEvents) = (s.boot.stalls, s.boot.stalledEvents)
  values : ∀ n, (soOf t n).v = (soOf s n).v
  stalled : ∀ unit id, (jobOf t unit id).any PumpJob.stalled = (jobOf s unit id).any PumpJob.stalled
  guests : ∀ q : Nat → Bool, (t.cores.any fun e => e.2.guest.isSome && q e.1) = s.cores.any fun e => e.2.guest.isSome && q e.1

namespace SameLines

theorem refl (s : State) : SameLines s s :=
  ⟨fun _ _ _ => rfl, rfl, rfl, rfl, rfl, rfl, rfl, rfl, fun _ => rfl, fun _ _ => rfl, fun _ => rfl⟩

theorem trans {s t r : State} (h1 : SameLines s t) (h2 : SameLines t r) : SameLines s r where
  regs o ho hw := (h2.regs o ho hw).trans (h1.regs o ho hw)
  step := h2.step.trans h1.step
  ctxs := h2.ctxs.trans h1.ctxs
  cists := h2.cists.trans h1.cists
  hrings := h2.hrings.trans h1.hrings
  csos := h2.csos.trans h1.csos
  roles := h2.roles.trans h1.roles
  stalls := h2.stalls.trans h1.stalls
  values n := (h2.values n).trans (h1.values n)
  stalled unit id := (h2.stalled unit id).trans (h1.stalled unit id)
  guests q := (h2.guests q).trans (h1.guests q)

theorem foldl {α : Type} {f : State → α → State} (hf : ∀ s a, SameLines s (f s a)) (l : List α) (s : State) :
    SameLines s (l.foldl f s) :=
  List.foldlRecOn l f (refl s) fun t ht a _ => ht.trans (hf t a)

section
variable {s t : State} (h : SameLines s t)
include h

theorem rfld {o : Nat} (ho : o ≠ 0x108) (hw : ¬ wellErrPlace o) (lo w : Nat) : rfld t o lo w = Machine.rfld s o lo w := by
  rw [Machine.rfld, h.regs o ho hw, Machine.rfld]

/-- A register below the blocks of the tiles. -/
theorem rget_low {o : Nat} (ho : 0x108 < o) (hlow : o < 0x1000000) : rget t o = rget s o :=
  h.regs o (by omega) fun hw => by have := hw.1; omega

theorem rfld_low {o : Nat} (ho : 0x108 < o) (hlow : o < 0x1000000) (lo w : Nat) : Machine.rfld t o lo w = Machine.rfld s o lo w := by
  rw [Machine.rfld, h.rget_low ho hlow, Machine.rfld]

theorem rget64_low {o : Nat} (ho : 0x108 < o) (hlow : o + 4 < 0x1000000) : rget64 t o = rget64 s o := by
  rw [rget64, h.rget_low ho (by omega), h.rget_low (o := o + 4) (by omega) hlow, rget64]

theorem ctxOf (n : Nat) : ctxOf t n = Machine.ctxOf s n := by rw [Machine.ctxOf, h.ctxs, Machine.ctxOf]

theorem chanState (c : Nat) : chanState t c = Machine.chanState s c :=
  h.rfld (by unfold rChan rCS; omega) (fun hw => by have := hw.2.1; unfold rChan rCS at this; omega) ..

theorem portState (p : Nat) : Machine.rfld t (rAK p 0) 0 2 = Machine.rfld s (rAK p 0) 0 2 :=
  h.rfld (by unfold rAK; omega) (fun hw => by have := hw.2; unfold rAK at this; omega) ..

theorem cistBad (j : Nat) : cistBad t j = Machine.cistBad s j := by
  rw [Machine.cistBad, cistOf, h.cists, ← cistOf, ← Machine.cistBad]

/-- R367. -/
theorem degraded (n : Nat) : degraded t n = Machine.degraded s n := by
  have hcist : Machine.cistBad t = Machine.cistBad s := funext h.cistBad
  simp only [Machine.degraded, h.ctxOf, h.chanState, h.portState, h.guests, hcist]

/-- R363. -/
theorem stalledJobs : stalledJobs t = Machine.stalledJobs s := by
  obtain ⟨hstalls, -⟩ := Prod.mk.inj h.stalls
  have key (s : State) : Machine.stalledJobs s = s.boot.stalls.filter fun e => (jobOf s e.1 e.2).any PumpJob.stalled := by
    rw [Machine.stalledJobs]
    congr 1
    funext e
    cases jobOf s e.1 e.2 <;> rfl
  simp only [key, hstalls, h.stalled]

theorem moduleLine : moduleLine t = Machine.moduleLine s := by
  obtain ⟨-, hevents⟩ := Prod.mk.inj h.stalls
  have hdeg : Machine.degraded t = Machine.degraded s := funext h.degraded
  have hhalt : ((List.range 64).map fun n => ctxState t n == 3) = (List.range 64).map fun n => ctxState s n == 3 :=
    List.map_congr_left fun n hn => by
      rw [ctxState, h.rfld_low (by rw [rFnCtx_eq]; omega) (by rw [rFnCtx_eq]; have := List.mem_range.mp hn; omega), ← ctxState]
  simp only [Machine.moduleLine, ready, reasons, stallCount, stallUnit, hdeg, hhalt, hevents, h.stalledJobs, h.step, h.rfld_low, h.rget64_low,
    Nat.reduceLT, Nat.reduceAdd]

theorem ringLine {n : Nat} (hn : n < 64) : ringLine t n = Machine.ringLine s n := by
  have hlow {o : Nat} (ho : o < 0x40) : 0x108 < rHC n o ∧ rHC n o + 4 < 0x1000000 := by unfold rHC; omega
  obtain ⟨h28, h28'⟩ := hlow (o := 0x28) (by decide)
  obtain ⟨h18, h18'⟩ := hlow (o := 0x18) (by decide)
  obtain ⟨h24, h24'⟩ := hlow (o := 0x24) (by decide)
  simp only [Machine.ringLine, h.hrings, h.rget64_low h28 h28', h.rget64_low h18 h18', h.rfld_low h24 (Nat.lt_of_add_right_lt h24')]

theorem ctxLine {n : Nat} (hn : n < 64) : ctxLine t n = Machine.ctxLine s n := by
  have hhigh : 0x108 < rFnCtx n := by rw [rFnCtx_eq]; omega
  have hlow : rFnCtx n < 0x1000000 := by rw [rFnCtx_eq]; omega
  simp only [Machine.ctxLine, ctxState, ctxGen, h.ctxOf, h.degraded, h.rfld_low hhigh hlow]

theorem fnByte {f : Nat} (hf : f < 256) : fnByte t f = Machine.fnByte s f := by
  rw [Machine.fnByte, h.rfld_low (by unfold rFnStat rFN; omega) (by unfold rFnStat rFN; omega), Machine.fnByte]

theorem somirWord {k : Nat} (hk : k < 4096) : somirWord t k = Machine.somirWord s k := by
  obtain ⟨hactive, hroles⟩ := Prod.mk.inj h.roles
  obtain ⟨hself, hroles⟩ := Prod.mk.inj hroles
  obtain ⟨hmaster, hdeputy⟩ := Prod.mk.inj hroles
  have hhigh : 0x108 < 0x202000 + 4 * k := by omega
  have hlow : 0x202000 + 4 * k < 0x1000000 := by omega
  simp only [Machine.somirWord, h.rfld_low hhigh hlow, h.values, h.csos, hactive, hself, hmaster, hdeputy]

/-- R378: every line of the window is the same. -/
theorem mirrorLine (k : Nat) : mirrorLine t k = Machine.mirrorLine s k := by
  unfold Machine.mirrorLine
  split_ifs with h0 hring hctx hfn hso
  · exact h.moduleLine
  · simp only [Bool.and_eq_true, decide_eq_true_eq] at hring
    exact h.ringLine (by omega)
  · simp only [Bool.and_eq_true, decide_eq_true_eq] at hctx
    exact h.ctxLine (by omega)
  · simp only [Bool.and_eq_true, decide_eq_true_eq] at hfn
    exact List.map_congr_left fun f hf => h.fnByte (by have := mem_span.mp hf; omega)
  · simp only [Bool.and_eq_true, decide_eq_true_eq] at hso
    simp only [List.flatMap]
    congr 1
    exact List.map_congr_left fun i hi => by rw [h.somirWord (by have := mem_span.mp hi; omega)]
  · rfl

end

end SameLines

/-! ## The state's own operations -/

/-- What a key reads as is held by the list, but for what an unlisted key reads as. -/
theorem any_of_fget {α : Type} {q : Nat × α → Bool} {d : α} {k : Nat} {m : FMap α} (hd : q (k, d) = false)
    (h : q (k, fget d k m) = true) : m.any q = true := by
  induction m with
  | nil => exact absurd (hd.symm.trans h) (by decide)
  | cons e r ih =>
    by_cases hk : k = e.1
    · have he : q e = true := by simpa [fget, fget?, hk] using h
      simp [he]
    · have hr : q (k, fget d k r) = true := by simpa [fget, fget?, hk] using h
      simp [ih hr]

/-- Where the new entry agrees in `q` with what its key read as, the list holds something in `q` as before. -/
theorem any_fset {α : Type} {q : Nat × α → Bool} {d v : α} {k : Nat} {m : FMap α} (hd : q (k, d) = false)
    (h : q (k, v) = q (k, fget d k m)) : (fset k v m).any q = m.any q := by
  induction m with
  | nil => simpa [fset, fget, hd] using h
  | cons e r ih =>
    by_cases hk : k = e.1
    · have he : q (k, v) = q e := by simpa [fget, fget?, hk] using h
      simp [fset, if_pos hk, he]
    · by_cases hlt : k < e.1
      · have hnew : q (k, v) = true → (e :: r).any q = true := fun hv => any_of_fget hd (h.symm.trans hv)
        rw [fset, if_neg hk, if_pos hlt, List.any_cons, Bool.or_eq_right_iff_imp]
        exact hnew
      · have hr : q (k, v) = q (k, fget d k r) := by simpa [fget, fget?, hk] using h
        simp [fset, hk, hlt, ih hr]

/-- Cores, memory and messages may change, where no core's guest does. -/
theorem SameLines.of_cores (s : State) (m : List Host.Cell) (p : List Nat) (o : List Msg) (k : Nat) {c : FMap CoreSt}
    (hg : ∀ q : Nat → Bool, (c.any fun e => e.2.guest.isSome && q e.1) = s.cores.any fun e => e.2.guest.isSome && q e.1) :
    SameLines s { s with cores := c, mem := m, wellPoison := p, out := o, freeCtr := k } :=
  ⟨fun _ _ _ => rfl, rfl, rfl, rfl, rfl, rfl, rfl, rfl, fun _ => rfl, fun _ _ => rfl, hg⟩

/-- A core written without a change of its guest. -/
theorem sameLines_putCore {s : State} {l : Nat} {c : CoreSt} (hc : c.guest = (coreOf s l).guest) : SameLines s (putCore s l c) :=
  SameLines.of_cores _ _ _ _ _ fun q => any_fset (d := {}) rfl (by rw [hc, coreOf])

theorem sameLines_putSlot (s : State) (u : StreamId) (x : SlotSt) : SameLines s (putSlot s u x) := sameLines_putCore rfl

theorem sameLines_setArch (s : State) (u : StreamId) (a : Arch) : SameLines s (setArch s u a) := sameLines_putSlot ..

theorem sameLines_emit (s : State) (m : Msg) : SameLines s (emit s m) := SameLines.of_cores _ _ _ _ _ fun _ => rfl

theorem sameLines_useFree (s : State) : SameLines s (useFree s) := SameLines.of_cores _ _ _ _ _ fun _ => rfl

/-- A register that holds errors of wells. -/
theorem sameLines_rput {o : Nat} (ho : wellErrPlace o) (s : State) (v : Nat) : SameLines s (rput s o v) :=
  have hne : 0x108 ≠ o := fun h => by have := ho.1; omega
  { SameLines.refl s with
    regs := fun k _ hk => rget_rput_ne (fun h => hk (by rwa [h])) s v
    step := by rw [Machine.rfld, rget_rput_ne hne, Machine.rfld] }

theorem sameLines_rcount {o : Nat} (ho : wellErrPlace o) (s : State) (n : Nat) : SameLines s (rcount s o n) := by
  unfold rcount
  split
  · exact .refl s
  · exact sameLines_rput ho ..

/-- Frames given to the ports change no line: the cascade's roles and objects stay. -/
theorem framed.sameLines {s t : State} (h : framed s t) : SameLines s t := by
  obtain ⟨_, _, _, _, rfl⟩ := h
  exact ⟨fun _ _ _ => rfl, rfl, rfl, rfl, rfl, rfl, rfl, rfl, fun _ => rfl, fun _ _ => rfl, fun _ => rfl⟩

/-! ## Wells (R164, R166, R178, R181) -/

theorem wellErrPlace_rTL (t : Nat) {o : Nat} (h1 : 0x3000 ≤ o) (h2 : o < 0x3010) : wellErrPlace (rTL t o) := by
  unfold wellErrPlace rTL
  omega

theorem sameLines_wellErr (s : State) (e : SymErr) : SameLines s (wellErr s e) := by
  have hmark (p : List Nat) : SameLines s { s with wellPoison := p } := SameLines.of_cores _ _ _ _ _ fun _ => rfl
  unfold wellErr
  split
  · split_ifs
    · exact .refl s
    · exact (hmark _).trans (sameLines_rcount (wellErrPlace_rTL _ (by decide) (by decide)) ..)
    · exact sameLines_rcount (wellErrPlace_rTL _ (by decide) (by decide)) ..
  · exact .refl s

theorem sameLines_wellErrs (s : State) (errs : List SymErr) (touch : Nat → Bool) : SameLines s (wellErrs s errs touch) := by
  refine (SameLines.foldl sameLines_wellErr _ s).trans (.foldl (fun t e => ?_) _ _)
  split
  · exact sameLines_rput (wellErrPlace_rTL _ (by decide) (by decide)) ..
  · exact .refl t

theorem sameLines_wellStore (s : State) (l : Nat) (bs : List (Nat × W8)) (errs : List SymErr) :
    SameLines s (wellStore s l bs errs) :=
  (sameLines_wellErrs s errs _).trans (SameLines.of_cores _ _ _ _ _ fun _ => any_fset (d := {}) rfl rfl)

theorem sameLines_gatherWrite (s : State) (l : Nat) (g : GLine) (errs : List SymErr) : SameLines s (gatherWrite s l g errs) :=
  (sameLines_putCore (c := { coreOf s l with gather := (coreOf s l).gather.filter fun x => x.off != g.off }) rfl).trans
    (sameLines_wellStore ..)

theorem sameLines_gatherFlush (s : State) (l : Nat) : SameLines s (gatherFlush s l) :=
  .foldl (fun s g => sameLines_gatherWrite s l g []) _ s

theorem sameLines_gatherPut (s : State) (l off : Nat) (bs : List (Nat × W8)) (errs : List SymErr) :
    SameLines s (gatherPut s l off bs errs) := by
  have hroom : SameLines s (match (coreOf s l).gather.find? fun g => g.off == off with
      | some _ => s
      | none => if (coreOf s l).gather.length < 16 then s else match (coreOf s l).gather with
        | g :: _ => gatherWrite s l g errs
        | [] => s) := by
    split
    · exact .refl s
    · split
      · exact .refl s
      · split
        · exact sameLines_gatherWrite ..
        · exact .refl s
  have hend (t : State) (c : CoreSt) (g : GLine) (b : Bool) (hc : c.guest = (coreOf t l).guest) :
      SameLines t (if b then gatherWrite (putCore t l c) l g errs else putCore t l c) := by
    split
    · exact (sameLines_putCore hc).trans (sameLines_gatherWrite ..)
    · exact sameLines_putCore hc
  exact hroom.trans (hend _ _ _ _ rfl)

theorem sameLines_wellPut (s : State) (l : Nat) (bs : List (Nat × W8)) (errs : List SymErr) : SameLines s (wellPut s l bs errs) :=
  (sameLines_wellStore ..).trans (.foldl (fun s _ => sameLines_gatherPut s l _ _ errs) _ _)

/-! ## Slots and their instructions -/

theorem sameLines_finish (s : State) (u : StreamId) : SameLines s (finish s u) := sameLines_putSlot ..

theorem sameLines_park (s : State) (u : StreamId) (w : Wait) : SameLines s (park s u w) := sameLines_putSlot ..

theorem sameLines_raiseFault (s : State) (u : StreamId) (status : Nat) : SameLines s (raiseFault s u status) :=
  (sameLines_putSlot ..).trans (sameLines_emit ..)

/-- What an instruction's action leaves of the lines: the same, whichever way it completes. -/
def Res.sameLines (s : State) : Res → Prop
  | .ok t | .jump t | .park t _ => SameLines s t
  | .fault _ | .wait _ => True

namespace Res.sameLines

variable {s : State} {p : Prop} [Decidable p] {r : Res}

theorem either {q : Res} (hq : q.sameLines s) (h : r.sameLines s) : (if p then q else r : Res).sameLines s := by
  split
  · exact hq
  · exact h

/-- An action behind a check that faults. -/
theorem orFault (h : r.sameLines s) {n : Nat} : (if p then .fault n else r : Res).sameLines s := either trivial h

/-- An action behind a check that waits. -/
theorem orWait (h : r.sameLines s) {w : Wait} : (if p then .wait w else r : Res).sameLines s := either trivial h

theorem fault {n : Nat} : (Res.fault n).sameLines s := trivial

section
variable {t : State} (h : SameLines s t)
include h

theorem ok : (Res.ok t).sameLines s := h
theorem jump : (Res.jump t).sameLines s := h
theorem park {w : Wait} : (Res.park t w).sameLines s := h

end

end Res.sameLines

theorem sameLines_settleRes {s : State} {r : Res} (h : r.sameLines s) (u : StreamId) : SameLines s (settleRes s u r) := by
  cases r with
  | ok t => exact h.trans (sameLines_finish ..)
  | jump t => exact h.trans (sameLines_putSlot ..)
  | fault st => exact sameLines_raiseFault ..
  | wait w => exact sameLines_park ..
  | park t w => exact h.trans (sameLines_park ..)

/-- R60: issuing an instruction changes no line that its action does not change. -/
theorem sameLines_issue {u : StreamId} {mu : MaskUse} {f : Fields} {refs : List RegRef} {body : State → Res} {s : State}
    (h : (body s).sameLines s) : SameLines s (issue u mu f refs body s) := by
  rcases issue_cases u mu f refs body s with he | he | he | he | he | he | he <;> rw [he]
  · exact .refl s
  · exact sameLines_raiseFault ..
  · exact sameLines_raiseFault ..
  · exact sameLines_raiseFault ..
  · exact sameLines_finish ..
  · exact sameLines_park ..
  · exact sameLines_settleRes h u

theorem sameLines_issueOver {u : StreamId} {mu : MaskUse} {f : Fields} {refs : List RegRef} {m : Vector W32 32} {body : State → Res}
    {s : State} (h : (body s).sameLines s) : SameLines s (issueOver u mu f refs m body s) := by
  unfold issueOver
  split
  · refine sameLines_issue ?_
    revert h
    cases body s with
    | ok t => exact fun h => SameLines.trans h (sameLines_putSlot ..)
    | _ => exact id
  · exact sameLines_issue h

theorem sameLines_issueArch (u : StreamId) (mu : MaskUse) (f : Fields) (refs : List RegRef) (ok : Bool) (g : Arch → Arch) (s : State) :
    SameLines s (issueArch u mu f refs ok g s) := by
  have hbody : (if ok then .ok (setArch s u (g (slotOf s u).arch)) else .fault 0x2002 : Res).sameLines s := by
    split
    · exact sameLines_setArch ..
    · trivial
  simp only [issueArch]
  split
  · exact sameLines_issue hbody
  · exact sameLines_issueOver hbody

/-! ## Instructions on the register image (R96, R97, R149 to R161) -/

section
variable (u : StreamId) (f : Fields) (s : State)

theorem sameLines_alu (g : W64 → W64 → W64) : SameLines s (alu u f g s) := sameLines_issueArch ..
theorem sameLines_aluDiv (g : W64 → W64 → W64) : SameLines s (aluDiv u f g s) := sameLines_issueArch ..
theorem sameLines_alu1 (g : W64 → W64) : SameLines s (alu1 u f g s) := sameLines_issueArch ..
theorem sameLines_vbin (ok : Bool) (g : W32 → W32 → W32 × FFlags) : SameLines s (vbin u f ok g s) := sameLines_issueArch ..
theorem sameLines_vbinI (m : Nat) (g : W32 → W32 → W32) : SameLines s (vbinI u f m g s) := sameLines_vbin ..
theorem sameLines_vun (ok : Bool) (g : W32 → W32 × FFlags) : SameLines s (vun u f ok g s) := sameLines_issueArch ..
theorem sameLines_vcmp (cond : Nat → W32 → W32 → Option Bool) : SameLines s (vcmp u f cond s) := sameLines_issueArch ..
theorem sameLines_issueKey (refs : List RegRef) (ok : Bool) (g : W64 → Arch → Arch) : SameLines s (issueKey u f refs ok g s) :=
  sameLines_issueArch ..
theorem sameLines_pbin (m : Nat) (g : W32 → W32 → W32) : SameLines s (pbin u f m g s) := sameLines_issueArch ..
theorem sameLines_reduce (ok : Bool) (g : Arch → Arch) : SameLines s (reduce u f ok g s) := sameLines_issueArch ..

end

/-! ## What the instructions do (R93 to R112, R130 to R135) -/

theorem sameLines_racqWBody (u : StreamId) (f : Fields) (s : State) : (racqWBody u f s).sameLines s := by
  have hgive {t : State} (ht : SameLines s t) (a : Arch) : (Res.ok (setArch t u a)).sameLines s := ht.trans (sameLines_setArch ..)
  unfold racqWBody
  split
  · trivial
  · next r _ =>
    cases r.acqW with
    | some i => exact hgive (.refl s) _
    | none =>
      dsimp only
      split
      · exact hgive (sameLines_putCore (by rfl)) _
      · trivial

theorem sameLines_racqRBody (u : StreamId) (f : Fields) (s : State) : (racqRBody u f s).sameLines s := by
  have hgive {t : State} (ht : SameLines s t) (a : Arch) : (Res.ok (setArch t u a)).sameLines s := ht.trans (sameLines_setArch ..)
  unfold racqRBody
  split
  · trivial
  · next r _ =>
    cases r.acqR with
    | some i => exact hgive (.refl s) _
    | none =>
      dsimp only
      split
      · exact hgive (sameLines_putCore (by rfl)) _
      · trivial

theorem sameLines_rrelWBody (u : StreamId) (f : Fields) (s : State) : (rrelWBody u f s).sameLines s := by
  unfold rrelWBody
  split
  · trivial
  · refine .orFault ?_
    split
    · exact sameLines_setArch ..
    · exact sameLines_putCore (by rfl)

theorem sameLines_rrelRBody (u : StreamId) (f : Fields) (s : State) : (rrelRBody u f s).sameLines s := by
  unfold rrelRBody
  split
  · trivial
  · refine .orFault ?_
    split
    · exact sameLines_setArch ..
    · exact sameLines_putCore (by rfl)

theorem sameLines_gate (s : State) (u : StreamId) (g : Gated) : (gate s u g).sameLines s := .orFault (.orWait (.ok (sameLines_putSlot ..)))

/-- R109: a wait that joins an object leaves its value. -/
theorem sameLines_sowBody (u : StreamId) (f : Fields) (s : State) : (sowBody u f s).sameLines s := by
  have hvalues (n : Nat) (l : List SoWait) (k : Nat) : (fget {} k (fset n { soOf s n with waits := l } s.sos)).v = (soOf s k).v := by
    by_cases hk : k = n
    · subst hk
      simp
    · simp [soOf, fget_fset_ne hk]
  have hwaits (n : Nat) (l : List SoWait) : SameLines s { s with sos := fset n { soOf s n with waits := l } s.sos } :=
    { SameLines.refl s with values := hvalues n l }
  simp only [sowBody]
  split
  · trivial
  · split
    · trivial
    · split
      · exact sameLines_setArch ..
      · exact hwaits ..

theorem sameLines_sosBody (u : StreamId) (f : Fields) (s : State) : (sosBody u f s).sameLines s := .orFault (.orFault (sameLines_gate ..))

theorem sameLines_sordBody (u : StreamId) (f : Fields) (s : State) : (sordBody u f s).sameLines s := by
  refine .orFault ?_
  split
  · trivial
  · exact sameLines_setArch ..

/-- R298: a request to the master changes the requests and the ports alone. -/
theorem sameLines_casAsk (s : State) (u : StreamId) (i kind : Nat) (dst : BitVec 5) (target : W64) :
    SameLines s (casAsk s u i kind dst target) := by
  have hreqs (r : List (Nat × StreamId × BitVec 5)) (k : Nat) : SameLines s { s with casc := { s.casc with reqCtr := k, reqs := r } } :=
    ⟨fun _ _ _ => rfl, rfl, rfl, rfl, rfl, rfl, rfl, rfl, fun _ => rfl, fun _ _ => rfl, fun _ => rfl⟩
  simp only [casAsk]
  split
  · exact .refl s
  · exact (hreqs _ _).trans (framed_sendFrame ..).sameLines

theorem sameLines_sowCBody (u : StreamId) (f : Fields) (s : State) : (sowCBody u f s).sameLines s := .orFault (.orFault (.orWait (.park (sameLines_casAsk ..))))

theorem sameLines_sosCBody (u : StreamId) (f : Fields) (s : State) : (sosCBody u f s).sameLines s := .orFault (.orFault (sameLines_gate ..))

theorem sameLines_sordCBody (u : StreamId) (f : Fields) (s : State) : (sordCBody u f s).sameLines s := .orFault (.orFault (.orWait (.park (sameLines_casAsk ..))))

/-- R111, R363: a descriptor joins its tile's queue without a stalled burst. -/
theorem sameLines_addJob (s : State) (t : Nat) {j : PumpJob} (hj : j.stalled = false) (k : Nat) :
    SameLines s (putTile s t { tileOf s t with jobs := (tileOf s t).jobs ++ [j], jobCtr := k }) := by
  refine { SameLines.refl s with stalled := fun unit id => ?_ }
  simp only [jobOf, jobsOf]
  split
  · by_cases ht : unit = t
    · subst ht
      rw [tileOf_putTile, List.find?_append]
      cases (tileOf s unit).jobs.find? fun j => j.id == id with
      | some x => rfl
      | none => by_cases hid : j.id = id <;> simp [hid, hj]
    · simp [tileOf, putTile, fget_fset_ne ht]
  · rfl

theorem sameLines_ppostBody (u : StreamId) (f : Fields) (s : State) : (ppostBody u f s).sameLines s :=
  .orFault (.orFault (.orFault (.orWait (.ok (sameLines_addJob s _ (by rfl) _)))))

theorem sameLines_closeBody (u : StreamId) (isDone : Bool) (s : State) : (closeBody u isDone s).sameLines s :=
  .orWait (.jump (((sameLines_useFree s).trans (sameLines_gatherFlush ..)).trans (sameLines_putCore (by rfl))))

theorem sameLines_cgetBody (u : StreamId) (f : Fields) (s : State) : (cgetBody u f s).sameLines s := by
  refine .orFault ?_
  split
  · trivial
  · exact sameLines_setArch ..

theorem sameLines_csetBody (u : StreamId) (f : Fields) (s : State) : (csetBody u f s).sameLines s :=
  .orFault (.either (.ok (sameLines_setArch ..)) (.either (.ok (sameLines_setArch ..)) .fault))

theorem sameLines_bnarBody (u : StreamId) (f : Fields) (s : State) : (bnarBody u f s).sameLines s := by
  refine .orFault ?_
  split
  · trivial
  · exact sameLines_setArch ..

theorem sameLines_bgetBody (u : StreamId) (f : Fields) (s : State) : (bgetBody u f s).sameLines s := .orFault (.ok (sameLines_setArch ..))

theorem sameLines_doStore (s : State) (u : StreamId) (bs : List (Nat × W8)) (scalar : Bool) (errs : List SymErr) :
    (doStore s u bs scalar errs).sameLines s := by
  unfold doStore
  split
  · unfold ownStore
    split
    · trivial
    · next s1 hlog =>
      have hs1 : SameLines s s1 := by
        simp only [undoLog] at hlog
        split at hlog
        · nomatch hlog
        · exact Option.some.inj hlog ▸ sameLines_putSlot ..
      split
      · exact hs1.trans (sameLines_wellStore ..)
      · exact hs1.trans (sameLines_wellPut ..)
  · exact sameLines_gate ..

theorem sameLines_stBody (u : StreamId) (f : Fields) (errs : List SymErr) (s : State) : (stBody u f errs s).sameLines s :=
  .orFault (.orFault (.orFault (sameLines_doStore ..)))

theorem sameLines_vstBody (u : StreamId) (f : Fields) (errs : List SymErr) (s : State) : (vstBody u f errs s).sameLines s := by
  refine .orFault ?_
  split
  · trivial
  · split
    · exact SameLines.refl s
    · exact sameLines_doStore ..

theorem sameLines_vscatterBody (u : StreamId) (f : Fields) (errs : List SymErr) (s : State) : (vscatterBody u f errs s).sameLines s := by
  refine .orFault ?_
  split
  · trivial
  · split
    · exact SameLines.refl s
    · exact sameLines_doStore ..

theorem sameLines_amoBody (u : StreamId) (f : Fields) (s : State) : (amoBody u f s).sameLines s := by
  unfold amoBody
  cases amoType? f with
  | none => trivial
  | some ty => exact .orFault (.orFault (.orFault (sameLines_gate ..)))

theorem sameLines_fenceBody (u : StreamId) (f : Fields) (s : State) : (fenceBody u f s).sameLines s := .orFault (.orWait (.ok (.refl s)))

theorem sameLines_noteTiles (s : State) (u : StreamId) (ks : List Nat) : SameLines s (noteTiles s u ks) := sameLines_putSlot ..

theorem sameLines_mclrBody (u : StreamId) (f : Fields) (s : State) : (mclrBody u f s).sameLines s :=
  .orFault (.orFault (.ok ((sameLines_putCore (by rfl)).trans (sameLines_noteTiles ..))))

theorem sameLines_mdrainBody (u : StreamId) (f : Fields) (g : Bool) (errs : List SymErr) (s : State) :
    (mdrainBody u f g errs s).sameLines s := by
  have hclr {t : State} (ht : SameLines s t) (b : Bool) (ks : List Nat) :
      (Res.ok (if b then noteTiles (putCore t u.lcid (clearTiles (coreOf t u.lcid) ks)) u ks else t)).sameLines s := by
    cases b with
    | true => exact (ht.trans (sameLines_putCore (by rfl))).trans (sameLines_noteTiles ..)
    | false => exact ht
  exact .orFault (.orFault (.orFault (.orFault (.orFault (hclr (sameLines_wellStore ..) _ _)))))

theorem sameLines_brBody (u : StreamId) (f : Fields) (s : State) : (brBody u f s).sameLines s := by
  unfold brBody
  dsimp only
  split
  · trivial
  · exact .orFault (.either (.ok (.refl s)) (.either (.jump (sameLines_setArch ..)) .fault))

theorem sameLines_loopBody (u : StreamId) (f : Fields) (vl : Bool) (s : State) : (loopBody u f vl s).sameLines s :=
  .orFault (.orFault (.orFault (.either (.jump (sameLines_setArch ..)) (.jump (sameLines_setArch ..)))))

/-! ## Idle cycles (R63, R425) -/

/-- R63: the cycles that count change no guest and no line. -/
theorem sameLines_coreTick (s : State) : SameLines s (coreTick s) := by
  have hguest (l : Nat) (c : CoreSt) : (if counting s l then c.tick else c).guest = c.guest := by split <;> rfl
  refine { SameLines.refl s with guests := fun q => ?_ }
  simp only [coreTick, fmapAll, List.any_map]
  congr 1
  funext e
  simp [hguest]

/-- A field of WH_BRING above the bring-up step. -/
theorem sameLines_rsetf_bring {lo : Nat} (h : 4 ≤ lo) (s : State) (w v : Nat) : SameLines s (rsetf s 0x108 lo w v) :=
  { SameLines.refl s with
    regs := fun _ ho _ => rget_rsetf_ne ho ..
    step := rfld_rsetf_apart s _ (by decide) (.inl h) v }

/-- R425: a failed step shows itself above the step reached. -/
theorem sameLines_stepFail (s : State) (status : Nat) : SameLines s (stepFail s status) :=
  (((sameLines_rsetf_bring (by decide) ..).trans (sameLines_rsetf_bring (by decide) ..)).trans
    (sameLines_rsetf_bring (by decide) ..)).trans (sameLines_rsetf_bring (by decide) ..)

theorem sameLines_lateStep (s : State) : SameLines s (lateStep s) := by
  rcases lateStep_eq s with h | h | ⟨h, -⟩ <;> rw [h]
  · exact .refl s
  · exact { SameLines.refl s with }
  · exact sameLines_stepFail ..

end Sys2Proof.Machine
end

section
/-! PROOFS. Cached lines of the mirror window: O58, O31. -/

namespace Sys2Proof.Machine

/-- Every command shows what its effect changes, or is an instruction of a core, which changes no line. -/
theorem exec_shows_or_sameLines (c : Instr) (s : State) :
    (∃ t, exec c s = .next (publish s t)) ∨ ∃ t, exec c s = .next t ∧ SameLines s t := by
  cases c
  case nop | movhi | vfmaF32 | vsel | vbcast | vext | vins | vperm | vshuf | vcompress | vexpand | pmov | setvl | rargmaxF32 | rmcnt |
      rmfirst | rscale =>
    exact .inr ⟨_, rfl, sameLines_issueArch ..⟩
  case add | sub | and | or | xor | shl | shr | sra | slt | sltu | min | max | minu | maxu | mul | mulh | mulhu =>
    exact .inr ⟨_, rfl, sameLines_alu ..⟩
  case div | divu | rem | remu => exact .inr ⟨_, rfl, sameLines_aluDiv ..⟩
  case pop | clz => exact .inr ⟨_, rfl, sameLines_alu1 ..⟩
  case vaddF32 | vsubF32 | vmulF32 => exact .inr ⟨_, rfl, sameLines_vbin ..⟩
  case vminF32 | vmaxF32 | vcsgn | vaddI32 | vsubI32 | vmulI32 | vand | vor | vxor | vandn | vshl | vshr | vsra | vminI32 | vmaxI32 |
      vminu | vmaxu =>
    exact .inr ⟨_, rfl, sameLines_vbinI ..⟩
  case vabs | vneg | vfn => exact .inr ⟨_, rfl, sameLines_vun ..⟩
  case vcmpF32 | vcmpI32 => exact .inr ⟨_, rfl, sameLines_vcmp ..⟩
  case vcvt | vquant => exact .inr ⟨_, rfl, sameLines_issueKey ..⟩
  case pand | por | pxor | pandn => exact .inr ⟨_, rfl, sameLines_pbin ..⟩
  case rsumF32 | rmaxF32 | rminF32 | rsumI32 => exact .inr ⟨_, rfl, sameLines_reduce ..⟩
  case racqW => exact .inr ⟨_, rfl, sameLines_issue (sameLines_racqWBody ..)⟩
  case racqR => exact .inr ⟨_, rfl, sameLines_issue (sameLines_racqRBody ..)⟩
  case rrelW => exact .inr ⟨_, rfl, sameLines_issue (sameLines_rrelWBody ..)⟩
  case rrelR => exact .inr ⟨_, rfl, sameLines_issue (sameLines_rrelRBody ..)⟩
  case sow => exact .inr ⟨_, rfl, sameLines_issue (sameLines_sowBody ..)⟩
  case sos => exact .inr ⟨_, rfl, sameLines_issue (sameLines_sosBody ..)⟩
  case sord => exact .inr ⟨_, rfl, sameLines_issue (sameLines_sordBody ..)⟩
  case sowC => exact .inr ⟨_, rfl, sameLines_issue (sameLines_sowCBody ..)⟩
  case sosC => exact .inr ⟨_, rfl, sameLines_issue (sameLines_sosCBody ..)⟩
  case sordC => exact .inr ⟨_, rfl, sameLines_issue (sameLines_sordCBody ..)⟩
  case ppost => exact .inr ⟨_, rfl, sameLines_issue (sameLines_ppostBody ..)⟩
  case cget => exact .inr ⟨_, rfl, sameLines_issue (sameLines_cgetBody ..)⟩
  case cset => exact .inr ⟨_, rfl, sameLines_issue (sameLines_csetBody ..)⟩
  case bnar => exact .inr ⟨_, rfl, sameLines_issue (sameLines_bnarBody ..)⟩
  case bget => exact .inr ⟨_, rfl, sameLines_issue (sameLines_bgetBody ..)⟩
  case st => exact .inr ⟨_, rfl, sameLines_issue (sameLines_stBody ..)⟩
  case vst => exact .inr ⟨_, rfl, sameLines_issue (sameLines_vstBody ..)⟩
  case fence => exact .inr ⟨_, rfl, sameLines_issue (sameLines_fenceBody ..)⟩
  case vscatter => exact .inr ⟨_, rfl, sameLines_issue (sameLines_vscatterBody ..)⟩
  case mclr => exact .inr ⟨_, rfl, sameLines_issue (sameLines_mclrBody ..)⟩
  case amoadd => exact .inr ⟨_, rfl, sameLines_issue (sameLines_amoBody ..)⟩
  case mdrain | mdrainG => exact .inr ⟨_, rfl, sameLines_issue (sameLines_mdrainBody ..)⟩
  case brCond => exact .inr ⟨_, rfl, sameLines_issue (sameLines_brBody ..)⟩
  case loop | loopVl => exact .inr ⟨_, rfl, sameLines_issue (sameLines_loopBody ..)⟩
  case jal => exact .inr ⟨_, rfl, sameLines_issue (.orFault (.either (.jump (sameLines_setArch ..)) .fault))⟩
  case jalr => exact .inr ⟨_, rfl, sameLines_issue (.orFault (.orFault (.orFault (.jump (sameLines_setArch ..)))))⟩
  case stitch | done => exact .inr ⟨_, rfl, sameLines_issue (.orFault (sameLines_closeBody ..))⟩
  all_goals exact .inl ⟨_, rfl⟩

/-- R379: what showing a change adds to the outstanding snoops: the cached lines that changed. -/
theorem mem_snoops_publish (s t : State) (k : Nat) :
    k ∈ (publish s t).snoops ↔ k ∈ t.snoops ∨ (k ∈ t.presence ∧ mirrorLine s k ≠ mirrorLine t k) := by
  by_cases hk : k ∈ t.snoops <;> simp [publish, hk]

end Sys2Proof.Machine

namespace Sys2Proof.Proofs

open Sys2Proof.Machine

/-- Settles O58: a command either shows its change, with a snoop for every cached line that changed (`mem_snoops_publish`), or is an
instruction of a core, which reaches nothing that the lines read (`exec_shows_or_sameLines`); nor does an idle cycle. -/
theorem quietMirrorLinesAreStable : Obligations.QuietMirrorLinesAreStable := by
  unfold Obligations.QuietMirrorLinesAreStable
  intro s t hstep k _ _ hk hq
  unfold step at hstep
  split at hstep
  · obtain rfl := Host.Outcome.next.inj hstep
    exact ((sameLines_coreTick s).trans (sameLines_lateStep _)).mirrorLine k
  · next c rest _ =>
    have hrest : mirrorLine { s with pending := rest } k = mirrorLine s k := rfl
    rcases exec_shows_or_sameLines c { s with pending := rest } with ⟨u, he⟩ | ⟨u, he, hsame⟩
    · obtain rfl := Host.Outcome.next.inj (he.symm.trans hstep)
      rw [mem_snoops_publish, not_or, not_and_not_right] at hq
      exact (hq.2 hk).symm
    · obtain rfl := Host.Outcome.next.inj (he.symm.trans hstep)
      exact hsame.mirrorLine k

/-- Settles O31: the snoops by `mem_snoops_publish`, the messages by the parts of `publish`. -/
theorem whatACommandShows : Obligations.WhatACommandShows := by
  unfold Obligations.WhatACommandShows
  intro s t p
  have hout : ∃ more, p.out = t.out ++ more := ⟨_, (List.append_assoc ..).trans (List.append_assoc ..)⟩
  refine ⟨rfl, hout, mem_snoops_publish s t, fun k hk hno => ?_, fun hl hr hy => ?_, fun hr => ⟨?_, fun hm => ?_⟩⟩
  · have hnew : k ∈ t.presence ∧ mirrorLine s k ≠ mirrorLine t k := ((mem_snoops_publish s t k).mp hk).resolve_left hno
    simp [p, publish, hno, hnew]
  · have hnone : (t.presence.filter fun k => !(t.snoops.contains k) && mirrorLine s k != mirrorLine t k) = [] :=
      List.filter_eq_nil_iff.mpr fun k hk => by simp [hl k hk]
    simp only [p, publish, hnone, hr, hy]
    simp [ninsAll]
  · simp [p, publish, hr]
  · simp [p, publish, hr, hm]

end Sys2Proof.Proofs
end

section
/-! PROOFS. Functions and the panels' changes of mode: O44. -/

namespace Sys2Proof.Machine

/-! ## What the work of a function leaves of it -/

/-- `t` has the memory, the cores and the functions' requests of `s`, and its registers below those of the host link, among them the
functions' (Table 13.11). -/
structure FnsKept (s t : State) : Prop where
  mem : t.mem = s.mem
  cores : t.cores = s.cores
  fns : t.fns = s.fns
  low : ∀ o < 0x200000, rget t o = rget s o

namespace FnsKept

theorem refl (s : State) : FnsKept s s := ⟨rfl, rfl, rfl, fun _ _ => rfl⟩

theorem trans {s t r : State} (h1 : FnsKept s t) (h2 : FnsKept t r) : FnsKept s r :=
  ⟨h2.mem.trans h1.mem, h2.cores.trans h1.cores, h2.fns.trans h1.fns, fun o ho => (h2.low o ho).trans (h1.low o ho)⟩

theorem foldl {α : Type} {f : State → α → State} (hf : ∀ s a, FnsKept s (f s a)) (l : List α) (s : State) :
    FnsKept s (l.foldl f s) :=
  List.foldlRecOn l f (refl s) fun t ht a _ => ht.trans (hf t a)

theorem rfld {s t : State} (h : FnsKept s t) {f : Nat} (hf : f < 192) (lo w : Nat) :
    rfld t (rFnStat f) lo w = Machine.rfld s (rFnStat f) lo w := by
  rw [Machine.rfld, h.low _ (rFnStat_low hf), Machine.rfld]

theorem fnState {s t : State} (h : FnsKept s t) {f : Nat} (hf : f < 192) : fnState t f = Machine.fnState s f := h.rfld hf 0 2

theorem fnOf {s t : State} (h : FnsKept s t) (f : Nat) : fnOf t f = Machine.fnOf s f := by
  rw [Machine.fnOf, h.fns, Machine.fnOf]

end FnsKept

theorem fnsKept_rsetf {o : Nat} (h : 0x200000 ≤ o) (s : State) (lo w v : Nat) : FnsKept s (rsetf s o lo w v) :=
  ⟨rfl, rfl, rfl, fun _ hk => rget_rsetf_ne (by omega) ..⟩

theorem fnsKept_rsetf_rAK (s : State) (n lo w v : Nat) : FnsKept s (rsetf s (rAK n 0) lo w v) :=
  fnsKept_rsetf (by unfold rAK; omega) ..

theorem framed.fnsKept {s t : State} (h : framed s t) : FnsKept s t := by
  obtain ⟨_, _, _, _, rfl⟩ := h
  exact ⟨rfl, rfl, rfl, fun _ _ => rfl⟩

theorem fnsKept_casAsk (s : State) (u : StreamId) (i kind : Nat) (dst : BitVec 5) (target : W64) :
    FnsKept s (casAsk s u i kind dst target) := by
  have hreqs (r : List (Nat × StreamId × BitVec 5)) (k : Nat) : FnsKept s { s with casc := { s.casc with reqCtr := k, reqs := r } } :=
    ⟨rfl, rfl, rfl, fun _ _ => rfl⟩
  simp only [casAsk]
  split
  · exact .refl s
  · exact (hreqs _ _).trans (framed_sendFrame ..).fnsKept

theorem fnsKept_modCasc (s : State) (g : Casc → Casc) : FnsKept s (modCasc s g) := ⟨rfl, rfl, rfl, fun _ _ => rfl⟩

/-- R115, R298: what waits asks the master. -/
theorem fnsKept_askWaiting (s : State) : FnsKept s (askWaiting s) := by
  refine ((fnsKept_modCasc ..).trans (.foldl (fun s u => ?_) ..)).trans (.foldl (fun s e => fnsKept_casAsk ..) ..)
  split
  · exact fnsKept_casAsk ..
  · exact fnsKept_casAsk ..
  · exact .refl s

/-- R295: settings, the groups of the ports, and HELLO. -/
theorem fnsKept_cascadeStart (s : State) (d : List W8) : FnsKept s (cascadeStart s d) := by
  have hset (c : Casc) : FnsKept s { s with casc := c } := ⟨rfl, rfl, rfl, fun _ _ => rfl⟩
  refine ((hset _).trans (.foldl (fun s n => ?_) ..)).trans (.foldl (fun s m => (framed_sendFrame ..).fnsKept) ..)
  split
  · exact .refl s
  · exact fnsKept_rsetf_rAK ..

theorem fnsKept_startWork (s : State) (f : Nat) : FnsKept s (startWork s f) := by
  unfold startWork
  split
  · exact fnsKept_cascadeStart ..
  · refine .foldl (fun s n => ?_) _ s
    split
    · exact fnsKept_rsetf_rAK ..
    · exact .refl s
  · exact .refl s

theorem fnsKept_stopWork (s : State) (f : Nat) : FnsKept s (stopWork s f) := by
  unfold stopWork
  split
  · exact ⟨rfl, rfl, rfl, fun _ _ => rfl⟩
  · exact .refl s

theorem fnsKept_onWork (s : State) (f : Nat) : FnsKept s (onWork s f) := by
  unfold onWork
  split
  · exact (fnsKept_modCasc ..).trans (fnsKept_askWaiting _)
  · refine .foldl (fun s c => ?_) _ s
    split
    · exact fnsKept_rsetf (by unfold rChan rCS; omega) ..
    · exact .refl s
  · exact ⟨rfl, rfl, rfl, fun _ _ => rfl⟩
  · refine .foldl (fun s n => ?_) _ s
    split
    · exact fnsKept_rsetf_rAK ..
    · exact .refl s
  · exact .refl s

theorem fnsKept_offWork (s : State) (f : Nat) : FnsKept s (offWork s f) := by
  unfold offWork
  split
  · exact fnsKept_modCasc ..
  · refine .foldl (fun s n => ?_) _ s
    split
    · exact .refl s
    · exact (fnsKept_rsetf_rAK ..).trans ⟨rfl, rfl, rfl, fun _ _ => rfl⟩
  · exact .refl s

/-! ## Requests and states (R334, R336) -/

@[simp] theorem retireFns_nil (s : State) (status : Nat) : retireFns s [] status = s := rfl

@[simp] theorem fnOf_setFnState (s : State) (f g v : Nat) : fnOf (setFnState s f v) g = fnOf s g := rfl

@[simp] theorem fnOf_putFn (s : State) (f : Nat) (x : FnSt) : fnOf (putFn s f x) f = x := fget_fset_same ..

theorem fnState_setFnState (s : State) (f v : Nat) : fnState (setFnState s f v) f = v % 4 := rfld_rsetf_same _ _ (by decide) v

theorem startReq_off {s : State} {f : Nat} (h : fnState s f = 0) (q : FnReq) : startReq s f q = beginStart s f q := by
  simp only [startReq, h]

theorem startReq_on {s : State} {f : Nat} (h : fnState s f = 2) (q : FnReq) : startReq s f q = retireFns s q.entry.toList 0 := by
  simp only [startReq, h]

theorem stopReq_off {s : State} {f : Nat} (h : fnState s f = 0) (e : Option (Nat × Nat)) :
    stopReq s f e = retireFns s e.toList 0 := by
  simp only [stopReq, h]

theorem beginStart_frame (s : State) (f : Nat) : (beginStart s f {}).mem = s.mem ∧ (beginStart s f {}).cores = s.cores :=
  have hkept := fnsKept_startWork (putFn (setFnState (copySettings s f []) f 1) f { startE := [] }) f
  ⟨hkept.mem, hkept.cores⟩

/-- R337: a start that fails without an entry shows its status. -/
theorem failStart_spec {s : State} {f : Nat} (he : (fnOf s f).startE = []) {st : Nat} (hst : st < 2 ^ 16) :
    fnState (failStart s f st) f = 3 ∧ rfld (failStart s f st) (rFnStat f) 4 1 = 1 ∧ rfld (failStart s f st) (rFnStat f) 16 16 = st ∧
    (failStart s f st).mem = s.mem ∧ (failStart s f st).cores = s.cores := by
  simp only [failStart, he, retireFns_nil]
  refine ⟨?_, ?_, ?_, by simp [setFnState, putFn], by simp [setFnState, putFn]⟩
  · rw [fnState, rfld_rsetf_apart _ _ (by decide) (by decide), rfld_rsetf_apart _ _ (by decide) (by decide)]
    exact fnState_setFnState ..
  · rw [rfld_rsetf_apart _ _ (by decide) (by decide)]
    exact rfld_rsetf_same _ _ (by decide) 1
  · exact (rfld_rsetf_same _ _ (by decide) st).trans (Nat.mod_eq_of_lt hst)

section
variable {s : State} {f : Nat} (hf : f < 192)
include hf

/-- R334: a function that starts is STARTING for the entry of the request. -/
theorem beginStart_spec (q : FnReq) : fnState (beginStart s f q) f = 1 ∧ (fnOf (beginStart s f q) f).startE = q.entry.toList := by
  have hpend : fnState (putFn (setFnState (copySettings s f q.settings) f 1) f { startE := q.entry.toList }) f = 1 := by
    have hne : rFnStat f ≠ rFN (0x800 + 4 * (f / 32)) := by unfold rFnStat rFN; omega
    rw [putFn, fnState, rfld_rsetf_ne hne, rfld_rsetf_apart _ _ (by decide) (by decide)]
    exact fnState_setFnState ..
  have hkept := fnsKept_startWork (putFn (setFnState (copySettings s f q.settings) f 1) f { startE := q.entry.toList }) f
  exact ⟨(hkept.fnState hf).trans hpend, by rw [beginStart, hkept.fnOf, fnOf_putFn]⟩

/-- R334: a function that stops is STOPPING for the entry of the request. -/
theorem stopReq_on (h : fnState s f = 2) (e : Option (Nat × Nat)) : fnState (stopReq s f e) f = 3 ∧
    (fnOf (stopReq s f e) f).stopE = e.toList ∧ (fnOf (stopReq s f e) f).asked = true := by
  have hkept := fnsKept_stopWork (setFnState (putFn s f { stopE := e.toList, asked := true }) f 3) f
  have heq : stopReq s f e = stopWork (setFnState (putFn s f { stopE := e.toList, asked := true }) f 3) f := by
    simp only [stopReq, h]
  rw [heq, hkept.fnState hf, hkept.fnOf, fnOf_setFnState, fnOf_putFn]
  exact ⟨fnState_setFnState .., rfl, rfl⟩

/-- R334, R337: a start without an entry that completes. -/
theorem reachOn_spec (he : (fnOf s f).startE = []) : fnState (reachOn s f) f = 2 ∧ rfld (reachOn s f) (rFnStat f) 16 16 = 0 ∧
    (reachOn s f).mem = s.mem ∧ (reachOn s f).cores = s.cores := by
  have hkept := fnsKept_onWork (setFnState (putFn s f {}) f 2) f
  simp only [reachOn, he, retireFns_nil]
  refine ⟨?_, rfld_rsetf_same _ _ (by decide) 0, hkept.mem, hkept.cores⟩
  rw [fnState, rfld_rsetf_apart _ _ (by decide) (by decide), hkept.rfld hf]
  exact fnState_setFnState ..

/-- R334: a stop that completes with nothing pending. -/
theorem stopComplete_spec (h : fnState s f = 3) (hd : stopDone s f = true) (hp : (fnOf s f).pend = none) (he : (fnOf s f).stopE = []) :
    fnState (stopComplete f s) f = 0 ∧ (stopComplete f s).mem = s.mem ∧ (stopComplete f s).cores = s.cores := by
  have hkept := fnsKept_offWork (setFnState (putFn s f {}) f 0) f
  have heq : stopComplete f s = if (fnOf s f).asked then rsetf (offWork (setFnState (putFn s f {}) f 0) f) (rFnStat f) 16 16 0
      else offWork (setFnState (putFn s f {}) f 0) f := by
    simp [stopComplete, h, hd, hp, he]
  have hoff : fnState (offWork (setFnState (putFn s f {}) f 0) f) f = 0 := (hkept.fnState hf).trans (fnState_setFnState ..)
  rw [heq]
  split
  · exact ⟨(rfld_rsetf_apart _ _ (by decide) (by decide) 0).trans hoff, hkept.mem, hkept.cores⟩
  · exact ⟨hoff, hkept.mem, hkept.cores⟩

end

/-- R17: statuses have 16 bits. -/
theorem failStatus_lt {st : Nat} (h : failStatus st = true) : st < 2 ^ 16 := by
  simp only [failStatus, Bool.or_eq_true, Bool.and_eq_true, decide_eq_true_eq, beq_iff_eq] at h
  omega

/-! ## `fn` entries (R337) -/

/-- An entry that is put is the one found. -/
theorem entryOf_putEntry {s : State} {r q : Nat} {e x : Entry} (h : entryOf s r q = some e) (hr : x.ring = e.ring) (hq : x.seq = e.seq) :
    entryOf (putEntry s x) r q = some x := by
  have hkey := List.find?_some h
  have hsame : (fun y : Entry => y.ring == r && y.seq == q) ∘ (fun y => if y.ring == x.ring && y.seq == x.seq then x else y) =
      fun y => y.ring == r && y.seq == q := by
    funext y
    simp only [Bool.and_eq_true, beq_iff_eq] at hkey
    simp only [Function.comp_apply]
    split
    · next hy =>
      simp only [Bool.and_eq_true, beq_iff_eq] at hy
      simp [hy, hr, hq, hkey]
    · rfl
  unfold entryOf at h ⊢
  rw [putEntry, List.find?_map, hsame, h]
  simp [hr, hq]

theorem entryOf_of_mayBegin {s : State} {r q op : Nat} {e : Entry} (h : mayBegin s r q op = some e) : entryOf s r q = some e := by
  unfold mayBegin at h
  split at h
  · next e' he =>
    split at h
    · rwa [Option.some.inj h] at he
    · nomatch h
  · nomatch h

section
variable {s : State} {ring seq : Nat} {e : Entry} (he : mayBegin s ring seq 0xE5 = some e)
include he

/-- R337: the entry waits, and its request is made. -/
theorem fnEntry_start (h : e.imm = 1) : fnEntry ring seq 1 s =
    startReq (putEntry s { e with phase := .waiting }) e.a.toNat ⟨some (ring, seq), e.copy1⟩ := by
  simp [fnEntry, he, h]

theorem fnEntry_stop (h : e.imm = 0) : fnEntry ring seq 0 s =
    stopReq (putEntry s { e with phase := .waiting }) e.a.toNat (some (ring, seq)) := by
  simp [fnEntry, he, h]

/-- R337: an entry whose function is there already retires. -/
theorem retireFns_waiting : retireFns (putEntry s { e with phase := .waiting }) [(ring, seq)] 0 =
    retire (putEntry s { e with phase := .waiting }) { e with phase := .waiting } {} := by
  have hfind := entryOf_putEntry (x := { e with phase := .waiting }) (entryOf_of_mayBegin he) rfl rfl
  simp [retireFns, hfind]

end

theorem fnEntry_none {s : State} {ring seq : Nat} (h : mayBegin s ring seq 0xE5 = none) (act : Nat) : fnEntry ring seq act s = s := by
  simp only [fnEntry, h]

/-! ## Panels (R404 to R406) -/

/-- A mode is one bit. -/
theorem panelGoal_lt (s : State) (p : Nat) : panelGoal s p < 2 := by
  unfold panelGoal
  split_ifs
  · decide
  · exact Nat.mod_lt _ (by decide)
  · exact bitsAt_lt _ 0 1

section
variable {s : State} {p : Nat} (hp : p < 2)
include hp

theorem panelChange_rampDown (hr : s.boot.rampDown.contains p = true) :
    panelChange p s = { s with boot := { s.boot with rampDown := ndelAll [p] s.boot.rampDown } } :=
  (if_neg (by omega)).trans (if_pos hr)

variable (hr : s.boot.rampDown.contains p = false)
include hr

theorem panelChange_hold (hh : s.boot.hold.contains p = true) : panelChange p s =
    rsetf { s with boot := { s.boot with hold := ndelAll [p] s.boot.hold } } (rPanel p) 0 1 (panelGoal s p) :=
  (if_neg (by omega)).trans ((if_neg (ne_true_of_eq_false hr)).trans (if_pos hh))

/-- R405: where no change runs, the goal says whether one begins. -/
theorem panelChange_idle (hh : s.boot.hold.contains p = false) : panelChange p s =
    if panelGoal s p == rfld s (rPanel p) 0 1 then s
    else if panelGoal s p == 0 then { s with boot := { s.boot with hold := nins p s.boot.hold } }
    else rsetf { s with boot := { s.boot with rampDown := nins p s.boot.rampDown } } (rPanel p) 0 1 1 :=
  (if_neg (by omega)).trans ((if_neg (ne_true_of_eq_false hr)).trans (if_neg (ne_true_of_eq_false hh)))

end

end Sys2Proof.Machine

namespace Sys2Proof.Proofs

open Sys2Proof.Machine

/-- Settles O44: requests by what `beginStart` and `stopReq` leave, ends by `reachOn_spec`, `failStart_spec` and `stopComplete_spec`; a
panel's change by the branches of `panelChange`. -/
theorem functionStates : Obligations.FunctionStates := by
  unfold Obligations.FunctionStates
  intro s f w st ring seq v e hf hk
  have hin (w : Nat) (hw : w < 64) : ¬(255 < f || 63 < w) = true := by simp; omega
  refine ⟨fun hw => ⟨fun h0 => ?_, fun h0 => ?_⟩, fun hr => ⟨?_, ?_⟩, fun hr hd => ⟨fun h0 => ?_, fun h2 => ?_⟩,
    fun hr hd => ⟨fun h2 => ?_, fun h0 => ?_⟩, ?entry, fun hn => ⟨shown_eq (fnEntry_none hn 1), shown_eq (fnEntry_none hn 0)⟩,
    fun h1 => ⟨?_, ?_⟩, fun hst => ?_, ?fails, ?completes, fun h1 hs hd => ?_, ?stops, fun h3 => ?_, ?panels⟩
  · exact shown_eq ((if_neg (hin w hw)).trans (if_pos (by simp [h0])))
  · exact shown_eq ((if_neg (hin w hw)).trans (if_neg (by simp [h0])))
  · exact shown_eq (if_pos (by simp [hr]))
  · exact shown_eq (if_pos (by simp [hr]))
  · obtain ⟨hst, hen⟩ := beginStart_spec (s := s) hf {}
    exact ⟨beginStart s f {}, shown_eq (by simp [fnCtrl, hr, hk, hd, startReq_off h0]), hst, hen, beginStart_frame s f⟩
  · exact shown_eq (by simp [fnCtrl, startReq_on h2])
  · obtain ⟨hst, -, hask⟩ := stopReq_on hf h2 none
    exact ⟨stopReq s f none, shown_eq (by simp [fnCtrl, hr, hk, hd]), hst, hask⟩
  · exact shown_eq (by simp [fnCtrl, stopReq_off h0])
  case entry =>
    rintro he rfl waiting
    refine ⟨fun hi h2 => ?_, fun hi h0 => ?_, fun hi h0 => ?_, fun hi h2 => ?_⟩
    · exact shown_eq ((fnEntry_start he hi).trans ((startReq_on (s := putEntry s waiting) h2 _).trans (retireFns_waiting he)))
    · exact ⟨_, shown_eq ((fnEntry_start he hi).trans (startReq_off (s := putEntry s waiting) h0 _)), beginStart_spec hf _⟩
    · exact shown_eq ((fnEntry_stop he hi).trans ((stopReq_off (s := putEntry s waiting) h0 _).trans (retireFns_waiting he)))
    · obtain ⟨hst, hen, -⟩ := stopReq_on (s := putEntry s waiting) hf h2 (some (ring, seq))
      exact ⟨_, shown_eq (fnEntry_stop he hi), hst, hen⟩
  · exact shown_eq (if_pos (by simp [h1]))
  · exact shown_eq (if_neg (by simp [h1]))
  · exact shown_eq (if_neg (by simp [hst]))
  case fails =>
    intro h1 hst he
    exact ⟨failStart s f st, shown_eq (if_pos (by simp [h1, hst])), failStart_spec he (failStatus_lt hst)⟩
  case completes =>
    intro h1 hs hd he
    exact ⟨reachOn s f, shown_eq (by simp [startComplete, h1, hs, hd]), reachOn_spec hf he⟩
  · exact shown_eq (by simp [startComplete, h1, hs, hd])
  case stops =>
    intro h3 hd hp he
    exact ⟨_, rfl, stopComplete_spec hf h3 hd hp he⟩
  · exact shown_eq (if_pos (by simp [h3]))
  case panels =>
    intro k hk2 mode
    refine ⟨fun hr hh => ⟨fun hg => ?_, fun hm hg => ?_, fun hm hg => ?_⟩, fun hr hh => ?_, fun hr => ?_⟩
    · exact shown_eq ((panelChange_idle hk2 hr hh).trans (if_pos (beq_iff_eq.mpr hg)))
    · have hne : ¬(panelGoal s k == rfld s (rPanel k) 0 1) = true := by rw [hg]; exact fun h => by simp [mode, ← beq_iff_eq.mp h] at hm
      exact shown_eq ((panelChange_idle hk2 hr hh).trans ((if_neg hne).trans (if_pos (beq_iff_eq.mpr hg))))
    · have hne : ¬(panelGoal s k == rfld s (rPanel k) 0 1) = true := by rw [hg]; exact fun h => by simp [mode, ← beq_iff_eq.mp h] at hm
      have hzero : ¬(panelGoal s k == 0) = true := by simp [hg]
      exact ⟨_, shown_eq ((panelChange_idle hk2 hr hh).trans ((if_neg hne).trans (if_neg hzero))), rfld_rsetf_same _ _ (by decide) 1,
        mem_nins.mpr (.inl rfl), rfl, rfl⟩
    · refine ⟨_, shown_eq (panelChange_hold hk2 hr hh), ?_, ?_, rfl, rfl⟩
      · exact (rfld_rsetf_same _ _ (by decide) _).trans (Nat.mod_eq_of_lt (panelGoal_lt s k))
      · simp [ndelAll]
    · exact shown_eq (panelChange_rampDown hk2 hr)

end Sys2Proof.Proofs
end

section
/-! SUPPORT. Which operations keep the cascade's state: all that the loss of a module's provisional data sets off keeps its members, its
roles and its step (R296 to R298, R307). -/

namespace Sys2Proof.Machine

/-- `t` has the cascade's state of `s`, but for the numbers of frames sent and the requests at the master. -/
def crewKept (s t : State) : Prop := ∃ d r k, t.casc = { s.casc with dtx := d, reqs := r, reqCtr := k }

/-- R296, R297: term, master, and the modules lost or left. -/
def ranks (s : State) : Nat × Nat × List Nat × List Nat := (s.casc.term, s.casc.master, s.casc.lost, s.casc.leftMods)

namespace crewKept

theorem of_casc {s t : State} (h : t.casc = s.casc) : crewKept s t := ⟨_, _, _, h⟩

theorem refl (s : State) : crewKept s s := of_casc rfl

theorem trans {s t r : State} (h1 : crewKept s t) (h2 : crewKept t r) : crewKept s r := by
  obtain ⟨_, _, _, h1⟩ := h1
  obtain ⟨d, q, k, h2⟩ := h2
  exact ⟨d, q, k, by rw [h2, h1]⟩

theorem foldl {α : Type} {f : State → α → State} (hf : ∀ s a, crewKept s (f s a)) (l : List α) (s : State) :
    crewKept s (l.foldl f s) :=
  List.foldlRecOn l f (refl s) fun t ht a _ => ht.trans (hf t a)

section
variable {s t : State} (h : crewKept s t)
include h

theorem ranks : ranks t = Machine.ranks s := by obtain ⟨_, _, _, h⟩ := h; rw [Machine.ranks, h, Machine.ranks]
theorem total : t.casc.total = s.casc.total := by obtain ⟨_, _, _, h⟩ := h; rw [h]; rfl

end

end crewKept

theorem framed.crewKept {s t : State} (h : framed s t) : crewKept s t := by
  obtain ⟨_, _, _, _, rfl⟩ := h
  exact ⟨_, _, _, rfl⟩

theorem wellWritten.crewKept {s t : State} (h : wellWritten s t) : crewKept s t := by
  obtain ⟨_, _, _, rfl, -⟩ := h
  exact .refl _

theorem crewKept_rcount (s : State) (o n : Nat) : crewKept s (rcount s o n) := .of_casc (lpWritten_rcount s o n).casc

theorem crewKept_retire (s : State) (e : Entry) (i : RecInfo) : crewKept s (retire s e i) := .of_casc (casc_retire ..)

/-! ## Contexts that fault (R79, R252, R321) -/

theorem crewKept_cancelJobs (s : State) (n : Nat) (which : PumpJob → Bool) : crewKept s (cancelJobs s n which) := by
  refine .foldl (fun s u => ?_) _ s
  refine .trans (.of_casc ?_) (.foldl (fun s j => ?_) _ _)
  · unfold putJobs
    split <;> rfl
  · split
    · exact .refl s
    · unfold writeDone
      split
      · exact .refl s
      · exact (wellWritten_wellStore ..).crewKept

theorem crewKept_withdrawSteps (s : State) (n : Nat) : crewKept s (withdrawSteps s n) :=
  .trans (.of_casc rfl) (.foldl (fun _ _ => crewKept_retire ..) ..)

theorem crewKept_finishBatch (s : State) (n status : Nat) : crewKept s (finishBatch s n status) := by
  refine .trans (.of_casc ((rsetf_casc ..).trans (putCtx_casc s n _))) (.foldl (fun s b => ?_) ..)
  split
  · exact crewKept_retire ..
  · exact .refl s

theorem crewKept_leaveTables (s : State) (n : Nat) (r : StepRun) (status : Nat) : crewKept s (leaveTables s n r status) := by
  have hscales (p : Pattern) : crewKept s (writeScales s n p r) := by
    unfold writeScales
    split
    · exact .refl s
    · refine .foldl (fun s e => ?_) _ s
      simp only
      split
      · exact .of_casc (casc_anyStore ..)
      · exact .of_casc rfl
  unfold leaveTables
  split
  · split
    · exact .refl s
    · exact (hscales _).trans (.of_casc (casc_anyStore ..))
  · exact .refl s

theorem crewKept_imageGo (s : State) (n : Nat) : crewKept s (imageGo s n) := by
  have hsend (s : State) (m : MirrorImage) : crewKept s (sendImage s n m) := by
    unfold sendImage
    split
    · exact .trans (.of_casc (t := useFree s) rfl) (.foldl (fun s e => (framed_sendFrame s _ _).crewKept) _ _)
    · exact .refl s
  simp only [imageGo]
  split
  · split
    · exact .refl s
    · exact .trans (.of_casc (putCtx_casc s n _)) (hsend (putCtx s n _) _)
  · exact .refl s

theorem crewKept_freeKept (s : State) (n : Nat) : crewKept s (freeKept s n) := by
  simp only [freeKept]
  split
  · exact .refl s
  · split
    · exact .refl s
    · exact .foldl (fun s l => .of_casc (putCore_casc s l _)) (ctxCores s n) s

theorem crewKept_finishStep (s : State) (n status : Nat) : crewKept s (finishStep s n status) := by
  simp only [finishStep]
  split
  · exact .refl s
  · split
    · exact .of_casc (putCtx_casc s n _)
    · split
      · exact .of_casc (putCtx_casc s n _)
      · refine .trans ?_ (crewKept_retire ..)
        refine .trans ?_ (.of_casc (rsetf_casc ..))
        refine .trans ?_ (crewKept_freeKept ..)
        refine .trans ?_ (crewKept_imageGo ..)
        refine .trans ?_ (.of_casc (putCtx_casc ..))
        exact (crewKept_leaveTables ..).trans (.of_casc (casc_anyStore ..))

theorem crewKept_contextFault (s : State) (n status : Nat) : crewKept s (contextFault s n status) := by
  have hend : crewKept s (endCommand (sendHalts s n) n status) := by
    refine .trans (.of_casc (emits_casc s ((ctxCores s n).map fun l => .halt l (heldStamp s n)))) ?_
    unfold endCommand
    split
    · exact crewKept_finishStep ..
    · split
      · exact .refl _
      · exact crewKept_finishBatch ..
  unfold contextFault
  split
  · exact ((hend.trans (crewKept_cancelJobs ..)).trans (.of_casc (rsetf_casc _ (rFnCtx n) 0 2 3))).trans
      (crewKept_withdrawSteps ..)
  · exact hend

/-! ## Discards (R73 to R75) -/

theorem crewKept_discardOne (s : State) (u : StreamId) (keep replay : Bool) : crewKept s (discardOne s u keep replay).1 := by
  have hwaits : crewKept s (dropWaits s u) := by
    unfold dropWaits
    split
    · exact .of_casc rfl
    · exact ⟨_, _, _, rfl⟩
    · exact ⟨_, _, _, rfl⟩
    · exact .refl s
  have hverdicts (s : State) (t : Nat) (es : List FwdEntry) : crewKept s (sendVerdicts s t es false) := by
    obtain ⟨_, h⟩ := framed_sendVerdicts s t es false
    exact .trans (.of_casc rfl) h.crewKept
  refine .trans ?_ (crewKept_rcount ..)
  refine .trans ?_ (.foldl (fun _ _ => hverdicts ..) ..)
  refine .trans ?_ (.of_casc (putTile_casc ..))
  refine .trans ?_ (.of_casc (putCore_casc ..))
  refine .trans ?_ (.foldl (fun _ _ => (wellWritten_wellStore ..).crewKept) ..)
  exact hwaits.trans (wellWritten_gatherFlush ..).crewKept

theorem crewKept_discardChain (n : Nat) (s : State) (l : Nat) (is : List (Nat × Bool)) (replay : Bool) :
    crewKept s (discardChain n s l is replay) := by
  induction n generalizing s is with
  | zero => exact .refl s
  | succ n ih =>
    cases is with
    | nil => exact .refl s
    | cons i r => exact (crewKept_discardOne ..).trans (ih ..)

theorem crewKept_retractSlots (s : State) (l : Nat) (es : List (Nat × Nat)) : crewKept s (retractSlots s l es) :=
  .trans (.of_casc rfl) (crewKept_discardChain ..)

/-! ## Lost micro-batches (R250, R251, R300) -/

theorem crewKept_restartBackward (s : State) (n : Nat) : crewKept s (restartBackward s n) := by
  have hslot (s : State) (l : Nat) : crewKept s (if (slotOf s ⟨l, 1⟩).bound then discardSlot s ⟨l, 1⟩ false true else s) := by
    split
    · exact crewKept_discardChain ..
    · exact .refl s
  have hpost (s : State) (epoch pass : Nat) : crewKept s (postPass s n epoch pass) := by
    simp only [postPass]
    split
    · exact .foldl (fun s e => .of_casc (putCist_casc s _ _)) _ s
    · exact .refl s
  simp only [restartBackward]
  split
  · refine .trans ?_ (hpost ..)
    refine .trans ?_ (.of_casc (putCtx_casc ..))
    refine .trans ?_ (crewKept_cancelJobs ..)
    refine .trans ?_ (.of_casc (by rfl))
    refine .trans ?_ (.foldl (fun s l => .of_casc (putCore_casc s l _)) _ _)
    exact .foldl hslot ..
  · exact .refl s

theorem crewKept_dropStitch (s : State) (u : StreamId) : crewKept s (dropStitch s u) :=
  (crewKept_discardChain ..).trans (.of_casc (putCore_casc ..))

theorem crewKept_loseMb (s : State) (n i status : Nat) (u : StreamId) : crewKept s (loseMb s n i status u) := by
  have hskip (s : State) (i : Nat) (next : W64) : crewKept s (skipMb s n i next) :=
    .foldl (fun s l => .of_casc (putCore_casc s l _)) (ctxCores s n) s
  have hloss (s : State) (m : LostMb) : crewKept s (sendLoss s n m) := by
    unfold sendLoss
    split
    · exact (framed_toLeads ..).crewKept
    · exact .refl s
  simp only [loseMb]
  split
  · exact .refl s
  · rename_i r _
    split
    · exact .refl s
    · have hsent (x : CtxSt) (m : LostMb) : crewKept s (sendLoss (putCtx (useFree s) n x) n m) :=
        .trans (.of_casc (putCtx_casc (useFree s) n x)) (hloss ..)
      split
      · refine .trans ?_ (crewKept_finishStep ..)
        refine .trans ?_ (.of_casc (emits_casc ..))
        exact hsent ..
      · split
        · split
          · exact hsent ..
          · refine .trans ?_ (crewKept_restartBackward ..)
            exact hsent ..
        · refine .trans ?_ (crewKept_dropStitch ..)
          refine .trans ?_ (hskip ..)
          exact hsent ..

theorem crewKept_timeoutTags (s : State) (l : Nat) (tags : Tags) (smod : Nat) : crewKept s (timeoutTags s l tags smod) := by
  refine .trans (.trans (.of_casc (putCore_casc s l _)) (crewKept_retractSlots ..)) (.foldl (fun s i => ?_) ..)
  simp only
  split
  · exact .refl s
  · split
    · split
      · refine .trans ?_ (crewKept_loseMb ..)
        exact .of_casc (putSlot_casc ..)
      · refine .trans ?_ (crewKept_contextFault ..)
        exact .of_casc (putSlot_casc ..)
    · refine .trans ?_ (crewKept_contextFault ..)
      exact .of_casc (putSlot_casc ..)

theorem crewKept_loseData (s : State) (m : Nat) : crewKept s (loseData s m) :=
  .foldl (fun _ _ => .foldl (fun _ _ => crewKept_timeoutTags ..) ..) ..

/-! ## Requests at the master, and REJOIN (R298, R315) -/

/-- R298: `t` is `s` after questions have been sent to the master. -/
def asked (s t : State) : Prop :=
  ∃ o i p d r k, t = { s with out := o, inbox := i, ports := p, casc := { s.casc with dtx := d, reqs := r, reqCtr := k } }

namespace asked

theorem refl (s : State) : asked s s := ⟨_, _, _, _, _, _, rfl⟩

theorem trans {s t r : State} (h1 : asked s t) (h2 : asked t r) : asked s r := by
  obtain ⟨_, _, _, _, _, _, rfl⟩ := h1
  obtain ⟨_, _, _, _, _, _, rfl⟩ := h2
  exact ⟨_, _, _, _, _, _, rfl⟩

theorem foldl {α : Type} {f : State → α → State} (hf : ∀ s a, asked s (f s a)) (l : List α) (s : State) : asked s (l.foldl f s) :=
  List.foldlRecOn l f (refl s) fun t ht a _ => ht.trans (hf t a)

section
variable {s t : State} (h : asked s t)
include h

theorem crewKept : crewKept s t := by obtain ⟨_, _, _, d, r, k, rfl⟩ := h; exact ⟨d, r, k, rfl⟩
theorem cores : t.cores = s.cores := by obtain ⟨_, _, _, _, _, _, rfl⟩ := h; rfl
theorem mem : t.mem = s.mem := by obtain ⟨_, _, _, _, _, _, rfl⟩ := h; rfl

end

end asked

theorem framed.asked {s t : State} (h : framed s t) : asked s t := by
  obtain ⟨_, _, _, _, rfl⟩ := h
  exact ⟨_, _, _, _, _, _, rfl⟩

theorem asked_casAsk (s : State) (u : StreamId) (i kind : Nat) (dst : BitVec 5) (target : W64) :
    asked s (casAsk s u i kind dst target) := by
  simp only [casAsk]
  split
  · exact .refl s
  · exact .trans ⟨_, _, _, _, _, _, rfl⟩ (framed_sendFrame ..).asked

theorem asked_askWaiting (s : State) : asked s (askWaiting s) := by
  unfold askWaiting
  refine .trans (.trans ⟨_, _, _, _, _, _, rfl⟩ (.foldl (fun s u => ?_) _ (modCasc s fun c => { c with reqs := [] })))
    (.foldl (fun s e => asked_casAsk s ..) _ _)
  split
  · exact asked_casAsk ..
  · exact asked_casAsk ..
  · exact .refl s

theorem framed_sendRejoin (s : State) : framed s (sendRejoin s) := by
  unfold sendRejoin
  split
  · exact .refl s
  · exact framed_toLeads ..

end Sys2Proof.Machine
end

section
/-! PROOFS. Cascade start, beats, losses, takeover and cascade objects: O46. -/

namespace Sys2Proof.Machine

/-! ## Messages (R295, R297) -/

section
variable {s : State} {fr : Frame}

@[simp] theorem takeIn_casc : (takeIn s fr).casc = s.casc := rfl
@[simp] theorem fnState_takeIn (n : Nat) : fnState (takeIn s fr) n = fnState s n := rfl
@[simp] theorem ctxOf_takeIn (n : Nat) : ctxOf (takeIn s fr) n = ctxOf s n := rfl

theorem helloIn_unasked (h : fnState s 0 ≠ 1) : helloIn fr s = takeIn s fr := if_pos (by simp [h])

/-- R295: an answer with equal values counts, and is answered. -/
theorem helloIn_accepted {p : Pattern} (hf : fnState s 0 = 1) (hm : fr.smod < s.casc.total) (hn : fr.smod ∉ s.casc.helloOk)
    (hg : fr.cgen = s.casc.cgen) (hp : (ctxOf s s.casc.ctx).pat = some p) (hlen : 8 ≤ p.measure.length)
    (he : fr.epoch = (ctxOf s s.casc.ctx).epoch) (hmeas : fr.spec.take 8 = p.measure.take 8)
    (hdig : (fr.spec.drop 8).take 8 = s.casc.digest) : helloIn fr s =
      sendHello (modCasc (takeIn s fr) fun c => { c with helloOk := nins fr.smod c.helloOk }) fr.smod := by
  refine (if_neg (by simp [hf, hn, Nat.not_le.mpr hm])).trans (if_pos ?_)
  simp [hp, hmeas, Nat.sub_eq_zero_of_le hlen, hg, he, hdig]

theorem framed_sendHello (s : State) (m : Nat) : framed s (sendHello s m) := framed_sendFrame ..

theorem hearTerm_beat (hty : fr.ty = 1) : hearTerm s fr = if fr.term ≤ s.casc.term then s
    else if leAt fr.spec 0 1 = 2 then newMaster (termSeen s fr) fr.smod
    else if s.casc.self == s.casc.master then newMaster (termSeen s fr) s.casc.deputy else termSeen s fr := by
  have hseen (h : fr.term ≤ s.casc.term) : termSeen s fr = s := by simp only [termSeen, modCasc, max_eq_left h]
  rcases lt_trichotomy fr.term s.casc.term with h | h | h
  · rw [if_pos h.le]
    exact (if_pos h).trans (hseen h.le)
  · rw [if_pos h.le]
    refine (if_neg (by omega)).trans ((if_neg (by simp [hty])).trans ((if_pos (by simp [h])).trans (hseen h.le)))
  · rw [if_neg (by omega)]
    refine (if_neg (by omega)).trans ((if_neg (by simp [hty])).trans ((if_neg (by simp; omega)).trans ?_))
    simp only [hty, beq_self_eq_true, if_true, beq_iff_eq]
    rfl

/-- R297: TAKEOVER of the term seen or of a newer one. -/
theorem hearTerm_takeover (ht : s.casc.term ≤ fr.term) (hty : fr.ty = 2) (hc : fr.code = 0x1C) :
    hearTerm s fr = newMaster (termSeen s fr) fr.smod :=
  (if_neg (Nat.not_lt.mpr ht)).trans (if_pos (by simp [hty, hc]))

end

/-! ## The old master (R297, R307) -/

section
variable {s : State} {m : Nat}

theorem newMaster_same (h : m = s.casc.master) : newMaster s m = s := if_pos (by simp [h])

/-- R307: does a change of the master tell that the one before is lost? -/
def masterGone (s : State) : Bool :=
  s.casc.master != s.casc.self && !(s.casc.lost.contains s.casc.master) && !(s.casc.leftMods.contains s.casc.master)

/-- R297: `m` is the master from now on. -/
def masterNamed (s : State) (m : Nat) : State :=
  modCasc (modCasc s fun c => { c with master := m, lost := ndel m (if masterGone s then nins c.master c.lost else c.lost) })
    fun c => { c with deputy := c.nextDeputy }

theorem newMaster_other (h : m ≠ s.casc.master) : newMaster s m =
    let t := askWaiting (if masterGone s then loseData (masterNamed s m) s.casc.master else masterNamed s m)
    if s.casc.back then sendRejoin t else t := if_neg (by simp [h])

theorem crewKept_newMaster (h : m ≠ s.casc.master) : crewKept (masterNamed s m) (newMaster s m) := by
  rw [newMaster_other h]
  have hlose : crewKept (masterNamed s m) (if masterGone s then loseData (masterNamed s m) s.casc.master else masterNamed s m) := by
    split
    · exact crewKept_loseData ..
    · exact .refl _
  dsimp only
  split
  · exact (hlose.trans (asked_askWaiting _).crewKept).trans (framed_sendRejoin _).crewKept
  · exact hlose.trans (asked_askWaiting _).crewKept

/-- R307: the master before is lost, or it was, or had left. -/
theorem newMaster_old (hm : m ≠ s.casc.master) (hself : s.casc.master ≠ s.casc.self) :
    s.casc.master ∈ (newMaster s m).casc.lost ∨ s.casc.master ∈ (newMaster s m).casc.leftMods := by
  obtain ⟨-, -, hlost, hleft⟩ : _ ∧ _ ∧ _ ∧ _ := by simpa only [ranks, Prod.mk.injEq] using (crewKept_newMaster hm).ranks
  rw [hlost, hleft]
  by_cases hgone : masterGone s = true
  · left
    simp [masterNamed, modCasc, hgone, ndel, hm.symm]
  · simp only [masterGone, Bool.and_eq_true, bne_iff_ne, ne_eq, hself, not_false_eq_true, true_and, Bool.not_eq_true',
      List.contains_eq_mem, decide_eq_false_iff_not, not_and_or, not_not] at hgone
    refine hgone.imp (fun h => ?_) id
    simp [masterNamed, modCasc, masterGone, h, ndel, hm.symm]

/-- R307: of a master that was lost nothing is left to discard. -/
theorem newMaster_lostBefore (hl : s.casc.master ∈ s.casc.lost) : (newMaster s m).cores = s.cores ∧ (newMaster s m).mem = s.mem := by
  by_cases hm : m = s.casc.master
  · rw [newMaster_same hm]
    exact ⟨rfl, rfl⟩
  · have hgone : masterGone s = false := by simp [masterGone, hl]
    rw [newMaster_other hm, hgone]
    have hask := asked_askWaiting (masterNamed s m)
    have hback := hask.trans (framed_sendRejoin _).asked
    dsimp only
    split
    · exact ⟨hback.cores, hback.mem⟩
    · exact ⟨hask.cores, hask.mem⟩

end

/-! ## The deputy takes over (R297, R310) -/

theorem framed.ranks {s t : State} (h : framed s t) : ranks t = ranks s := h.crewKept.ranks

section
variable (s : State)

@[simp] theorem ranks_tell (ms : List Nat) (fr : Frame) : ranks (tell s ms fr) = ranks s := (framed_sendAll ..).ranks
@[simp] theorem ranks_tellAll (fr : Frame) : ranks (tellAll s fr) = ranks s := ranks_tell ..

theorem ranks_sendPrepare : ranks (sendPrepare s) = ranks s := by
  unfold sendPrepare
  split
  · exact ranks_tell ..
  · rfl

theorem ranks_phaseGo : ranks (phaseGo s) = ranks s := by
  simp only [phaseGo]
  split
  · split
    · exact ranks_tellAll ..
    · rfl
  · split
    · split
      · exact ranks_sendPrepare s
      · rfl
    · split
      · split
        · split <;> exact ranks_tell ..
        · rfl
      · rfl

theorem ranks_masterGo : ranks (masterGo s) = ranks s := by
  have hrelease : ranks (releaseGo s) = ranks s := by
    simp only [releaseGo]
    split
    · exact (framed_sendAll ..).ranks
    · rfl
  unfold masterGo
  split
  · rfl
  · exact (ranks_phaseGo _).trans hrelease

end

/-- R296, R310: the loss of a module keeps term and master; the module is lost, or its group has left. -/
theorem masterLoss_lost {s : State} {m : Nat} (hl : m ∈ s.casc.lost) (hm : m < s.casc.total) :
    (masterLoss s m).casc.term = s.casc.term ∧ (masterLoss s m).casc.master = s.casc.master ∧
    (m ∈ (masterLoss s m).casc.lost ∨ m ∈ (masterLoss s m).casc.leftMods) := by
  have hleave : m ∈ (leaveGroup s (s.casc.group m)).casc.leftMods := mem_leftMods_takePart.mpr (.inl ⟨hm, by simp [ndel]⟩)
  have hrestart : ranks (sendRestart (leaveGroup s (s.casc.group m))) = ranks (leaveGroup s (s.casc.group m)) := ranks_tellAll ..
  obtain ⟨hterm, hmaster, -, hleft⟩ : _ ∧ _ ∧ _ ∧ _ := by simpa only [ranks, Prod.mk.injEq] using hrestart
  simp only [masterLoss]
  split_ifs
  · exact ⟨rfl, rfl, .inl hl⟩
  · exact ⟨rfl, rfl, .inr hleave⟩
  · exact ⟨hterm, hmaster, .inr (hleft ▸ hleave)⟩
  · exact ⟨rfl, rfl, .inl hl⟩

/-- R297: the deputy is the master of a newer term. -/
def deputyNamed (s : State) : State :=
  modCasc (modCasc s fun c => { c with term := c.term + 1, master := c.self, lost := nins s.casc.master c.lost })
    fun c => { c with deputy := c.nextDeputy }

/-- R297: the deputy has told that it is the master, and asked what it does not know. -/
def deputyTold (s : State) : State :=
  askWaiting (loseData (sendAll (deputyNamed s) (ndel s.casc.self (List.range s.casc.total))
    { ty := 2, code := 0x1C, k := s.casc.k, epoch := s.casc.epoch }) s.casc.master)

theorem crewKept_deputyTold (s : State) : crewKept (deputyNamed s) (deputyTold s) :=
  ((framed_sendAll _ _ _).crewKept.trans (crewKept_loseData ..)).trans (asked_askWaiting _).crewKept

/-- R313: the new master goes on with the commit. -/
theorem ranks_tellCommitting (t : State) (ms : List Nat) (fr : Frame) :
    ranks (tell (modCasc t fun c => { c with committing := true }) ms fr) = ranks t := ranks_tell ..

/-- R297: the deputy has a newer term, and the master before it is lost or has left. -/
theorem takeOver_deputy {s : State} (ha : s.casc.active = true) (hr : casRole s.casc = 1) (hm : s.casc.master < s.casc.total) :
    (takeOver s).casc.term = s.casc.term + 1 ∧ (takeOver s).casc.master = s.casc.self ∧
    (s.casc.master ∈ (takeOver s).casc.lost ∨ s.casc.master ∈ (takeOver s).casc.leftMods) := by
  have htake : takeOver s = if (deputyTold s).casc.crec then
      tell (modCasc (deputyTold s) fun c => { c with committing := true }) (deputyTold s).casc.live (commitFrame (deputyTold s).casc)
    else masterGo (masterLoss (deputyTold s) s.casc.master) := if_neg (by simp [ha, hr])
  have htotal : (deputyTold s).casc.total = s.casc.total := (crewKept_deputyTold s).total
  have hranks : ranks (deputyTold s) = (s.casc.term + 1, s.casc.self, nins s.casc.master s.casc.lost, s.casc.leftMods) :=
    (crewKept_deputyTold s).ranks
  have hold : s.casc.master ∈ (ranks (deputyTold s)).2.2.1 := hranks ▸ mem_nins.mpr (.inl rfl)
  have hcommit := ranks_tellCommitting (deputyTold s) (deputyTold s).casc.live (commitFrame (deputyTold s).casc)
  have hgo := ranks_masterGo (masterLoss (deputyTold s) s.casc.master)
  obtain ⟨hterm, hmaster, hgone⟩ := masterLoss_lost hold (htotal ▸ hm)
  simp only [ranks, Prod.mk.injEq] at hranks hold hcommit hgo
  rw [htake]
  split
  · rw [hcommit.1, hcommit.2.1, hcommit.2.2.1]
    exact ⟨hranks.1, hranks.2.1, .inl hold⟩
  · rw [hgo.1, hgo.2.1, hgo.2.2.1, hgo.2.2.2, hterm, hmaster]
    exact ⟨hranks.1, hranks.2.1, hgone⟩

/-- R296, R297: at a member without cores the loss of a module is noted alone. -/
theorem loseModule_member {s : State} {m : Nat} (ha : s.casc.active = true) (hself : m ≠ s.casc.self) (hm : m < s.casc.total)
    (hlost : m ∉ s.casc.lost) (hleft : m ∉ s.casc.leftMods) (hr : casRole s.casc ≠ 2) (hc : s.cores = [])
    (hmir : ∀ n < 64, ∀ e, mirrorPartner s n = some e → e.1 ≠ m) :
    loseModule m s = modCasc s fun c => { c with lost := nins m c.lost } := by
  have hacts : ¬(!s.casc.active || m == s.casc.self || s.casc.total ≤ m || s.casc.lost.contains m || s.casc.leftMods.contains m) = true := by
    simp [ha, hself, Nat.not_le.mpr hm, hlost, hleft]
  have hdata : loseData (modCasc s fun c => { c with lost := nins m c.lost }) m = modCasc s fun c => { c with lost := nins m c.lost } := by
    simp [loseData, modCasc, hc]
  have hcut : ((List.range 64).filter fun n =>
      (mirrorPartner (modCasc s fun c => { c with lost := nins m c.lost }) n).any fun e => e.1 == m) = [] := by
    refine List.filter_eq_nil_iff.mpr fun n hn => ?_
    have hpartner : mirrorPartner (modCasc s fun c => { c with lost := nins m c.lost }) n = mirrorPartner s n := rfl
    rw [hpartner, Option.any_eq_true]
    rintro ⟨e, he, hem⟩
    exact hmir n (List.mem_range.mp hn) e he (beq_iff_eq.mp hem)
  have hloss : masterLoss (modCasc s fun c => { c with lost := nins m c.lost }) m = modCasc s fun c => { c with lost := nins m c.lost } :=
    if_pos (by rw [isMaster_member (by exact hr)]; rfl)
  refine (if_neg hacts).trans ?_
  rw [hdata, hcut, List.foldl_nil, hloss]
  exact masterGo_member (by exact hr)

/-! ## Beats (R295, R297) -/

/-- R291: the port has sent `f`, with its link's numbers and check. -/
def sentOn (s : State) (n : Nat) (f : Frame) : Prop := ∃ q a c, .frame n { f with lseq := q, lack := a, fcrc := c } ∈ s.out

/-- R291: what a port that takes frames leaves as it is: the other ports, and what was sent. -/
structure PortWorked (n : Nat) (s t : State) : Prop where
  other : ∀ m, m ≠ n → portOf t m = portOf s m
  sent : ∀ x ∈ s.out, x ∈ t.out

theorem PortWorked.refl (n : Nat) (s : State) : PortWorked n s s := ⟨fun _ _ => rfl, fun _ h => h⟩

theorem PortWorked.trans {n : Nat} {s t r : State} (h1 : PortWorked n s t) (h2 : PortWorked n t r) : PortWorked n s r :=
  ⟨fun m hm => (h2.other m hm).trans (h1.other m hm), fun x hx => h2.sent x (h1.sent x hx)⟩

theorem portWorked_putPort (s : State) (n : Nat) (p : PortSt) : PortWorked n s (putPort s n p) :=
  ⟨fun _ hm => fget_fset_ne hm _ _ _, fun _ h => h⟩

theorem portWorked_emit (s : State) (n : Nat) (m : Msg) : PortWorked n s (emit s m) :=
  ⟨fun _ _ => rfl, fun _ h => List.mem_append_left _ h⟩

theorem portWorked_flushPort (k : Nat) (s : State) (n : Nat) : PortWorked n s (flushPort k s n) := by
  induction k generalizing s with
  | zero => exact .refl n s
  | succ k ih =>
    simp only [flushPort]
    split
    · exact .refl n s
    · split
      · exact .refl n s
      · exact ((portWorked_putPort ..).trans (portWorked_emit ..)).trans (ih _)

theorem portWorked_portSend (s : State) (n : Nat) (f : Frame) : PortWorked n s (portSend s n f) :=
  (portWorked_putPort s n _).trans (portWorked_flushPort _ _ n)

theorem sentOn_emit (s : State) (n : Nat) (f : Frame) (q a : Nat) (c : W32) :
    sentOn (emit s (.frame n { f with lseq := q, lack := a, fcrc := c })) n f :=
  ⟨q, a, c, List.mem_append_right _ (List.mem_singleton.mpr rfl)⟩

theorem sentOn.mono {n m : Nat} {s t : State} {f : Frame} (h : sentOn s n f) (hw : PortWorked m s t) : sentOn t n f := by
  obtain ⟨q, a, c, h⟩ := h
  exact ⟨q, a, c, hw.sent _ h⟩

/-- R291: a frame that waits is sent, or it waits on. -/
theorem flushPort_waiting (k : Nat) {s : State} {n : Nat} {f : Frame} (h : f ∈ (portOf s n).queue) :
    sentOn (flushPort k s n) n f ∨ f ∈ (portOf (flushPort k s n) n).queue := by
  induction k generalizing s with
  | zero => exact .inr h
  | succ k ih =>
    simp only [flushPort]
    split
    · exact .inr h
    · next g rest hq =>
      split
      · exact .inr h
      · rw [hq] at h
        rcases List.mem_cons.mp h with rfl | h
        · exact .inl ((sentOn_emit _ n f ..).mono (portWorked_flushPort ..))
        · refine ih ?_
          rw [show ∀ t x, portOf (emit t x) n = portOf t n from fun _ _ => rfl, portOf_putPort]
          exact h

/-- R291: a frame given to a port leaves, or waits for the port. -/
theorem portSend_waits (s : State) (n : Nat) (f : Frame) :
    sentOn (portSend s n f) n f ∨ f ∈ (portOf (portSend s n f) n).queue := by
  refine flushPort_waiting _ ?_
  rw [portOf_putPort]
  simp [enqueue]

/-- R289, R291: an idle port with room in its replay buffer sends at once. -/
theorem portSend_idle {s : State} {n : Nat} {f : Frame} (hq : (portOf s n).queue = [])
    (hr : ((portOf s n).replay.map frameSize).sum + frameSize f ≤ replayBytes) : sentOn (portSend s n f) n f := by
  have hroom : ¬replayBytes < ((portOf s n).replay.map frameSize).sum + frameSize f := Nat.not_lt.mpr hr
  have hq' : enqueue s.casc.self f (portOf s n).queue = [f] := by rw [hq]; rfl
  rw [portSend, hq']
  simp only [List.length_singleton, flushPort, portOf_putPort, if_neg hroom]
  exact sentOn_emit _ n f ..

/-- R297: the beat that the module sends. -/
def ownBeat (s : State) : Frame :=
  { dmod := 0xFFFF, smod := s.casc.self, ty := 1, cgen := s.casc.cgen, term := s.casc.term, code := 2, epoch := s.casc.comEpoch,
    spec := leBytes 1 (casRole s.casc) }

theorem frameSize_ownBeat (s : State) : frameSize (ownBeat s) = 64 := by simp [frameSize, ownBeat]

/-- R295: the beat is on the port, at once where it is idle. -/
def beatOn (s t : State) (n : Nat) : Prop :=
  (sentOn t n (ownBeat s) ∨ ownBeat s ∈ (portOf t n).queue) ∧
  ((portOf s n).queue = [] → ((portOf s n).replay.map frameSize).sum + 64 ≤ replayBytes → sentOn t n (ownBeat s))

/-- R295: a beat on every port of the list. -/
def beatsOn (s : State) (ns : List Nat) (t : State) : State := ns.foldl (fun t n => portSend t n (ownBeat s)) t

theorem beatsOn_other {s t : State} {ns : List Nat} {n : Nat} (h : n ∉ ns) :
    portOf (beatsOn s ns t) n = portOf t n := by
  induction ns generalizing t with
  | nil => rfl
  | cons m r ih =>
    obtain ⟨hne, hr⟩ : n ≠ m ∧ n ∉ r := by simpa using h
    exact (ih hr).trans ((portWorked_portSend t m _).other n hne)

theorem sentOn_beatsOn {s t : State} {n : Nat} {f : Frame} (h : sentOn t n f) (ns : List Nat) : sentOn (beatsOn s ns t) n f := by
  induction ns generalizing t with
  | nil => exact h
  | cons m r ih =>
    exact ih (h.mono (portWorked_portSend t m _))

/-- R295: each port of the list has the beat. -/
theorem beatOn_beatsOn {s t : State} {ns : List Nat} (hn : ns.Nodup) (ht : ∀ n ∈ ns, portOf t n = portOf s n) :
    ∀ n ∈ ns, beatOn s (beatsOn s ns t) n := by
  induction ns generalizing t with
  | nil => exact fun _ h => absurd h (List.not_mem_nil)
  | cons m r ih =>
    obtain ⟨hm, hr⟩ := List.nodup_cons.mp hn
    intro n hmem
    rcases List.mem_cons.mp hmem with rfl | hmem
    · have hport := ht n (List.mem_cons_self)
      refine ⟨?_, fun hq hroom => ?_⟩
      · rcases portSend_waits t n (ownBeat s) with h | h
        · exact .inl (sentOn_beatsOn h r)
        · exact .inr (by rw [beatsOn, List.foldl_cons]; exact (beatsOn_other (s := s) hm).symm ▸ h)
      · refine sentOn_beatsOn (portSend_idle (hport ▸ hq) ?_) r
        rw [hport, frameSize_ownBeat]
        exact hroom
    · refine ih hr (fun j hj => ?_) n hmem
      exact ((portWorked_portSend t m _).other j (ne_of_mem_of_not_mem hj hm)).trans (ht j (List.mem_cons_of_mem m hj))

theorem framed_beatsOn (s : State) (ns : List Nat) (t : State) : framed t (beatsOn s ns t) := .foldl (fun t n => framed_portSend t n _) ns t

/-- R295, R297: nothing else than the ports takes part in a beat. -/
theorem framed.mem {s t : State} (h : framed s t) : t.mem = s.mem := h.asked.mem

theorem beatOn.frame {s t : State} {n : Nat} (h : beatOn s t n) : ∃ f, f.ty = 1 ∧ f.code = 2 ∧ f.smod = s.casc.self ∧
    f.term = s.casc.term ∧ (.frame n f ∈ t.out ∨ f ∈ (portOf t n).queue) ∧
    ((portOf s n).queue = [] → ((portOf s n).replay.map frameSize).sum + 64 ≤ replayBytes → .frame n f ∈ t.out) := by
  obtain ⟨hwaits, hidle⟩ := h
  by_cases hsent : sentOn t n (ownBeat s)
  · obtain ⟨q, a, c, hout⟩ := hsent
    exact ⟨_, rfl, rfl, rfl, rfl, .inl hout, fun _ _ => hout⟩
  · exact ⟨ownBeat s, rfl, rfl, rfl, rfl, .inr (hwaits.resolve_left hsent), fun hq hr => absurd (hidle hq hr) hsent⟩

theorem framed.ownBeat {s t : State} (h : framed s t) : ownBeat t = ownBeat s := by obtain ⟨_, _, _, _, rfl⟩ := h; rfl

/-- R297: what a beat says does not change while the beats are sent. -/
theorem beatsOn_eq {s t : State} (h : ownBeat t = ownBeat s) (ns : List Nat) :
    ns.foldl (fun t n => portSend t n (ownBeat t)) t = beatsOn s ns t := by
  induction ns generalizing t with
  | nil => rfl
  | cons n r ih =>
    rw [List.foldl_cons, ih ((framed_portSend ..).ownBeat.trans h), h]
    rfl

/-- R295: where the cascade is active or starts, every working port gets the beat. -/
theorem execBeatSend_beats {s : State} (h : s.casc.active = true ∨ fnState s 0 = 1) :
    execBeatSend s = .next (publish s (beatsOn s ((List.range 64).filter (portUp s)) s)) :=
  shown_eq ((if_neg (by rcases h with h | h <;> simp [h])).trans (beatsOn_eq rfl _))

theorem execBeatSend_idle {s : State} (ha : s.casc.active = false) (hf : fnState s 0 ≠ 1) : execBeatSend s = .next (publish s s) :=
  shown_eq (if_pos (by simp [ha, hf]))

/-! ## Cascade objects (R298) -/

section
variable {s : State} {i : Nat} {a : W64}

theorem signalCso_unwaited (h : (fget {} i s.csos).waits = []) : signalCso s i a =
    { s with csos := fset i { fget {} i s.csos with v := (fget {} i s.csos).v + a } s.csos } := by
  simp only [signalCso, h, List.filter_nil, List.foldl_nil]

/-- R298: an answer of the master gives the value to a slot that runs on an active tile. -/
theorem answerWait_active {u : StreamId} (d : BitVec 5) (hl : slotLive s u = true)
    (ht : (tileOf s (runTile s u.lcid)).tier = .active) : answerWait s u d a = ran s u ((archOf s u).sput d a) := by
  have hu : u.slot < 3 := by
    simp only [slotLive, validStream, Bool.and_eq_true, decide_eq_true_eq] at hl
    exact hl.1.1.1.2
  have hidle : ¬(!(tileOf s (runTile s u.lcid)).fenced && ((tileOf s (runTile s u.lcid)).tier == .gated ||
      (tileOf s (runTile s u.lcid)).tier == .pllOff)) = true := by simp [ht]
  rw [answerWait, if_pos hl, finish_setArch hu]
  exact if_neg hidle

end

end Sys2Proof.Machine

namespace Sys2Proof.Proofs

open Sys2Proof.Machine

/-- Settles O46, by the rules of the messages, of the loss of the old master and of the ports. -/
theorem cascadeRolesAndObjects : Obligations.CascadeRolesAndObjects := by
  unfold Obligations.CascadeRolesAndObjects
  intro s fr m
  dsimp only
  refine ⟨fun h => shown_eq (if_pos (by simp [h])), fun h => ⟨shown_eq (if_neg (by simp [h])), shown_eq (helloIn_unasked h)⟩,
    ?_, ?_, ?_, ?_, ?_⟩
  · intro p hf hm hn hg hp hlen he hmeas hdig
    have hsent := framed_sendHello (modCasc (takeIn s fr) fun c => { c with helloOk := nins fr.smod c.helloOk }) fr.smod
    obtain ⟨_, _, _, _, hsent⟩ := hsent
    refine ⟨_, shown_eq ((helloIn_accepted hf hm hn hg hp hlen he hmeas hdig).trans hsent), ?_, rfl, rfl⟩
    exact mem_nins.mpr (.inl rfl)
  · intro ha
    exact ⟨execBeatSend_idle ha, shown_eq (if_neg (by simp [ha])), shown_eq (if_pos (by simp [ha])),
      shown_eq (if_pos (by simp [ha])), shown_eq (onControl_dropped (.inl ha) _)⟩
  · intro h
    have hsent := framed_beatsOn s ((List.range 64).filter (portUp s)) s
    refine ⟨_, execBeatSend_beats h, hsent.cores, hsent.mem, fun n hn hup => ?_⟩
    refine (beatOn_beatsOn (List.nodup_range.filter _) (fun _ _ => rfl) n ?_).frame
    exact List.mem_filter.mpr ⟨List.mem_range.mpr hn, hup⟩
  · intro ha
    refine ⟨fun hg hty => ⟨fun ht => ?_, fun ht hrole => ?_⟩, fun hself hm hlost hleft hr hc hmir =>
      shown_eq (loseModule_member ha hself hm hlost hleft hr hc hmir), fun hr _ hm => ⟨_, rfl, takeOver_deputy ha hr hm⟩,
      fun hr => shown_eq (if_pos (by simp [hr])), fun hg => shown_eq (onControl_otherGen ha hg _),
      fun hg ht => shown_eq (onControl_dropped (.inr ⟨hg, ht⟩) _)⟩
    · exact shown_eq ((if_pos (by simp [ha, hg])).trans ((hearTerm_beat hty).trans (if_pos ht)))
    · let noted : State := { takeIn s fr with casc := { s.casc with heard := fset fr.smod s.now s.casc.heard } }
      have hled := led_newMaster (termSeen noted fr) fr.smod
      simp only [led, Prod.mk.injEq] at hled
      refine ⟨newMaster (termSeen noted fr) fr.smod, shown_eq ?_, hled.1.trans (max_eq_right ht.le), hled.2⟩
      exact (if_pos (by simp [ha, hg])).trans ((hearTerm_beat hty).trans ((if_neg (Nat.not_le.mpr ht)).trans (if_pos hrole)))
  · intro ha hg ht
    have hacts (g : State → State) : onControl fr g s = g (heard s fr) := onControl_acts ha hg ht g
    refine ⟨fun hty hc hm => ?_, fun hty hc hm => ?_, hearTerm_same (s := takeIn s fr), fun hr hi hw => ?_, fun hr => ?_, fun hr hi h1 h2 => ?_,
      fun hr hi h => ?_, fun tag u d n target hreqs htag hu hl htile hwait => ?_, fun hnone => ?_⟩
    · have hheard : heard s fr = newMaster (termSeen (takeIn s fr) fr) fr.smod := hearTerm_takeover ht hty hc
      have hled := led_newMaster (termSeen (takeIn s fr) fr) fr.smod
      simp only [led, Prod.mk.injEq] at hled
      refine ⟨_, shown_eq ((hacts _).trans hheard), hled.2, hled.1.trans (max_eq_right ht), fun hself => ?_, fun hl => ?_⟩
      · exact newMaster_old (s := termSeen (takeIn s fr) fr) (Ne.symm hm) hself
      · exact newMaster_lostBefore (s := termSeen (takeIn s fr) fr) hl
    · have hheard : heard s fr = termSeen (takeIn s fr) fr := 
        (hearTerm_takeover (s := takeIn s fr) ht hty hc).trans (newMaster_same (s := termSeen (takeIn s fr) fr) hm.symm)
      refine shown_eq ((hacts _).trans (hheard.trans ?_))
      simp only [termSeen, modCasc, takeIn_casc, max_eq_right ht]
      rfl
    · refine shown_eq ((hacts _).trans ((if_neg ?_).trans (signalCso_unwaited hw)))
      simpa using ⟨hr, by omega⟩
    · exact shown_eq ((hacts _).trans (if_pos (by simp [heard, takeIn, hr])))
    · refine shown_eq ((hacts _).trans ((if_neg ?_).trans (if_neg ?_)))
      · simpa using ⟨hr, by omega⟩
      · simpa using ⟨h1, h2⟩
    · refine shown_eq ((hacts _).trans ((if_neg ?_).trans (if_pos ?_)))
      · simpa using ⟨hr, by omega⟩
      · simpa [heard, takeIn] using h
    · have hreqs' : (heard s fr).casc.reqs = [(tag, u, d)] := hreqs
      have hfind : (heard s fr).casc.reqs.find? (fun r => r.1 == leAt fr.spec 4 4) = some (tag, u, d) := by simp [hreqs', htag]
      have hrest : (heard s fr).casc.reqs.filter (fun q => q.1 != leAt fr.spec 4 4) = [] := by simp [hreqs', htag]
      refine shown_eq ((hacts _).trans ?_)
      dsimp only
      rw [hfind, hrest]
      refine (if_pos (show u.lcid < 0x10000 by omega)).trans ?_
      have hwait' : (slotOf { heard s fr with casc := { (heard s fr).casc with reqs := [] } } u).wait = some (.so n true d target) := hwait
      rw [completeCas, hwait']
      exact answerWait_active d hl htile
    · have hfind : (heard s fr).casc.reqs.find? (fun r => r.1 == leAt fr.spec 4 4) = none :=
        List.find?_eq_none.mpr fun r hr => by simp [hnone r hr]
      refine shown_eq ((hacts _).trans ?_)
      dsimp only
      rw [hfind]
      rfl

end Sys2Proof.Proofs
end

section
/-! PROOFS. The dump, its copy to host memory and its release: O52. -/

namespace Sys2Proof.Machine

/-! ## The dump (R430, R431) -/

/-- R431: `t` is `s` after bytes have been put into the dump region. -/
def dumpOnly (s t : State) : Prop := ∃ d p, t = { s with dumpMem := d, lpPoison := p }

theorem dumpOnly.trans {s t r : State} (h1 : dumpOnly s t) (h2 : dumpOnly t r) : dumpOnly s r := by
  obtain ⟨_, _, rfl⟩ := h1
  obtain ⟨_, _, rfl⟩ := h2
  exact ⟨_, _, rfl⟩

theorem dumpOnly_dumpPut (s : State) (a : Nat) (l : List W8) : dumpOnly s (dumpPut s a l) := ⟨_, _, rfl⟩

theorem dumpOnly_foldl {α : Type} (off : α → Nat) (bytes : α → List W8) (l : List α) (s : State) :
    dumpOnly s (l.foldl (fun s e => dumpPut s (off e) (bytes e)) s) :=
  List.foldlRecOn l _ ⟨_, _, rfl⟩ fun t ht e _ => ht.trans (dumpOnly_dumpPut t (off e) (bytes e))

/-- R430, R431: the dump is numbered, and DG_STAT tells of it. -/
theorem writeDump_spec (s : State) : ∃ t, dumpOnly (useFree s) t ∧ writeDump s = rput
    { t with boot := { t.boot with dumpSeq := s.boot.dumpSeq + 1, dumped := true } } (rDG 0)
    (1 + (s.boot.dumpSeq + 1) % 65536 * 65536) :=
  ⟨_, (dumpOnly_dumpPut (useFree s) 0 _).trans
    (dumpOnly_foldl DumpEntry.off (fun e => e.data.take e.fit) (placeSections s 4096 (dumpSections s)) _), rfl⟩

/-! ## The command of a copy (R434) -/

theorem copyRefused_iff (s : State) : copyRefused s = true ↔ rfld s 0x108 0 4 < 7 ∨ rfld s (rDG 0x28) 0 1 = 1 ∨
    rget64 s (rDG 0x10) % 64 ≠ 0 ∨ rget64 s (rDG 0x18) % 64 ≠ 0 ∨ rget s (rDG 0x20) % 64 ≠ 0 ∨ 2 ^ 30 < rget s (rDG 0x20) ∨
    9 * 2 ^ 30 < rget64 s (rDG 0x10) + rget s (rDG 0x20) ∨ rget64 s (rDG 0x18) < 0x400000000000 ∨
    0x800000000000 < rget64 s (rDG 0x18) + rget s (rDG 0x20) := by
  have hstep : rfld s 0x108 0 4 = bringStep s := rfl
  simp only [copyRefused, hstep, Bool.or_eq_true, decide_eq_true_eq, beq_iff_eq, bne_iff_ne, or_assoc]

section
variable {s : State}

/-- R434: a copy refused reports 0x1602. -/
theorem dumpCopy_refused (h : copyRefused s = true) : rfld (dumpCopy s) (rDG 0x28) 16 16 = 0x1602 ∧
    rfld (dumpCopy s) (rDG 0x28) 2 1 = 1 ∧ dumpCopy s = { s with regs := (dumpCopy s).regs } := by
  have hdef : dumpCopy s = rsetf (rsetf (rsetf s (rDG 0x28) 1 1 0) (rDG 0x28) 2 1 1) (rDG 0x28) 16 16 0x1602 := if_pos h
  rw [hdef]
  refine ⟨rfld_rsetf_same _ _ (by omega) _, ?_, rfl⟩
  rw [rfld_rsetf_apart _ _ (by omega) (by omega), rfld_rsetf_same _ _ (by omega)]
  rfl

/-- R434: a copy that begins is busy. -/
theorem dumpCopy_begins (h : copyRefused s = false) : rfld (dumpCopy s) (rDG 0x28) 0 1 = 1 ∧
    (dumpCopy s).boot.copy = (rget64 s (rDG 0x10), rget64 s (rDG 0x18), rget s (rDG 0x20)) ∧
    dumpCopy s = { s with regs := (dumpCopy s).regs, boot := { s.boot with copy := (dumpCopy s).boot.copy } } := by
  have hdef : dumpCopy s = rsetf { s with boot := { s.boot with copy := (rget64 s (rDG 0x10), rget64 s (rDG 0x18), rget s (rDG 0x20)) } }
      (rDG 0x28) 0 1 1 := if_neg (by simp [h])
  rw [hdef]
  exact ⟨rfld_rsetf_same _ _ (by omega) _, rfl, rfl⟩

end

/-! ## The copy (R213, R434) -/

/-- R434: `t` is `s` after lines have been copied to host memory. -/
def hostOnly (s t : State) : Prop := ∃ m p h f, t = { s with mem := m, hostPoison := p, hostHeld := h, freeCtr := f }

theorem hostOnly.refl (s : State) : hostOnly s s := ⟨_, _, _, _, rfl⟩

theorem hostOnly.trans {s t r : State} (h1 : hostOnly s t) (h2 : hostOnly t r) : hostOnly s r := by
  obtain ⟨_, _, _, _, rfl⟩ := h1
  obtain ⟨_, _, _, _, rfl⟩ := h2
  exact ⟨_, _, _, _, rfl⟩

theorem hostOnly_hostStore (s : State) (bs : List (Nat × W8)) : hostOnly s (hostStore s bs) := by
  unfold hostStore
  split <;> exact ⟨_, _, _, _, rfl⟩

/-- R434: a line that cannot be read: its channel has failed, or its codeword is marked. -/
def dumpLineBad (s : State) (src : Nat) : Prop := chanState s (src / 25165824) ≠ 0 ∨ dumpCw src ∈ s.lpPoison

/-- The bytes of the dump region's line at `src`. -/
def dumpBytes (s : State) (src : Nat) : List W8 := (span src 64).map fun a => cellGet 0 a s.dumpMem

theorem dumpLine_bad {s : State} {src : Nat} (h : dumpLineBad s src) (dst : Nat) (b : Bool) :
    ∃ t, dumpLine src dst (s, b) = (t, true) ∧ hostOnly s t := by
  have hbad : (chanState s (src / 25165824) != 0 || s.lpPoison.contains (dumpCw src)) = true := by simpa [dumpLineBad] using h
  refine ⟨_, if_pos hbad, ?_⟩
  obtain ⟨_, _, _, _, h⟩ := hostOnly_hostStore (useFree s)
    (atAddr dst ((List.range 64).map fun i => Config.poisonByte s.freeCtr (src + i)))
  dsimp only
  rw [h]
  exact ⟨_, _, _, _, rfl⟩

theorem dumpLine_good {s : State} {src : Nat} (h : ¬dumpLineBad s src) (dst : Nat) (b : Bool) :
    dumpLine src dst (s, b) = (hostStore s (atAddr dst (dumpBytes s src)), b) := by
  have hgood : ¬(chanState s (src / 25165824) != 0 || s.lpPoison.contains (dumpCw src)) = true := by simpa [dumpLineBad] using h
  exact if_neg hgood

theorem hostOnly.dumpLineBad_iff {s t : State} (h : hostOnly s t) (src : Nat) : dumpLineBad t src ↔ dumpLineBad s src := by
  obtain ⟨_, _, _, _, rfl⟩ := h; rfl

theorem hostOnly.dumpBytes {s t : State} (h : hostOnly s t) (src : Nat) : dumpBytes t src = dumpBytes s src := by
  obtain ⟨_, _, _, _, rfl⟩ := h; rfl

/-- R434: the first `n` lines of a copy. -/
def dumpLines (s : State) (src dst n : Nat) : State × Bool :=
  (List.range n).foldl (fun r i => dumpLine (src + 64 * i) (dst + 64 * i) r) (s, false)

theorem dumpLines_succ (s : State) (src dst n : Nat) :
    dumpLines s src dst (n + 1) = dumpLine (src + 64 * n) (dst + 64 * n) (dumpLines s src dst n) := by
  rw [dumpLines, List.range_succ, List.foldl_append]
  rfl

/-- R434: the copy is reported as bad when a line of it is. -/
theorem dumpLines_spec (s : State) (src dst n : Nat) : hostOnly s (dumpLines s src dst n).1 ∧
    ((dumpLines s src dst n).2 = true ↔ ∃ k < n, dumpLineBad s (src + 64 * k)) := by
  induction n with
  | zero => exact ⟨.refl s, by simp [dumpLines]⟩
  | succ n ih =>
    obtain ⟨hhost, hbad⟩ := ih
    rw [dumpLines_succ]
    by_cases hn : dumpLineBad s (src + 64 * n)
    · obtain ⟨t, ht, htn⟩ := dumpLine_bad ((hhost.dumpLineBad_iff _).mpr hn) (dst + 64 * n) (dumpLines s src dst n).2
      rw [ht]
      exact ⟨hhost.trans htn, ⟨fun _ => ⟨n, Nat.lt_add_one n, hn⟩, fun _ => rfl⟩⟩
    · rw [dumpLine_good (mt (hhost.dumpLineBad_iff _).mp hn)]
      refine ⟨hhost.trans (hostOnly_hostStore ..), hbad.trans ⟨fun ⟨k, hk, h⟩ => ⟨k, Nat.lt_succ_of_lt hk, h⟩, fun ⟨k, hk, h⟩ => ⟨k, ?_, h⟩⟩⟩
      exact lt_of_le_of_ne (Nat.le_of_lt_succ hk) fun hkn => hn (hkn ▸ h)

/-- R434: what a copy of good lines leaves: the bytes at their places, nothing marked, and all else as before. -/
def dumpArrived (s t : State) (src dst n : Nat) : Prop :=
  (∀ i < n, cellGet memDefault (dst + i) t.mem = cellGet 0 (src + i) s.dumpMem ∧ (dst + i) / 64 ∉ t.hostPoison) ∧
  ∀ a, a < dst ∨ dst + n ≤ a → cellGet memDefault a t.mem = cellGet memDefault a s.mem

theorem length_dumpBytes (s : State) (src : Nat) : (dumpBytes s src).length = 64 := by simp [dumpBytes, span]

/-- A line of the dump written to host memory reads as it was. -/
theorem cellGet_hostStore_dumpBytes {s : State} (hup : s.boot.cxlUp = true) (src dst : Nat) {i : Nat} (hi : i < 64) :
    cellGet memDefault (dst + i) (hostStore s (atAddr dst (dumpBytes s src))).mem = cellGet 0 (src + i) s.dumpMem := by
  have hread := cellGet_cellSets_atAddr memDefault dst (dumpBytes s src) s.mem
  rw [length_dumpBytes] at hread
  have hbyte := congrArg (·[i]?) hread
  simpa [span, dumpBytes, hi, hostStore, hup] using hbyte

theorem dumpArrived_dumpLines {s : State} (hup : s.boot.cxlUp = true) {src dst n : Nat} (hd : dst % 64 = 0)
    (hg : ∀ k < n, ¬dumpLineBad s (src + 64 * k)) : dumpArrived s (dumpLines s src dst n).1 src dst (64 * n) := by
  induction n with
  | zero => exact ⟨fun i hi => absurd hi (by omega), fun _ _ => rfl⟩
  | succ n ih =>
    obtain ⟨hin, hout⟩ := ih fun k hk => hg k (Nat.lt_succ_of_lt hk)
    obtain ⟨hhost, -⟩ := dumpLines_spec s src dst n
    rw [dumpLines_succ, dumpLine_good (mt (hhost.dumpLineBad_iff _).mp (hg n (Nat.lt_add_one n)))]
    generalize (dumpLines s src dst n).1 = t at hin hout hhost
    have hup' : t.boot.cxlUp = true := by obtain ⟨_, _, _, _, rfl⟩ := hhost; exact hup
    have hdump : t.dumpMem = s.dumpMem := by obtain ⟨_, _, _, _, rfl⟩ := hhost; rfl
    have hstored : hostStore t (atAddr (dst + 64 * n) (dumpBytes t (src + 64 * n))) = { t with
        mem := cellSets memDefault (atAddr (dst + 64 * n) (dumpBytes t (src + 64 * n))) t.mem,
        hostPoison := t.hostPoison.filter fun k => !((atAddr (dst + 64 * n) (dumpBytes t (src + 64 * n))).any fun e => e.1 / 64 == k) } := by
      simp [hostStore, hup']
    have hother (a : Nat) (ha : a < dst + 64 * n ∨ dst + 64 * n + 64 ≤ a) :
        cellGet memDefault a (hostStore t (atAddr (dst + 64 * n) (dumpBytes t (src + 64 * n)))).mem = cellGet memDefault a t.mem := by
      rw [hstored]
      refine cellGet_cellSets_ne _ _ _ _ fun e he => ?_
      have hspan := mem_atAddr he
      rw [length_dumpBytes] at hspan
      omega
    refine ⟨fun i hi => ?_, fun a ha => (hother a (by omega)).trans (hout a (by omega))⟩
    by_cases hlast : i < 64 * n
    · obtain ⟨hcell, hmark⟩ := hin i hlast
      exact ⟨(hother _ (by omega)).trans hcell, by rw [hstored]; exact fun h => hmark (List.mem_filter.mp h).1⟩
    · obtain ⟨j, rfl⟩ := Nat.exists_eq_add_of_le (Nat.not_lt.mp hlast)
      have hj : j < 64 := by omega
      refine ⟨?_, ?_⟩
      · rw [← Nat.add_assoc, ← Nat.add_assoc, cellGet_hostStore_dumpBytes hup' _ _ hj, hdump]
      · rw [hstored]
        intro h
        obtain ⟨e, he, hex⟩ := exists_mem_atAddr (dst + 64 * n) (dumpBytes t (src + 64 * n)) (x := dst + (64 * n + j)) (by omega)
          (by rw [length_dumpBytes]; omega)
        have hnot := (List.mem_filter.mp h).2
        simp only [Bool.not_eq_true', List.any_eq_false, beq_iff_eq] at hnot
        exact hnot e he (by rw [hex])

/-- R434: DG_COPY_STAT of a copy that has completed. -/
def copyShown (t : State) (bad : Bool) : State :=
  rsetf (rsetf (rsetf (rsetf t (rDG 0x28) 0 1 0) (rDG 0x28) 1 1 1) (rDG 0x28) 2 1 bad.toNat) (rDG 0x28) 16 16 (if bad then 0x3701 else 0)

@[simp] theorem copyShown_mem (t : State) (bad : Bool) : (copyShown t bad).mem = t.mem := by
  simp only [copyShown, rsetf_mem]
@[simp] theorem copyShown_cores (t : State) (bad : Bool) : (copyShown t bad).cores = t.cores := by
  simp only [copyShown, rsetf_cores]
@[simp] theorem copyShown_hostPoison (t : State) (bad : Bool) : (copyShown t bad).hostPoison = t.hostPoison := by
  simp only [copyShown, rsetf_hostPoison]

theorem dumpCopied_eq {s : State} (hbusy : rfld s (rDG 0x28) 0 1 = 1) (hup : s.boot.cxlUp = true) {src dst len : Nat}
    (hc : s.boot.copy = (src, dst, 64 * len)) :
    dumpCopied s = copyShown (dumpLines s src dst len).1 (dumpLines s src dst len).2 := by
  have hlines : 64 * len / 64 = len := Nat.mul_div_cancel_left len (by omega)
  simp only [dumpCopied, hbusy, hup, hc, hlines]
  rfl

theorem rfld_copyShown (t : State) (bad : Bool) : rfld (copyShown t bad) (rDG 0x28) 0 1 = 0 ∧ rfld (copyShown t bad) (rDG 0x28) 1 1 = 1 ∧
    rfld (copyShown t bad) (rDG 0x28) 2 1 = bad.toNat ∧ rfld (copyShown t bad) (rDG 0x28) 16 16 = if bad then 0x3701 else 0 := by
  unfold copyShown
  refine ⟨?_, ?_, ?_, ?_⟩
  · rw [rfld_rsetf_apart _ _ (by omega) (by omega), rfld_rsetf_apart _ _ (by omega) (by omega),
      rfld_rsetf_apart _ _ (by omega) (by omega), rfld_rsetf_same _ _ (by omega), Nat.zero_mod]
  · rw [rfld_rsetf_apart _ _ (by omega) (by omega), rfld_rsetf_apart _ _ (by omega) (by omega), rfld_rsetf_same _ _ (by omega)]
    rfl
  · rw [rfld_rsetf_apart _ _ (by omega) (by omega), rfld_rsetf_same _ _ (by omega)]
    cases bad <;> rfl
  · rw [rfld_rsetf_same _ _ (by omega)]
    cases bad <;> rfl

/-! ## The release (R434) -/

/-- R434: writing 1 clears the bits 0 and 2 of DG_STAT. -/
def dumpReleased (s : State) (v : W32) : State := rput s (rDG 0) ((BitVec.ofNat 32 (rget s (rDG 0)) &&& ~~~(v &&& 5#32)).toNat)

theorem testBit_dumpReleased (s : State) (v : W32) {i : Nat} (hi : i < 32) :
    (rget (dumpReleased s v) (rDG 0)).testBit i = ((rget s (rDG 0)).testBit i && !(v.getLsbD i && Nat.testBit 5 i)) := by
  rw [dumpReleased, rget_rput_same, Nat.mod_eq_of_lt (BitVec.isLt _), BitVec.testBit_toNat]
  simp only [BitVec.getLsbD_and, BitVec.getLsbD_not, BitVec.getLsbD_ofNat, hi, decide_true, Bool.true_and]

theorem rfld_dumpReleased (s : State) (v : W32) :
    rfld (dumpReleased s v) (rDG 0) 0 1 = (if v.getLsbD 0 then 0 else rfld s (rDG 0) 0 1) ∧
    rfld (dumpReleased s v) (rDG 0) 16 16 = rfld s (rDG 0) 16 16 := by
  refine ⟨Nat.eq_of_testBit_eq fun i => ?_, Nat.eq_of_testBit_eq fun i => ?_⟩
  · rw [rfld, testBit_bitsAt]
    by_cases hi : i < 1
    · obtain rfl : i = 0 := by omega
      rw [testBit_dumpReleased s v (by omega)]
      split
      · next hv => simp [hv]
      · next hv => rw [rfld, testBit_bitsAt, Bool.eq_false_iff.mpr hv]; simp
    · split
      · simp [hi]
      · rw [rfld, testBit_bitsAt]; simp [hi]
  · rw [rfld, rfld, testBit_bitsAt, testBit_bitsAt]
    by_cases hi : i < 16
    · have h5 : Nat.testBit 5 (16 + i) = false := Nat.testBit_eq_false_of_lt (by
        calc 5 < 2 ^ 16 := by omega
          _ ≤ 2 ^ (16 + i) := Nat.pow_le_pow_right (by omega) (by omega))
      rw [testBit_dumpReleased s v (by omega), h5]
      simp
    · simp [hi]

end Sys2Proof.Machine

namespace Sys2Proof.Proofs

open Sys2Proof.Machine

/-- Settles O52, by induction on the lines of the copy. -/
theorem dumps : Obligations.Dumps := by
  unfold Obligations.Dumps
  intro s v
  dsimp only
  refine ⟨fun h => shown_eq (if_neg ?_), fun hd hn => ?_, fun hv => shown_eq (if_neg (ne_true_of_eq_false hv)), fun hv => ⟨fun h => ?_, fun h => ?_⟩,
    fun h => shown_eq (if_pos ?_), fun hb hup src dst len hc hd h1 h2 hgood hmark => ?_, fun hb hup src dst len hc hbad => ?_,
    ⟨_, rfl, rfl, rfld_dumpReleased s v⟩⟩
  · rcases h with h | h <;> simp [h]
  · obtain ⟨_, ⟨_, _, rfl⟩, hw⟩ := writeDump_spec s
    refine ⟨_, shown_eq ((if_pos (by simp [hd, hn])).trans hw), rfl, rfl, ?_, rfl, rfl⟩
    rw [rget_rput_same]
    omega
  · exact ⟨_, shown_eq (if_pos hv), dumpCopy_refused ((copyRefused_iff s).mpr h)⟩
  · exact ⟨_, shown_eq (if_pos hv), dumpCopy_begins (Bool.eq_false_iff.mpr (mt (copyRefused_iff s).mp h))⟩
  · rcases h with h | h <;> simp [h]
  · have hlines : ∀ k < len, ¬dumpLineBad s (src + 64 * k) := fun k hk h => h.elim (fun h => h (hgood k hk)) (hmark k hk)
    obtain ⟨hhost, hflag⟩ := dumpLines_spec s src dst len
    have hflag' : (dumpLines s src dst len).2 = false :=
      Bool.eq_false_iff.mpr fun h => by obtain ⟨k, hk, hbad⟩ := hflag.mp h; exact hlines k hk hbad
    obtain ⟨hin, hout⟩ := dumpArrived_dumpLines hup hd hlines
    have hcores : (dumpLines s src dst len).1.cores = s.cores := by obtain ⟨_, _, _, _, h⟩ := hhost; rw [h]
    have hdone := dumpCopied_eq hb hup hc
    rw [hflag'] at hdone
    generalize (dumpLines s src dst len).1 = t at hin hout hcores hdone
    obtain ⟨hbusy, hend, herr, hst⟩ := rfld_copyShown t false
    refine ⟨_, shown_eq hdone, hbusy, hend, herr, hst, fun i hi => ?_, fun a ha => ?_, (copyShown_cores ..).trans hcores⟩
    · obtain ⟨hcell, hclean⟩ := hin i hi
      rw [byteAt_host (regionOf_host _ (by omega) (by omega)) (by rwa [copyShown_hostPoison]), copyShown_mem]
      exact hcell
    · rw [copyShown_mem]
      exact hout a ha
  · have hflag : (dumpLines s src dst len).2 = true := (dumpLines_spec s src dst len).2.mpr hbad
    obtain ⟨-, hdone, herr, hst⟩ := rfld_copyShown (dumpLines s src dst len).1 (dumpLines s src dst len).2
    rw [hflag] at herr hst
    exact ⟨_, shown_eq (dumpCopied_eq hb hup hc), hdone, by rw [hflag]; exact herr, by rw [hflag]; exact hst⟩

end Sys2Proof.Proofs
end

section
/-! PROOFS. Firmware packages, commit, mailbox and attestation reports: O53. -/

namespace Sys2Proof.Machine

/-- Fields written to registers change registers alone. -/
theorem rsetf_of_regs {s t : State} (h : t = { s with regs := t.regs }) (o lo w v : Nat) :
    rsetf t o lo w v = { s with regs := (rsetf t o lo w v).regs } := by
  rw [h]
  rfl

/-! ## FW_STAT (R451, R457) -/

section
variable (s : State) (st : Nat)

theorem rfld_fwEnd : rfld (fwEnd s st) (rFW 0x20) 0 1 = 0 ∧ rfld (fwEnd s st) (rFW 0x20) 16 16 = st % 65536 := by
  refine ⟨?_, rfld_rsetf_same _ _ (by omega) _⟩
  rw [fwEnd, rfld_rsetf_apart _ _ (by omega) (by omega), rfld_rsetf_apart _ _ (by omega) (by omega),
    rfld_rsetf_apart _ _ (by omega) (by omega), rfld_rsetf_same _ _ (by omega), Nat.zero_mod]

theorem fwEnd_eq : fwEnd s st = { s with regs := (fwEnd s st).regs } :=
  rsetf_of_regs (rsetf_of_regs (rsetf_of_regs (rsetf_of_regs rfl _ _ _ _) _ _ _ _) _ _ _ _) _ _ _ _

@[simp] theorem fwEnd_flash : (fwEnd s st).flash = s.flash := by rw [fwEnd_eq]
@[simp] theorem fwEnd_mem : (fwEnd s st).mem = s.mem := by rw [fwEnd_eq]
@[simp] theorem fwEnd_otp : (fwEnd s st).otp = s.otp := by rw [fwEnd_eq]
@[simp] theorem fwEnd_boot : (fwEnd s st).boot = s.boot := by rw [fwEnd_eq]

theorem fwTurnedAway_spec : rfld (fwTurnedAway s) (rFW 0x20) 16 16 = 0x1807 ∧ rfld (fwTurnedAway s) (rFW 0x20) 0 1 = 1 ∧
    fwTurnedAway s = { s with regs := (fwTurnedAway s).regs } := by
  refine ⟨?_, rfld_rsetf_same _ _ (by omega) _, ?_⟩
  · rw [fwTurnedAway, rfld_rsetf_apart _ _ (by omega) (by omega)]
    exact (rfld_fwEnd s 0x1807).2
  · rw [fwTurnedAway, fwEnd_eq]
    rfl

end

/-! ## Banks (R448, R451) -/

theorem flashByte_flashErase (s : State) {a n x : Nat} (h : a ≤ x ∧ x < a + n) : flashByte (flashErase s a n) x = 0xFF := by
  have hout : ¬(decide (x < a) || decide (a + n ≤ x)) = true := by simp; omega
  exact (cellGet_filter (fun k => decide (k < a) || decide (a + n ≤ k)) 0xFF x s.flash).trans (if_neg hout)

theorem bankState_congr {s t : State} (h : t.flash = s.flash) (b : Nat) : bankState t b = bankState s b := by
  rw [bankState, flashByte, h, bankState, flashByte]

/-- R451: a bank whose header is erased is EMPTY. -/
theorem bankState_flashErase (s : State) (b : Nat) : bankState (flashErase s (bankBase b) 4096) b = 0 := by
  rw [bankState, flashByte_flashErase s (by omega)]
  rfl

/-- R451: the bank written is TRIAL. -/
theorem bankState_writeBank (s : State) (b : Nat) (p image : List W8) : bankState (writeBank s b p image) b = 1 := by
  have hfirst : flashByte (writeBank s b p image) (bankBase b) = 0x7F := by
    simp only [writeBank, flashByte, List.cons_append, cellSets, List.foldl_cons]
    refine (cellGet_cellSets_ne 0xFF (bankBase b) _ _ fun e he => ?_).trans (cellGet_cellSet_same ..)
    rcases List.mem_append.mp he with he | he
    · rcases List.mem_append.mp he with he | he
      · have := mem_atAddr he
        omega
      · have := mem_atAddr he
        omega
    · have := mem_atAddr he
      omega
  rw [bankState, hfirst]
  rfl

/-! ## Apply (R451, R457) -/

section
variable {s : State}

theorem fwApply_busy (h : rfld s (rFW 0x20) 0 1 = 1) : fwApply s = fwTurnedAway s := if_pos (by simp [h])

theorem fwApply_unready (h : rfld s (rFW 0x20) 0 1 = 0) (hr : ready s = false) : fwApply s = fwEnd s 0x1807 :=
  (if_neg (by simp [h])).trans (if_pos (by simp [hr]))

variable (h : rfld s (rFW 0x20) 0 1 = 0) (hr : ready s = true)
  (hb : s.boot.fwHost.isSome = true ∨ bankState s (rfld s (rFW 0) 0 1) ≠ 1)
include h hr hb

omit h in
/-- R451: a unit that is ready, and whose running image is not on trial, applies packages. -/
theorem apply_allowed : ¬(!(ready s) || (s.boot.fwHost.isNone && bankState s (rfld s (rFW 0) 0 1) == 1)) = true := by
  rcases hb with hb | hb
  · simp [hr, Option.isNone_iff_eq_none, Option.ne_none_iff_isSome.mpr hb]
  · simp [hr, hb]

theorem fwApply_refused {st : Nat} (hst : applyRefusal s (readPkg s) = some st) : fwApply s = fwEnd s st := by
  refine (if_neg (by simp [h])).trans ((if_neg (apply_allowed hr hb)).trans ?_)
  dsimp only
  rw [hst]

theorem fwApply_begins (hst : applyRefusal s (readPkg s) = none) : fwApply s =
    rsetf (modBoot (flashErase s (bankBase (otherBank s)) 4096) fun b => { b with applyPkg := some (readPkg s) }) (rFW 0x20) 0 1 1 := by
  refine (if_neg (by simp [h])).trans ((if_neg (apply_allowed hr hb)).trans ?_)
  dsimp only
  rw [hst]

end

section
variable {s : State} {p i : List W8} (hp : s.boot.applyPkg = some p) (hi : pkgImage (runningImage s) p = some i)
include hp hi

theorem fwApplied_written (hd : Config.shake256 i = resd p) :
    fwApplied s = fwEnd (writeBank (modBoot s fun b => { b with applyPkg := none }) (otherBank s) p i) 0 := by
  simp only [fwApplied, hp, hi, hd, beq_self_eq_true, if_true]

theorem fwApplied_wrong (hd : Config.shake256 i ≠ resd p) : fwApplied s = fwEnd (modBoot s fun b => { b with applyPkg := none }) 0xF801 := by
  simp only [fwApplied, hp, hi, beq_iff_eq, hd, if_false]

end

/-! ## Commit (R447, R453) -/

/-- R447: bits of OTP are programmed, never cleared, and nothing else changes. -/
def otpGrown (s t : State) : Prop :=
  (∃ o, t = { s with otp := o }) ∧ ∀ a, cellGet 0 a t.otp &&& cellGet 0 a s.otp = cellGet 0 a s.otp

theorem otpGrown.refl (s : State) : otpGrown s s := ⟨⟨_, rfl⟩, fun _ => BitVec.and_self⟩

theorem otpGrown.trans {s t r : State} (h1 : otpGrown s t) (h2 : otpGrown t r) : otpGrown s r := by
  obtain ⟨⟨_, rfl⟩, h1⟩ := h1
  obtain ⟨⟨_, rfl⟩, h2⟩ := h2
  exact ⟨⟨_, rfl⟩, fun a => by rw [← h1 a, ← BitVec.and_assoc, h2 a]⟩

theorem ofNat_leNat_div {bs : List W8} {i : Nat} {b : W8} (h : bs[i]? = some b) : BitVec.ofNat 8 (leNat bs / 256 ^ i) = b := by
  induction bs generalizing i with
  | nil => simp at h
  | cons c r ih =>
    have hc := c.isLt
    cases i with
    | zero =>
      obtain rfl : c = b := by simpa using h
      refine BitVec.eq_of_toNat_eq ?_
      rw [BitVec.toNat_ofNat, leNat]
      omega
    | succ i =>
      have hdiv : leNat (c :: r) / 256 = leNat r := by rw [leNat]; omega
      rw [Nat.pow_succ', ← Nat.div_div_eq_div_mul, hdiv]
      exact ih (by simpa using h)

/-- R447: programming a word leaves every bit of it that stands. -/
theorem otpGrown_otpProgram (s : State) (i v : Nat) : otpGrown s (otpProgram s i v) := by
  refine ⟨⟨_, rfl⟩, fun a => ?_⟩
  have hcell := cellGet_cellSets (nodup_atAddr (4 * i) (leBytes 4 (otpWord s i ||| v))) 0 a s.otp
  refine (congrArg (· &&& cellGet 0 a s.otp) hcell).trans ?_
  by_cases ha : 4 * i ≤ a ∧ a < 4 * i + 4
  · obtain ⟨j, rfl⟩ := Nat.exists_eq_add_of_le ha.1
    have hj : j < 4 := by omega
    have hold : BitVec.ofNat 8 (otpWord s i / 256 ^ j) = cellGet 0 (4 * i + j) s.otp :=
      ofNat_leNat_div (by simp [span, hj])
    have hor : (otpWord s i ||| v) / 256 ^ j = otpWord s i / 256 ^ j ||| v / 256 ^ j := by
      rw [show 256 ^ j = 2 ^ (8 * j) from (Nat.pow_mul 2 8 j).symm, Nat.or_div_two_pow]
    rw [fget?_atAddr, getElem?_leBytes hj, Option.getD_some, hor, BitVec.ofNat_or, hold]
    ext k hk
    simp
    tauto
  · rw [fget?_eq_none fun e he hx => ha (by have := mem_atAddr he; simp at this; omega)]
    exact BitVec.and_self

theorem otpGrown_raiseCounter (s : State) (k v : Nat) : otpGrown s (raiseCounter s k v) :=
  List.foldlRecOn _ _ (.refl s) fun _ ht _ _ => ht.trans (otpGrown_otpProgram ..)

/-- R453: the refusal of a commit. -/
def commitRefused (s : State) : Prop := s.boot.fwHost.isSome = true ∨ fwRuns s = false ∨ bankState s (rfld s (rFW 0) 0 1) ≠ 2

theorem fwCommit_refused {s : State} (h : rfld s (rFW 0x20) 0 1 = 0) (hc : commitRefused s) : fwCommit s = fwEnd s 0x1808 :=
  (if_neg (by simp [h])).trans (if_pos (by rcases hc with hc | hc | hc <;> simp [hc]))

/-- R453: a commit programs the counters. -/
theorem fwCommit_counts {s : State} (h : rfld s (rFW 0x20) 0 1 = 0) (hc : ¬commitRefused s) :
    ∃ t, otpGrown s t ∧ fwCommit s = fwEnd { t with dataOld := none } 0 := by
  simp only [commitRefused, not_or, not_not, Bool.not_eq_false, Bool.not_eq_true] at hc
  obtain ⟨hhost, hruns, hbank⟩ := hc
  exact ⟨_, (otpGrown_raiseCounter s 0 (leAt s.boot.fwHdr 12 2)).trans (otpGrown_raiseCounter _ 1 (leAt s.boot.fwHdr 5 1)),
    (if_neg (by simp [h])).trans (if_neg (by simp [hhost, hruns, hbank]))⟩

/-! ## The mailbox (R454) -/

section
variable {s : State} {v n : Nat}

/-- R454: the length of a chunk stands in FW_MBOX_CTL. -/
def chunkSized (s : State) (n : Nat) : State := rsetf s (rFW 0x100) 0 13 n

theorem takesChunks_chunkSized : takesChunks (chunkSized s n) = takesChunks s := by
  have hreg (lo w : Nat) : rfld (chunkSized s n) 0x108 lo w = rfld s 0x108 lo w := rfld_rsetf_ne (by decide) ..
  simp only [takesChunks, stepDue, bringStep, hreg]
  rfl

theorem windowBytes_chunkSized (n : Nat) : windowBytes (chunkSized s n) n = windowBytes s n := by
  have hword : (List.range (ceilDiv n 4)).flatMap (fun i => leBytes 4 (rget (chunkSized s n) (rFW (0x1000 + 4 * i)))) =
      (List.range (ceilDiv n 4)).flatMap fun i => leBytes 4 (rget s (rFW (0x1000 + 4 * i))) := by
    refine List.flatMap_congr fun i _ => ?_
    rw [chunkSized, rget_rsetf_ne (by simp only [rFW]; omega)]
  rw [windowBytes, hword, windowBytes]

theorem mboxPush_empty (h : bitsAt v 0 13 = 0 ∨ 4096 < bitsAt v 0 13) : mboxPush v s = s := if_pos (by simpa using h)

theorem mboxPush_pushes (h0 : 0 < bitsAt v 0 13) (hn : bitsAt v 0 13 ≤ 4096) (hp : bitAt v 13 = true) : mboxPush v s =
    let r := takeChunk true (windowBytes s (bitsAt v 0 13)) (bitAt v 14) (chunkSized s (bitsAt v 0 13))
    rsetf r.1 (rFW 0x100) 16 16 r.2 := by
  rw [← windowBytes_chunkSized]
  exact (if_neg (by simp; omega)).trans (if_neg (by simp [hp]))

/-- R454: a chunk that is not taken leaves everything. -/
theorem takeChunk_refused {path : Bool} (h : takesChunks s = false ∨ s.boot.mboxBy = some !path) (data : List W8) (last : Bool) :
    takeChunk path data last s = (s, 0x1807) := if_pos (by rcases h with h | h <;> simp [h])

/-- R454: a chunk joins those of its path. -/
theorem takeChunk_taken {path : Bool} (h : takesChunks s = true) (hp : s.boot.mboxBy ≠ some !path) (data : List W8) :
    takeChunk path data false s =
      (modBoot s fun b => { b with mboxBy := some path, mbox := b.mbox ++ data, mboxDone := false }, 0) :=
  (if_neg (by simp [h, hp])).trans (if_neg (by simp))

end

/-! ## Attestation (R455, R456) -/

@[simp] theorem length_digest64 (l : List W8) : (digest64 l).length = 64 := by simp [digest64]

theorem length_attBody (s : State) (nonce : List W8) : (attBody s nonce).length = 400 + 72 * (attCtxs s).length := by
  have hctx (n : Nat) : (attCtx s n).length = 72 := by simp only [attCtx, List.length_append, length_leBytes, length_digest64]
  have hctxs : ((attCtxs s).flatMap (attCtx s)).length = 72 * (attCtxs s).length := by
    simp [List.length_flatMap, hctx, Nat.mul_comm]
  unfold attBody
  simp only [List.length_append, length_leBytes, length_digest64, hctxs, List.length_take, List.length_replicate]
  generalize (attCtxs s).length = n
  omega

theorem length_attReport (s : State) (nonce : List W8) : (attReport s nonce).length = 528 + 72 * (attCtxs s).length := by
  unfold attReport
  simp only [List.length_append, length_attBody, List.length_take, List.length_replicate]
  generalize (attCtxs s).length = n
  omega

/-- R388: a run of bytes written to host memory reads back, whatever marks stood. -/
theorem bytesAt_hostStore_marked {s : State} (hup : s.boot.cxlUp = true) {a : Nat} {bs : List W8} (h1 : 0x400000000000 ≤ a)
    (h2 : a + bs.length ≤ 0x800000000000) : bytesAt (hostStore s (atAddr a bs)) a bs.length = bs := by
  have hstored : hostStore s (atAddr a bs) = { s with
      mem := cellSets memDefault (atAddr a bs) s.mem,
      hostPoison := s.hostPoison.filter fun k => !((atAddr a bs).any fun e => e.1 / 64 == k) } := by simp [hostStore, hup]
  refine Eq.trans (List.map_congr_left fun x hx => ?_) (cellGet_cellSets_atAddr memDefault a bs s.mem)
  obtain ⟨hx1, hx2⟩ := mem_span.mp hx
  rw [byteAt_host (regionOf_host _ (by omega) (by omega)), hstored]
  rw [hstored]
  intro h
  obtain ⟨e, he, hex⟩ := exists_mem_atAddr a bs hx1 hx2
  have hnot := (List.mem_filter.mp h).2
  simp only [Bool.not_eq_true', List.any_eq_false, beq_iff_eq] at hnot
  exact hnot e he (by rw [hex])

/-- R455: what a report that is written to host memory leaves. -/
theorem reported_spec {s : State} (hup : s.boot.cxlUp = true) {a : Nat} {r : List W8} (h1 : 0x400000000000 ≤ a)
    (h2 : a + r.length ≤ 0x800000000000) : rget (rput (hostStore s (atAddr a r)) (rFW 0x22C) 2) (rFW 0x22C) = 2 ∧
      bytesAt (rput (hostStore s (atAddr a r)) (rFW 0x22C) 2) a r.length = r ∧
      (∀ x, x < a ∨ a + r.length ≤ x →
        cellGet memDefault x (rput (hostStore s (atAddr a r)) (rFW 0x22C) 2).mem = cellGet memDefault x s.mem) ∧
      (rput (hostStore s (atAddr a r)) (rFW 0x22C) 2).cores = s.cores := by
  have hswap : rput (hostStore s (atAddr a r)) (rFW 0x22C) 2 = hostStore (rput s (rFW 0x22C) 2) (atAddr a r) := by
    simp [hostStore, hup, rput]
  have hmem : (hostStore s (atAddr a r)).mem = cellSets memDefault (atAddr a r) s.mem := by simp [hostStore, hup]
  refine ⟨rget_rput_same .., ?_, fun x hx => ?_, hostStore_cores ..⟩
  · rw [hswap]
    exact bytesAt_hostStore_marked (s := rput s (rFW 0x22C) 2) hup h1 h2
  · rw [rput_mem, hmem]
    exact cellGet_cellSets_ne _ _ _ _ fun e he => by have := mem_atAddr he; omega

/-- R455: where FW_ATT_DST points. -/
def attAddr (s : State) : Nat := rget64 s (rFW 0x220)

/-- R456: the report over the nonce of FW_ATT_NONCE. -/
def attWindow (s : State) : List W8 := attReport s ((List.range 8).flatMap fun i => leBytes 4 (rget s (rFW (0x200 + 4 * i))))

theorem attGo_refused {s : State} (h : attAddr s % 64 ≠ 0 ∨ attAddr s < 0x400000000000 ∨
    0x800000000000 < attAddr s + (attWindow s).length) : attGo s = rput s (rFW 0x22C) (2 + 0x1809 * 2 ^ 16) :=
  if_pos (by simpa only [Bool.or_eq_true, bne_iff_ne, decide_eq_true_eq, or_assoc, attAddr, attWindow] using h)

theorem attGo_writes {s : State} (h0 : attAddr s % 64 = 0) (h1 : 0x400000000000 ≤ attAddr s)
    (h2 : attAddr s + (attWindow s).length ≤ 0x800000000000) :
    attGo s = rput (hostStore s (atAddr (attAddr s) (attWindow s))) (rFW 0x22C) 2 :=
  if_neg (by
    simp only [Bool.or_eq_true, bne_iff_ne, decide_eq_true_eq, not_or, not_not, Nat.not_lt]
    exact ⟨⟨h0, h1⟩, h2⟩)

/-! ## Which words are commands (R451, R453) -/

section
variable {s t : State} {v : W32}

theorem exec_fwApply_other (h : v.toNat % 4 ≠ 1) : exec (.fwApply v) s = .next (publish s s) :=
  shown_eq (f := fun s => if v.toNat % 4 == 1 then fwApply s else s) (if_neg (by simp [h]))

theorem exec_fwApply (h : v.toNat % 4 = 1) (ht : fwApply s = t) : exec (.fwApply v) s = .next (publish s t) :=
  shown_eq (f := fun s => if v.toNat % 4 == 1 then fwApply s else s) ((if_pos (by simp [h])).trans ht)

theorem exec_fwCommit_other (h : v.toNat % 4 ≠ 2) : exec (.fwCommit v) s = .next (publish s s) :=
  shown_eq (f := fun s => if v.toNat % 4 == 2 then fwCommit s else s) (if_neg (by simp [h]))

theorem exec_fwCommit (h : v.toNat % 4 = 2) (ht : fwCommit s = t) : exec (.fwCommit v) s = .next (publish s t) :=
  shown_eq (f := fun s => if v.toNat % 4 == 2 then fwCommit s else s) ((if_pos (by simp [h])).trans ht)

end

/-! ## Messages of the sideband (R454, R456) -/

section
variable {s t : State} {data : List W8} {last : Bool} {st : Nat} (hup : s.boot.standby = true ∨ s.boot.rim = true)
include hup

/-- R454: an oversized or empty chunk is not a chunk. -/
theorem exec_mctpFirmwareChunk_size (hd : data = [] ∨ 4096 < data.length) :
    exec (.mctpFirmwareChunk data last) s = .next (publish s (answer s (leBytes 2 0x1801) false)) := by
  have hbad : (data.isEmpty || decide (4096 < data.length)) = true := by rcases hd with hd | hd <;> simp [hd]
  refine shown_eq ?_
  rw [if_pos hbad]
  exact if_pos (by simpa using hup)

/-- R454: the module answers with the status of the chunk. -/
theorem exec_mctpFirmwareChunk (hd : data ≠ []) (hn : data.length ≤ 4096) (ht : takeChunk false data last s = (t, st)) :
    exec (.mctpFirmwareChunk data last) s = .next (publish s (answer t (leBytes 2 st) false)) := by
  have hgood : ¬(data.isEmpty || decide (4096 < data.length)) = true := by simp [hd, hn]
  refine shown_eq ?_
  rw [if_neg hgood, ht]
  exact if_pos (by simpa using hup)

end

end Sys2Proof.Machine

namespace Sys2Proof.Proofs

open Sys2Proof.Machine

/-- Settles O53, by the rules of FW_STAT, of the banks, of OTP and of the mailbox. -/
theorem firmwareAndAttestation : Obligations.FirmwareAndAttestation := by
  unfold Obligations.FirmwareAndAttestation
  refine ⟨fun s v data last => ?_, fun s v nonce => ?_⟩
  · dsimp only
    refine ⟨fun h => exec_fwApply_other h, fun h => ⟨fun hb => ?_, fun hb hr => ?_, fun hb hr hh => ⟨fun st hst hlt => ?_, fun hst => ?_⟩⟩,
      fun hp => ?_, fun p i hp hi => ⟨fun hd => ?_, fun hd => ?_⟩, fun h => exec_fwCommit_other h, fun h hb => ?_,
      ⟨fun h => shown_eq (mboxPush_empty h), fun h0 hn hp ht => ?_, fun h0 hn hp hl ht hby => ?_⟩, fun h1 h2 => ⟨?_, ?_⟩, fun hup hd => ?_,
      fun hup hd hn ht => ?_, fun hup hd hn ht hby => ?_, fun h => shown_eq (if_neg (ne_true_of_eq_false h))⟩
    · exact ⟨_, exec_fwApply h (fwApply_busy hb), fwTurnedAway_spec s⟩
    · exact ⟨_, exec_fwApply h (fwApply_unready hb hr), (rfld_fwEnd ..).2, (rfld_fwEnd ..).1, fwEnd_eq ..⟩
    · exact ⟨_, exec_fwApply h (fwApply_refused hb hr hh hst), (rfld_fwEnd ..).2.trans (Nat.mod_eq_of_lt hlt),
        (rfld_fwEnd ..).1, fwEnd_eq ..⟩
    · refine ⟨_, exec_fwApply h (fwApply_begins hb hr hh hst), rfld_rsetf_same _ _ (by omega) _, rfl,
        (bankState_congr rfl _).trans (bankState_flashErase s (otherBank s)), rfl, rfl⟩
    · exact shown_eq (by simp only [fwApplied, hp])
    · exact ⟨_, shown_eq (fwApplied_written hp hi hd), (rfld_fwEnd ..).2, (rfld_fwEnd ..).1, by rw [fwEnd_boot]; rfl,
        (bankState_congr (fwEnd_flash ..) _).trans (bankState_writeBank ..), by rw [fwEnd_mem]; rfl⟩
    · exact ⟨_, shown_eq (fwApplied_wrong hp hi hd), (rfld_fwEnd ..).2, by rw [fwEnd_flash]; rfl⟩
    · by_cases hc : commitRefused s
      · refine ⟨_, exec_fwCommit h (fwCommit_refused hb hc), fun a => ?_, fwEnd_mem .., fwEnd_flash .., ?_⟩
        · rw [fwEnd_otp]
          exact BitVec.and_self
        · exact (rfld_fwEnd ..).2.trans (if_pos hc).symm
      · obtain ⟨_, ⟨⟨_, rfl⟩, hgrown⟩, hcommit⟩ := fwCommit_counts hb hc
        refine ⟨_, exec_fwCommit h hcommit, fun a => ?_, fwEnd_mem .., fwEnd_flash .., ?_⟩
        · rw [fwEnd_otp]
          exact hgrown a
        · exact (rfld_fwEnd ..).2.trans (if_neg hc).symm
    · have hbits : bitAt v.toNat 13 = true := by rw [bitAt_eq_testBit, BitVec.testBit_toNat, hp]
      have hpush := mboxPush_pushes (s := s) h0 hn hbits
      rw [takeChunk_refused (.inl (takesChunks_chunkSized.trans ht))] at hpush
      exact ⟨_, shown_eq hpush, rfld_rsetf_same _ _ (by omega) _, rfl⟩
    · have hbits : bitAt v.toNat 13 = true := by rw [bitAt_eq_testBit, BitVec.testBit_toNat, hp]
      have hlast : bitAt v.toNat 14 = false := by rw [bitAt_eq_testBit, BitVec.testBit_toNat, hl]
      have hpush := mboxPush_pushes (s := s) h0 hn hbits
      rw [hlast, takeChunk_taken (takesChunks_chunkSized.trans ht) (by exact hby)] at hpush
      exact ⟨_, shown_eq hpush, rfld_rsetf_same _ _ (by omega) _, rfl, rfl⟩
    · exact shown_eq (if_neg (by simp [h1, h2]))
    · exact shown_eq (if_neg (by simp [h1, h2]))
    · exact exec_mctpFirmwareChunk_size hup hd
    · exact exec_mctpFirmwareChunk hup hd hn (takeChunk_refused (path := false) ht data last)
    · exact exec_mctpFirmwareChunk hup hd hn (takeChunk_taken (path := false) ht hby data)
  · dsimp only
    refine ⟨fun h => shown_eq (if_neg (ne_true_of_eq_false h)), fun h ha => ?_, fun h hup ha h1 h2 => ?_,
      fun h => shown_eq (if_pos (by simpa using h)), length_attReport ..⟩
    · exact shown_eq ((if_pos h).trans (attGo_refused ha))
    · exact ⟨_, shown_eq ((if_pos h).trans (attGo_writes ha h1 h2)), reported_spec hup h1 h2⟩

end Sys2Proof.Proofs
end

section
/-! PROOFS. Power, clocks, temperatures: O49. -/

namespace Sys2Proof.Machine

/-! ## Sleep tiers (R408) -/

section
variable {s : State} {t : Nat}

theorem descend_busy (h : tileBusy s t = true) (src : List Tier) (dst : Tier) : descend s t src dst = s := if_pos (by simp [h])

theorem descend_idle (ht : t < 64) (hf : (tileOf s t).fenced = false) (hb : tileBusy s t = false) {src : List Tier}
    (hs : (tileOf s t).tier ∈ src) (dst : Tier) : descend s t src dst = putTile s t { tileOf s t with tier := dst } :=
  if_neg (by simp [hf, hb, hs]; omega)

theorem exec_clockGate (s : State) (t : Nat) : exec (.clockGate t) s =
    .next (publish s (if bitsAt (sleepCfg s t) 0 8 == 0 then s else descend s t [.active] .gated)) := rfl

theorem exec_pllOff (s : State) (t : Nat) : exec (.pllOff t) s =
    .next (publish s (if bitsAt (sleepCfg s t) 8 8 == 0 then s else descend s t [.active, .gated] .pllOff)) := rfl

theorem exec_powerOff (s : State) (t : Nat) : exec (.powerOff t) s = .next (publish s
    (if bitsAt (sleepCfg s t) 16 8 == 0 || tileBound s t then s else descend s t [.active, .gated, .pllOff] .off)) := rfl

theorem exec_clockGate_off (h : bitsAt (sleepCfg s t) 0 8 = 0) : exec (.clockGate t) s = .next (publish s s) := by
  rw [exec_clockGate, if_pos (by simp [h])]

theorem exec_pllOff_off (h : bitsAt (sleepCfg s t) 8 8 = 0) : exec (.pllOff t) s = .next (publish s s) := by
  rw [exec_pllOff, if_pos (by simp [h])]

theorem exec_powerOff_off (h : bitsAt (sleepCfg s t) 16 8 = 0 ∨ tileBound s t = true) :
    exec (.powerOff t) s = .next (publish s s) := by
  rw [exec_powerOff, if_pos (by simpa using h)]

/-- R408: a tile in use does not descend. -/
theorem exec_sleep_busy (h : tileBusy s t = true) : exec (.clockGate t) s = .next (publish s s) ∧
    exec (.pllOff t) s = .next (publish s s) ∧ exec (.powerOff t) s = .next (publish s s) := by
  refine ⟨?_, ?_, ?_⟩
  · rw [exec_clockGate, descend_busy h, ite_self]
  · rw [exec_pllOff, descend_busy h, ite_self]
  · rw [exec_powerOff, descend_busy h, ite_self]

/-! ## Waking (R180, R408) -/

theorem foldl_scrubWell_regs (s : State) (ls : List Nat) : (ls.foldl scrubWell s).regs = s.regs :=
  List.foldlRecOn (motive := fun u : State => u.regs = s.regs) ls scrubWell rfl fun _ hu _ _ => hu

/-- R180: a scrubbed well holds zeros, and what holds zero is not written. -/
theorem cellGet_scrubWell (s : State) (l a : Nat) : cellGet 0 a (scrubWell s l).mem = if ownWell l a then 0 else cellGet 0 a s.mem := by
  refine (cellGet_filter (fun a => !(ownWell l a)) 0 a s.mem).trans ?_
  cases ownWell l a <;> simp

theorem cellGet_foldl_scrubWell {ls : List Nat} {l a : Nat} (h : l ∈ ls) (ha : ownWell l a = true) (s : State) :
    cellGet 0 a (ls.foldl scrubWell s).mem = 0 := by
  have hkeep (ls : List Nat) (s : State) (h0 : cellGet 0 a s.mem = 0) : cellGet 0 a (ls.foldl scrubWell s).mem = 0 :=
    List.foldlRecOn (motive := fun u : State => cellGet 0 a u.mem = 0) ls scrubWell h0 fun u hu k _ => by
      rw [cellGet_scrubWell, hu, ite_self]
  induction ls generalizing s with
  | nil => exact absurd h List.not_mem_nil
  | cons k r ih =>
    rcases List.mem_cons.mp h with rfl | h
    · exact hkeep r _ (by rw [cellGet_scrubWell, if_pos ha])
    · exact ih h _

/-- R408: a tile that may wake wakes. -/
theorem wakeTile_wakes (ht : t < 64) (hf : (tileOf s t).fenced = false) (hr : rfld s (rPW (0x100 + 4 * regionOfTile t)) 0 2 = 2)
    (ha : (tileOf s t).tier ≠ .active) : wakeTile t s = activate (if (tileOf s t).tier == .off then scrubTile s t else s) t :=
  if_neg (by simp [hf, hr, ha]; omega)

theorem tileOf_activate (s : State) (t : Nat) : (tileOf (activate s t) t).tier = .active := by
  rw [activate, show tileOf (putTile _ t _) t = _ from fget_fset_same ..]

theorem activate_mem (s : State) (t : Nat) : (activate s t).mem = s.mem := rfl
theorem activate_regs (s : State) (t : Nat) : (activate s t).regs = s.regs := rfl

/-- R180, R408: a tile that was off wakes with scrubbed wells. -/
theorem activate_scrubTile (s : State) (t : Nat) : (tileOf (activate (scrubTile s t) t) t).tier = .active ∧
    (∀ l off, t * 256 ≤ l → l < t * 256 + 256 → off < 0x400000 →
      cellGet 0 (wellBase l + off) (activate (scrubTile s t) t).mem = 0) ∧
    (activate (scrubTile s t) t).regs = s.regs := by
  refine ⟨tileOf_activate .., fun l off h1 h2 ho => ?_, ?_⟩
  · rw [activate_mem, scrubTile]
    have hend : wellBase (l + 1) = wellBase l + 0x400000 := by simp only [wellBase]; omega
    exact cellGet_foldl_scrubWell (mem_span.mpr ⟨h1, h2⟩) (by simp [ownWell, hend, ho]) s
  · rw [activate_regs, scrubTile, foldl_scrubWell_regs]

end

/-! ## Protective slow mode (R404) -/

/-- CK_PANEL_p.ctemp and cuv alone show the causes. -/
theorem showCauses_spec (s : State) (p : Nat) : rfld (showCauses s p) (rPanel p) 2 1 = rfld s (rPanel p) 2 1 ∧
    showCauses s p = { s with regs := (showCauses s p).regs } := by
  refine ⟨?_, rsetf_of_regs (rsetf_of_regs rfl _ _ _ _) _ _ _ _⟩
  rw [showCauses, rfld_rsetf_apart _ _ (by omega) (by omega), rfld_rsetf_apart _ _ (by omega) (by omega)]

/-- R404: a cause is noted. -/
def causeNoted (s : State) (cause : SlowCause) : State :=
  modBoot s fun b => { b with causes := if b.causes.contains cause then b.causes else b.causes ++ [cause] }

/-- R404: a cause is gone. -/
def causeGone (s : State) (cause : SlowCause) : State := modBoot s fun b => { b with causes := b.causes.filter (· != cause) }

theorem mem_causeNoted (s : State) (cause : SlowCause) : cause ∈ (causeNoted s cause).boot.causes := by
  by_cases hc : cause ∈ s.boot.causes <;> simp [causeNoted, modBoot, hc]

theorem not_mem_causeGone (s : State) (cause : SlowCause) : cause ∉ (causeGone s cause).boot.causes := by
  simp [causeGone, modBoot]

theorem exec_protectiveSlowEnter (s : State) (p : Nat) (cause : SlowCause) : exec (.protectiveSlowEnter p cause) s =
    .next (publish s (if !(causeFits p cause) then s else rsetf (showCauses (causeNoted s cause) p) (rPanel p) 2 1 1)) := rfl

theorem exec_protectiveCauseClear (s : State) (p : Nat) (cause : SlowCause) : exec (.protectiveCauseClear p cause) s =
    .next (publish s (if !(causeFits p cause) then s else showCauses (causeGone s cause) p)) := rfl

section
variable {s : State} {p : Nat} {cause : SlowCause} (h : causeFits p cause = true)
include h

theorem protectiveSlowEnter_spec : ∃ u, exec (.protectiveSlowEnter p cause) s = .next (publish s u) ∧ cause ∈ u.boot.causes ∧
    rfld u (rPanel p) 2 1 = 1 ∧ u = { s with regs := u.regs, boot := { s.boot with causes := u.boot.causes } } := by
  obtain ⟨r, hr⟩ : ∃ r, showCauses (causeNoted s cause) p = { causeNoted s cause with regs := r } := ⟨_, (showCauses_spec ..).2⟩
  rw [exec_protectiveSlowEnter, h, hr]
  exact ⟨_, rfl, mem_causeNoted s cause, rfld_rsetf_same _ _ (by omega) _, rfl⟩

theorem protectiveCauseClear_spec : ∃ u, exec (.protectiveCauseClear p cause) s = .next (publish s u) ∧ cause ∉ u.boot.causes ∧
    rfld u (rPanel p) 2 1 = rfld s (rPanel p) 2 1 := by
  obtain ⟨hslow, hshown⟩ := showCauses_spec (causeGone s cause) p
  rw [exec_protectiveCauseClear, h]
  refine ⟨_, rfl, ?_, hslow⟩
  rw [hshown]
  exact not_mem_causeGone s cause

end

/-! ## The power controller (R398, R410) -/

/-- R398: the regions' averages are shown. -/
def wattsShown (s : State) (watts : List Nat) (n : Nat) : State :=
  (List.range n).foldl (fun s r => rsetf s (rPW (0x100 + 4 * r)) 16 11 (min 2047 (watts[r]?.getD 0))) s

theorem wattsShown_succ (s : State) (watts : List Nat) (n : Nat) : wattsShown s watts (n + 1) =
    rsetf (wattsShown s watts n) (rPW (0x100 + 4 * n)) 16 11 (min 2047 (watts[n]?.getD 0)) := by
  rw [wattsShown, List.range_succ, List.foldl_append]
  rfl

theorem wattsShown_eq (s : State) (watts : List Nat) (n : Nat) : wattsShown s watts n = { s with regs := (wattsShown s watts n).regs } :=
  List.foldlRecOn (motive := fun u : State => u = { s with regs := u.regs }) _ _ rfl fun _ hu _ _ => rsetf_of_regs hu ..

theorem wattsShown_mem (s : State) (watts : List Nat) (n : Nat) : (wattsShown s watts n).mem = s.mem := by rw [wattsShown_eq]

theorem wattsShown_cores (s : State) (watts : List Nat) (n : Nat) : (wattsShown s watts n).cores = s.cores := by rw [wattsShown_eq]

theorem rfld_wattsShown (s : State) (watts : List Nat) {n r : Nat} (hr : r < n) :
    rfld (wattsShown s watts n) (rPW (0x100 + 4 * r)) 16 11 = min 2047 (watts[r]?.getD 0) := by
  induction n with
  | zero => omega
  | succ n ih =>
    rw [wattsShown_succ]
    by_cases hn : r = n
    · subst hn
      rw [rfld_rsetf_same _ _ (by omega)]
      exact Nat.mod_eq_of_lt (by omega)
    · rw [rfld_rsetf_ne (by simp only [rPW]; omega)]
      exact ih (by omega)

/-- R410: PW_TEMP of a sample. -/
def tempWord (temps : TempSample) : Nat :=
  temps.tmax % 256 + temps.tile % 64 * 2 ^ 8 + temps.rmax % 256 * 2 ^ 14 + temps.rdie % 32 * 2 ^ 22

/-- R398: how much issue is withheld. -/
def capped (s : State) (total : Nat) (regions : FMap Nat) : State := modBoot s fun b => { b with capTotal := total, capRegion := regions }

section
variable (s : State) (n : Nat) (m : FMap Nat)

theorem capped_mem : (capped s n m).mem = s.mem := rfl
theorem capped_cores : (capped s n m).cores = s.cores := rfl
theorem rfld_capped (o lo w : Nat) : rfld (capped s n m) o lo w = rfld s o lo w := rfl

end

theorem sample_spec (s : State) (watts : List Nat) (rimW : Nat) (temps : TempSample) :
    (sample watts rimW temps s).boot.capTotal = capStep s.boot.capTotal (((List.range 16).map fun r => watts[r]?.getD 0).sum + rimW)
      (100 * rfld s (rPW 0x200) 0 8) ∧
    (∀ r < 16, rfld (sample watts rimW temps s) (rPW (0x100 + 4 * r)) 16 11 = min 2047 (watts[r]?.getD 0)) ∧
    rfld (sample watts rimW temps s) (rPW 0x400) 0 8 = temps.tmax % 256 ∧ (sample watts rimW temps s).mem = s.mem ∧
    (sample watts rimW temps s).cores = s.cores := by
  obtain ⟨cr, c, hdef⟩ : ∃ cr c, sample watts rimW temps s =
      rsetf (capped (rput (wattsShown s watts 16) (rPW 0x400) (tempWord temps)) (capStep s.boot.capTotal
        (((List.range 16).map fun r => watts[r]?.getD 0).sum + rimW) (100 * rfld s (rPW 0x200) 0 8)) cr) (rPW 0) 3 1 c := ⟨_, _, rfl⟩
  rw [hdef]
  refine ⟨by rw [rsetf_boot]; rfl, fun r hr => ?_, ?_, ?_, ?_⟩
  · rw [rfld_rsetf_ne (by simp only [rPW]; omega), rfld_capped, rfld, rget_rput_ne (by simp only [rPW]; omega)]
    exact rfld_wattsShown s watts hr
  · rw [rfld_rsetf_ne (by simp only [rPW]; omega), rfld_capped, rfld, rget_rput_same, bitsAt, tempWord]
    omega
  · rw [rsetf_mem, capped_mem, rput_mem, wattsShown_mem]
  · rw [rsetf_cores, capped_cores, rput_cores, wattsShown_cores]

/-! ## The ends of slow mode and of a loss of lock (R352, R404) -/

theorem exec_pllLockLoss (s : State) (t : Nat) (pll : Pll) : exec (.pllLockLoss t pll) s = .next (publish s
    (if 63 < t || (tileOf s t).fenced || (tileOf s t).pllLost.contains pll then s
      else putTile s t { tileOf s t with pllLost := (tileOf s t).pllLost ++ [pll] })) := rfl

theorem exec_pllRelock (s : State) (t : Nat) (pll : Pll) : exec (.pllRelock t pll) s = .next (publish s
    (if (tileOf s t).pllLost.contains pll then
      rcount (putTile s t { tileOf s t with pllLost := (tileOf s t).pllLost.filter (· != pll) }) (rPW 0x8020) 1 else s)) := rfl

theorem exec_protectiveSlowExit (s : State) (p : Nat) : exec (.protectiveSlowExit p) s = .next (publish s
    (if 1 < p || s.boot.causes.any (fun c => causePanel c == p) then s else rsetf s (rPanel p) 2 1 0)) := rfl

/-! ## Supplies (R396, R416) -/

/-- R396: PW_STAT shows the supplies. -/
theorem rfld_showPower (s : State) : rfld (showPower s) (rPW 0) 0 3 =
    s.boot.rim.toNat + 2 * s.boot.standby.toNat + 4 * (s.boot.rim && !s.boot.standby).toNat := by
  rw [showPower, rfld_rsetf_same _ _ (by omega)]
  cases s.boot.rim <;> cases s.boot.standby <;> rfl

/-- R418: what a cold reset leaves of the contexts' and the cores' work, and of the supplies. -/
theorem coldCore_spec (s : State) (up : Bool) : (coldCore s up).cores = [] ∧ (coldCore s up).ctxs = [] ∧ (coldCore s up).journal = [] ∧
    (coldCore s up).otp = s.otp ∧ (coldCore s up).flash = (failTrial s).flash ∧ (coldCore s up).boot.standby = s.boot.standby ∧
    (coldCore s up).boot.rim = s.boot.rim := by
  unfold coldCore
  rw [failTrial_eq s]
  cases up <;> exact ⟨rfl, rfl, rfl, rfl, rfl, rfl, rfl⟩

theorem requestReset_rim (s : State) (k : ResetKind) (b : Nat) : (requestReset s k b).boot.rim = s.boot.rim := by
  unfold requestReset
  split <;> rfl

theorem failTrial_flash {s : State} (h : s.boot.trialRun = none) : (failTrial s).flash = s.flash := by rw [failTrial, h]

end Sys2Proof.Machine

namespace Sys2Proof.Proofs

open Sys2Proof.Machine

/-- Settles O49, by the rules of the tiers, the panels, the samples and the supplies. -/
theorem powerAndSleep : Obligations.PowerAndSleep := by
  unfold Obligations.PowerAndSleep
  intro s t p cause pll watts rimW temps
  dsimp only
  refine ⟨fun h => ?_, fun h => ?_, fun h => ?_, fun ht hf hb => ⟨fun hc hs => ?_, fun hc hs => ?_, fun hc hs hbound => ?_⟩, fun h => ?_,
    fun ht hf hr => ⟨fun hs => ⟨?_, rfl, rfl⟩, fun hs => ?_, fun hs => ?_⟩, fun ht hf hp => ?_, fun hp => ?_,
    fun h => ⟨protectiveSlowEnter_spec h, protectiveCauseClear_spec h⟩, fun hp hc => ?_, fun hp hc => ?_,
    ⟨_, rfl, sample_spec s watts rimW temps⟩, ?_, fun hst hrim => ⟨?_, ?_, ?_, ?_⟩, fun hst hrim => ?_, fun hst hrim htrial => ?_,
    fun hst hrim hp => ?_⟩
  · rcases h with h | h
    · exact exec_clockGate_off h
    · exact (exec_sleep_busy h).1
  · rcases h with h | h
    · exact exec_pllOff_off h
    · exact (exec_sleep_busy h).2.1
  · rcases h with h | h | h
    · exact exec_powerOff_off (.inl h)
    · exact (exec_sleep_busy h).2.2
    · exact exec_powerOff_off (.inr h)
  · rw [exec_clockGate, if_neg (by simp [hc]), descend_idle ht hf hb (by simp [hs])]
  · rw [exec_pllOff, if_neg (by simp [hc]), descend_idle ht hf hb hs]
  · rw [exec_powerOff, if_neg (by simp [hc, hbound]), descend_idle ht hf hb hs]
  · rw [sleepCfg, h]
    rfl
  · have hoff : ((tileOf s t).tier == .off) = false := by rcases List.mem_pair.mp hs with hs | hs <;> rw [hs] <;> rfl
    refine shown_eq ((wakeTile_wakes ht hf hr ?_).trans (by rw [hoff]; rfl))
    rcases List.mem_pair.mp hs with hs | hs <;> rw [hs] <;> decide
  · exact ⟨_, shown_eq (f := wakeTile t) ((wakeTile_wakes ht hf hr (by rw [hs]; decide)).trans (by rw [hs]; rfl)), activate_scrubTile s t⟩
  · exact shown_eq (f := wakeTile t) (if_pos (by simp [hs]))
  · rw [exec_pllLockLoss, if_neg (by simp [hf, hp]; omega)]
  · rw [exec_pllRelock, if_pos (by simpa using hp)]
  · rw [exec_protectiveSlowExit, if_neg (by simpa using ⟨by omega, hc⟩)]
    rfl
  · rw [exec_protectiveSlowExit, if_pos (Bool.or_eq_true_iff.mpr (.inr (List.any_eq_true.mpr (hc.imp fun c h => ⟨h.1, by simp [h.2]⟩))))]
  · refine ⟨_, rfl, rfl, rfld_rsetf_same _ _ (by omega) _, fun hp => ?_⟩
    obtain ⟨hpending, hcause, -⟩ := (resetAsked_requestReset s .warm (b := 4) (by omega)).1 hp
    exact ⟨hpending, (rfld_rsetf_ne (by decide) ..).trans hcause⟩
  · refine ⟨_, shown_eq ((if_neg (by simp [hst])).trans (if_neg (by simp [hrim]))), rfl, ?_, rfl, rfl⟩
    rw [rfld_showPower]
    simp [modBoot, hrim]
  · obtain ⟨hcores, hctxs, hjournal, hotp, -, hstandby, -⟩ := coldCore_spec s true
    exact ⟨_, shown_eq ((if_neg (by simp [hrim])).trans (if_neg (by simp [hst]))), rfl, hstandby.trans hst, hcores, hctxs, hjournal, hotp⟩
  · exact shown_eq (if_pos (by simp [hst]))
  · exact shown_eq (if_pos hrim)
  · refine ⟨_, shown_eq (if_pos (by simp [hst, hrim])), rfl, ?_, rfl⟩
    rw [rfld_showPower]
    simp [modBoot, hrim]
  · obtain ⟨-, hctxs, -, hotp, hflash, hstandby, -⟩ := coldCore_spec (modBoot s fun b => { b with standby := true }) false
    exact ⟨_, shown_eq (if_neg (by simp [hst, hrim])), hstandby, rget_rput_same .., hctxs, hotp,
      hflash.trans (failTrial_flash htrial)⟩
  · obtain ⟨hpending, hcause, -⟩ :=
      (resetAsked_requestReset (showPower (modBoot s fun b => { b with rim := true })) .cold (b := 7) (by omega)).1 hp
    exact ⟨_, shown_eq ((if_neg (by simp [hrim])).trans (if_pos hst)), requestReset_rim .., hpending, hcause⟩

end Sys2Proof.Proofs
end

section
/-! SUPPORT. Steps of the bring-up: WH_BRING_STAT, sources, the self test (R419, R420). -/

namespace Sys2Proof.Machine

/-! ## A step has completed or failed (R417, R419, R420) -/

section
variable (s : State) (t st : Nat)

theorem stepDone_eq : stepDone s t = { s with regs := (stepDone s t).regs, boot := { s.boot with stepAt := s.now } } := by
  have h (x : State) (a b c d e f g h i : Nat) : rsetf (rsetf (rsetf x 0x108 a b c) 0x108 d e f) 0x108 g h i =
      { x with regs := (rsetf (rsetf (rsetf x 0x108 a b c) 0x108 d e f) 0x108 g h i).regs } :=
    rsetf_of_regs (rsetf_of_regs (rsetf_of_regs rfl _ _ _ _) _ _ _ _) _ _ _ _
  exact h { s with boot := { s.boot with stepAt := s.now } } ..

@[simp] theorem stepDone_mem : (stepDone s t).mem = s.mem := by rw [stepDone_eq]
@[simp] theorem stepDone_cores : (stepDone s t).cores = s.cores := by rw [stepDone_eq]
@[simp] theorem stepDone_tiles : (stepDone s t).tiles = s.tiles := by rw [stepDone_eq]
@[simp] theorem stepDone_flash : (stepDone s t).flash = s.flash := by rw [stepDone_eq]
@[simp] theorem stepDone_casc : (stepDone s t).casc = s.casc := by rw [stepDone_eq]
@[simp] theorem stepDone_selfRefresh : (stepDone s t).selfRefresh = s.selfRefresh := by rw [stepDone_eq]
@[simp] theorem stepDone_boot : (stepDone s t).boot = { s.boot with stepAt := s.now } := by rw [stepDone_eq]

theorem rfld_stepDone_ne {o : Nat} (h : o ≠ 0x108) (lo w : Nat) : rfld (stepDone s t) o lo w = rfld s o lo w := by
  rw [stepDone, rfld_rsetf_ne h, rfld_rsetf_ne h, rfld_rsetf_ne h]
  rfl

/-- R419: WH_BRING_STAT shows the step. -/
theorem rfld_stepDone_step : rfld (stepDone s t) 0x108 0 4 = t % 16 := by
  rw [stepDone, rfld_rsetf_apart _ _ (by omega) (by omega), rfld_rsetf_apart _ _ (by omega) (by omega), rfld_rsetf_same _ _ (by omega)]
  rfl

/-- R417, R419: bring-up goes on towards its target, where no reset is on its way. -/
theorem rfld_stepDone_busy : rfld (stepDone s t) 0x108 4 1 =
    (rfld s 0x108 4 1 == 1 && t < s.boot.target && s.boot.resetPending.isNone).toNat := by
  rw [stepDone, rfld_rsetf_apart _ _ (by omega) (by omega), rfld_rsetf_same _ _ (by omega)]
  exact Nat.mod_eq_of_lt (Bool.toNat_lt _)

theorem stepFail_eq : stepFail s st = { s with regs := (stepFail s st).regs } :=
  rsetf_of_regs (rsetf_of_regs (rsetf_of_regs (rsetf_of_regs rfl _ _ _ _) _ _ _ _) _ _ _ _) _ _ _ _

@[simp] theorem stepFail_mem : (stepFail s st).mem = s.mem := by rw [stepFail_eq]
@[simp] theorem stepFail_boot : (stepFail s st).boot = s.boot := by rw [stepFail_eq]

theorem rfld_stepFail_step : rfld (stepFail s st) 0x108 0 4 = rfld s 0x108 0 4 := by
  rw [stepFail, rfld_rsetf_apart _ _ (by omega) (by omega), rfld_rsetf_apart _ _ (by omega) (by omega),
    rfld_rsetf_apart _ _ (by omega) (by omega), rfld_rsetf_apart _ _ (by omega) (by omega)]

/-- R420: a failed step stops bring-up and leaves its status. -/
theorem rfld_stepFail {st : Nat} (h : st < 65536) : rfld (stepFail s st) 0x108 5 1 = 1 ∧ rfld (stepFail s st) 0x108 4 1 = 0 ∧
    rfld (stepFail s st) 0x108 16 16 = st := by
  refine ⟨?_, ?_, (rfld_rsetf_same _ _ (by omega) _).trans (Nat.mod_eq_of_lt h)⟩
  · rw [stepFail, rfld_rsetf_apart _ _ (by omega) (by omega), rfld_rsetf_same _ _ (by omega)]
    rfl
  · rw [stepFail, rfld_rsetf_apart _ _ (by omega) (by omega), rfld_rsetf_apart _ _ (by omega) (by omega),
      rfld_rsetf_apart _ _ (by omega) (by omega), rfld_rsetf_same _ _ (by omega), Nat.zero_mod]

end

/-! ## Which step is due (R419) -/

section
variable {s : State} {t : Nat}

theorem stepDue_iff : stepDue s t = true ↔ (t < 3 ∨ s.boot.rim = true) ∧ rfld s 0x108 4 1 = 1 ∧ rfld s 0x108 5 1 = 0 ∧
    rfld s 0x108 0 4 + 1 = t ∧ t ≤ s.boot.target ∧ s.boot.resetPending ≠ some .cold := by
  have hstep : rfld s 0x108 0 4 = bringStep s := rfl
  simp only [stepDue, hstep, Bool.and_eq_true, Bool.or_eq_true, decide_eq_true_eq, beq_iff_eq, bne_iff_ne, and_assoc]

theorem stepDue_rimLost (ht : 3 ≤ t) (h : s.boot.rim = false) : stepDue s t = false :=
  Bool.eq_false_iff.mpr fun hd => by
    obtain ⟨hrim, -⟩ := stepDue_iff.mp hd
    rcases hrim with hrim | hrim
    · omega
    · simp [h] at hrim

theorem takeSource_idle (h : stepDue s 3 = false) : takeSource s = s := if_neg (by simp [h])

theorem takeSource_due (h : stepDue s 3 = true) :
    takeSource s = stepDone (modBoot s fun b => { b with src := rfld s 0x100 0 1 == 1 }) 3 := if_pos h

end

/-! ## The bring-up command (R419) -/

/-- R419: a bring-up command has been taken. -/
def bringTaken (s : State) (t : Nat) : State := rsetf (modBoot s fun b => { b with target := t, stepAt := s.now }) 0x108 4 1 1

section
variable {s : State} {t : Nat}

theorem rfld_bringTaken : rfld (bringTaken s t) 0x108 4 1 = 1 ∧ rfld (bringTaken s t) 0x108 0 4 = rfld s 0x108 0 4 ∧
    rfld (bringTaken s t) 0x108 5 1 = rfld s 0x108 5 1 ∧ rfld (bringTaken s t) 0x100 0 1 = rfld s 0x100 0 1 := by
  refine ⟨rfld_rsetf_same _ _ (by omega) _, ?_, ?_, rfld_rsetf_ne (by omega) ..⟩
  · rw [bringTaken, rfld_rsetf_apart _ _ (by omega) (by omega)]
    rfl
  · rw [bringTaken, rfld_rsetf_apart _ _ (by omega) (by omega)]
    rfl

theorem bringCmd_refused (h : rfld s 0x108 4 1 = 1 ∨ t = 0 ∨ 10 < t ∨ t ≤ rfld s 0x108 0 4) :
    bringCmd t s = rsetf (rsetf s 0x108 7 1 1) 0x108 16 16 0x1601 :=
  if_pos (by
    have hstep : rfld s 0x108 0 4 = bringStep s := rfl
    simpa only [hstep, Bool.or_eq_true, beq_iff_eq, decide_eq_true_eq, or_assoc] using h)

theorem bringCmd_taken (hb : rfld s 0x108 4 1 = 0) (hf : rfld s 0x108 5 1 = 0) (h1 : 1 ≤ t) (h10 : t ≤ 10)
    (ht : rfld s 0x108 0 4 < t) : bringCmd t s = takeSource (bringTaken s t) := by
  have hstep : bringStep s = rfld s 0x108 0 4 := rfl
  exact (if_neg (by simp [hb, hstep]; omega)).trans (if_neg (by simp [hf]))

/-- Table 17.3 step 3: from step 2 on, step 3 is taken with the command. -/
theorem bringCmd_third (hb : rfld s 0x108 4 1 = 0) (hf : rfld s 0x108 5 1 = 0) (h10 : t ≤ 10) (h2 : rfld s 0x108 0 4 = 2) (ht : 2 < t)
    (hr : s.boot.rim = true) (hp : s.boot.resetPending = none) : rfld (bringCmd t s) 0x108 0 4 = 3 ∧
      (bringCmd t s).boot.src = (rfld s 0x100 0 1 == 1) ∧ rfld (bringCmd t s) 0x108 4 1 = (if t = 3 then 0 else 1) ∧
      (bringCmd t s).mem = s.mem ∧ (bringCmd t s).cores = s.cores := by
  obtain ⟨hbusy, hstep, hfail, hsrc⟩ := rfld_bringTaken (s := s) (t := t)
  have hdue : stepDue (bringTaken s t) 3 = true :=
    stepDue_iff.mpr ⟨.inr hr, hbusy, hfail.trans hf, by rw [hstep, h2], ht, by show s.boot.resetPending ≠ _; rw [hp]; simp⟩
  rw [bringCmd_taken hb hf (by omega) h10 (by omega), takeSource_due hdue]
  refine ⟨rfld_stepDone_step .., ?_, ?_, ?_, ?_⟩
  · rw [stepDone_boot, hsrc]
    rfl
  · rw [rfld_stepDone_busy]
    have hgo : (rfld (modBoot (bringTaken s t) fun b => { b with src := rfld (bringTaken s t) 0x100 0 1 == 1 }) 0x108 4 1 == 1) = true :=
      beq_iff_eq.mpr hbusy
    have hnone : (modBoot (bringTaken s t) fun b => { b with src := rfld (bringTaken s t) 0x100 0 1 == 1 }).boot.resetPending = none := hp
    have htarget : (modBoot (bringTaken s t) fun b => { b with src := rfld (bringTaken s t) 0x100 0 1 == 1 }).boot.target = t := rfl
    rw [hgo, hnone, htarget]
    by_cases h3 : t = 3
    · simp [h3]
    · have h3' : 3 < t := by omega
      simp [h3, h3']
  · rw [stepDone_mem]
    rfl
  · rw [stepDone_cores]
    rfl

end

/-! ## The self test (R420) -/

section
variable {s : State} (h1 : rfld s 0x108 0 4 ≤ 1) (hf : rfld s 0x108 5 1 = 0) (hp : s.boot.standby = true ∨ s.boot.rim = true)
include h1 hf hp

theorem selfTest_runs : ¬(1 < bringStep s || rfld s 0x108 5 1 == 1 || !(s.boot.standby || s.boot.rim)) = true := by
  have hstep : bringStep s = rfld s 0x108 0 4 := rfl
  rcases hp with hp | hp <;> simp [hstep, hf, hp, h1]

theorem selfTest_bad : selfTest false s = stepFail s 0xF601 := (if_neg (selfTest_runs h1 hf hp)).trans (if_pos rfl)

theorem selfTest_unidentified (hi : identityOk s = false) : selfTest true s = stepFail (stepDone s 1) 0xF604 :=
  (if_neg (selfTest_runs h1 hf hp)).trans ((if_neg (by simp)).trans (if_pos (by simp [hi])))

theorem selfTest_identified (hi : identityOk s = true) : selfTest true s = takeSource (showOtp (showPower (stepDone s 2))) :=
  (if_neg (selfTest_runs h1 hf hp)).trans ((if_neg (by simp)).trans (if_neg (by simp [hi])))

end

theorem rfld_shown (s : State) (lo w : Nat) : rfld (showOtp (showPower s)) 0x108 lo w = rfld s 0x108 lo w := by
  rw [rfld, rget_showOtp_ne (by decide), rget_showPower_ne (by decide), rfld]

/-- R419: no command asked for step 3, so that the self test ends bring-up. -/
theorem selfTest_ends {s : State} (hb : rfld s 0x108 4 1 = 0) : takeSource (showOtp (showPower (stepDone s 2))) =
    showOtp (showPower (stepDone s 2)) := by
  refine takeSource_idle (Bool.eq_false_iff.mpr fun hd => ?_)
  obtain ⟨-, hbusy, -⟩ := stepDue_iff.mp hd
  rw [rfld_shown, rfld_stepDone_busy, hb] at hbusy
  simp at hbusy

theorem selfTest_ended (s : State) : rfld (showOtp (showPower (stepDone s 2))) 0x108 0 4 = 2 ∧
    showOtp (showPower (stepDone s 2)) = { s with
      regs := (showOtp (showPower (stepDone s 2))).regs
      boot := { s.boot with stepAt := s.now } } := by
  refine ⟨(rfld_shown ..).trans (rfld_stepDone_step ..), ?_⟩
  rw [stepDone_eq]
  rfl

/-! ## Heartbeat and watchdog (R428, R429) -/

theorem rget64_rput64_mod (s : State) (o v : Nat) : rget64 (rput64 s o v) o = v % 2 ^ 64 := by
  rw [rget64, rput64, rget_rput_same, rget_rput_ne (by omega), rget_rput_same]
  omega

section
variable {s : State}

theorem beat_spec : rget64 (rsetf (modBoot (rput64 s 0x124 (rget64 s 0x124 + 1)) fun b => { b with beatSeen := true }) 0x120 4 4 0) 0x124 =
      (rget64 s 0x124 + 1) % 2 ^ 64 ∧
    rfld (rsetf (modBoot (rput64 s 0x124 (rget64 s 0x124 + 1)) fun b => { b with beatSeen := true }) 0x120 4 4 0) 0x120 4 4 = 0 := by
  refine ⟨?_, rfld_rsetf_same _ _ (by omega) _⟩
  rw [rget64_rsetf_ne (by decide) (by decide)]
  exact rget64_rput64_mod ..

/-- R429: a beat is missing. -/
def beatMissed (s : State) : State := rcountF s 0x120 4 4 1

theorem rfld_beatMissed : rfld (beatMissed s) 0x120 4 4 = min 15 (rfld s 0x120 4 4 + 1) ∧
    rfld (beatMissed s) 0x120 0 4 = rfld s 0x120 0 4 := by
  refine ⟨(rfld_rsetf_same _ _ (by omega) _).trans (Nat.mod_eq_of_lt (by omega)), rfld_rsetf_apart _ _ (by omega) (by omega) _⟩

theorem watchdog_unarmed (h : s.boot.wdogArmed = false) : watchdog s = s := if_pos (by simp [h])

theorem watchdog_beat (h : s.boot.wdogArmed = true) (hb : s.boot.beatSeen = true) :
    watchdog s = modBoot s fun b => { b with beatSeen := false } := (if_neg (by simp [h])).trans (if_pos hb)

theorem watchdog_missed (h : s.boot.wdogArmed = true) (hb : s.boot.beatSeen = false) : watchdog s =
    if rfld s 0x120 0 4 ≠ 0 ∧ rfld s 0x120 0 4 ≤ min 15 (rfld s 0x120 4 4 + 1) then requestReset (beatMissed s) .warm 2
    else beatMissed s := by
  obtain ⟨hcount, hlimit⟩ := rfld_beatMissed (s := s)
  have hcond : (rfld (beatMissed s) 0x120 0 4 != 0 && rfld (beatMissed s) 0x120 0 4 ≤ rfld (beatMissed s) 0x120 4 4) = true ↔
      rfld s 0x120 0 4 ≠ 0 ∧ rfld s 0x120 0 4 ≤ min 15 (rfld s 0x120 4 4 + 1) := by
    rw [hcount, hlimit, Bool.and_eq_true, bne_iff_ne, decide_eq_true_eq]
  refine (if_neg (by simp [h])).trans ((if_neg (by simp [hb])).trans ?_)
  exact if_congr hcond rfl rfl

end

end Sys2Proof.Machine
end

section
/-! SUPPORT. Steps 4 to 7: firmware, regions, links, LPDDR (R420 to R422, R425 to R427, R452). -/

namespace Sys2Proof.Machine

/-! ## Step 4 (R443, R449, R452) -/

/-- R449: `t` is `s` after a half of the data area has come into use. -/
def dataOpened (s t : State) : Prop := ∃ c d w o, t = { s with chans := c, djOver := d, dataWriter := w, dataOld := o }

theorem dataOpened_useHalf (s : State) (h : DataHalf) : dataOpened s (useHalf s h) := by
  have hrows : ∃ c, (List.range 384).foldl (fun s c =>
      let r := fget ([], []) c h.rows
      let x := chanSt s c
      if x.queue == r.1 && x.repaired == r.2 then s else putChan s c { x with queue := r.1, repaired := r.2 }) s = { s with chans := c } := by
    refine List.foldlRecOn (motive := fun t : State => ∃ c, t = { s with chans := c }) _ _ ⟨_, rfl⟩ fun t ht k _ => ?_
    obtain ⟨c, rfl⟩ := ht
    dsimp only
    split
    · exact ⟨_, rfl⟩
    · exact ⟨_, rfl⟩
  obtain ⟨c, hrows⟩ := hrows
  exact ⟨c, h.log, _, _, by rw [useHalf, hrows]⟩

theorem dataOpened_openData (s : State) (h : List W8) : dataOpened s (openData s h) := by
  have huse (x : DataHalf) (w : List W8) (o : Option DataHalf) : dataOpened s { useHalf s x with dataWriter := w, dataOld := o } := by
    obtain ⟨_, _, _, _, hu⟩ := dataOpened_useHalf s x
    rw [hu]
    exact ⟨_, _, _, _, rfl⟩
  unfold openData
  dsimp only
  split
  · exact ⟨_, _, _, _, rfl⟩
  · split
    · exact ⟨_, _, _, _, rfl⟩
    · split
      · split
        · exact ⟨_, _, _, _, rfl⟩
        · exact huse ..
      · split
        · exact ⟨_, _, _, _, rfl⟩
        · obtain ⟨_, _, _, _, hu⟩ := dataOpened_useHalf s _
          rw [hu]
          exact ⟨_, _, _, _, rfl⟩

/-- R443: writing a generation programs OTP alone. -/
theorem spendGeneration_eq (s : State) : ∃ o, spendGeneration s = { s with otp := o } := by
  unfold spendGeneration
  split
  · exact ⟨_, rfl⟩
  · split
    · exact List.foldlRecOn (motive := fun t : State => ∃ o, t = { s with otp := o }) _ _ ⟨_, rfl⟩ fun t ht k _ => by
        obtain ⟨_, rfl⟩ := ht
        exact ⟨_, rfl⟩
    · exact ⟨_, rfl⟩

/-- R443: the image that runs may write a generation. -/
theorem lastGeneration_frame (s : State) : (lastGeneration s).boot = s.boot ∧ (lastGeneration s).flash = s.flash ∧
    (lastGeneration s).mem = s.mem ∧ ∀ o, o ≠ 0x8000 → rget (lastGeneration s) o = rget s o := by
  unfold lastGeneration raiseReason
  split
  · exact ⟨rfl, rfl, rfl, fun o ho => by rw [rget_rsetf_ne ho, rget_rsetf_ne ho]⟩
  · exact ⟨rfl, rfl, rfl, fun _ _ => rfl⟩

/-- R452: an image from a bank has been taken: its header, its bank and version, the watchdog. -/
def imageTaken (s : State) (h : List W8) (bank : Nat) : State :=
  let s1 := modBoot s fun b => { b with fwHdr := h, fwHost := none, trialRun := if bankState s bank == 1 then some bank else none,
                                        wdogArmed := true, beatSeen := false, recovery := false, mboxBy := none, mbox := [],
                                        mboxDone := false }
  rput (rput (rsetf s1 0x120 4 4 0) (rFW 0) bank) (rFW 4) (leAt h 8 4)

theorem runImage_bank (s : State) (h : List W8) (bank : Nat) :
    runImage s h bank none = stepDone (lastGeneration (spendGeneration (imageTaken s h bank))) 4 := rfl

theorem imageTaken_frame (s : State) (h : List W8) (bank : Nat) : (imageTaken s h bank).flash = s.flash ∧
    (imageTaken s h bank).mem = s.mem ∧ (imageTaken s h bank).boot.fwHdr = h ∧ (imageTaken s h bank).boot.wdogArmed = true ∧
    (imageTaken s h bank).boot.recovery = false := by
  simp only [imageTaken, rput_flash, rsetf_flash, rput_mem, rsetf_mem, rput_boot, rsetf_boot]
  exact ⟨rfl, rfl, rfl, rfl, rfl⟩

theorem rfld_imageTaken (s : State) (h : List W8) {bank : Nat} (hb : bank < 2) :
    rfld (imageTaken s h bank) (rFW 0) 0 1 = bank ∧ rfld (imageTaken s h bank) 0x120 4 4 = 0 := by
  unfold imageTaken
  refine ⟨?_, ?_⟩
  · rw [rfld, rget_rput_ne (by decide), rget_rput_same, bitsAt]
    omega
  · rw [rfld, rget_rput_ne (by decide), rget_rput_ne (by decide)]
    exact rfld_rsetf_same _ _ (by omega) _

/-- R452: what the start of an image from a bank shows. -/
theorem runImage_spec (s : State) (h : List W8) {bank : Nat} (hb : bank < 2) :
    rfld (runImage s h bank none) 0x108 0 4 = 4 ∧ rfld (runImage s h bank none) (rFW 0) 0 1 = bank ∧
    (runImage s h bank none).boot.fwHdr = h ∧ (runImage s h bank none).boot.wdogArmed = true ∧
    (runImage s h bank none).boot.recovery = false ∧ rfld (runImage s h bank none) 0x120 4 4 = 0 ∧
    (runImage s h bank none).flash = s.flash ∧ (runImage s h bank none).mem = s.mem := by
  obtain ⟨o, hspend⟩ := spendGeneration_eq (imageTaken s h bank)
  obtain ⟨hboot, hflash, hmem, hreg⟩ := lastGeneration_frame { imageTaken s h bank with otp := o }
  obtain ⟨hbank, hbeats⟩ := rfld_imageTaken s h hb
  obtain ⟨hflash', hmem', hhdr, harmed, hrec⟩ := imageTaken_frame s h bank
  have hfld {k : Nat} (h8 : k ≠ 0x8000) (lo w : Nat) : rfld (lastGeneration { imageTaken s h bank with otp := o }) k lo w =
      rfld (imageTaken s h bank) k lo w := by rw [rfld, hreg k h8]; rfl
  rw [runImage_bank, hspend, stepDone_boot, hboot, stepDone_flash, hflash, stepDone_mem, hmem]
  refine ⟨rfld_stepDone_step .., ?_, hhdr, harmed, hrec, ?_, hflash', hmem'⟩
  · rw [rfld_stepDone_ne _ _ (by decide), hfld (by decide), hbank]
  · rw [rfld_stepDone_ne _ _ (by decide), hfld (by decide), hbeats]

theorem lt_two_of_bankOrder {s : State} {k : Nat} (h : k ∈ bankOrder s) : k < 2 := by
  have hmem := List.mem_of_mem_filter h
  split at hmem <;> simp at hmem <;> omega

section
variable {s : State} {a b : Bool} (hd : stepDue s 4 = true)
include hd

/-- R452: step 4 from flash. -/
theorem firmwareStart_flash (hs : s.boot.src = false) : exec (.firmwareStart a b) s = .next (publish s (startFlash a b s)) :=
  shown_eq (f := fun s => if !(stepDue s 4) then s else if s.boot.src then startHost a s else startFlash a b s)
    ((if_neg (by simp [hd])).trans (if_neg (by simp [hs])))

/-- R454: step 4 from the mailbox waits for the package. -/
theorem firmwareStart_waits (hs : s.boot.src = true) (hm : s.boot.mboxDone = false) :
    exec (.firmwareStart a b) s = .next (publish s s) :=
  shown_eq (f := fun s => if !(stepDue s 4) then s else if s.boot.src then startHost a s else startFlash a b s)
    ((if_neg (by simp [hd])).trans ((if_pos hs).trans (if_pos (by simp [hm]))))

end

theorem firmwareStart_none {s : State} (hd : stepDue s 4 = false) (a b : Bool) : exec (.firmwareStart a b) s = .next (publish s s) :=
  shown_eq (f := fun s => if !(stepDue s 4) then s else if s.boot.src then startHost a s else startFlash a b s) (if_pos (by simp [hd]))

section
variable {s : State} {a b : Bool}

theorem startFlash_runs {k : Nat} (h : (bankOrder s).find? (fun k => if k == 0 then a else b) = some k) :
    startFlash a b s = runImage (openData s (bankHead s k)) (bankHead s k) k none := by rw [startFlash, h]

theorem startFlash_none (h : (bankOrder s).find? (fun k => if k == 0 then a else b) = none) : startFlash a b s = noImage s := by
  rw [startFlash, h]

end

/-! ## Step 5 (R180, R421) -/

/-- R423, R441: the defect map is made of OTP, of the overflow log, and of the image's format. -/
theorem genInUse_congr {s t : State} (ho : t.otp = s.otp) (hb : t.boot.fwHdr = s.boot.fwHdr) : genInUse t = genInUse s := by
  have hgen (g : Nat) : generation t g = generation s g := by rw [generation, otpBytes, ho, generation, otpBytes]
  have hvalid (g : Nat) : genValid t g = genValid s g := by rw [genValid, hgen, genValid]
  simp only [genInUse, hvalid, hgen, hb]

theorem defectEntries_congr {s t : State} (ho : t.otp = s.otp) (hd : t.djOver = s.djOver) (hb : t.boot.fwHdr = s.boot.fwHdr) :
    defectEntries t = defectEntries s := by
  have hgen (g : Nat) : generation t g = generation s g := by rw [generation, otpBytes, ho, generation, otpBytes]
  have hused : djUsed t = djUsed s := by simp only [djUsed, djWords, otpWord, ho]
  rw [defectEntries, genInUse_congr ho hb, hused, hd, defectEntries]
  simp only [hgen]

theorem regionLost_congr {s t : State} (ho : t.otp = s.otp) (hd : t.djOver = s.djOver) (hb : t.boot.fwHdr = s.boot.fwHdr) (r : Nat) :
    regionLost t r = regionLost s r := by rw [regionLost, defectEntries_congr ho hd hb, regionLost]

/-- R421: `t` is `s` after regions have been powered: the cores' work stays, as does all that the defect map is made of, and what
is powered stays powered. -/
structure Powered (s t : State) : Prop where
  cores : t.cores = s.cores
  lost : ∀ r, regionLost t r = regionLost s r
  power : ∀ r < 16, rfld s (rPW (0x100 + 4 * r)) 0 2 = 2 → rfld t (rPW (0x100 + 4 * r)) 0 2 = 2
  active : ∀ k, (tileOf s k).tier = .active → (tileOf t k).tier = .active

namespace Powered

theorem refl (s : State) : Powered s s := ⟨rfl, fun _ => rfl, fun _ _ h => h, fun _ h => h⟩

theorem trans {s t u : State} (h1 : Powered s t) (h2 : Powered t u) : Powered s u :=
  ⟨h2.cores.trans h1.cores, fun r => (h2.lost r).trans (h1.lost r), fun r hr h => h2.power r hr (h1.power r hr h),
    fun k h => h2.active k (h1.active k h)⟩

end Powered

/-- R180, R421: a tile comes up active with its wells scrubbed. -/
def tileUp (s : State) (t : Nat) : State := putTile (scrubTile s t) t { tileOf (scrubTile s t) t with tier := .active }

/-- R421: a region's supply is on. -/
def regionOn (s : State) (r : Nat) : State := rsetf (rsetf s (rPW (0x100 + 4 * r)) 0 2 2) (rPW (0x100 + 4 * r)) 3 1 0

theorem regionUp_eq (s : State) (r : Nat) : regionUp s r = (regionTiles r).foldl tileUp (regionOn s r) := rfl

theorem foldl_scrubWell_eq (s : State) (ls : List Nat) : ∃ m p, ls.foldl scrubWell s = { s with mem := m, wellPoison := p } :=
  List.foldlRecOn (motive := fun u : State => ∃ m p, u = { s with mem := m, wellPoison := p }) ls scrubWell ⟨_, _, rfl⟩
    fun u hu l _ => by
      obtain ⟨_, _, rfl⟩ := hu
      exact ⟨_, _, rfl⟩

theorem powered_tileUp (s : State) (t : Nat) : Powered s (tileUp s t) ∧ (tileOf (tileUp s t) t).tier = .active := by
  obtain ⟨m, p, h⟩ := foldl_scrubWell_eq s (span (t * 256) 256)
  have hup : tileUp s t = putTile { s with mem := m, wellPoison := p } t { tileOf s t with tier := .active } := by
    rw [tileUp, scrubTile, h]
    rfl
  have hsame : (tileOf (tileUp s t) t).tier = .active := by
    rw [hup, show ∀ (u : State) x, tileOf (putTile u t x) t = x from fun _ _ => fget_fset_same ..]
  refine ⟨⟨by rw [hup]; rfl, fun r => ?_, fun r _ h => by rw [hup]; exact h, fun k hk => ?_⟩, hsame⟩
  · exact regionLost_congr (by rw [hup]; rfl) (by rw [hup]; rfl) (by rw [hup]; rfl) r
  · by_cases hkt : k = t
    · rw [hkt]
      exact hsame
    · rw [hup, show ∀ (u : State) x, tileOf (putTile u t x) k = tileOf u k from fun _ _ => fget_fset_ne hkt ..]
      exact hk

theorem powered_foldl_tileUp (s : State) (ts : List Nat) : Powered s (ts.foldl tileUp s) ∧
    ∀ t ∈ ts, (tileOf (ts.foldl tileUp s) t).tier = .active := by
  induction ts generalizing s with
  | nil => exact ⟨.refl s, fun _ h => absurd h List.not_mem_nil⟩
  | cons t r ih =>
    obtain ⟨hstep, hactive⟩ := powered_tileUp s t
    obtain ⟨hrest, hall⟩ := ih (tileUp s t)
    rw [List.foldl_cons]
    refine ⟨hstep.trans hrest, fun k hk => ?_⟩
    rcases List.mem_cons.mp hk with rfl | hk
    · exact hrest.active _ hactive
    · exact hall k hk

theorem powered_regionOn (s : State) (r : Nat) : Powered s (regionOn s r) ∧ rfld (regionOn s r) (rPW (0x100 + 4 * r)) 0 2 = 2 := by
  have hsame : rfld (regionOn s r) (rPW (0x100 + 4 * r)) 0 2 = 2 := by
    rw [regionOn, rfld_rsetf_apart _ _ (by omega) (by omega), rfld_rsetf_same _ _ (by omega)]
    rfl
  have heq : regionOn s r = { s with regs := (regionOn s r).regs } := rsetf_of_regs (rsetf_of_regs rfl _ _ _ _) _ _ _ _
  refine ⟨⟨by rw [heq], fun q => regionLost_congr (by rw [heq]) (by rw [heq]) (by rw [heq]) q, fun q _ hq => ?_, fun k hk => by rw [heq]; exact hk⟩,
    hsame⟩
  by_cases hqr : q = r
  · rw [hqr]
    exact hsame
  · have hne : rPW (0x100 + 4 * q) ≠ rPW (0x100 + 4 * r) := by unfold rPW; omega
    rw [regionOn, rfld_rsetf_ne hne, rfld_rsetf_ne hne]
    exact hq

/-- R421: a region is powered. -/
def regionPowered (s : State) (r : Nat) : Prop :=
  rfld s (rPW (0x100 + 4 * r)) 0 2 = 2 ∧ ∀ t ∈ regionTiles r, (tileOf s t).tier = .active

theorem Powered.regionPowered {s t : State} (h : Powered s t) {r : Nat} (hr : r < 16) (hp : regionPowered s r) : regionPowered t r :=
  ⟨h.power r hr hp.1, fun k hk => h.active k (hp.2 k hk)⟩

theorem powered_regionUp (s : State) (r : Nat) : Powered s (regionUp s r) ∧ (r < 16 → regionPowered (regionUp s r) r) := by
  obtain ⟨hon, hpower⟩ := powered_regionOn s r
  obtain ⟨htiles, hactive⟩ := powered_foldl_tileUp (regionOn s r) (regionTiles r)
  rw [regionUp_eq]
  exact ⟨hon.trans htiles, fun hr => ⟨htiles.power r hr hpower, hactive⟩⟩

/-- R421: a region that is not lost comes up where its supply is in regulation. -/
theorem powered_startRegion (s : State) (r : Nat) : Powered s (startRegion s (.inRegulation, r)) ∧
    (r < 16 → regionLost s r = false → regionPowered (startRegion s (.inRegulation, r)) r) := by
  unfold startRegion
  split
  · next h => exact ⟨.refl s, fun hr hl => by simp [hl] at h; omega⟩
  · obtain ⟨hup, hpow⟩ := powered_regionUp s r
    exact ⟨hup, fun hr _ => hpow hr⟩

theorem powered_startRegions {es : List (RegionStart × Nat)} (hes : ∀ e ∈ es, e.1 = .inRegulation) (s : State) :
    Powered s (es.foldl startRegion s) ∧
    ∀ e ∈ es, e.2 < 16 → regionLost s e.2 = false → regionPowered (es.foldl startRegion s) e.2 := by
  induction es generalizing s with
  | nil => exact ⟨.refl s, fun _ h => absurd h List.not_mem_nil⟩
  | cons e r ih =>
    obtain ⟨x, k⟩ := e
    obtain rfl : x = .inRegulation := hes _ List.mem_cons_self
    obtain ⟨hstep, hpow⟩ := powered_startRegion s k
    obtain ⟨hrest, hall⟩ := ih (fun e he => hes e (List.mem_cons_of_mem _ he)) (startRegion s (.inRegulation, k))
    refine ⟨hstep.trans hrest, fun e he h16 hl => ?_⟩
    rcases List.mem_cons.mp he with rfl | he
    · exact hrest.regionPowered h16 (hpow h16 hl)
    · exact hall e he h16 ((hstep.lost _).trans hl)

/-- R410, R421: a module that need not cool down powers its regions. -/
theorem powerRegions_spec {s : State} (hd : stepDue s 5 = true) {hottest : Nat} (hc : s.boot.tripHold = false ∨ hottest < 85)
    {regions : List RegionStart} (hx : ∀ x ∈ regions, x = .inRegulation) :
    rfld (powerRegions regions hottest s) 0x108 0 4 = 5 ∧ (powerRegions regions hottest s).cores = s.cores ∧
    ∀ r < 16, r < regions.length → regionLost s r = false → regionPowered (powerRegions regions hottest s) r := by
  have hdef : powerRegions regions hottest s =
      stepDone (regions.zipIdx.foldl startRegion (rsetf (modBoot s fun b => { b with tripHold := false }) 0x108 6 1 0)) 5 :=
    (if_neg (by simp [hd])).trans (if_neg (by rcases hc with hc | hc <;> simp [hc]))
  have hlost (r : Nat) : regionLost (rsetf (modBoot s fun b => { b with tripHold := false }) 0x108 6 1 0) r = regionLost s r :=
    regionLost_congr (s := s) (by rfl) (by rfl) (by rfl) r
  obtain ⟨hall, hpow⟩ := powered_startRegions (es := regions.zipIdx) (fun e he => hx _ (List.fst_mem_of_mem_zipIdx he))
    (rsetf (modBoot s fun b => { b with tripHold := false }) 0x108 6 1 0)
  rw [hdef]
  refine ⟨rfld_stepDone_step .., (stepDone_cores ..).trans hall.cores, fun r hr hlen hl => ?_⟩
  obtain ⟨hpower, hactive⟩ := hpow (regions[r], r) (List.mk_mem_zipIdx_iff_getElem?.mpr (List.getElem?_eq_getElem hlen)) hr
    ((hlost r).trans hl)
  refine ⟨(rfld_stepDone_ne _ _ (by unfold rPW; omega) ..).trans hpower, fun t ht => ?_⟩
  rw [tileOf, stepDone_tiles]
  exact hactive t ht

/-! ## Step 6 (R422) -/

/-- R422: the lanes of a port that failed their training. -/
def failingLanes (lanes : List PortLanes) (n : Nat) : List Nat :=
  ((lanes.filter fun e => e.port == n).flatMap (·.failing)).eraseDups.filter (· < 9)

/-- R422: AK_STAT of a port with at most one failing lane. -/
def laneShown (lanes : List PortLanes) (s : State) (n : Nat) : Prop :=
  rfld s (rAK n 0) 2 4 = (if failingLanes lanes n = [] then 9 else 8) ∧ rfld s (rAK n 0) 6 1 = (if failingLanes lanes n = [] then 0 else 1)

/-- R422: `t` is `s` after ports have been trained: their registers apart, nothing changes. -/
structure PortsTrained (s t : State) : Prop where
  mem : t.mem = s.mem
  cores : t.cores = s.cores
  boot : t.boot = s.boot

section
variable {lanes : List PortLanes} {s : State} {n : Nat} (hn : (failingLanes lanes n).length < 2)
include hn

/-- R422: the training of a port. -/
theorem trainPort_good (hf : rfld s (rAK n 0) 0 2 ≠ 3) : trainPort lanes s n = rsetf (rsetf
    (putPort s n { portOf s n with laneBad := failingLanes lanes n, spareUsed := !(failingLanes lanes n).isEmpty }) (rAK n 0) 2 4
      (if !(failingLanes lanes n).isEmpty then 8 else 9)) (rAK n 0) 6 1 (!(failingLanes lanes n).isEmpty).toNat :=
  (if_neg (by simpa using hf)).trans (if_neg (Nat.not_le.mpr hn))

theorem trainPort_frame : PortsTrained s (trainPort lanes s n) ∧
    ∀ k, k ≠ n → rget (trainPort lanes s n) (rAK k 0) = rget s (rAK k 0) := by
  by_cases hf : rfld s (rAK n 0) 0 2 = 3
  · rw [show trainPort lanes s n = s from if_pos (by simp [hf])]
    exact ⟨⟨rfl, rfl, rfl⟩, fun _ _ => rfl⟩
  · rw [trainPort_good hn hf]
    refine ⟨⟨?_, ?_, ?_⟩, fun k hk => ?_⟩
    · rw [rsetf_mem, rsetf_mem, putPort_mem]
    · rw [rsetf_cores, rsetf_cores, putPort_cores]
    · rw [rsetf_boot, rsetf_boot, putPort_boot]
    · have hne : rAK k 0 ≠ rAK n 0 := by unfold rAK; omega
      rw [rget_rsetf_ne hne, rget_rsetf_ne hne]
      rfl

theorem laneShown_trainPort (hf : rfld s (rAK n 0) 0 2 ≠ 3) : laneShown lanes (trainPort lanes s n) n := by
  rw [trainPort_good hn hf]
  refine ⟨?_, ?_⟩
  · rw [rfld_rsetf_apart _ _ (by omega) (by omega), rfld_rsetf_same _ _ (by omega)]
    cases failingLanes lanes n <;> rfl
  · rw [rfld_rsetf_same _ _ (by omega)]
    cases failingLanes lanes n <;> rfl

end

/-- R422: the ports below `n` are trained, and those from `n` on are as they were. -/
theorem trainPorts_spec {lanes : List PortLanes} (s : State) {n : Nat} (hb : ∀ k < n, (failingLanes lanes k).length < 2) :
    PortsTrained s ((List.range n).foldl (trainPort lanes) s) ∧
    (∀ k < n, rfld s (rAK k 0) 0 2 ≠ 3 → laneShown lanes ((List.range n).foldl (trainPort lanes) s) k) ∧
    ∀ k, n ≤ k → rget ((List.range n).foldl (trainPort lanes) s) (rAK k 0) = rget s (rAK k 0) := by
  induction n with
  | zero => exact ⟨⟨rfl, rfl, rfl⟩, fun k hk => absurd hk (Nat.not_lt_zero k), fun _ _ => rfl⟩
  | succ n ih =>
    obtain ⟨hall, hdone, hleft⟩ := ih fun k hk => hb k (by omega)
    rw [List.range_succ, List.foldl_append, List.foldl_cons, List.foldl_nil]
    generalize (List.range n).foldl (trainPort lanes) s = t at hall hdone hleft
    obtain ⟨hframe, hother⟩ := trainPort_frame (s := t) (hb n (by omega))
    refine ⟨⟨hframe.mem.trans hall.mem, hframe.cores.trans hall.cores, hframe.boot.trans hall.boot⟩, fun k hk hf => ?_,
      fun k hk => (hother k (by omega)).trans (hleft k (by omega))⟩
    by_cases hkn : k = n
    · subst hkn
      exact laneShown_trainPort (hb k (by omega)) (by rw [rfld, hleft k (le_refl k)]; exact hf)
    · obtain ⟨hwidth, hspare⟩ := hdone k (by omega) hf
      exact ⟨by rw [rfld, hother k hkn]; exact hwidth, by rw [rfld, hother k hkn]; exact hspare⟩

theorem trainLinks_spec {s : State} (hd : stepDue s 6 = true) {lanes : List PortLanes} (hb : ∀ k < 64, (failingLanes lanes k).length < 2)
    (hw : CarrierLink.wellHead 0 ∉ s.boot.linksDown) :
    rfld (trainLinks [] lanes s) 0x108 0 4 = 6 ∧ (trainLinks [] lanes s).mem = s.mem ∧ (trainLinks [] lanes s).cores = s.cores ∧
    ∀ n < 64, rfld s (rAK n 0) 0 2 ≠ 3 → laneShown lanes (trainLinks [] lanes s) n := by
  obtain ⟨hall, hdone, -⟩ := trainPorts_spec s hb
  have hdef : trainLinks [] lanes s = stepDone ((List.range 64).foldl (trainPort lanes) s) 6 := by
    refine (if_neg (by simp [hd])).trans (if_neg ?_)
    rw [List.foldl_nil, hall.boot]
    simp [hw]
  rw [hdef]
  refine ⟨rfld_stepDone_step .., (stepDone_mem ..).trans hall.mem, (stepDone_cores ..).trans hall.cores, fun n hn hf => ?_⟩
  obtain ⟨hwidth, hspare⟩ := hdone n hn hf
  have hne : rAK n 0 ≠ 0x108 := by unfold rAK; omega
  exact ⟨(rfld_stepDone_ne _ _ hne ..).trans hwidth, (rfld_stepDone_ne _ _ hne ..).trans hspare⟩

/-! ## Step 7 (R225, R226) -/

/-- R225: `t` is `s` after channels have taken their redirections again. -/
structure Redirected (s t : State) : Prop where
  mem : t.mem = s.mem
  cores : t.cores = s.cores
  boot : t.boot = s.boot
  queue : ∀ c, (chanSt t c).queue = (chanSt s c).queue

theorem Redirected.trans {s t u : State} (h1 : Redirected s t) (h2 : Redirected t u) : Redirected s u :=
  ⟨h2.mem.trans h1.mem, h2.cores.trans h1.cores, h2.boot.trans h1.boot, fun c => (h2.queue c).trans (h1.queue c)⟩

theorem redirected_rebuildPerm (s : State) (c : Nat) : Redirected s (rebuildPerm s c) := by
  have hcount (t : State) : Redirected t (countSpares t c) := by
    unfold countSpares
    dsimp only
    refine ⟨by rw [rsetf_mem, rsetf_mem], by rw [rsetf_cores, rsetf_cores], by rw [rsetf_boot, rsetf_boot], fun k => ?_⟩
    rw [chanSt, rsetf_chans, rsetf_chans]
    rfl
  refine Redirected.trans ?_ (hcount _)
  refine ⟨rfl, rfl, rfl, fun k => ?_⟩
  by_cases hk : k = c
  · subst hk
    rw [show ∀ (u : State) x, chanSt (putChan u k x) k = x from fun _ _ => fget_fset_same ..]
  · rw [show ∀ (u : State) x, chanSt (putChan u c x) k = chanSt u k from fun _ _ => fget_fset_ne hk ..]

theorem redirected_rebuildPerms (s : State) (cs : List Nat) : Redirected s (cs.foldl rebuildPerm s) :=
  List.foldlRecOn cs rebuildPerm ⟨rfl, rfl, rfl, fun _ => rfl⟩ fun _ ht c _ => ht.trans (redirected_rebuildPerm _ c)

/-- R226: without a queued row there is nothing to repair. -/
theorem foldl_repairQueued {s : State} (h : ∀ c, (chanSt s c).queue = []) (u cs : List Nat) : cs.foldl (repairQueued u) s = s := by
  induction cs with
  | nil => rfl
  | cons c r ih =>
    have hstep : repairQueued u s c = s := by rw [repairQueued, h c]
    rw [List.foldl_cons, hstep, ih]

theorem trainMem_spec {s : State} (hd : stepDue s 7 = true) (hq : ∀ c, (chanSt s c).queue = []) :
    rfld (trainMem [] [] s) 0x108 0 4 = 7 ∧ (trainMem [] [] s).selfRefresh = false ∧ (trainMem [] [] s).boot.past7 = true ∧
    (trainMem [] [] s).mem = s.mem ∧ (trainMem [] [] s).cores = s.cores := by
  have hall := redirected_rebuildPerms s (List.range 384)
  have hrepair := foldl_repairQueued (fun c => (hall.queue c).trans (hq c)) [] (List.range 384)
  have hdef : trainMem [] [] s = stepDone { (List.range 384).foldl rebuildPerm s with
      selfRefresh := false
      boot := { ((List.range 384).foldl rebuildPerm s).boot with past7 := true } } 7 := by
    refine (if_neg (by simp [hd])).trans ?_
    dsimp only [List.foldl_nil]
    rw [hrepair]
  rw [hdef]
  generalize (List.range 384).foldl rebuildPerm s = t at hall
  refine ⟨rfld_stepDone_step .., ?_, ?_, (stepDone_mem ..).trans hall.mem, (stepDone_cores ..).trans hall.cores⟩
  · rw [stepDone_selfRefresh]
  · rw [stepDone_boot]

end Sys2Proof.Machine
end

section
/-! PROOFS. Bring-up: steps 8 to 10 (R423, R424, R426) and O50. -/

namespace Sys2Proof.Machine

/-! ## Step 8 (R423) -/

/-- R423: memory stays, and a tile that is fenced stays fenced. -/
structure MapKept (s t : State) : Prop where
  mem : t.mem = s.mem
  fenced : ∀ k, (tileOf s k).fenced = true → (tileOf t k).fenced = true

namespace MapKept

theorem of_tiles {s t : State} (hm : t.mem = s.mem) (ht : t.tiles = s.tiles) : MapKept s t :=
  ⟨hm, fun k hk => by rw [tileOf, ht]; exact hk⟩

theorem refl (s : State) : MapKept s s := of_tiles rfl rfl

theorem trans {s t u : State} (h1 : MapKept s t) (h2 : MapKept t u) : MapKept s u :=
  ⟨h2.mem.trans h1.mem, fun k hk => h2.fenced k (h1.fenced k hk)⟩

theorem foldl {α : Type} {f : State → α → State} (hf : ∀ s a, MapKept s (f s a)) (l : List α) (s : State) : MapKept s (l.foldl f s) :=
  List.foldlRecOn l f (refl s) fun t ht a _ => ht.trans (hf t a)

end MapKept

theorem noted.mapKept {s t : State} (h : noted s t) : MapKept s t := .of_tiles h.mem h.tiles

section
variable (s : State)

theorem mapKept_rput (o v : Nat) : MapKept s (rput s o v) := .of_tiles rfl rfl

theorem mapKept_rsetf (o lo w v : Nat) : MapKept s (rsetf s o lo w v) := .of_tiles rfl rfl

theorem mapKept_putTile {t : Nat} {x : TileSt} (h : (tileOf s t).fenced = true → x.fenced = true) : MapKept s (putTile s t x) := by
  refine ⟨rfl, fun k hk => ?_⟩
  by_cases hkt : k = t
  · subst hkt
    rw [show tileOf (putTile s k x) k = x from fget_fset_same ..]
    exact h hk
  · rw [show tileOf (putTile s t x) k = tileOf s k from fget_fset_ne hkt ..]
    exact hk

theorem mapKept_portOut (n : Nat) : MapKept s (portOut s n) := (mapKept_rsetf ..).trans (mapKept_rsetf ..)

theorem mapKept_mapTile (t : Nat) : MapKept s (mapTile s t) := mapKept_putTile s fun _ => rfl

theorem mapKept_mapRegion (r : Nat) : MapKept s (mapRegion s r) := by
  have hout : MapKept s (rsetf (regionOut s r) 0x800C r 1 1) :=
    ((mapKept_rsetf s ..).trans (mapKept_rsetf ..)).trans (mapKept_rsetf ..)
  refine (hout.trans (.foldl (fun s t => ?_) _ _)).trans (noted_raiseReason ..).mapKept
  exact (mapKept_mapTile s t).trans (mapKept_portOut ..)

/-- Table 18.4: each kind of entry keeps the fences that stand. -/
theorem mapKept_mapEntry (w : Nat) : MapKept s (mapEntry s w) := by
  unfold mapEntry
  split
  · unfold mapCore
    split
    · exact .refl s
    · exact mapKept_rput ..
  · exact mapKept_putTile s id
  · exact mapKept_mapTile ..
  · exact mapKept_mapRegion ..
  · dsimp only
    split
    · exact .refl s
    · refine .trans ?_ (mapKept_rsetf ..)
      exact .of_tiles rfl rfl
  · unfold mapChan
    split
    · exact .refl s
    · exact (mapKept_rsetf ..).trans (mapKept_rsetf ..)
  · dsimp only
    refine .trans ?_ (mapKept_rsetf ..)
    exact .of_tiles rfl rfl
  · exact mapKept_portOut ..
  · dsimp only
    split
    · exact .refl s
    · exact .of_tiles rfl rfl
  · exact .refl s

/-- R423: the assignment of wells and cores keeps them too. -/
theorem mapKept_assignTile (t : Nat) : MapKept s (assignTile s t) := by
  have hcores (s : State) (f : State → Nat → State) (hf : ∀ s p, f s p = s ∨ ∃ v, f s p = rput s (rPcore t p) v) (l : List Nat) :
      MapKept s (l.foldl f s) := .foldl (fun s p => by
    rcases hf s p with h | ⟨v, h⟩
    · rw [h]
      exact .refl s
    · rw [h]
      exact mapKept_rput ..) l s
  unfold assignTile
  dsimp only
  have hsummary : ∀ u, MapKept s u → MapKept s (coreSummary u t) := fun u hu => hu.trans (mapKept_rput ..)
  split
  · refine .trans (hsummary _ (.trans (mapKept_putTile s ?_) (hcores _ _ (fun s p => ?_) _))) (noted_raiseReason ..).mapKept
    · exact id
    · split
      · exact .inl rfl
      · split <;> exact .inr ⟨_, rfl⟩
  · refine hsummary _ (.trans (mapKept_putTile s ?_) (hcores _ _ (fun s p => ?_) _))
    · exact id
    · split
      · exact .inl rfl
      · split <;> exact .inr ⟨_, rfl⟩

theorem noted_mapReasons : noted s (mapReasons s) := by
  have hports (s : State) : noted s (portReason s) := by
    unfold portReason
    split
    · exact (noted_raiseReason ..).trans (noted_countHealth _)
    · exact noted_countHealth s
  have hcounts : noted s (portReason (countChans (showOtp s))) :=
    ((noted_rput s (by decide) _).trans (noted_countChans _)).trans (hports _)
  unfold mapReasons
  dsimp only
  split
  · exact hcounts.trans (noted_raiseReason ..)
  · exact hcounts

end

/-- Table 18.4: an entry of kind 2 fences its tile, and it stays fenced. -/
theorem fenced_mapEntries {s : State} {ws : List Nat} {w : Nat} (hw : w ∈ ws) (hk : bitsAt w 27 4 = 2) :
    (tileOf (ws.foldl mapEntry s) (bitsAt w 21 6)).fenced = true := by
  obtain ⟨l, r, rfl⟩ := List.append_of_mem hw
  rw [List.foldl_append, List.foldl_cons]
  refine (MapKept.foldl mapKept_mapEntry r _).fenced _ ?_
  have hentry (s : State) : mapEntry s w = mapTile s (bitsAt w 21 6) := by simp only [mapEntry, hk]
  rw [hentry, mapTile, show ∀ (u : State) k x, tileOf (putTile u k x) k = x from fun _ _ _ => fget_fset_same ..]

/-- R423: wells, cores and detours are assigned after the entries. -/
theorem mapKept_assignTiles (s : State) (ts : List Nat) : MapKept s (mapReasons (writeDetours (ts.foldl assignTile s))) := by
  have hdetours (u : State) : MapKept u (writeDetours u) := .of_tiles rfl rfl
  exact ((MapKept.foldl mapKept_assignTile ts s).trans (hdetours _)).trans (noted_mapReasons _).mapKept

theorem buildMap_unreadable {s : State} (hd : stepDue s 8 = true) (hg : genInUse s = none) : buildMap s = stepFail s 0xF604 :=
  (if_neg (by simp [hd])).trans (if_pos (by simp [hg]))

theorem buildMap_spec {s : State} (hd : stepDue s 8 = true) (hg : genInUse s ≠ none) : rfld (buildMap s) 0x108 0 4 = 8 ∧
    (buildMap s).mem = s.mem ∧ ∀ w ∈ defectEntries s, bitsAt w 27 4 = 2 → (tileOf (buildMap s) (bitsAt w 21 6)).fenced = true := by
  have hdef : buildMap s = stepDone (mapReasons (writeDetours ((List.range 64).foldl assignTile
      ((defectEntries s).foldl mapEntry s)))) 8 := (if_neg (by simp [hd])).trans (if_neg (by simpa using hg))
  have hentries : MapKept s ((defectEntries s).foldl mapEntry s) := .foldl mapKept_mapEntry ..
  have hrest := mapKept_assignTiles ((defectEntries s).foldl mapEntry s) (List.range 64)
  rw [hdef]
  refine ⟨rfld_stepDone_step .., (stepDone_mem ..).trans (hentries.trans hrest).mem, fun w hw hk => ?_⟩
  rw [tileOf, stepDone_tiles]
  exact hrest.fenced _ (fenced_mapEntries hw hk)

/-! ## Step 9 (R424) -/

section
variable {t p : Nat} (ht : t < 64) (hp : p < 264)
include ht hp

omit ht in
/-- R83: the adoption of a well by another core leaves a core's state. -/
theorem pcoreState_adopt (s : State) {q : Nat} (hq : q ≠ p) (w : Nat) : pcoreState (adopt s t q w) t p = pcoreState s t p := by
  have hsum : rPcore t p ≠ rTL t 0x2000 := by unfold rPcore rTL; omega
  have hne : rPcore t p ≠ rPcore t q := by unfold rPcore rTL; omega
  unfold adopt coreSummary
  dsimp only
  rw [pcoreState, rfld, rget_rput_ne hsum]
  exact (rfld_rsetf_ne hne ..).trans ((rfld_rsetf_ne hne ..).trans (rfld_rsetf_ne hne ..))

/-- R424: a core that fails its test is fenced. -/
theorem pcoreState_katCore {s : State} (h2 : pcoreState s t p ≠ 2) (hf : (tileOf s t).fenced = false) :
    pcoreState (katCore s t p) t p = 2 := by
  obtain ⟨hset, -⟩ := setPcore_spec ht hp s (b := 2) (cause := 4) (by omega) (by omega)
  have hbig : 0x9000 ≤ rPcore t p := by unfold rPcore rTL; omega
  have hgo : ¬(63 < t || 263 < p || pcoreState s t p == 2 || (tileOf s t).fenced) = true := by simp [h2, hf]; omega
  unfold katCore
  rw [if_neg hgo]
  dsimp only
  split
  · exact hset
  · split
    · next q hq =>
      have hspare := List.find?_some (p := fun q => pcoreState (setPcore s t p 2 4) t q == 1) hq
      rw [beq_iff_eq] at hspare
      rw [pcoreState_adopt hp _ (by rintro rfl; omega), hset]
    · have hput (u : State) (x : TileSt) : pcoreState (putTile u t x) t p = pcoreState u t p := rfl
      rw [pcoreState, (noted_raiseReason ..).rfld_eq hbig]
      exact (hput ..).trans hset

end

/-! ## Step 10 (R426, R452) -/

/-- R426: `t` is `s` after the memory map, the clock plan and the port groups have started. -/
def fnsRestarted (s t : State) : Prop := ∃ r m, t = { s with regs := r, boot := { s.boot with margin := m } }

namespace fnsRestarted

theorem refl (s : State) : fnsRestarted s s := ⟨_, _, rfl⟩

theorem trans {s t u : State} (h1 : fnsRestarted s t) (h2 : fnsRestarted t u) : fnsRestarted s u := by
  obtain ⟨_, _, rfl⟩ := h1
  obtain ⟨_, _, rfl⟩ := h2
  exact ⟨_, _, rfl⟩

theorem foldl {α : Type} {f : State → α → State} (hf : ∀ s a, fnsRestarted s (f s a)) (l : List α) (s : State) :
    fnsRestarted s (l.foldl f s) := List.foldlRecOn l f (refl s) fun t ht a _ => ht.trans (hf t a)

end fnsRestarted

theorem fnsRestarted_rsetf (s : State) (o lo w v : Nat) : fnsRestarted s (rsetf s o lo w v) := ⟨_, _, rfl⟩

/-- R227, R290, R422: channels retire, and ports come up. -/
theorem fnsRestarted_each (c : State → Nat → Bool) (o : Nat → Nat) (v : Nat) (l : List Nat) (s : State) :
    fnsRestarted s (l.foldl (fun s k => if c s k then rsetf s (o k) 0 2 v else s) s) :=
  .foldl (fun s k => by
    split
    · exact fnsRestarted_rsetf ..
    · exact .refl s) l s

section
variable (s : State)

theorem fnsRestarted_retireChans : fnsRestarted s (retireChans s) := fnsRestarted_each (fun s c => chanState s c == 1) rChan 2 _ s

theorem fnsRestarted_margins : fnsRestarted s (onWork s 2) := ⟨_, _, rfl⟩

theorem fnsRestarted_portsTrain : fnsRestarted s (startWork s 3) :=
  fnsRestarted_each (fun s n => portEnabled s n && rfld s (rAK n 0) 0 2 == 0) (rAK · 0) 1 _ s

theorem fnsRestarted_portsUp : fnsRestarted s (portsUp s) := fnsRestarted_each (fun s n => rfld s (rAK n 0) 0 2 == 1) (rAK · 0) 2 _ s

theorem fnsRestarted_setFnState (f v : Nat) : fnsRestarted s (setFnState s f v) := fnsRestarted_rsetf ..

end

/-- R426 point 2: the memory map, the clock plan and the port groups start. -/
def fnsBegun (s : State) : State := onWork (startWork (onWork (onWork (setFnState (setFnState (setFnState s 1 2) 2 2) 3 2) 1) 2) 3) 3

theorem fnsRestarted_fnsBegun (s : State) : fnsRestarted s (fnsBegun s) := by
  have hstates := ((fnsRestarted_setFnState s 1 2).trans (fnsRestarted_setFnState _ 2 2)).trans (fnsRestarted_setFnState _ 3 2)
  have hmargins := (hstates.trans (fnsRestarted_retireChans _)).trans (fnsRestarted_margins _)
  exact (hmargins.trans (fnsRestarted_portsTrain _)).trans (fnsRestarted_portsUp _)

/-- R426 point 3: functions that were ON are ON again, those that were STARTING start. -/
def fnsResumed (on start : List Nat) (s : State) : State :=
  (start.filter fun f => f == 0 || 3 < f).foldl (fun s f => beginStart s f {})
    (if on.contains 0 then resumeCascade (setFnState ((on.filter (3 < ·)).foldl (fun s f => setFnState s f 2) s) 0 2)
     else (on.filter (3 < ·)).foldl (fun s f => setFnState s f 2) s)

theorem restartFns_eq (s : State) : restartFns s = fnsResumed s.boot.fnOn s.boot.fnStart (fnsBegun s) := rfl

theorem fnsResumed_none (s : State) : fnsResumed [] [] s = s := rfl

/-- R452: a bank on trial is GOOD when bring-up ends. -/
theorem bankState_trialGood {s : State} {k : Nat} (ht : s.boot.trialRun = some k) (hb : flashByte s (bankBase k) = 0x7F) :
    bankState (trialGood s) k = 2 := by
  have hbyte : flashByte (trialGood s) (bankBase k) = 0x3F := by
    rw [trialGood, ht]
    refine (cellGet_cellSet_same ..).trans ?_
    rw [hb]
    rfl
  rw [bankState, hbyte]
  rfl

theorem trialGood_frame (s : State) : (trialGood s).boot.cxlUp = s.boot.cxlUp ∧ (trialGood s).casc = s.casc := by
  unfold trialGood
  split <;> exact ⟨rfl, rfl⟩

/-- R426: bring-up ends without a warm reset before it, the link down and no cascade. -/
theorem finishBringup_spec {s : State} (hd : stepDue s 10 = true) (hw : s.boot.lastWarm = false) (h1 : s.boot.fnOn = [])
    (h2 : s.boot.fnStart = []) (hup : s.boot.cxlUp = false) (ha : s.casc.active = false) :
    rfld (finishBringup [] s) 0x108 0 4 = 10 ∧ ∀ k, s.boot.trialRun = some k → flashByte s (bankBase k) = 0x7F →
      bankState (finishBringup [] s) k = 2 := by
  have hbegun : restartFns s = fnsBegun s := by rw [restartFns_eq, h1, h2, fnsResumed_none]
  obtain ⟨r, m, hfns⟩ := fnsRestarted_fnsBegun s
  rw [← hbegun] at hfns
  have hdef : finishBringup [] s = stepDone (trialGood (modBoot (restartFns s) fun b => { b with fnOn := [], fnStart := [] })) 10 := by
    obtain ⟨hlink, hcasc⟩ := trialGood_frame (modBoot (restartFns s) fun b => { b with fnOn := [], fnStart := [] })
    have hlink' : (stepDone (trialGood (modBoot (restartFns s) fun b => { b with fnOn := [], fnStart := [] })) 10).boot.cxlUp = false := by
      rw [stepDone_boot]
      refine hlink.trans ?_
      rw [hfns]
      exact hup
    have hcasc' : (stepDone (trialGood (modBoot (restartFns s) fun b => { b with fnOn := [], fnStart := [] })) 10).casc.active = false := by
      rw [stepDone_casc, hcasc, hfns]
      exact ha
    have hrun : ¬(!(stepDue s 10)) = true := by simp [hd]
    unfold finishBringup
    rw [if_neg hrun, if_neg (by simp [hw])]
    dsimp only
    rw [hlink', if_neg Bool.false_ne_true]
    exact if_pos (by rw [hcasc']; rfl)
  rw [hdef]
  refine ⟨rfld_stepDone_step .., fun k ht hb => ?_⟩
  rw [bankState_congr (stepDone_flash ..)]
  refine bankState_trialGood ?_ ?_
  · rw [hfns]
    exact ht
  · rw [hfns]
    exact hb

/-! ## The remaining commands (R419, R424, R428, R429) -/

section
variable {s : State}

/-- R419: the command takes no step but the third. -/
theorem bringCmd_waits {t : Nat} (hb : rfld s 0x108 4 1 = 0) (hf : rfld s 0x108 5 1 = 0) (h1 : 1 ≤ t) (h10 : t ≤ 10)
    (ht : rfld s 0x108 0 4 < t) (h : rfld s 0x108 0 4 ≠ 2 ∨ s.boot.rim = false) : bringCmd t s = bringTaken s t := by
  obtain ⟨-, hstep, -⟩ := rfld_bringTaken (s := s) (t := t)
  rw [bringCmd_taken hb hf h1 h10 ht]
  refine takeSource_idle ?_
  rcases h with h | h
  · refine Bool.eq_false_iff.mpr fun hd => ?_
    obtain ⟨-, -, -, hthird, -⟩ := stepDue_iff.mp hd
    omega
  · exact stepDue_rimLost (by omega) h

theorem knownAnswerRun_due (hd : stepDue s 9 = true) (fails : List KatUnit) :
    exec (.knownAnswerRun fails) s = .next (publish s (stepDone (fails.foldl katFail s) 9)) :=
  shown_eq (f := fun s => if stepDue s 9 then stepDone (fails.foldl katFail s) 9 else s) (if_pos hd)

/-- R428: a beat of firmware that runs. -/
theorem beat_runs (h : fwRuns s = true) : rget64 (beat s) 0x124 = (rget64 s 0x124 + 1) % 2 ^ 64 ∧ rfld (beat s) 0x120 4 4 = 0 ∧
    beat s = { s with regs := (beat s).regs, boot := { s.boot with beatSeen := true } } := by
  have hbeat : beat s = rsetf (modBoot (rput64 s 0x124 (rget64 s 0x124 + 1)) fun b => { b with beatSeen := true }) 0x120 4 4 0 :=
    if_neg (by simp [h])
  obtain ⟨hcount, hmissed⟩ := beat_spec (s := s)
  rw [hbeat]
  refine ⟨hcount, hmissed, ?_⟩
  generalize rget64 s 0x124 + 1 = n
  exact rsetf_of_regs (s := { s with boot := { s.boot with beatSeen := true } }) rfl ..

/-- R428, R429: at the limit of missed beats the watchdog asks for a warm reset. -/
theorem watchdog_missed_spec (ha : s.boot.wdogArmed = true) (hb : s.boot.beatSeen = false) (hp : s.boot.resetPending = none) :
    rfld (watchdog s) 0x120 4 4 = min 15 (rfld s 0x120 4 4 + 1) ∧ (watchdog s).mem = s.mem ∧ (watchdog s).cores = s.cores ∧
    (if rfld s 0x120 0 4 ≠ 0 ∧ rfld s 0x120 0 4 ≤ min 15 (rfld s 0x120 4 4 + 1) then
      (watchdog s).boot.resetPending = some .warm ∧ rfld (watchdog s) 0x114 0 8 = 4 else (watchdog s).boot = s.boot) := by
  obtain ⟨hcount, -⟩ := rfld_beatMissed (s := s)
  rw [watchdog_missed ha hb]
  split
  · obtain ⟨hpending, hcause, hframe⟩ := (resetAsked_requestReset (beatMissed s) .warm (b := 2) (by omega)).1 hp
    refine ⟨?_, by rw [hframe]; rfl, by rw [hframe]; rfl, hpending, hcause⟩
    rw [← hcount, requestReset, show (beatMissed s).boot.resetPending = none from hp]
    exact rfld_rsetf_ne (by decide) ..
  · exact ⟨hcount, rfl, rfl, rfl⟩

end

end Sys2Proof.Machine

namespace Sys2Proof.Proofs
open Sys2Proof.Machine

/-- Settles O50, step by step: each step's rule, and `rfld_stepFail` where it fails. -/
theorem bringUp : Obligations.BringUp := by
  unfold Obligations.BringUp
  intro s v regions hottest lanes a b
  dsimp only
  refine ⟨⟨fun h => ?refused, fun hb hf h1 h10 ht h => ?taken, fun hb hf h10 h2 ht hr hp => ?third⟩,
    fun h1 hf hp => ⟨?bad, fun hi => ?unidentified, fun hi hb => ?identified⟩, fun t ht h => stepDue_rimLost ht h,
    fun hd => firmwareStart_none hd a b, fun hd hs => ⟨fun k hk => ?image, fun hk => ?noImage⟩, fun hd hs hm => firmwareStart_waits hd hs hm,
    fun hd => ?noPower, fun hd hh h85 => ?hot, fun hd hc hx => ?power, fun hd => ?noLinks, fun hd hl hw => ?links, fun hd hq => ?memory,
    fun hd => ⟨fun hg => ?unreadable, fun hg => ?map⟩, fun hd => ⟨?good, fun t p ht hp h2 hf => ?fenced⟩,
    fun hd hw h1 h2 hup ha => ?finish, fun h => ?noBeat, fun h => ?beat, fun h => ?unarmed, fun h hb => ?seen, fun h hb hp => ?missed⟩
  case refused => exact shown_eq (f := bringCmd _) (bringCmd_refused h)
  case taken => exact shown_eq (f := bringCmd _) (bringCmd_waits hb hf h1 h10 ht h)
  case third => exact ⟨_, rfl, bringCmd_third hb hf h10 h2 ht hr hp⟩
  case bad => exact ⟨_, shown_eq (f := selfTest false) (selfTest_bad h1 hf hp), rfld_stepFail s (by decide), stepFail_eq ..⟩
  case unidentified =>
    exact ⟨_, shown_eq (f := selfTest true) (selfTest_unidentified h1 hf hp hi), rfld_stepFail _ (by decide),
      (rfld_stepFail_step ..).trans (rfld_stepDone_step ..)⟩
  case identified =>
    exact ⟨_, shown_eq (f := selfTest true) ((selfTest_identified h1 hf hp hi).trans (selfTest_ends hb)), selfTest_ended s⟩
  case image =>
    obtain ⟨c, d, w, o, hopen⟩ := dataOpened_openData s (bankHead s k)
    have hrun := runImage_spec (openData s (bankHead s k)) (bankHead s k) (lt_two_of_bankOrder (List.mem_of_find?_eq_some hk))
    rw [show (openData s (bankHead s k)).flash = s.flash by rw [hopen], show (openData s (bankHead s k)).mem = s.mem by rw [hopen],
      ← startFlash_runs hk] at hrun
    exact ⟨_, firmwareStart_flash hd hs, hrun⟩
  case noImage =>
    refine ⟨_, firmwareStart_flash hd hs, ?_⟩
    rw [startFlash_none hk, noImage]
    exact ⟨rfld_stepFail _ (by decide), by rw [stepFail_boot]; rfl, by rw [stepFail_mem]; rfl⟩
  case noPower => exact shown_eq (f := powerRegions regions hottest) (if_pos (by simp [hd]))
  case hot => exact shown_eq (f := powerRegions regions hottest) ((if_neg (by simp [hd])).trans (if_pos (by simp [hh, h85])))
  case power => exact ⟨_, rfl, powerRegions_spec hd hc hx⟩
  case noLinks => exact shown_eq (f := trainLinks [] lanes) (if_pos (by simp [hd]))
  case links => exact ⟨_, rfl, trainLinks_spec hd hl hw⟩
  case memory => exact ⟨_, rfl, trainMem_spec hd hq⟩
  case unreadable => exact ⟨_, shown_eq (f := buildMap) (buildMap_unreadable hd hg), rfld_stepFail s (by decide)⟩
  case map => exact ⟨_, rfl, buildMap_spec hd hg⟩
  case good => exact ⟨_, knownAnswerRun_due hd [], rfld_stepDone_step .., stepDone_eq ..⟩
  case fenced =>
    have hne : rPcore t p ≠ 0x108 := by unfold rPcore rTL; omega
    exact ⟨_, knownAnswerRun_due hd [.core t p], rfld_stepDone_step .., (rfld_stepDone_ne _ _ hne ..).trans (pcoreState_katCore ht hp h2 hf)⟩
  case finish =>
    obtain ⟨hstep, hbank⟩ := finishBringup_spec hd hw h1 h2 hup ha
    exact ⟨_, rfl, hstep, beq_iff_eq.mpr hstep, fun k hk _ hb => hbank k hk hb⟩
  case noBeat => exact shown_eq (f := beat) (if_pos (by simp [h]))
  case beat => exact ⟨_, rfl, beat_runs h⟩
  case unarmed => exact shown_eq (f := watchdog) (watchdog_unarmed h)
  case seen => exact shown_eq (f := watchdog) (watchdog_beat h hb)
  case missed => exact ⟨_, rfl, watchdog_missed_spec h hb hp⟩

end Sys2Proof.Proofs
end
